-- ==== Sys2Proof/Word.lean ====
section
/-!
DEFINITION. The words the spec counts in, and the sparse tables that hold numbered units.
Bytes are 8 bits and multi-byte values are little-endian (00 R6); a general word is 32 bits.
-/

namespace Sys2Proof

/-- One byte. -/
abbrev Byte := BitVec 8

/-- A byte string, lowest address first. -/
abbrev Bytes := List (BitVec 8)

/-- A 32-bit register or operand. -/
abbrev Word := BitVec 32

/-- A 64-bit word: an instruction, a token, fabric time, a sequence word. -/
abbrev DWord := BitVec 64

/-- A table of numbered units: the listed entries in ascending index, every unlisted entry at its default. -/
abbrev Tab (α : Type) := List (Nat × α)

/-- The five engines of an Easel, by name (04 R101). -/
inductive EngId where
  | intake | blend | order | mask | outlet
deriving DecidableEq, Repr

/-- The engine ID of 04 R101. -/
def EngId.id : EngId → Nat
  | .intake => 0 | .blend => 1 | .order => 2 | .mask => 3 | .outlet => 4

/-- The engine with a given ID; IDs above 4 name none. -/
def EngId.ofId? : Nat → Option EngId
  | 0 => some .intake | 1 => some .blend | 2 => some .order | 3 => some .mask | 4 => some .outlet
  | _ => none

/-- The five engines in ascending ID. -/
def EngId.all : List EngId := [.intake, .blend, .order, .mask, .outlet]

end Sys2Proof
end

