-- ==== Sys2Proof/Syntax.lean ====
section
/-!
DEFINITION. The commands of Iczal: one constructor for each row of spec/opcode_table.json, in its order.
An engine instruction carries the bits [55:0] of its word (05 R138, R139); the opcode is the row's.
Host commands carry the function: their operands are in the slot it filled (14 R394).
Fabric messages carry the flow they came on: their fields are in the delivered frame. A `src` or `peer` is a 24-bit address,
plus 2^24 when it is a switch (09 R249 SKIND).
-/

namespace Sys2Proof

/-- Bits [55:0] of an instruction word (05 R138): everything below the opcode. -/
abbrev IWord := BitVec 56

/-- What a memory read reports (11 R307, R326): the channel is that of the sector; a Gesso slice is numbered apart. -/
inductive MemErr where
  | clean
  | corrected (channel : Nat)
  | uncorrected (channel : Nat)
  | gessoCorrected (slice : Nat)
  | gessoUncorrected (slice : Nat)
deriving DecidableEq, Repr

/-- The registers of a port that 09 R237 governs. -/
inductive PortReg where
  | portCfg
  | lportCfg (k : Nat)
  | lpeer (k : Nat)
deriving DecidableEq, Repr

/-- Why a link goes down (09 R247). The replay budget and ENABLE are judged from State. -/
inductive DownCause where
  | replayBudget | fecLoss | lcrcSilence | disabled
deriving DecidableEq, Repr

/-- The causes of Grisaille mode, with the codes 1 to 3 of 12 R363. -/
inductive GrisCause where
  | compute | hbmLoss | thermal
deriving DecidableEq, Repr

/-- Why a channel is mapped out at run time (11 R311). -/
inductive MapCause where
  | ueLimit | interfaceFailed | hostWrite | stackFailure
deriving DecidableEq, Repr

/-- What becomes of a frame that has been received: it is handled, with what `assoc` says of a transit tile, or an uncorrectable error of the
packet buffer or of a forwarding table meets it (12 R360). -/
inductive Reception where
  | sound (assoc : Option (Nat × Word × Nat))
  | spoilt
deriving DecidableEq, Repr

/-- The commands. Each constructor is one row of spec/opcode_table.json. -/
inductive Instr where
  /-- NOP: 05 R143: engine `e` of Easel `n` issues the word with bits [55:0] `w`. -/
  | nop (n : Nat) (e : EngId) (w : IWord)
  /-- END: 05 R143: engine `e` of Easel `n` issues the word with bits [55:0] `w`. -/
  | endStudy (n : Nat) (e : EngId) (w : IWord)
  /-- BR: 05 R143: engine `e` of Easel `n` issues the word with bits [55:0] `w`. -/
  | br (n : Nat) (e : EngId) (w : IWord)
  /-- LOOP: 05 R143: engine `e` of Easel `n` issues the word with bits [55:0] `w`. -/
  | loop (n : Nat) (e : EngId) (w : IWord)
  /-- WAIT: 05 R143: engine `e` of Easel `n` issues the word with bits [55:0] `w`. -/
  | wait (n : Nat) (e : EngId) (w : IWord)
  /-- SIGNAL: 05 R143: engine `e` of Easel `n` issues the word with bits [55:0] `w`. -/
  | signal (n : Nat) (e : EngId) (w : IWord)
  /-- PUSH: 05 R143: engine `e` of Easel `n` issues the word with bits [55:0] `w`. -/
  | push (n : Nat) (e : EngId) (w : IWord)
  /-- TAKE: 05 R143: engine `e` of Easel `n` issues the word with bits [55:0] `w`. -/
  | take (n : Nat) (e : EngId) (w : IWord)
  /-- CSET: 05 R143: engine `e` of Easel `n` issues the word with bits [55:0] `w`. -/
  | cset (n : Nat) (e : EngId) (w : IWord)
  /-- CADD: 05 R143: engine `e` of Easel `n` issues the word with bits [55:0] `w`. -/
  | cadd (n : Nat) (e : EngId) (w : IWord)
  /-- CMOV: 05 R143: engine `e` of Easel `n` issues the word with bits [55:0] `w`. -/
  | cmov (n : Nat) (e : EngId) (w : IWord)
  /-- KSET: 05 R143: engine `e` of Easel `n` issues the word with bits [55:0] `w`. -/
  | kset (n : Nat) (e : EngId) (w : IWord)
  /-- SMOVI: 05 R143: engine `e` of Easel `n` issues the word with bits [55:0] `w`. -/
  | smovi (n : Nat) (e : EngId) (w : IWord)
  /-- SALU: 05 R143: engine `e` of Easel `n` issues the word with bits [55:0] `w`. -/
  | salu (n : Nat) (e : EngId) (w : IWord)
  /-- SADDI: 05 R143: engine `e` of Easel `n` issues the word with bits [55:0] `w`. -/
  | saddi (n : Nat) (e : EngId) (w : IWord)
  /-- SMOV: 05 R143: engine `e` of Easel `n` issues the word with bits [55:0] `w`. -/
  | smov (n : Nat) (e : EngId) (w : IWord)
  /-- MODE: 05 R143: engine `e` of Easel `n` issues the word with bits [55:0] `w`. -/
  | mode (n : Nat) (e : EngId) (w : IWord)
  /-- SEED: 05 R143: engine `e` of Easel `n` issues the word with bits [55:0] `w`. -/
  | seed (n : Nat) (e : EngId) (w : IWord)
  /-- FCLR: 05 R143: engine `e` of Easel `n` issues the word with bits [55:0] `w`. -/
  | fclr (n : Nat) (e : EngId) (w : IWord)
  /-- EASEL_RETURN_IDLE: 04 R127. -/
  | easelReturnIdle (n : Nat)
  /-- SEM_RESOLVE: 04 R112: the semaphores of Easel `n` in this ACLK. -/
  | semResolve (n : Nat)
  /-- TOKEN_QUEUE_RESOLVE: 04 R116: the token queues of Easel `n` in this ACLK. -/
  | tokenQueueResolve (n : Nat)
  /-- WAIT_TIMEOUT: 04 R113, R117. -/
  | waitTimeout (n : Nat) (e : EngId)
  /-- STUDY_SWITCH: 04 R125. -/
  | studySwitch (n : Nat) (e : EngId)
  /-- RECV: 05 R147. -/
  | recv (n : Nat) (w : IWord)
  /-- LOAD: 05 R147. -/
  | load (n : Nat) (w : IWord)
  /-- LOAD_COMPLETION: 05 R142: operation `id` of Easel `n`, with what the memory reported. -/
  | loadCompletion (n : Nat) (id : Nat) (err : MemErr)
  /-- GATHER: 05 R147. -/
  | gather (n : Nat) (w : IWord)
  /-- GATHER_COMPLETION: 05 R142. -/
  | gatherCompletion (n : Nat) (id : Nat) (err : MemErr)
  /-- VLD: 05 R150. -/
  | vld (n : Nat) (w : IWord)
  /-- VST: 05 R150. -/
  | vst (n : Nat) (w : IWord)
  /-- VADD: 05 R150. -/
  | vadd (n : Nat) (w : IWord)
  /-- VSUB: 05 R150. -/
  | vsub (n : Nat) (w : IWord)
  /-- VMUL: 05 R150. -/
  | vmul (n : Nat) (w : IWord)
  /-- VFMA: 05 R150. -/
  | vfma (n : Nat) (w : IWord)
  /-- VMIN: 05 R150. -/
  | vmin (n : Nat) (w : IWord)
  /-- VMAX: 05 R150. -/
  | vmax (n : Nat) (w : IWord)
  /-- VDIV: 05 R150. -/
  | vdiv (n : Nat) (w : IWord)
  /-- VSQRT: 05 R150. -/
  | vsqrt (n : Nat) (w : IWord)
  /-- VCVT: 05 R150. -/
  | vcvt (n : Nat) (w : IWord)
  /-- VIADD: 05 R150. -/
  | viadd (n : Nat) (w : IWord)
  /-- VISUB: 05 R150. -/
  | visub (n : Nat) (w : IWord)
  /-- XCLR: 05 R152. -/
  | xclr (n : Nat) (w : IWord)
  /-- XADD: 05 R152. -/
  | xadd (n : Nat) (w : IWord)
  /-- XRND: 05 R152. -/
  | xrnd (n : Nat) (w : IWord)
  /-- XCNT: 05 R152. -/
  | xcnt (n : Nat) (w : IWord)
  /-- XST: 05 R152. -/
  | xst (n : Nat) (w : IWord)
  /-- XLD: 05 R152. -/
  | xld (n : Nat) (w : IWord)
  /-- BSFIT: 05 R152. -/
  | bsfit (n : Nat) (w : IWord)
  /-- BSMAX: 05 R152. -/
  | bsmax (n : Nat) (w : IWord)
  /-- THDR: 05 R152. -/
  | thdr (n : Nat) (w : IWord)
  /-- SORT: 05 R155. -/
  | sort (n : Nat) (w : IWord)
  /-- MERGE: 05 R155. -/
  | merge (n : Nat) (w : IWord)
  /-- TOPK: 05 R155. -/
  | topk (n : Nat) (w : IWord)
  /-- FSEL: 05 R156. -/
  | fsel (n : Nat) (w : IWord)
  /-- DENSE: 05 R156. -/
  | dense (n : Nat) (w : IWord)
  /-- CMPCT: 05 R156. -/
  | cmpct (n : Nat) (w : IWord)
  /-- FILT: 05 R156. -/
  | filt (n : Nat) (w : IWord)
  /-- RECS: 05 R156. -/
  | recs (n : Nat) (w : IWord)
  /-- TWRAP: 05 R156. -/
  | twrap (n : Nat) (w : IWord)
  /-- SEND: 05 R157. -/
  | send (n : Nat) (w : IWord)
  /-- SEND_COMPLETION: 05 R157, 07 R204: the oldest tile of the egress stage of Easel `n`. -/
  | sendCompletion (n : Nat)
  /-- STORE: 05 R157. -/
  | store (n : Nat) (w : IWord)
  /-- STORE_COMPLETION: 05 R149. -/
  | storeCompletion (n : Nat) (id : Nat)
  /-- SCATTER: 05 R157. -/
  | scatter (n : Nat) (w : IWord)
  /-- SCATTER_COMPLETION: 05 R149. -/
  | scatterCompletion (n : Nat) (id : Nat) (err : MemErr)
  /-- EASEL_LOW_POWER_ENTRY: 04 R132. -/
  | easelLowPowerEntry (n : Nat)
  /-- EASEL_WAKE: 04 R133. -/
  | easelWake (n : Nat)
  /-- EASEL_CTRL_WRITE: 04 R134: function `f` writes `v`. -/
  | easelCtrlWrite (f : Nat) (n : Nat) (v : Word)
  /-- INGRESS_STAGE_PLACE: 05 R148. -/
  | ingressStagePlace (n : Nat)
  /-- START_ENTRY_PUSH: 07 R203. -/
  | startEntryPush (n : Nat)
  /-- OPEN: 07 R186: effect point of the OPEN that function `f` has taken. -/
  | openCtx (f : Nat)
  /-- RESERVATION_GRANTED: 07 R191. -/
  | reservationGranted
  /-- OPEN_WAIT_EXPIRY: 07 R191: context `c`. -/
  | openWaitExpiry (c : Nat)
  /-- ROSTER: 07 R189. -/
  | roster (f : Nat)
  /-- COMMIT: 07 R193. -/
  | commit (f : Nat)
  /-- CLOSE: 07 R192. -/
  | close (f : Nat)
  /-- ABORT: 07 R192. -/
  | abort (f : Nat)
  /-- CMD_LOAD: 05 R161. -/
  | cmdLoad (f : Nat)
  /-- GROUP: 14 R448. -/
  | group (f : Nat)
  /-- START: 14 R397. -/
  | start (f : Nat)
  /-- BIND: 11 R322. -/
  | bind (f : Nat)
  /-- UNBIND: 14 R397. -/
  | unbind (f : Nat)
  /-- GRANT: 11 R325. -/
  | grant (f : Nat)
  /-- CIRCUIT: 09 R268. -/
  | circuit (f : Nat)
  /-- TEAR: 14 R397. -/
  | tear (f : Nat)
  /-- CAPTURE: 13 R374. -/
  | capture (f : Nat)
  /-- CAPTURE_CLEAR: 13 R376. -/
  | captureClear (f : Nat)
  /-- REPLAY: 13 R377. -/
  | replay (f : Nat)
  /-- REPLAY_FINISH: 13 R377. -/
  | replayFinish
  /-- HBM_RETRY: 11 R311. -/
  | hbmRetry (f : Nat)
  /-- ASSIGN: 14 R384. -/
  | assign (f : Nat)
  /-- ATTEST: 15 R418. -/
  | attest (f : Nat)
  /-- IMAGE_WRITE: 15 R416. -/
  | imageWrite (f : Nat)
  /-- CMD_NOP: 14 R397. -/
  | cmdNop (f : Nat)
  /-- COMMAND_TAKE: 14 R394. -/
  | commandTake (f : Nat)
  /-- RETIRE: 14 R402. -/
  | retire (f : Nat) (slot : Nat) (v : Word)
  /-- FTIME_LO_READ: 01 R29. -/
  | ftimeLoRead (f : Nat)
  /-- CMD_NEXT_LO_READ: 14 R404. -/
  | cmdNextLoRead (f : Nat)
  /-- REGISTER_WRITE: 00 R8, 14 R386-R391: a BAR0 write of `data` at offset `off`. -/
  | registerWrite (f : Nat) (off : Nat) (data : Bytes) (poisoned : Bool)
  /-- BAR2_ACCESS: 11 R388: a read of `len` bytes, or a write. -/
  | bar2Access (f : Nat) (off : Nat) (len : Nat) (wr : Option Bytes) (err : MemErr) (poisoned : Bool)
  /-- HBM_MAPOUT_WRITE: 11 R311. -/
  | hbmMapoutWrite (f : Nat) (v : Word)
  /-- DIARY_CTRL_FLUSH: 15 R423, R425. -/
  | diaryCtrlFlush (f : Nat) (v : Word)
  /-- GATE_ARM: 10 R303: a write of GATE_CTRL. -/
  | gateArm (f : Nat) (port : Nat) (v : Word)
  /-- SHAPE_CFG_WRITE: 10 R298: SHAPE_CFG, or SHAPE_BURST when `burst`. -/
  | shapeCfgWrite (f : Nat) (port : Nat) (vc : Nat) (burst : Bool) (v : Word)
  /-- SCHED_CFG_WRITE: 10 R296: SCHED_CFG, or QUANTUM of a VC. -/
  | schedCfgWrite (f : Nat) (port : Nat) (quantum : Option Nat) (v : Word)
  /-- BUF_LIMIT_WRITE: 10 R283. -/
  | bufLimitWrite (f : Nat) (port : Nat) (cls : Nat) (v : Word)
  /-- ROUTE_ENTRY_WRITE: 09 R255. -/
  | routeEntryWrite (f : Nat) (idx : Nat) (v : Word)
  /-- GROUP_ENTRY_VALID_WRITE: 09 R281: bytes 16 to 19 of entry `g`. -/
  | groupEntryValidWrite (f : Nat) (g : Nat) (v : Word)
  /-- PORT_CFG_WRITE: 09 R237. -/
  | portCfgWrite (f : Nat) (port : Nat) (reg : PortReg) (v : Word)
  /-- GESSO_MODE_WRITE: 11 R318. -/
  | gessoModeWrite (f : Nat) (hi : Bool) (v : Word)
  /-- DET_CTRL_WRITE: 13 R368. -/
  | detCtrlWrite (f : Nat) (v : Word)
  /-- APERTURE_WRITE: 14 R388. -/
  | apertureWrite (f : Nat) (v : Word)
  /-- ENTER: 07 R195: the oldest frame delivered from `src` on `vc`. -/
  | enter (src : Nat) (vc : Nat)
  /-- ENTER_WAIT_RELEASE: 07 R205. -/
  | enterWaitRelease (c : Nat)
  /-- HAIRLINE_ENTER: 07 R208: the oldest frame delivered from `src` on VC1. -/
  | hairlineEnter (src : Nat)
  /-- CONTRIBUTION_TILE: 07 R194. -/
  | contributionTile (src : Nat) (vc : Nat)
  /-- GEN_TIMEOUT: 07 R201. -/
  | genTimeout (c : Nat) (g : Word)
  /-- CHUNK_RETIRE: 07 R205. -/
  | chunkRetire (c : Nat) (g : Word) (k : Nat)
  /-- GENERATION_RETIRE: 07 R212. -/
  | generationRetire (c : Nat)
  /-- STAGE_CHECK: 08 R217: the oldest stage message delivered from switch `src`. -/
  | stageCheck (src : Nat)
  /-- CHECK_RESEND_TIMER: 08 R217. -/
  | checkResendTimer (c : Nat)
  /-- SUMMARY: 08 R223. -/
  | summary (src : Nat)
  /-- VERDICT: 08 R224. -/
  | verdict (src : Nat)
  /-- FAIL: 08 R225. -/
  | fail (src : Nat)
  /-- POSE_RELEASE: 08 R231. -/
  | poseRelease (c : Nat) (g : Word)
  /-- LINK_DOWN_TIMER: 09 R239: logical port `p`. -/
  | linkDownTimer (p : Nat)
  /-- TRAINING_SUCCESS: 09 R239. -/
  | trainingSuccess (p : Nat)
  /-- TRAINING_TIMEOUT: 09 R239. -/
  | trainingTimeout (p : Nat)
  /-- HELLO_SEND: 09 R239. -/
  | helloSend (p : Nat)
  /-- LINK_UP: 09 R242. -/
  | linkUp (p : Nat)
  /-- LINK_FLIT_SEND: 09 R244. -/
  | linkFlitSend (p : Nat)
  /-- LINK_FLIT: 09 R244: a received flit of 256 bytes. -/
  | linkFlit (p : Nat) (flit : Bytes)
  /-- DATA_FLIT: 09 R246. -/
  | dataFlit (p : Nat) (flit : Bytes)
  /-- ACK_TIMEOUT_RESEND: 09 R246. -/
  | ackTimeoutResend (p : Nat)
  /-- LINK_DOWN: 09 R247. -/
  | linkDown (p : Nat) (why : DownCause)
  /-- TIME_MEASURE: 01 R27, 09 R248: TREQ on logical port `p`. -/
  | timeMeasure (p : Nat)
  /-- FABRIC_TIME_TICK: 01 R26: one ACLK passes. -/
  | fabricTimeTick
  /-- FRAME_RECEIVE: 09 R257: the oldest whole frame received on `p`; `assoc` of a sound one names the context and generation of a
  transit tile, and one more than the rank it is for, 2^32 where it is a copy of a result for every rank (08 R221, R222), else 0. -/
  | frameReceive (p : Nat) (how : Reception)
  /-- LINK_HOLD_EXPIRY: 09 R261. -/
  | linkHoldExpiry (p : Nat) (vc : Nat)
  /-- EGRESS_DECISION: 10 R290: one CCLK of logical port `p`. -/
  | egressDecision (p : Nat)
  /-- GATE_ENTRY_BOUNDARY: 10 R300. -/
  | gateEntryBoundary (port : Nat)
  /-- GATE_SWITCH_OVER: 10 R303. -/
  | gateSwitchOver (port : Nat)
  /-- CSETUP: 09 R268-R269: the oldest circuit message that arrived on logical port `p`. -/
  | csetup (p : Nat)
  /-- CREADY: 09 R268-R269: the oldest circuit message that arrived on logical port `p`. -/
  | cready (p : Nat)
  /-- CFAIL: 09 R268-R269: the oldest circuit message that arrived on logical port `p`. -/
  | cfail (p : Nat)
  /-- CTEAR: 09 R268-R269: the oldest circuit message that arrived on logical port `p`. -/
  | ctear (p : Nat)
  /-- CBROKEN: 09 R268-R269: the oldest circuit message that arrived on logical port `p`. -/
  | cbroken (p : Nat)
  /-- CIRCUIT_TIMEOUT: 09 R268. -/
  | circuitTimeout (id : Nat)
  /-- TACK_ACK: 09 R274: the oldest transport acknowledgement received from `src`. -/
  | tackAck (src : Nat)
  /-- TACK_NAK: 09 R274: the oldest transport acknowledgement received from `src`. -/
  | tackNak (src : Nat)
  /-- TACK_RESET: 09 R274: the oldest transport acknowledgement received from `src`. -/
  | tackReset (src : Nat)
  /-- TACK_BUSY: 09 R274: the oldest transport acknowledgement received from `src`. -/
  | tackBusy (src : Nat)
  /-- TACK_GIVEUP: 09 R274: the oldest transport acknowledgement received from `src`. -/
  | tackGiveup (src : Nat)
  /-- RTO_EXPIRY: 09 R275: the flow with `peer` on `vc`. -/
  | rtoExpiry (peer : Nat) (vc : Nat)
  /-- ACK_SEND_TIMER: 09 R274: the flow with `peer` on `vc`. -/
  | ackSendTimer (peer : Nat) (vc : Nat)
  /-- FLOW_IDLE_EXPIRY: 09 R271: the flow with `peer` on `vc`. -/
  | flowIdleExpiry (peer : Nat) (vc : Nat)
  /-- SPAN_IDLE_END: 09 R277: the flow with `peer` on `vc`. -/
  | spanIdleEnd (peer : Nat) (vc : Nat)
  /-- ALIVE: 12 R333: the oldest ROSTER message delivered from `src`. -/
  | alive (src : Nat)
  /-- FENCE: 12 R339: the oldest ROSTER message delivered from `src`. -/
  | fence (src : Nat)
  /-- REJOIN: 12 R339: the oldest ROSTER message delivered from `src`. -/
  | rejoin (src : Nat)
  /-- HOST: 12 R353: the oldest ROSTER message delivered from `src`. -/
  | host (src : Nat)
  /-- LOST: 12 R352: the oldest ROSTER message delivered from `src`. -/
  | lost (src : Nat)
  /-- RERUN: 12 R351: the oldest ROSTER message delivered from `src`. -/
  | rerun (src : Nat)
  /-- RERUN_MERGE: 12 R351. -/
  | rerunMerge (c : Nat) (g : Word)
  /-- MEMBER_SILENT: 12 R338: endpoint address. -/
  | memberSilent (ep : Nat)
  /-- SWITCH_SILENCE: 12 R352. -/
  | switchSilence (c : Nat) (sw : Nat)
  /-- CHUNK_STALL: 12 R343. -/
  | chunkStall (c : Nat) (g : Word) (k : Nat)
  /-- CHUNK_PARKED: 12 R345. -/
  | chunkParked (c : Nat) (g : Word) (k : Nat)
  /-- CHUNK_RESUME: 12 R346. -/
  | chunkResume (c : Nat) (g : Word) (k : Nat)
  /-- HEALTH_DECAY: 12 R357. -/
  | healthDecay
  /-- EXPEL_TOKEN_ADD: 12 R358. -/
  | expelTokenAdd
  /-- GRISAILLE_ENTRY: 12 R360-R361. -/
  | grisailleEntry (cause : GrisCause)
  /-- RUNTIME_MAPOUT: 11 R311. -/
  | runtimeMapout (ch : Nat) (why : MapCause)
  /-- SPARE_TAKEOVER: 11 R312. -/
  | spareTakeover
  /-- BACKGROUND_SCRUB: 11 R326: what the scrub of one sector reported. -/
  | backgroundScrub (err : MemErr)
  /-- HBM_POWER_DOWN: 11 R328. -/
  | hbmPowerDown (h : Nat)
  /-- HBM_SELF_REFRESH_ENTRY: 11 R328. -/
  | hbmSelfRefreshEntry (h : Nat)
  /-- DIARY_FLUSH: 15 R425. -/
  | diaryFlush (cause : Nat)
  /-- DIARY_FLUSH_COMPLETE: 15 R425. -/
  | diaryFlushComplete
  /-- SYS_RST_L_LOW: 15 R408. -/
  | sysRstLow
  /-- BOOT: 15 R409: bit c of `hbm` is 1 when channel c trains and passes its test. -/
  | boot (hbm : Nat)
  /-- WARM_RST_L: 11 R327. -/
  | warmRst
  /-- VDD_AON_LOSS: 15 R408. -/
  | vddAonLoss
  /-- RAIL_FAULT: 16 R434. -/
  | railFault
  /-- PWR_FAIL_L: 15 R428. -/
  | pwrFail
  /-- PERST_L: 14 R383. -/
  | perst
  /-- FUNCTION_LEVEL_RESET: 14 R383. -/
  | functionLevelReset (f : Nat)
  /-- THERMAL_WARNING: 16 R440: the sensor reads `t`/256 degrees. -/
  | thermalWarning (sensor : Nat) (t : Int)
  /-- THERMAL_EMERGENCY: 16 R440. -/
  | thermalEmergency (sensor : Nat)
  /-- THERMTRIP: 16 R440. -/
  | thermtrip (sensor : Nat) (t : Int)
  /-- THROTTLE_UPDATE: 16 R439: the 13 readings, the mean package power and the VDD_CORE current of the last ms. -/
  | throttleUpdate (temps : List Int) (power : Nat) (current : Nat)
  /-- SMB_STATE: 15 R430. -/
  | smbState
  /-- SMB_IDENT: 15 R430. -/
  | smbIdent
  /-- SMB_TEMP: 15 R430. -/
  | smbTemp
  /-- SMB_POWER: 15 R430. -/
  | smbPower
  /-- SMB_ALERT: 15 R431: a read, or a write with its PEC good or bad. -/
  | smbAlert (wr : Option (Word × Bool))
  /-- SMB_DIARY: 15 R430: write of a SEQ, or read. -/
  | smbDiary (wr : Option (Word × Bool))
  /-- SMB_MRAM_READ: 15 R430: write of an address, or read. -/
  | smbMramRead (wr : Option (Word × Bool))
  /-- ALERT_RESPONSE: 15 R431. -/
  | alertResponse
  /-- VDD_AON_GOOD: 15 R407: SMB_ADDR as sampled. -/
  | vddAonGood (addr : Nat)
  /-- RAILS_IN_RANGE: 16 R434. -/
  | railsInRange
  /-- WARM_RST_L_RISE: 15 R408. -/
  | warmRstRise
  /-- PERST_L_RISE: 14 R382: PCIE_BIF as sampled. -/
  | perstRise (strap : Nat)
  /-- PWR_FAIL_L_RISE: 15 R428. -/
  | pwrFailRise
  /-- HOST_READ_COMPLETION: 14 R399: the bytes read, or a failed read. -/
  | hostReadCompletion (f : Nat) (data : Option Bytes)
  /-- NOR_PROGRAM_COMPLETE: 15 R416: the second host read, and whether the NOR reads back as programmed. -/
  | norProgramComplete (second : Option Bytes) (readback : Bool)
  /-- MSIX_UNMASK: 14 R406: a vector, or the whole function. -/
  | msixUnmask (f : Nat) (vec : Option Nat)
  /-- BAR0_ACCESS_REFUSED: 14 R387: a BAR0 read. -/
  | bar0AccessRefused (f : Nat) (off : Nat) (len : Nat)
deriving DecidableEq, Repr

end Sys2Proof
end

