-- ==== Sys2Proof/Decode.lean ====
section
/-!
DEFINITION. The words of spec/opcode_table.json. No row of the table gives a bit: the commands are events of the block's
inputs, and no word spells one.
-/

namespace Sys2Proof

/-- The command that a word of the table's bits spells. The table gives its rows no bits, so no word spells one. -/
def decodeTableWord (_nbits _w : Nat) : Option Instr := none

end Sys2Proof
end

