-- ==== Sys2Proof/Machine/Bytes.lean ====
section
/-!
DEFINITION. Little-endian bytes and bit fields (00 R6), and the sparse tables of State.
-/

namespace Sys2Proof.Machine

/-- The number a little-endian byte string spells (00 R6). -/
def le : Bytes → Nat
  | [] => 0
  | b :: bs => b.toNat + 256 * le bs

/-- `len` little-endian bytes of `n`. -/
def toLE : Nat → Nat → Bytes
  | 0, _ => []
  | len + 1, n => BitVec.ofNat 8 n :: toLE len (n / 256)

/-- The number a big-endian byte string spells (15 R411: the key and signature blocks). -/
def be (b : Bytes) : Nat := le b.reverse

/-- `len` big-endian bytes of `n`. -/
def toBE (len n : Nat) : Bytes := (toLE len n).reverse

/-- `len` bytes of `b` from offset `off`; bytes beyond its end are zero. -/
def slice (b : Bytes) (off len : Nat) : Bytes :=
  let t := (b.drop off).take len
  t ++ List.replicate (len - t.length) 0#8

/-- The little-endian number in bytes `off` to `off + len - 1`. -/
def leAt (b : Bytes) (off len : Nat) : Nat := le (slice b off len)

/-- Field of `len` bits from bit `lo` of `x` (00 R6: bit 0 is least significant). -/
def fld (x lo len : Nat) : Nat := (x >>> lo) % 2 ^ len

/-- `x` with the `len` bits from bit `lo` set to `v`. -/
def setFld (x lo len v : Nat) : Nat :=
  x - (fld x lo len) * 2 ^ lo + (v % 2 ^ len) * 2 ^ lo

/-- The value of one bit. -/
def bitAt (x i : Nat) : Bool := x.testBit i

/-- 1 for yes and 0 for no (15 R449). -/
def b2n (b : Bool) : Nat := if b then 1 else 0

/-- `a / b` rounded up. -/
def ceilDiv (a b : Nat) : Nat := (a + b - 1) / b

/-- ⌈log2 n⌉, with 0 for 0 and 1 (05 R155). -/
def ceilLog2 (n : Nat) : Nat := if n ≤ 1 then 0 else Nat.log2 (n - 1) + 1

/-- `b` followed by zeros up to a multiple of `m` bytes. -/
def padTo (b : Bytes) (m : Nat) : Bytes :=
  b ++ List.replicate (ceilDiv b.length m * m - b.length) 0#8

/-- `b` with bytes `off` onward replaced by `v`. -/
def splice (b : Bytes) (off : Nat) (v : Bytes) : Bytes :=
  b.take off ++ v ++ b.drop (off + v.length)

/-- `n` zero bytes. -/
def zeros (n : Nat) : Bytes := List.replicate n 0#8

/-- The low `w` bits of `n` as a signed number. -/
def signed (w n : Nat) : Int :=
  if n % 2 ^ w < 2 ^ (w - 1) then (n % 2 ^ w : Nat) else ((n % 2 ^ w : Nat) : Int) - (2 ^ w : Nat)

/-- The two's-complement encoding of `i` in `w` bits. -/
def unsignedOf (w : Nat) (i : Int) : Nat := (i % (2 ^ w : Nat)).toNat

/-- Whether `b` is newer than `a` modulo 2^32, or equal: the distance of 07 R184. -/
def dist32 (a b : Nat) : Nat := (b + 2 ^ 32 - a % 2 ^ 32) % 2 ^ 32

/-! Sparse tables. -/

/-- Entry `k` of a table whose unlisted entries are `d`. -/
def tget {α : Type} (d : α) : Tab α → Nat → α
  | [], _ => d
  | (i, a) :: t, k => if i = k then a else if k < i then d else tget d t k

/-- The table with entry `k` set to `a`: rising indices are kept, and an entry equal to the default `d` is not listed. -/
def tset {α : Type} [DecidableEq α] (d : α) : Tab α → Nat → α → Tab α
  | [], k, a => if a = d then [] else [(k, a)]
  | (i, b) :: t, k, a =>
    if k < i then (if a = d then (i, b) :: t else (k, a) :: (i, b) :: t)
    else if i = k then (if a = d then t else (k, a) :: t)
    else (i, b) :: tset d t k a

/-- The listed entry `k`, when there is one. -/
def tget? {α : Type} : Tab α → Nat → Option α
  | [], _ => none
  | (i, a) :: t, k => if i = k then some a else if k < i then none else tget? t k

/-- The table with entry `k` listed as `a`, whatever the default. -/
def tput {α : Type} : Tab α → Nat → α → Tab α
  | [], k, a => [(k, a)]
  | (i, b) :: t, k, a =>
    if k < i then (k, a) :: (i, b) :: t
    else if i = k then (k, a) :: t
    else (i, b) :: tput t k a

/-- The table without entry `k`. -/
def tdel {α : Type} (t : Tab α) (k : Nat) : Tab α := t.filter (fun p => p.1 != k)

/-- The canonical form of a table: indices strictly rising, no entry equal to the default. -/
def tcanon {α : Type} [DecidableEq α] (d : α) : Tab α → Bool
  | [] => true
  | [(_, a)] => a != d
  | (i, a) :: (j, b) :: t => a != d && decide (i < j) && tcanon d ((j, b) :: t)

/-- Insert into a list kept in ascending order of `key`; an equal key goes after those present. -/
def insertBy {α : Type} (key : α → Nat) (x : α) : List α → List α
  | [] => [x]
  | y :: ys => if key x < key y then x :: y :: ys else y :: insertBy key x ys

/-- Stable sort by an ordering test: `before a b` says that `a` must stand before `b`. -/
def insertSort {α : Type} (before : α → α → Bool) (l : List α) : List α :=
  l.foldl (fun acc x => ins x acc) []
where
  ins (x : α) : List α → List α
    | [] => [x]
    | y :: ys => if before x y then x :: y :: ys else y :: ins x ys

/-- The smallest number of a list. -/
def minOf : List Nat → Option Nat
  | [] => none
  | a :: l => match minOf l with
    | none => some a
    | some b => some (min a b)

end Sys2Proof.Machine
end

