-- ==== Sys2Proof/Machine/StateEasel.lean ====
section
/-!
DEFINITION. The state of an Easel and of its five engines (04 R101-R137, 05 R148, R149, R157, 03 R67-R75).
-/

namespace Sys2Proof.Machine

/-- One lane of an exact register (03 R67, R70): the window and the six side bits. -/
structure Lane where
  w : BitVec 320 := 0
  side : BitVec 6 := 0
deriving DecidableEq, Repr

/-- A tile slot (03 R69, R73, R75): its 1,024 lanes (the empty list stands for lanes all cleared), the addend count,
the flags raised while its sums were formed, the format of the first intake, and whether an addend that is no integer has entered since
(R79). The spec gives X0-X15 no reset value: the default holds them cleared (DESIGN CHOICE, assumption 4). -/
structure Slot where
  lanes : List Lane := []
  count : Nat := 0
  flags : BitVec 7 := 0
  fmt : BitVec 5 := 0
  float : Bool := false
deriving DecidableEq, Repr

/-- The states an engine holds by itself (04 R137). FAULT is read from the Easel's stop (`Easel.stopAt`). `ended` is the
part of SWITCH before the start entry is taken (04 R125). -/
inductive EngSt where
  | idle | run | hold | ended | switch
deriving DecidableEq, Repr

/-- A study table entry (04 R123, R137) with the image it came from (05 R162, 13 R375) and its digest (13 R371). -/
structure Study where
  base : Nat := 0
  len : Nat := 0
  valid : Bool := false
  digest : Bytes := []
  image : Bytes := []
deriving DecidableEq, Repr

/-- A level of the loop stack (04 R120-R122). -/
structure Level where
  first : Nat
  last : Nat
  left : Nat
  idx : Nat
deriving DecidableEq, Repr

/-- A source of a comparator (04 R118, 05 R145). -/
inductive CmpSrc where
  | ctr (n : Nat)
  | scalar (n : Nat)
  | imm (v : Word)
deriving DecidableEq, Repr

/-- A comparator K0-K3: its relation (the codes 0 to 5 of 05 R145) and its two sources. -/
structure Cmp where
  rel : Nat := 0
  a : CmpSrc := .ctr 0
  b : CmpSrc := .ctr 0
deriving DecidableEq, Repr

/-- A start entry (04 R124), the cycle it arrived in, and whether it came from START (04 R125). -/
structure StartEntry where
  study : Nat
  ctx : Nat
  gen : Word
  chunk : Word
  a0 : Word
  a1 : Word
  a2 : Word
  a3 : Word
  arrived : Nat
  test : Bool
  pos : Nat := 0
deriving DecidableEq, Repr

/-- What an engine is held in (04 R106, R112, R116), and the cycle and PC of the instruction. -/
inductive HoldKind where
  | wait (sem : Nat) (amt : Nat)
  | take (sp : Nat)
  | push (target : EngId) (token : DWord)
deriving DecidableEq, Repr

structure Hold where
  kind : HoldKind
  since : Nat
  pc : Nat
deriving DecidableEq, Repr

/-- What a write that has been issued changes when it lands (04 R105, R107). -/
inductive Landing where
  | sreg (n : Nat) (v : Word)
  | creg (n : Nat) (v : Word)
  | kreg (n : Nat) (k : Cmp)
  | vreg (n : Nat) (v : BitVec 2048)
  | tray (a : Nat) (b : Bytes)
  | slot (q : Nat) (x : Slot)
  | fmode (rmode : BitVec 3) (flush : Bool)
  | seed (v : DWord)
  | flags (f : BitVec 7) (ctx : Nat) (gen : Word) (pos : Nat)
  | clear (f : BitVec 7)
  | promos (n : Nat) (ctx : Nat) (gen : Word) (key : Nat)
  | checkFail (point : Nat) (tile : Nat) (chunk : Nat) (check : Nat) (ctx : Nat) (gen : Word) (own : Nat)
  | sparseFail (tile : Nat) (check : Nat) (ctx : Nat) (gen : Word)
  | fieldFault (pc : Nat)
  | study (base : Nat)
  | noLoops
deriving DecidableEq, Repr

/-- A write on its way, with the cycle in which it lands and the cycle of its issue. -/
structure Pending where
  due : Nat
  what : Landing
  issued : Nat := 0
deriving DecidableEq, Repr

/-- The functional units with an occupancy (05 R147-R157). -/
inductive UnitId where
  | rx | div | xau | scale | order | mask | tx
deriving DecidableEq, Repr

/-- The record of the last engine fault (04 R127, R137). -/
structure FaultRec where
  cause : Nat := 0
  status : Nat := 0
  pc : Nat := 0
  valid : Bool := false
deriving DecidableEq, Repr

/-- One engine (04 R101). `ahead` holds the tokens of Iczal that have not yet found room in the token queue (12 R344). -/
structure Engine where
  imem : Tab DWord := []
  studies : Tab Study := []
  pc : Nat := 0
  st : EngSt := .idle
  study : Nat := 0
  s : Tab Word := []
  c : Tab Word := []
  k : Tab Cmp := []
  v : Tab (BitVec 2048) := []
  slots : Tab Slot := []
  loops : List Level := []
  rmode : BitVec 3 := 0
  flush : Bool := false
  fstat : BitVec 7 := 0
  seed : DWord := 0
  ctx : Nat := 0
  gen : Word := 0
  chunk : Word := 0
  lastChunk : Word := 0
  pos : Nat := 0
  test : Bool := false
  served : Option (Nat × Word) := none
  fault : FaultRec := {}
  wdog : Word := 0x100000
  startq : List StartEntry := []
  tokenq : List DWord := []
  tokenCycle : Nat := 0
  tokenFree : Nat := 16
  ahead : List DWord := []
  nextIssue : Nat := 0
  hold : Option Hold := none
  busy : List (UnitId × Nat) := []
  pend : List Pending := []
deriving DecidableEq, Repr

/-- A signal on its way to a semaphore of the Easel (04 R110, R131, 05 R142): the cycle it lands in, and its sender: Easel, engine
and PC of the SIGNAL, or of the instruction whose completion it is. -/
structure Sig where
  due : Nat
  sem : Nat
  amt : Nat
  sender : Nat × EngId × Nat
deriving DecidableEq, Repr

/-- The kinds of memory operation (05 R149). -/
inductive MemKind where
  | load | gather | store | scatter
deriving DecidableEq, Repr

/-- An outstanding memory operation (05 R142, R149): pieces of 32 bytes still to move, as (device address, Tray address)
for LOAD and GATHER; for STORE and SCATTER the bytes read at issue, by device address. `got` keeps, by Tray address, what a checked LOAD
has read, `grans` the granules it reaches; `spoilt`: a channel it had data to move on has failed (11 R311). -/
structure MemOp where
  id : Nat
  kind : MemKind
  eng : EngId
  pc : Nat
  sem : Nat
  check : Bool
  tray : Nat
  len : Nat
  todo : List (Nat × Nat)
  data : List (Nat × Bytes)
  ctx : Nat
  gen : Word
  chunk : Nat
  issued : Nat
  got : List (Nat × Bytes) := []
  spoilt : Option Nat := none
  grans : List Nat := []
deriving DecidableEq, Repr

/-- A tile on its way into an Easel (05 R148): its bytes, the generation it belongs to, where it came from (a rank, or a
node under `nodeKey`; and the flow's peer), the packet-buffer cells charged for it, and whether a start entry covers it. -/
structure InTile where
  bytes : Bytes
  ctx : Nat
  gen : Word
  chunk : Nat
  from' : Nat
  src : Nat
  vc : Nat
  cells : Nat
  covered : Bool := false
deriving DecidableEq, Repr

/-- A tile in the egress stage (05 R157). `test` says that no generation takes it: a test start entry sent it, or its chunk has been run
again since (12 R351). -/
structure OutTile where
  bytes : Bytes
  sel : Word
  sem : Nat
  ctx : Nat
  gen : Word
  chunk : Nat
  test : Bool
  pc : Nat
deriving DecidableEq, Repr

/-- Tray bytes written in cycle `at'`: by a higher-numbered engine than Intake, or by Intake's instruction issued in cycle `by'`
(04 R107). -/
structure Wrote where
  at' : Nat
  a : Nat
  len : Nat
  by' : Option Nat
deriving DecidableEq, Repr

/-- A failed check that takes effect at the end of cycle `at'`, unless an engine of the group faults in it (06 R177-R179). -/
structure BadCheck where
  at' : Nat
  sparse : Bool
  tile : Nat
  chunk : Nat
  check : Nat
  ctx : Nat
  gen : Word
  own : Nat
deriving DecidableEq, Repr

/-- A generation under way on an Easel (04 R114): the engines that took an entry of it and those that ended its last
chunk there. -/
structure Serving where
  ctx : Nat
  gen : Word
  started : List EngId
  ended : List EngId
deriving DecidableEq, Repr

/-- The power states (04 R132, R136). -/
inductive Power where
  | awake | doze | sleep
deriving DecidableEq, Repr

/-- One logical Easel. -/
structure Easel where
  eng : Tab Engine := []
  tray : Tab Byte := []
  sems : Tab Nat := []
  sigs : List Sig := []
  power : Power := .awake
  holdAwake : Bool := false
  dozeOnly : Bool := false
  idleDelay : Nat := 16
  idleSince : Nat := 0
  wakeBy : Option Nat := none
  faulted : Bool := false
  stopAt : Option Nat := none
  stopIsFault : Bool := false
  faultAt : Option Nat := none
  checks : List BadCheck := []
  wrote : List Wrote := []
  stage : List InTile := []
  waiting : List InTile := []
  egress : List OutTile := []
  ops : List MemOp := []
  nextOp : Nat := 0
  serving : List Serving := []
  owner : Nat := 0
deriving DecidableEq, Repr

end Sys2Proof.Machine
end

