-- ==== Sys2Proof/Machine/StateColl.lean ====
section
/-!
DEFINITION. The state of collectives (07, 08), of recovery (12) and of captures (13).
-/

namespace Sys2Proof.Machine

/-- A roster entry (07 R189) with the liveness of its epoch (12 R337), the epoch last fenced (12 R341), whether a REJOIN set it
(12 R336), and the reduction home (03 R85); `first` is the ENDPOINT that the roster was written with. -/
structure Rank where
  endpoint : Nat
  epoch : Nat
  live : Bool := true
  home : Nat := 0
  joined : Bool := false
  fenced : Nat := 0
  first : Nat := 0
deriving DecidableEq, Repr

/-- A data grant (11 R325): STATE 0 INVALID, 1 VALID, 2 LOST. -/
structure Grant where
  base : Nat := 0
  pages : Nat := 0
  st : Nat := 0
deriving DecidableEq, Repr

/-- An accepted ENTER (07 R194): bytes 0-59 and the endpoint it came from. -/
structure Entered where
  rank : Nat
  raw : Bytes
  src : Nat
deriving DecidableEq, Repr

/-- An input of a generation (13 R372): its key (stage, TILE, sender), CHECK, chunk and, for a capture, its bytes. -/
structure Input where
  stage : Nat
  tile : Nat
  sender : Nat
  check : Nat
  chunk : Nat
  bytes : Bytes
deriving DecidableEq, Repr

/-- A chunk in flight at this switch (07 R205, 12 R343-R348). `area` is the park area of its tracker entry (12 R344), `blended`
counts for each tile the tokens that Blend studies took for it (k of 12 R345), `promos` is its share of the generation's promotions (13 R373),
`came` gives the cycle in which its first tile entered the stage of each Easel (07 R203), `void` that its images are lost (11 R312), `runs` the failed runs of 06 R177. -/
structure Chunk where
  entry : Bool := false
  taken : List (Nat × Nat) := []
  partials : List (Nat × Nat) := []
  entered : List (Nat × Nat) := []
  pushed : List (Nat × EngId) := []
  ended : List (Nat × EngId) := []
  sent : List Nat := []
  promos : Nat := 0
  runs : Nat := 0
  stallAt : Option Nat := none
  parked : Bool := false
  parking : Bool := false
  parkOf : List (Nat × EngId) := []
  blended : List (Nat × Nat) := []
  came : List (Nat × Nat) := []
  area : Nat := 0
  void : Bool := false
  done : Bool := false
deriving DecidableEq, Repr

/-- The fields that a SUMMARY or VERDICT carries (08 R216): REF_RANK, OP, FORMAT, ELEMENTS, ROOT, SHIFT. -/
structure Fields where
  rank : Nat
  op : Nat
  fmt : Nat
  elements : Nat
  root : Nat
  shift : Nat
deriving DecidableEq, Repr

/-- The paths of 07 R206. -/
inductive Path where
  | hairline | tree | ring | direct
deriving DecidableEq, Repr

/-- What one position keeps for its Varnish record and its DONEs (13 R370, R373; 07 R211): the flag word, the promotions, ND, and the block
scales of the tiles it last sent (03 R95 CARRY), by tile. -/
structure PosNote where
  flags : BitVec 7 := 0
  promos : Nat := 0
  nd : Bool := false
  carry : List (Nat × Bytes) := []
deriving DecidableEq, Repr

/-- A generation in flight at this switch (07 R195-R212). Chunks are keyed by chunk number plus 2^32 for each position held
before theirs: the switch's own is position 0, hosted ones follow (03 R99). `again` counts the tiles discarded because their rank had
supplied them (12 R348), `staged` keeps partials of a ring stage that has not started here (08 R219): dimension, position, node, chunk
key, tile; `gather` copies of a stage of the all-gather that has not (R221): dimension, from node, to node, tile number, tile. `notes` is
kept for each position held, and so are `outputs`: position, stage, tile number, tile. `owed`: its failure is still to be reported in this
ACLK (04 R128). -/
structure Gen where
  num : Word
  ref : Entered
  enters : List Entered
  t0 : Nat
  path : Path
  failed : Option Nat := none
  failAt : Nat := 0
  differ : List Nat := []
  owed : Bool := false
  chunks : Tab Chunk := []
  verdict : Option (Nat × Fields) := none
  release : Option Nat := none
  posed : Bool := false
  summaries : List (Nat × Fields × Bool) := []
  summarised : List Nat := []
  inputs : List Input := []
  notes : Tab PosNote := []
  captured : Bool := false
  owing : List (Nat × Nat) := []
  delivered : List (Nat × Nat) := []
  again : Nat := 0
  staged : List (Nat × Nat × Nat × Nat × Bytes) := []
  gather : List (Nat × Nat × Nat × Nat × Bytes) := []
  outputs : List (Nat × Nat × Nat × Bytes) := []
  order : Nat := 0
  dones : Bool := false
deriving DecidableEq, Repr

/-- The states of a context (07 R192), with the codes 0 to 4. -/
inductive CtxSt where
  | free | granting | loading | ready | draining
deriving DecidableEq, Repr

/-- An ENTER that waits for G_low (07 R205). -/
structure WaitEnter where
  src : Nat
  vc : Nat
  body : Bytes
  cells : Nat
deriving DecidableEq, Repr

/-- A frame that waits until its switch is confirmed (08 R217): where it goes, VC, FTYPE, bucket tag, body, and whether the packet buffer
has room for it, so that it holds cells. -/
structure Held where
  sw : Nat
  vc : Nat
  ftype : Nat
  tag : Nat
  body : Bytes
  stored : Bool
deriving DecidableEq, Repr

/-- One context (07 R184, R189, R213, 08 R217, R227, 12 R352-R354). `held` keeps what waits for a neighbour's confirmation
(08 R217). `applied` lists the FENCEs, REJOINs and HOSTs applied here (12 R336): RTYPE, rank, epoch,
address. `kept` is the phase-one result of 08 R227: its generation, and tile number, address and length of each tile in the
reservation. `carry` lists block scales to be carried (03 R95) with the node that sent them and the tile. -/
structure Ctx where
  st : CtxSt := .free
  owner : Nat := 0
  tmpl : Bytes := []
  roster : Tab Rank := []
  written : List Nat := []
  grants : List Grant := []
  mib : Nat := 0
  window : Nat := 0
  sketchBase : Nat := 0
  gLow : Word := 0
  lastGen : Word := 0
  lastStat : Nat := 0
  lastValid : Bool := false
  hairMax : Nat := 0
  treeMax : Nat := 0
  poseLead : Nat := 0
  rosterDigest : Bytes := []
  fabricDigest : Bytes := []
  confirmed : List Nat := []
  checked : List Nat := []
  disagreed : Bool := false
  strictAtOpen : Bool := false
  checkSent : Nat := 0
  waits : List WaitEnter := []
  held : List Held := []
  lost : List (Nat × Option Nat) := []
  applied : List (Nat × Nat × Nat × Nat) := []
  kept : Option (Word × Nat × List (Nat × Nat × Nat)) := none
  carry : List (Nat × Nat × Bytes) := []
  replay : Bool := false
  baseAt : Option Nat := none
  gens : List Gen := []
deriving DecidableEq, Repr

/-- An OPEN that waits for its reservation (07 R191). -/
structure OpenWait where
  ctx : Nat
  accepted : Nat
  limit : Nat
deriving DecidableEq, Repr

/-- A Hairline accumulator (07 R209), of one position; `tile` is what BROADCAST moves. -/
structure Accum where
  ctx : Nat
  gen : Word
  pos : Nat
  tile : Option Bytes := none
  lanes : List Lane
  got : List Nat
  scales : List (Option Nat)
  promo : Nat
  sent : Bool := false
deriving DecidableEq, Repr

/-- An Easel group (01 R21-R24, 14 R448): base, log2 of its size, and the log2 sizes of its levels, innermost first. -/
structure Group where
  base : Nat
  log2 : Nat
  nest : List Nat
deriving DecidableEq, Repr

/-- A Palette binding (11 R321), its owner, and the 32 bytes of its layout. -/
structure Binding where
  raw : Bytes := []
  st : Nat := 0
  owner : Nat := 0
deriving DecidableEq, Repr

/-- The armed capture (13 R374). -/
structure Armed where
  ctx : Nat
  gen : Word
  first : Nat
  last : Nat
  owner : Nat
deriving DecidableEq, Repr

/-- A capture held in the region (13 R375): where it begins, how long it is, its state, and while its generation runs (`going`) what it
captures. -/
structure Capture where
  base : Nat
  len : Nat
  st : Nat
  ctx : Nat
  gen : Word
  first : Nat
  last : Nat
  owner : Nat
  pos : Nat := 0
  going : Bool := true
deriving DecidableEq, Repr

/-- A replay in progress (13 R377): its context, its output address, and the capture as it was read. -/
structure Replay where
  ctx : Nat
  out : Nat
  shuffle : Bool
  captured : Bytes
deriving DecidableEq, Repr

/-- RERUN ranges the anchor is merging (12 R351). -/
structure Merge where
  ctx : Nat
  gen : Word
  first : Nat
  last : Nat
  since : Nat
deriving DecidableEq, Repr

/-- The collective state of the switch. -/
structure Coll where
  ctxs : Tab Ctx := []
  opens : List OpenWait := []
  groups : List Group := []
  accums : List Accum := []
  bindings : Tab Binding := []
  hairMax : Nat := 256
  treeMax : Nat := 0x100000
  poseLead : Nat := 5000
  strict : Bool := false
  merges : List Merge := []
  heardSw : Tab Nat := []
  fencedSent : List (Nat × Nat) := []
  noted : List (Nat × Nat × Nat) := []
  armed : Option Armed := none
  captures : List Capture := []
  replays : List Replay := []
  nextRef : Nat := 0
deriving DecidableEq, Repr

end Sys2Proof.Machine
end

