-- ==== Sys2Proof/Machine/StateFabric.lean ====
section
/-!
DEFINITION. The state of links, routing, circuits, transport (09) and of the switch core (10).
-/

namespace Sys2Proof.Machine

/-- A frame (09 R249): the 32-byte header, bit 8k + b of it being bit b of byte k, and the body. -/
structure Frame where
  hdr : BitVec 256
  body : Bytes
deriving DecidableEq, Repr

/-- The account that a body's cells are charged to (10 R282). -/
inductive Account where
  | ingress (lport : Nat) (cls : Nat)
  | inject (vc : Nat)
  | hairline (lport : Nat) (cls : Nat)
  | none
deriving DecidableEq, Repr

/-- A body stored once for its copies (10 R288): the account, its cells, and the copies still waiting. -/
structure Stored where
  acct : Account
  cells : Nat
  copies : Nat
deriving DecidableEq, Repr

/-- A frame in an egress queue (10 R289): the stored body it refers to, the port it arrived on, whether it is a ring
entry (09 R259), whether it may be held (09 R261) and since when, and whether it was accepted before (09 R247). -/
structure Queued where
  frame : Frame
  body : Nat
  src : Option Nat
  entry : Bool
  group : Bool
  since : Nat
  requeued : Bool := false
deriving DecidableEq, Repr

/-- The link states of 09 R239, codes 0 to 4. -/
inductive LinkSt where
  | disabled | down | training | hello | up
deriving DecidableEq, Repr

/-- The HELLO last received from the peer (09 R240, R244). -/
structure Hello where
  versions : Nat
  address : Nat
  role : Nat
  dim : Nat
  dir : Nat
  endpoint : Bool
  epoch : Nat
deriving DecidableEq, Repr

/-- A flit in the replay buffer (09 R246), with the frame it belongs to. -/
structure Sent where
  lseq : Nat
  flit : Bytes
  frame : Nat
deriving DecidableEq, Repr

/-- A logical port (09 R236-R248, R280; 10 R289-R298). -/
structure LPort where
  cfg : BitVec 12 := 0
  peer : BitVec 24 := 0
  st : LinkSt := .disabled
  since : Nat := 0
  ver : Nat := 0
  epoch : Nat := 0
  hello : Option Hello := none
  helloAt : Option Nat := none
  helloNote : Tab Nat := []
  replays : Word := 0
  lcrcErr : Word := 0
  txSeq : Nat := 0
  txBuf : List Sent := []
  txFrames : List (Nat × Queued × Nat) := []
  nextFrame : Nat := 0
  ackAt : Nat := 0
  ackSeq : Option Nat := none
  resendAt : Option (Nat × Nat) := none
  rxSeq : Nat := 0
  rxPart : Option (Nat × Nat × Bytes) := none
  rxAny : Bool := false
  rxWant : Option Nat := none
  rxFrames : List (Frame × Nat × Account) := []
  rxVer : Nat := 0
  heard : Bool := false
  credit : Tab Nat := []
  sent : Tab Nat := []
  granted : Tab Nat := []
  used : Tab Nat := []
  events : List Nat := []
  goodAt : Nat := 0
  linkAt : Nat := 0
  report : Bool := false
  treq : Option Nat := none
  answer : Option (Nat × Nat) := none
  peerLocked : Bool := false
  peerDist : Nat := 255
  queues : Tab (List Queued) := []
  shaper : Tab Int := []
  deficit : Tab Nat := []
  cur : Option Nat := none
  clearDrr : Bool := false
  credited : List Nat := []
  busy : Nat := 0
deriving DecidableEq, Repr

/-- A gate list (10 R299): LEN and the entries (OPEN, DURATION). -/
structure GateList where
  len : Nat := 0
  ents : Tab (Nat × Nat) := []
deriving DecidableEq, Repr

/-- A physical port (09 R280, 10 R304, R305). -/
structure Port where
  cfg : BitVec 5 := 0
  sched : BitVec 20 := 2
  quantum : Tab Nat := []
  mark : Tab Nat := []
  shapeCfg : Tab (BitVec 18) := []
  burst : Tab Nat := []
  bufLimit : Tab Nat := []
  gateEn : Bool := false
  listA : GateList := {}
  listB : GateList := {}
  active : Bool := false
  gatePending : Bool := false
  late : Bool := false
  entry : Nat := 0
  t0 : Nat := 0
  switchAt : DWord := 0
  armedAt : DWord := 0
deriving DecidableEq, Repr

/-- A circuit (09 R267, R268): the 64 bits of its table entry, its source endpoint, and at the origin its owner and when
CSETUP was sent. -/
structure Circuit where
  ent : DWord := 0
  source : Nat := 0
  owner : Nat := 0
  sentAt : Nat := 0
deriving DecidableEq, Repr

/-- A frame that waits at its source in this switch (10 R286): destination, VC, FTYPE, body, bucket tag, whether it
ends a span with the given trailer, the port it takes where that is fixed and the frame whose route fields it carries (09 R268),
`again` where it is a retained frame that the transport sends once more (09 R275), and `stored` the body that it shares with the other
copies of a result (10 R288). -/
structure Orig where
  dest : Nat
  vc : Nat
  ftype : Nat
  body : Bytes
  bucket : Nat
  trailer : Option Bytes := none
  out : Option Nat := none
  route : Option Frame := none
  again : Option Frame := none
  stored : Option Nat := none
deriving DecidableEq, Repr

/-- A retained frame (09 R272, R275): when it was last sent, how often it was sent again, and the port it was given (09 R268). -/
structure Kept where
  frame : Frame
  at' : Nat
  resends : Nat := 0
  out : Option Nat := none
deriving DecidableEq, Repr

/-- The source side of a flow (09 R271, R272, R275): epoch, next SEQ, retained frames, the window granted (none before the first
TACK), and the open span: the last frame held back with its cycle, the bodies and the number of the frames sent. -/
structure FlowTx where
  epoch : Nat := 0
  seq : Nat := 0
  kept : List Kept := []
  window : Option Nat := none
  held : Option (Orig × Nat) := none
  spanBodies : Bytes := []
  spanCount : Nat := 0
deriving DecidableEq, Repr

/-- The destination side of a flow (09 R272-R278): epoch, SEQ expected, the window of its VC, the window that its last TACK
named, flits in ejection space, frames delivered and not acknowledged, the cells that these still hold, the SEQ last NAKed, CMARKs received since the last TACK, the
frames of an open span, and the ENTER that the next tiles belong to (07 R194). -/
structure FlowRx where
  epoch : Nat := 0
  seq : Nat := 0
  grant : Nat := 0
  told : Nat := 0
  inUse : Nat := 0
  unacked : Nat := 0
  unackedCells : Nat := 0
  unackedAt : Nat := 0
  naked : Option (Nat × Nat) := none
  echo : Nat := 0
  span : List Frame := []
  enter : Option (Option (Nat × Word × Nat)) := none
deriving DecidableEq, Repr

/-- A flow (09 R271), by peer and VC. A peer is its 24-bit address, plus 2^24 for a switch. -/
structure Flow where
  peer : Nat
  vc : Nat
  tx : Option FlowTx := none
  rx : Option FlowRx := none
  idleAt : Nat := 0
deriving DecidableEq, Repr

/-- A frame delivered to this switch and not yet consumed; `src` is a peer as in `Flow`. `assoc` names the generation of
a transit tile, and one more than the rank it is for, 2^32 for a copy of a result, or 0. `frame` is the frame of a circuit
message, whose route fields go on with it (09 R268). -/
structure Arrived where
  src : Nat
  vc : Nat
  ftype : Nat
  body : Bytes
  cells : Nat
  port : Option Nat
  assoc : Option (Nat × Word × Nat)
  frame : Option Frame := none
deriving DecidableEq, Repr

/-- The fabric state of the switch; `bucketCount` holds the per-tag frame counters of 08 R230, `badFlows` the flows (peer, VC) of
which a frame failed its check since the last delivery (09 R275). -/
structure Fabric where
  shape : Word := 0
  widths : Word := 0
  here : Word := 0
  rto : Nat := 250000
  maxRetx : Nat := 8
  linkHold : Nat := 10
  flowIdle : Nat := 1000
  rxWindow : Tab Nat := []
  ports : Tab Port := []
  lports : Tab LPort := []
  routes : Tab Word := []
  groups : Tab (BitVec 129) := []
  groupHeld : Tab (BitVec 128) := []
  circuits : Tab Circuit := []
  flows : List Flow := []
  inbox : List Arrived := []
  tacks : List Arrived := []
  outbox : List Orig := []
  bodies : Tab Stored := []
  nextBody : Nat := 0
  injected : Tab Nat := []
  ejected : Tab Nat := []
  ejectLimit : Tab Nat := []
  injectLimit : Tab Nat := []
  bucketCount : Tab Nat := []
  badFlows : List (Nat × Nat) := []
deriving DecidableEq, Repr

end Sys2Proof.Machine
end

