-- ==== Sys2Proof/Machine/StateHost.lean ====
section
/-!
DEFINITION. The state of the host interface (14), of memory (11), of the Diary, NOR and MRAM (15), and of power and
sensors (16).
-/

namespace Sys2Proof.Machine

/-- The device states of 14 R392, codes 0 to 5. -/
inductive DevSt where
  | off | aon | boot | hold | running | grisaille
deriving DecidableEq, Repr

/-- A command taken and not yet at its effect point (14 R394-R399): its slot, sequence word and operand bytes, the cycle of its
take, the host memory that is read for it, and what was read (`none` inside: the read failed). The completion of a command
taken before a reset of its function is not reported (14 R383): it is `quiet`. -/
structure Taken where
  slot : Nat
  seq : DWord
  bytes : Bytes
  at' : Nat
  wants : Option (Nat × Nat)
  got : Option (Option Bytes)
  quiet : Bool := false
deriving DecidableEq, Repr

/-- A command past its effect point that has not completed (14 R396): its slot and sequence, and what completes it. -/
inductive WaitsOn where
  | openOf (ctx : Nat)
  | freeOf (ctx : Nat)
  | circuit (id : Nat)
  | replay (ctx : Nat)
  | nor
deriving DecidableEq, Repr

structure Waiting where
  slot : Nat
  seq : DWord
  opcode : Byte
  irq : Bool
  on : WaitsOn
deriving DecidableEq, Repr

/-- A result slot (14 R400). -/
structure Result where
  gen : Word := 0
  st : Nat := 0
  status : Nat := 0
  opcode : Byte := 0
  payload : Bytes := []
  shown : Nat := 0
deriving DecidableEq, Repr

/-- One physical function (14 R383, R394-R406). `maxRead` and `maxPayload` are its Max Read Request and Max Payload sizes (R381, R399):
PRESUMED at the values that the PCI Express specification resets them to; `aer` is the Uncorrectable Error Status register of its Advanced
Error Reporting (R381; assumption 77). -/
structure Func where
  slots : Tab Byte := []
  results : Tab Result := []
  next : DWord := 1
  nextLatch : Option Word := none
  timeLatch : Option Word := none
  errSeq : Bool := false
  errSlot : Nat := 0
  errLast : Tab DWord := []
  intStatus : BitVec 16 := 0
  intEnable : BitVec 16 := 0
  intStart : BitVec 16 := 0
  intCleared : BitVec 16 := 0
  intEvents : BitVec 16 := 0
  aperture : BitVec 12 := 0
  msix : Tab (BitVec 128) := []
  msixMasked : Bool := true
  msixPend : BitVec 16 := 0
  taken : List Taken := []
  waits : List Waiting := []
  page : Nat := 0
  noted : Option Nat := none
  maxRead : Nat := 512
  maxPayload : Nat := 128
  aer : Word := 0
deriving DecidableEq, Repr

/-- Where the NOR programming of IMAGE_WRITE stands (15 R416). -/
structure NorJob where
  f : Nat
  haddr : Nat
  len : Nat
  digest : Bytes
deriving DecidableEq, Repr

/-- A line of the Gesso cache (11 R317): the granule it holds, and whether HBM is behind it. -/
structure Line where
  granule : Nat
  dirty : Bool := false
deriving DecidableEq, Repr

/-- Device memory (11 R313). `cells` is what any reader sees; `lines` keeps the cache's sets, the line used last in front. -/
structure Mem where
  cells : List Host.Cell := []
  layout : Word := 0
  capacity : Nat := 0
  inService : Nat := 0
  spares : Nat := 0
  failed : Nat := 0
  logical : List Nat := []
  takeover : List (Nat × Nat × Nat) := []
  kept : Bool := false
  excludePending : Bool := false
  lostHbm : Bool := false
  ce : Tab Word := []
  ue : Tab Word := []
  ueTimes : List (Nat × Nat) := []
  failTimes : List (Nat × Nat) := []
  ueLimit : Nat := 4
  awake : Bool := false
  idle : Nat := 1024
  scratch : DWord := 0
  lastAccess : Tab Nat := []
  powerSt : Tab Nat := []
  lines : Tab (List Line) := []
deriving DecidableEq, Repr

/-- An event for the Diary (15 R420): rule number, event of the rule, source class and index, status, payload words; with the
ACLK and the fabric time it fell in. -/
structure Event where
  cyc : Nat
  time : Nat
  unlocked : Bool
  rule : Nat
  ev : Nat
  cls : Nat
  idx : Nat
  status : Nat
  payload : List Nat
deriving DecidableEq, Repr

/-- The Diary (15 R420-R426). `busy`: the cause of the current flush and HEAD as it began; `copied`: the records it has copied. -/
structure Diary where
  recs : Tab Bytes := []
  head : Word := 0
  written : Bool := false
  queue : List Event := []
  lost : Word := 0
  lossMark : Bool := false
  gapMs : Nat := 1000
  slot : Nat := 15
  busy : Option (Nat × Nat) := none
  copied : Nat := 0
  pendingCause : Option Nat := none
  number : Nat := 0
  started : Bool := false
  lastEasel : Option Nat := none
deriving DecidableEq, Repr

/-- Throttle limits and curve (16 R438). Temperatures are in 1/256 degree. -/
structure Thermal where
  warnDie : Int := 24320
  emergDie : Int := 26880
  warnHbm : Int := 23040
  emergHbm : Int := 25600
  pLimit : Nat := 23000
  curve : List (Int × Nat) := [(23040, 191), (25600, 63)]
deriving DecidableEq, Repr

/-- Pins, rails, straps, sensors (16). `warmSeq`: the sequence of 11 R327 runs, `warmSpoiled`: PWR_FAIL_L fell in it; `cold`: the next
BOOT builds the channel map (11 R309). `share`: the dispatch share in 1/65,536, `powerHeld` while power limits it, `throttleAt`: the
cycle it was last set (16 R439). `temps`: 0 core die, 1-8 Frame dies, 9-12 stacks, in 1/256 degree. -/
structure Board where
  sysRst : Bool := true
  warmRst : Bool := true
  perst : Bool := true
  pwrFail : Bool := true
  rails : Bool := true
  aon : Bool := true
  bifStrap : Nat := 0
  smbAddr : Nat := 0
  warmSeq : Bool := false
  warmSpoiled : Bool := false
  cold : Bool := true
  temps : Tab Int := []
  warned : List Nat := []
  hotSince : Tab Nat := []
  emergency : Bool := false
  coolHold : Bool := false
  power : Nat := 0
  current : Nat := 0
  trip : Bool := false
  limits : Thermal := {}
  share : Nat := 65536
  powerHeld : Bool := false
  throttleAt : Nat := 0
  clock : Bool := true
deriving DecidableEq, Repr

/-- The fuse map (01 R19, 14 R389, 15 R414, R417). -/
structure Fuses where
  grade : Nat := 0
  stepping : Nat := 0
  serial : DWord := 0
  easels : List Nat := []
  keyHash : Bytes := []
  readable : Bool := true
deriving DecidableEq, Repr

/-- A power-fail log being written (15 R428): the Diary's events still to be recorded first, the cycle it began in, and once they are
recorded what is still to be written, in order. -/
structure LogJob where
  wait : Nat
  since : Nat
  todo : Option (List (Nat × Bytes)) := none
deriving DecidableEq, Repr

/-- Boot, NOR, MRAM and what they gave (15). `norAnswers` is false while the NOR answers no read (15 R415). -/
structure Boot where
  fuses : Fuses := {}
  cause : Nat := 0
  fw : Word := 0
  functions : BitVec 4 := 1
  imageDigest : Bytes := []
  tablesDigest : Bytes := []
  nor : List Host.Cell := []
  norAnswers : Bool := true
  norJob : Option NorJob := none
  mram : List Host.Cell := []
  logArmed : Bool := true
  logJob : Option LogJob := none
  reported : Nat := 0
  bootEntry : Nat := 0
  presented : Bool := false
  alert : BitVec 6 := 0
  smbSeq : Option Nat := none
  smbMram : Nat := 0
deriving DecidableEq, Repr

/-- Fabric time (01 R26-R29). -/
structure Clock where
  cycle : Nat := 0
  ftime : DWord := 0
  locked : Bool := false
  dist : Nat := 255
  error : Int := 0
  slewAt : Option Nat := none
  source : Option Nat := none
deriving DecidableEq, Repr

/-- Health and detection (12 R338, R357, R358, R363). -/
structure Health where
  score : Tab Nat := []
  impaired : List Nat := []
  lastFrame : Tab Nat := []
  detectMs : Nat := 50
  silenceMs : Nat := 100
  hold : Nat := 25000
  auth : BitVec 25 := 0
  limit : Nat := 160
  clear : Nat := 80
  tokensMax : Nat := 1
  periodS : Nat := 60
  tokens : Nat := 1
  tokenAt : Nat := 0
  decayAt : Nat := 0
  cause : Nat := 0
deriving DecidableEq, Repr

/-- What the device has sent to the world outside, oldest first. -/
inductive Output where
  | msix (f : Nat) (vec : Nat)
  | completion (f : Nat) (data : Option Bytes)
  | hostRead (f : Nat) (addr : Nat) (len : Nat)
  | hostWrite (f : Nat) (addr : Nat) (data : Bytes)
  | flit (p : Nat) (data : Bytes)
  | smb (data : Option Bytes)
deriving DecidableEq, Repr

end Sys2Proof.Machine
end

