-- ==== Sys2Proof/Machine/State.lean ====
section
/-!
DEFINITION. The state of Iczal, the reasons a step can stop, and the state after reset (14 R392, 15 R407).
-/

namespace Sys2Proof.Machine

/-- Why a step faults. -/
inductive Fault where
  /-- Raised by every command that names a port, logical port, Easel, function, sensor, stack or channel that no Iczal has
  (01 R15, 01 R19, 11 R307, 14 R384, 16 R438). Safe: no such event can happen. -/
  | absentUnit
deriving DecidableEq, Repr

/-- Why a step has no meaning. -/
inductive Refusal where
  /-- Raised by an arm of `exec` that has no meaning yet. Safe: the machine stops. -/
  | notModelled (mnemonic : String)
deriving DecidableEq, Repr

/-- The machine: every piece of state of the spec; the queue of commands that wait (`pending`), the counter of free values
(`freeCtr`), what was sent outside (`outs`), and the W1C bits that hardware set in this ACLK (`hot`, 00 R8). -/
structure State where
  pending : List Instr := []
  freeCtr : Nat := 0
  dev : DevSt := .boot
  clock : Clock := {}
  formats : Tab DWord := []
  easels : Tab Easel := []
  coll : Coll := {}
  fab : Fabric := {}
  mem : Mem := {}
  health : Health := {}
  funcs : Tab Func := []
  diary : Diary := {}
  boot : Boot := {}
  board : Board := {}
  outs : List Output := []
  hot : List (Nat × Nat × Nat) := []
deriving DecidableEq, Repr

/-- The factory defaults of format table entries 0 to 7 (02 R44, R45). -/
def factoryFormats : Tab DWord :=
  [(0, 0x17F781001), (1, 0x07340801), (2, 0x10F250801), (3, 0x03230601), (4, 0x01120401),
   (5, 0x11000000001), (6, 0x31000000001), (7, 0x41000000001)]

/-- The machine right after reset, before BOOT (14 R392: DEVICE_STATE reads BOOT). Fuse map, straps and tables are the
choices of assumption 3; the fuse map enables the physical Easels 0 to 255 of an LQZ-1024-A. -/
def State.reset : State where
  formats := factoryFormats
  boot := { fuses := { easels := List.range 256, keyHash := zeros 32 } }
  fab := { shape := 0x20204081, widths := 0x1B6 }
  mem := { layout := 0x100410, capacity := 256, inService := 2 ^ 128 - 1, logical := List.range 128 }

end Sys2Proof.Machine
end

