-- ==== Sys2Proof/Config.lean ====
section
/-!
DEFINITION. The constants no reset or table of the model changes, and the free values: opaque constants without a body, so
that nothing can prove what they are. A free value is drawn at a number (the counter `freeCtr` of State) or at operands.
-/

namespace Sys2Proof.Config

/-- A draw of the entropy source, the R of SR_UNSEEDED (02 R52). Free. -/
opaque entropy : Nat → BitVec 24

/-- Whether one 32-byte piece of an outstanding LOAD or GATHER lands in a given ACLK (05 R142). Free. -/
opaque landsNow : Nat → Bool

/-- A byte the spec leaves unspecified: the destination of a LOAD whose tile check failed (06 R175). Free. -/
opaque anyByte : Nat → BitVec 8

/-- The shuffled order of REPLAY with SHUFFLE = 1 (13 R377): which of the inputs left comes next. Free. -/
opaque shuffle : Nat → Nat

/-- Whether a fused multiply-add of zero and infinity with a quiet NaN addend raises INVALID: IEEE 754-2019 leaves this to
the implementation, and 02 R61 names no choice. Free; by the three encodings. -/
opaque fmaNanInvalid : Nat → Nat → Nat → Bool

/-- The scale byte that 02 R43 would choose for the largest magnitude that the ranks of other switches contribute to a block: what the
max-abs pass of 03 R95 brings to the Hairline unit, and the spec gives that pass no messages. Free; by context, generation and block. -/
opaque prepassScale : Nat → Nat → Nat → Nat

/-- The PHY latencies of a logical port's lanes in ACLK, from the FEC encoder to the lands and from the lands to the FEC decoder: the
configuration tables give them, in no field that the spec lays out (09 R248). Free. -/
opaque phyTx : Nat → Nat
opaque phyRx : Nat → Nat

/-- How an aligned run of granules is placed on the logical pseudo-channels, by the number of logical channels and the run: the draws that
order them (11 R310: the mapping is fixed by that number; the spec does not give it). Free. -/
opaque placing : Nat → Nat → Nat → Nat

/-- The hash that places a line of the Gesso cache on its slice and set (11 R317: fixed, not given). Free. -/
opaque lineHash : Nat → Nat

/-- Which of the granules of an operation a Gesso error concerns (11 R326: the event names the slice alone). Free. -/
opaque errorAt : Nat → Nat

/-- Whether the mode-register settings of the tables with a digest keep to the list of 11 R308: the spec gives the settings no layout.
Free. -/
opaque hbmOptionsOk : BitVec 256 → Bool

/-- The signature of ATTEST (15 R418): the identity key and the salt are not in the spec. Free; drawn over the message hash. -/
opaque signature : Nat → BitVec 256 → BitVec 3072

/-- The bound logical Easels, engines and study table of a grade (00 R2): 256, 240 or 224 logical Easels. -/
def gradeEasels : Nat → Nat
  | 0 => 256 | 1 => 240 | _ => 224

/-- Instructions that each engine's IMEM holds (04 R101). -/
def imemWords : EngId → Nat
  | .intake => 1024 | .blend => 4096 | .order => 2048 | .mask => 2048 | .outlet => 1024

/-- The Tray in bytes (04 R102). -/
def trayBytes : Nat := 524288

/-- The size of an exact image (03 R75). -/
def imageBytes : Nat := 49216

/-- Tracker entries of the device (07 R190). -/
def trackerEntries : Nat := 65536

/-- ACLK in a millisecond (00 R6: 0.8 ns each). -/
def msAclk : Nat := 1250000

/-- Where the Gesso scratchpad begins (11 R313). -/
def scratchBase : Nat := 0x8000000000

/-- Cells of the packet buffer (10 R282). -/
def bufferCells : Nat := 655360

end Sys2Proof.Config
end

