-- ==== Sys2Proof/Machine/Crc.lean ====
section
/-!
DEFINITION. The checks of the spec: CRC-32C (06 R166), the LCRC of a flit (09 R243), the CRC-64 of a span (09 R277), the PEC of SMBus (15 R429).
-/

namespace Sys2Proof.Machine

/-- One bit of a reflected CRC with polynomial `poly`. -/
def crcBit (poly c : Nat) : Nat := if c % 2 = 1 then (c / 2) ^^^ poly else c / 2

/-- One byte of a reflected CRC. -/
def crcByte (poly c b : Nat) : Nat :=
  crcBit poly (crcBit poly (crcBit poly (crcBit poly
    (crcBit poly (crcBit poly (crcBit poly (crcBit poly (c ^^^ b))))))))

/-- A reflected CRC register run over `bs`. -/
def crcRun (poly : Nat) : Nat → Bytes → Nat
  | c, [] => c
  | c, b :: bs => crcRun poly (crcByte poly c b.toNat) bs

/-- CRC-32C with the parameters of 06 R166. -/
def crc32c (bs : Bytes) : Nat := crcRun 0x82F63B78 0xFFFFFFFF bs ^^^ 0xFFFFFFFF

/-- The LCRC of 09 R243: the CRC-32 of IEEE 802.3, polynomial 0x04C1_1DB7 reflected. -/
def lcrc32 (bs : Bytes) : Nat := crcRun 0xEDB88320 0xFFFFFFFF bs ^^^ 0xFFFFFFFF

/-- The packet error code of SMBus (15 R429; PRESUMED, assumption 50): the CRC-8 of polynomial 0x07, most significant bit first. -/
def pec (bs : Bytes) : Nat :=
  bs.foldl (fun c b => (List.range 8).foldl (fun c _ => if 128 ≤ c then (2 * c) % 256 ^^^ 7 else 2 * c) (c ^^^ b.toNat)) 0

/-- The CRC-64 of 09 R277: the ECMA-182 polynomial reflected. -/
def crc64 (bs : Bytes) : Nat :=
  crcRun 0xC96C5795D7870F42 0xFFFFFFFFFFFFFFFF bs ^^^ 0xFFFFFFFFFFFFFFFF

end Sys2Proof.Machine
end

