-- ==== Sys2Proof/Machine/Flags.lean ====
section
/-!
DEFINITION. The flags of 02 R56, in the bit positions of FSTAT (02 R65).
-/

namespace Sys2Proof.Machine

/-- A set of the seven flags. -/
abbrev FlagSet := BitVec 7

def fInvalid : FlagSet := 0x01
def fDivZero : FlagSet := 0x02
def fOverflow : FlagSet := 0x04
def fUnderflow : FlagSet := 0x08
def fInexact : FlagSet := 0x10
def fFlushed : FlagSet := 0x20
def fSaturated : FlagSet := 0x40

/-- `f` when the condition holds, no flag otherwise. -/
def flagIf (c : Bool) (f : FlagSet) : FlagSet := if c then f else 0

/-- The flags of several lanes merge by OR (02 R56). -/
def orAll (l : List FlagSet) : FlagSet := l.foldl (· ||| ·) 0

end Sys2Proof.Machine
end

