-- ==== Sys2Proof/Machine/Formats.lean ====
section
/-!
DEFINITION. Format codes and the format table (02 R31-R47): bit layouts, the exact value of an encoding, key order.
-/

namespace Sys2Proof.Machine

/-- A format: element width, exponent and fraction widths, bias, and its kind. For a block-scaled format these are those of
the base, and `block` is true (02 R39). -/
structure Fmt where
  width : Nat
  exp : Nat := 0
  frac : Nat := 0
  bias : Nat := 0
  ieee : Bool := false
  nan : Bool := false
  int : Bool := false
  block : Bool := false
deriving DecidableEq, Repr

/-- The format of a table entry that holds no block-scaled format (02 R44). -/
def entryFmt (e : Nat) : Fmt :=
  { width := fld e 8 5, exp := fld e 16 4, frac := fld e 20 4, bias := fld e 24 8, nan := fld e 32 2 == 1 }

/-- The format that a code names (02 R31, R32); reserved codes and invalid entries name none. -/
def fmtOf (tbl : Tab DWord) (code : Nat) : Option Fmt :=
  match code with
  | 0x00 => some { width := 64, exp := 11, frac := 52, bias := 1023, ieee := true, nan := true }
  | 0x01 => some { width := 32, exp := 8, frac := 23, bias := 127, ieee := true, nan := true }
  | 0x02 => some { width := 16, exp := 5, frac := 10, bias := 15, ieee := true, nan := true }
  | 0x04 => some { width := 8, int := true }
  | 0x05 => some { width := 16, int := true }
  | 0x06 => some { width := 32, int := true }
  | _ =>
    if 0x08 ≤ code && code ≤ 0x17 then
      let e := (tget 0 tbl (code - 8)).toNat
      if !bitAt e 0 then none
      else if bitAt e 36 then some { entryFmt (tget 0 tbl (fld e 40 4)).toNat with block := true }
      else some (entryFmt e)
    else none

/-- An exact value: a NaN (signalling or quiet), an infinity, or (-1)^neg × m × 2^e; m = 0 is a signed zero. -/
inductive Val where
  | nan (signalling : Bool)
  | inf (neg : Bool)
  | fin (neg : Bool) (m : Nat) (e : Int)
deriving DecidableEq, Repr

/-- The exponent of the smallest normal value (02 R34). -/
def Fmt.emin (f : Fmt) : Int := 1 - (f.bias : Int)

/-- The unbiased exponent of the largest finite value. -/
def Fmt.top (f : Fmt) : Int :=
  ((2 ^ f.exp : Nat) : Int) - (if f.nan then 2 else 1) - f.bias

/-- The largest finite encoding without its sign (02 R35). -/
def Fmt.maxBits (f : Fmt) : Nat :=
  if f.nan then (2 ^ f.exp - 1) * 2 ^ f.frac - 1 else 2 ^ (f.exp + f.frac) - 1

/-- The canonical NaN (02 R35). -/
def Fmt.canonNan (f : Fmt) : Nat := (2 ^ f.exp - 1) * 2 ^ f.frac + 2 ^ (f.frac - 1)

/-- An encoding with its sign set. -/
def Fmt.signed (f : Fmt) (neg : Bool) (bits : Nat) : Nat :=
  if neg then bits + 2 ^ (f.width - 1) else bits

/-- The value of an encoding (02 R34, R37). -/
def Fmt.value (f : Fmt) (x : Nat) : Val :=
  let x := x % 2 ^ f.width
  if f.int then
    let i := Machine.signed f.width x
    .fin (i < 0) i.natAbs 0
  else
    let neg := bitAt x (f.width - 1)
    let e := fld x f.frac f.exp
    let m := fld x 0 f.frac
    if f.ieee && e == 2 ^ f.exp - 1 then
      if m == 0 then .inf neg else .nan (!bitAt m (f.frac - 1))
    else if f.nan && e == 2 ^ f.exp - 1 then .nan false
    else if e == 0 then .fin neg m (f.emin - f.frac)
    else .fin neg (2 ^ f.frac + m) ((e : Int) - f.bias - f.frac)

/-- A nonzero subnormal encoding (02 R34). -/
def Fmt.subnormal (f : Fmt) (x : Nat) : Bool :=
  !f.int && fld x f.frac f.exp == 0 && fld x 0 f.frac != 0

/-- An operand as a Blend instruction reads it (02 R55): a subnormal is a zero of its sign while FLUSH is 1. -/
def Fmt.operand (f : Fmt) (flush : Bool) (x : Nat) : Val × FlagSet :=
  if flush && f.subnormal x then (.fin (bitAt x (f.width - 1)) 0 0, fFlushed) else (f.value x, 0)

/-- Comparison of m1 × 2^e1 with m2 × 2^e2. -/
def magCmp (m1 : Nat) (e1 : Int) (m2 : Nat) (e2 : Int) : Ordering :=
  compare (m1 <<< (e1 - min e1 e2).toNat) (m2 <<< (e2 - min e1 e2).toNat)

/-- Comparison by value with -0 before +0; a NaN is not compared (02 R63). -/
def numCmp : Val → Val → Ordering
  | .inf a, .inf b => compare (!a).toNat (!b).toNat
  | .inf a, _ => if a then .lt else .gt
  | _, .inf b => if b then .gt else .lt
  | .fin n1 m1 e1, .fin n2 m2 e2 =>
    if n1 != n2 then (if n1 then .lt else .gt)
    else if n1 then magCmp m2 e2 m1 e1 else magCmp m1 e1 m2 e2
  | _, _ => .eq

/-- Key order (02 R63): every NaN after every number in both directions, all NaNs equal. -/
def keyCmp (desc : Bool) : Val → Val → Ordering
  | .nan _, .nan _ => .eq
  | .nan _, _ => .gt
  | _, .nan _ => .lt
  | a, b => if desc then numCmp b a else numCmp a b

/-- The highest scale exponent of a block-scaled format with this base (02 R40). -/
def Fmt.sMax (f : Fmt) : Int := min 127 (127 - f.top)

/-- The lowest scale exponent (02 R40). -/
def Fmt.sMin (f : Fmt) : Int := max (-127) (-149 - (f.emin - f.frac))

/-- A valid scale byte (02 R40). -/
def Fmt.scaleOk (f : Fmt) (b : Nat) : Bool :=
  b == 0xFF || (decide (f.sMin + 127 ≤ b) && decide ((b : Int) ≤ f.sMax + 127))

/-- The smallest scale exponent under which a finite value fits (02 R42); zero fits under every scale. -/
def Fmt.needs (f : Fmt) (m : Nat) (e : Int) : Option Int :=
  if m = 0 then none else
    let p := Nat.log2 m
    let s := (p : Int) + e - f.top
    if m * 2 ^ f.frac ≤ (2 ^ (f.frac + 1) - 1) * 2 ^ p then some s else some (s + 1)

/-- The scale exponent a block needs: the largest need of its finite elements. -/
def Fmt.blockNeeds (f : Fmt) (l : List Val) : Option Int :=
  l.foldl (fun a v => match v with
    | .fin _ m e => match a, f.needs m e with
      | some x, some y => some (max x y)
      | none, y => y
      | x, none => x
    | _ => a) none

/-- The scale an encoder chooses (02 R43). -/
def Fmt.chooseScale (f : Fmt) (l : List Val) : Int :=
  match f.blockNeeds l with
  | none => f.sMin
  | some s => min f.sMax (max f.sMin s)

/-- The entry as held (02 R46): zero in every reserved bit, and in an entry that is not valid. -/
def heldEntry (x : Nat) : Nat :=
  if !bitAt x 0 then 0
  else 1 + fld x 8 5 * 2 ^ 8 + fld x 16 16 * 2 ^ 16 + fld x 32 2 * 2 ^ 32 + fld x 36 1 * 2 ^ 36 + fld x 40 4 * 2 ^ 40

/-- The conditions of 02 R46 on custom entry `x` of the table `t` of held entries. -/
def customOk (t : Nat → Nat) (x : Nat) : Bool :=
  let w := fld x 8 5
  let e := fld x 16 4
  let f := fld x 20 4
  let b := fld x 24 8
  let np := fld x 32 2
  let base := t (fld x 40 4)
  if !bitAt x 0 then true
  else if bitAt x 36 then
    w == 0 && e == 0 && f == 0 && b == 0 && np == 0 &&
      bitAt base 0 && !bitAt base 36 && fld base 8 5 ≤ 8
  else
    (w == 4 || w == 6 || w == 8 || w == 16) && 2 ≤ e && e ≤ 8 && 1 ≤ f && 1 + e + f == w && np ≤ 1 &&
      fld x 40 4 == 0 && decide ((2 ^ e : Nat) - 1 - np ≤ 127 + b) && decide (b + f ≤ 150)

/-- The check of 02 R46 on 16 entries as loaded. -/
def tableOk (factory : Tab DWord) (ents : List Nat) : Bool :=
  let held := ents.map heldEntry
  let t := fun i => held.getD i 0
  ents.length == 16 &&
    (List.range 8).all (fun i => t i == (tget 0 factory i).toNat) &&
    (List.range 8).all (fun i => customOk t (t (i + 8)))

/-- The 128 bytes of the table, in entry order (02 R47). -/
def tableBytes (tbl : Tab DWord) : Bytes :=
  (List.range 16).flatMap (fun i => toLE 8 (tget 0 tbl i).toNat)

end Sys2Proof.Machine
end

