-- ==== Sys2Proof/Machine/Rounding.lean ====
section
/-!
DEFINITION. Rounding, conversion and arithmetic on exact values (02 R48-R62).
-/

namespace Sys2Proof.Machine

/-- The mixing function of 02 R51. -/
def mix (z : BitVec 64) : BitVec 64 :=
  let z := (z ^^^ (z >>> 30)) * 0xBF58476D1CE4E5B9#64
  let z := (z ^^^ (z >>> 27)) * 0x94D049BB133111EB#64
  z ^^^ (z >>> 31)

/-- The 24 bits R of seeded stochastic rounding (02 R51). The element index enters with 32 bits: DEDUCED for one of 2^32 or more
(assumption 63). -/
def srBits (seed : BitVec 64) (ctx gen chunk elem : Nat) : Nat :=
  let h := mix (seed ^^^ (BitVec.ofNat 64 ctx <<< 32) ^^^ BitVec.ofNat 64 gen)
  let h := mix (h ^^^ (BitVec.ofNat 64 chunk <<< 32) ^^^ BitVec.ofNat 64 (elem % 2 ^ 32))
  (h >>> 40).toNat

/-- Whether the kept part `a` moves one unit away from zero, `d` being the `g` discarded bits (02 R48-R51).
`mode` is RMODE; `r` is the R of stochastic rounding. -/
def stepUp (mode : Nat) (r : Nat) (neg : Bool) (a d g : Nat) : Bool :=
  match mode with
  | 0 => decide (2 * d > 2 ^ g) || (2 * d == 2 ^ g && a % 2 == 1)
  | 1 => false
  | 2 => !neg && d != 0
  | 3 => neg && d != 0
  | _ => decide (r < (d <<< 24) >>> g)

/-- m × 2^e on the grid of multiples of 2^q: the kept part, rounded, and whether bits were lost. -/
def onGrid (mode r : Nat) (neg : Bool) (m : Nat) (e q : Int) : Nat × Bool :=
  if q ≤ e then (m <<< (e - q).toNat, false)
  else
    let g := (q - e).toNat
    let a := m >>> g
    let d := m % 2 ^ g
    (if stepUp mode r neg a d g then a + 1 else a, d != 0)

/-- The overflow result of 02 R58 in an IEEE target; stochastic modes settle as RNE (02 R51). -/
def overflowBits (f : Fmt) (mode : Nat) (neg : Bool) : Nat :=
  let inf := (2 ^ f.exp - 1) * 2 ^ f.frac
  match mode with
  | 1 => f.maxBits
  | 2 => if neg then f.maxBits else inf
  | 3 => if neg then inf else f.maxBits
  | _ => inf

/-- A finite nonzero value delivered in a floating-point format (02 R55, R56, R58). -/
def deliverFloat (f : Fmt) (mode : Nat) (flush : Bool) (r : Nat) (neg : Bool) (m : Nat) (e : Int) : Nat × FlagSet :=
  let p := (Nat.log2 m : Int) + e
  let qmin := f.emin - f.frac
  let big := magCmp m e (2 ^ (f.frac + 1) - 1) (f.top - f.frac) == .gt
  let mode := if big && mode ≥ 4 then 0 else mode
  let q := max p f.emin - f.frac
  let (a, lost) := onGrid mode r neg m e q
  let bits := (q - qmin).toNat * 2 ^ f.frac + a
  if bits > f.maxBits then
    if f.ieee then (f.signed neg (overflowBits f mode neg), fOverflow ||| fInexact)
    else (f.signed neg f.maxBits, fSaturated ||| fInexact)
  else if flush && bits != 0 && bits < 2 ^ f.frac then
    (f.signed neg 0, fFlushed ||| fUnderflow ||| fInexact)
  else
    let free := (onGrid mode r neg m e (p - f.frac)).1
    let tiny := magCmp free (p - f.frac) 1 f.emin == .lt
    (f.signed neg bits, flagIf lost fInexact ||| flagIf (lost && tiny) fUnderflow)

/-- A finite value delivered in an integer format (02 R58); from an integer source it narrows (02 R59). -/
def deliverInt (f : Fmt) (mode r : Nat) (intSrc : Bool) (neg : Bool) (m : Nat) (e : Int) : Nat × FlagSet :=
  let (a, lost) := onGrid mode r neg m e 0
  let lim := 2 ^ (f.width - 1)
  let cap := if neg then lim else lim - 1
  if a > cap then
    (unsignedOf f.width (if neg then -(lim : Int) else (lim : Int) - 1), if intSrc then fSaturated else fInvalid ||| fSaturated)
  else (unsignedOf f.width (if neg then -(a : Int) else (a : Int)), flagIf lost fInexact)

/-- Conversion of an exact value into a format (02 R58, R59). -/
def convert (f : Fmt) (mode : Nat) (flush : Bool) (r : Nat) (intSrc : Bool) : Val → Nat × FlagSet
  | .nan sg =>
    if f.nan then (f.canonNan, flagIf sg fInvalid) else (0, fInvalid)
  | .inf neg =>
    if f.int then
      let lim : Int := (2 ^ (f.width - 1) : Nat)
      (unsignedOf f.width (if neg then -lim else lim - 1), fInvalid ||| fSaturated)
    else if f.ieee then (f.signed neg ((2 ^ f.exp - 1) * 2 ^ f.frac), 0)
    else (f.signed neg f.maxBits, fSaturated ||| fInexact)
  | .fin neg m e =>
    if m = 0 then (if f.int then 0 else f.signed neg 0, 0)
    else if f.int then deliverInt f mode r intSrc neg m e
    else deliverFloat f mode flush r neg m e

/-! Arithmetic on exact values with the IEEE special-value rules (02 R61, R62). -/

/-- INVALID for a signalling NaN among the operands (02 R56). -/
def snan : Val → FlagSet
  | .nan true => fInvalid
  | _ => 0

/-- The exact sum of two finite values; `rdn` decides the sign of a zero sum. -/
def addFin (rdn : Bool) (n1 : Bool) (m1 : Nat) (e1 : Int) (n2 : Bool) (m2 : Nat) (e2 : Int) : Val :=
  let e := min e1 e2
  let x : Int := (m1 <<< (e1 - e).toNat : Nat)
  let y : Int := (m2 <<< (e2 - e).toNat : Nat)
  let z := (if n1 then -x else x) + (if n2 then -y else y)
  if z = 0 then .fin (if m1 = 0 && m2 = 0 && n1 == n2 then n1 else rdn) 0 0
  else .fin (z < 0) z.natAbs e

def addVal (rdn : Bool) (a b : Val) : Val × FlagSet :=
  let sn := snan a ||| snan b
  match a, b with
  | .nan _, _ => (.nan false, sn)
  | _, .nan _ => (.nan false, sn)
  | .inf x, .inf y => if x == y then (.inf x, 0) else (.nan false, fInvalid)
  | .inf x, _ => (.inf x, 0)
  | _, .inf y => (.inf y, 0)
  | .fin n1 m1 e1, .fin n2 m2 e2 => (addFin rdn n1 m1 e1 n2 m2 e2, 0)

def negVal : Val → Val
  | .nan s => .nan s
  | .inf n => .inf (!n)
  | .fin n m e => .fin (!n) m e

def mulVal (a b : Val) : Val × FlagSet :=
  let sn := snan a ||| snan b
  match a, b with
  | .nan _, _ => (.nan false, sn)
  | _, .nan _ => (.nan false, sn)
  | .inf x, .inf y => (.inf (x != y), 0)
  | .inf x, .fin n m _ => if m = 0 then (.nan false, fInvalid) else (.inf (x != n), 0)
  | .fin n m _, .inf y => if m = 0 then (.nan false, fInvalid) else (.inf (n != y), 0)
  | .fin n1 m1 e1, .fin n2 m2 e2 => (.fin (n1 != n2) (m1 * m2) (e1 + e2), 0)

/-- a × b + c with one rounding. `qinv` is the free choice for zero times infinity plus a quiet NaN. -/
def fmaVal (rdn qinv : Bool) (a b c : Val) : Val × FlagSet :=
  let (p, fp) := mulVal a b
  match a, b, c with
  | .nan _, _, _ => (.nan false, snan a ||| snan b ||| snan c)
  | _, .nan _, _ => (.nan false, snan a ||| snan b ||| snan c)
  | _, _, .nan sg => (.nan false, flagIf (sg || (p == .nan false && qinv)) fInvalid)
  | _, _, _ =>
    match p with
    | .nan _ => (.nan false, fp)
    | _ => let (z, fz) := addVal rdn p c; (z, fp ||| fz)

/-- The quotient to 128 bits below its leading one, its last bit sticky. -/
def divVal (a b : Val) : Val × FlagSet :=
  let sn := snan a ||| snan b
  match a, b with
  | .nan _, _ => (.nan false, sn)
  | _, .nan _ => (.nan false, sn)
  | .inf _, .inf _ => (.nan false, fInvalid)
  | .inf x, .fin n _ _ => (.inf (x != n), 0)
  | .fin n _ _, .inf y => (.fin (n != y) 0 0, 0)
  | .fin n1 m1 e1, .fin n2 m2 e2 =>
    if m2 = 0 then
      if m1 = 0 then (.nan false, fInvalid) else (.inf (n1 != n2), fDivZero)
    else if m1 = 0 then (.fin (n1 != n2) 0 0, 0)
    else
      let k := 128 + Nat.log2 m2
      let n := m1 <<< k
      let q := n / m2
      (.fin (n1 != n2) (2 * q + (if n % m2 = 0 then 0 else 1)) (e1 - e2 - k - 1), 0)

/-- The integer square root, one bit at a time from bit `k`. -/
def isqrtFrom : Nat → Nat → Nat → Nat
  | 0, _, x => x
  | k + 1, n, x =>
    let y := x + 2 ^ k
    isqrtFrom k n (if y * y ≤ n then y else x)

def sqrtVal (a : Val) : Val × FlagSet :=
  match a with
  | .nan sg => (.nan false, flagIf sg fInvalid)
  | .inf neg => if neg then (.nan false, fInvalid) else (.inf false, 0)
  | .fin neg m e =>
    if m = 0 then (.fin neg 0 0, 0)
    else if neg then (.nan false, fInvalid)
    else
      let (m, e) := if e % 2 = 0 then (m, e) else (2 * m, e - 1)
      let n := m <<< 256
      let x := isqrtFrom (Nat.log2 n / 2 + 1) n 0
      (.fin false (2 * x + (if x * x = n then 0 else 1)) (e / 2 - 129), 0)

/-- IEEE 754-2019 minimum (`mx` false) or maximum: which operand is chosen, or none for a NaN result. -/
def minMax (mx : Bool) (a b : Val) : Option Bool × FlagSet :=
  let sn := snan a ||| snan b
  match a, b with
  | .nan _, _ => (none, sn)
  | _, .nan _ => (none, sn)
  | _, _ => (some (if mx then numCmp a b != .lt else numCmp a b != .gt), 0)

end Sys2Proof.Machine
end

