-- ==== Sys2Proof/Machine/Exact.lean ====
section
/-!
DEFINITION. Exact accumulation (03 R67-R79, R89, R96, R97): windows, side states, exact images, and the roundings of a sum.
-/

namespace Sys2Proof.Machine

/-- Bits of the side state (03 R70). -/
def sdNan : BitVec 6 := 0x01
def sdPinf : BitVec 6 := 0x02
def sdNinf : BitVec 6 := 0x04
def sdNegz : BitVec 6 := 0x08
def sdPosz : BitVec 6 := 0x10
def sdNonz : BitVec 6 := 0x20

/-- Whether a side state has a bit. -/
def has (s b : BitVec 6) : Bool := s &&& b != 0

/-- A side state with bit `b`; INVALID when it completes the pair of infinities (03 R70). -/
def withInf (s b other : BitVec 6) : BitVec 6 × FlagSet :=
  (s ||| b, flagIf (has s other && !has s b) fInvalid)

/-- One addend enters a lane (03 R68, R70). -/
def Lane.add (l : Lane) : Val → Lane × FlagSet
  | .nan sg => ({ l with side := l.side ||| sdNan }, flagIf sg fInvalid)
  | .inf neg =>
    let (s, f) := if neg then withInf l.side sdNinf sdPinf else withInf l.side sdPinf sdNinf
    ({ l with side := s }, f)
  | .fin neg m e =>
    if m = 0 then ({ l with side := l.side ||| (if neg then sdNegz else sdPosz) }, 0)
    else
      let x := BitVec.ofNat 320 (m <<< (e + 149).toNat)
      ({ w := if neg then l.w - x else l.w + x, side := l.side ||| sdNonz }, 0)

/-- Whether a lane's result is a NaN (03 R70). -/
def Lane.isNan (l : Lane) : Bool := has l.side sdNan || (has l.side sdPinf && has l.side sdNinf)

/-- The sign of a zero sum (03 R71): minus for -0. -/
def zeroNeg (rdn : Bool) (s : BitVec 6) : Bool :=
  match has s sdNegz, has s sdPosz, has s sdNonz with
  | false, false, false => false
  | true, false, false => true
  | false, true, false => false
  | _, _, _ => rdn

/-- The exact value of a lane (03 R67, R70, R71). -/
def Lane.val (rdn : Bool) (l : Lane) : Val :=
  if l.isNan then .nan false
  else if has l.side sdPinf then .inf false
  else if has l.side sdNinf then .inf true
  else
    let i := l.w.toInt
    if i = 0 then .fin (zeroNeg rdn l.side) 0 0 else .fin (i < 0) i.natAbs (-149)

/-- The 1,024 lanes of a slot. -/
def Slot.all (s : Slot) : List Lane :=
  if s.lanes.isEmpty then List.replicate 1024 {} else s.lanes

/-- Addends enter lanes one to one. -/
def addAll : List Lane → List Val → List Lane × FlagSet
  | l :: ls, v :: vs =>
    let (l', f) := l.add v
    let (ls', fs) := addAll ls vs
    (l' :: ls', f ||| fs)
  | ls, _ => (ls, 0)

/-- One intake of 1,024 addends in format code `fmt`, an integer format or not (03 R68, R69, R75). -/
def Slot.intake (s : Slot) (fmt : Nat) (int : Bool) (vs : List Val) (pre : FlagSet) : Slot × FlagSet :=
  let (ls, f) := addAll s.all vs
  let f := f ||| pre
  ({ lanes := ls, count := s.count + 1, flags := s.flags ||| f,
     fmt := if s.count = 0 then BitVec.ofNat 5 fmt else s.fmt, float := s.float || !int }, f)

/-- How an element rounds: mode, flush, whether the addends were integers (03 R79), and the R of each element. -/
structure RoundCtl where
  mode : Nat
  flush : Bool
  ints : Bool := false
  r : Nat → Nat

/-- A value with its exponent lowered by `s`: the value before the block's scale (03 R78). -/
def unscale (s : Int) : Val → Val
  | .fin n m e => .fin n m (e - s)
  | v => v

/-- Element `i` of a sum delivered in a format that is not block-scaled (03 R77, R79). -/
def roundElem (f : Fmt) (c : RoundCtl) (i : Nat) (v : Val) : Nat × FlagSet :=
  convert f c.mode c.flush (c.r i) c.ints v

/-- A block encoded under scale `s` (02 R41, R58); the scale byte, 32 elements and the flags. -/
def encodeBlock (f : Fmt) (c : RoundCtl) (i0 : Nat) (s : Int) (vs : List Val) : Nat × List Nat × FlagSet :=
  if vs.any (fun v => match v with | .nan _ => true | _ => false) then (0xFF, List.replicate vs.length 0, 0)
  else
    let es := (List.range vs.length).zipWith (fun i v => convert f c.mode c.flush (c.r (i0 + i)) false (unscale s v)) vs
    ((s + 127).toNat, es.map (·.1), orAll (es.map (·.2)))

/-- The scale of a transit rounding (03 R96, 05 R154) for candidate byte `cand`, and whether the block is promoted. A block raised to
s_max that does not fit there counts as promoted (DESIGN CHOICE, assumption 63). -/
def transitScale (f : Fmt) (cand : Nat) (vs : List Val) : Int × Bool :=
  if cand = 0xFF then (f.chooseScale vs, false)
  else
    let s0 : Int := (cand : Int) - 127
    match f.blockNeeds vs with
    | none => (s0, false)
    | some n => if n ≤ s0 then (s0, false) else (min f.sMax n, decide (s0 < min f.sMax n))

/-- Cut a list into pieces of `n`. -/
def pieces {α : Type} (n : Nat) : Nat → List α → List (List α)
  | 0, _ => []
  | k + 1, l => l.take n :: pieces n k (l.drop n)

/-- Whether a block holds a NaN. -/
def nanBlock (vs : List Val) : Bool := vs.any (fun v => match v with | .nan _ => true | _ => false)

/-- `n` values of a sum delivered in format `f` (03 R77, R78, R96): the encodings, the scale bytes, the flags and the
number of blocks promoted. `cands` holds the candidate bytes of a transit rounding. -/
def roundSum (f : Fmt) (c : RoundCtl) (i0 : Nat) (cands : Option (List Nat)) (vs : List Val) :
    List Nat × List Nat × FlagSet × Nat :=
  if f.block then
    let blocks := pieces 32 (ceilDiv vs.length 32) vs
    let outs := (List.range blocks.length).zipWith (fun k b =>
      let (s, p) := match cands with
        | none => (f.chooseScale b, false)
        | some l => transitScale f (l.getD k 0xFF) b
      (encodeBlock f c (i0 + 32 * k) s b, p && !nanBlock b)) blocks
    (outs.flatMap (fun o => o.1.2.1), outs.map (fun o => o.1.1), orAll (outs.map (fun o => o.1.2.2)),
      (outs.filter (fun o => o.2)).length)
  else
    let es := (List.range vs.length).zipWith (fun i v => roundElem f c (i0 + i) v) vs
    (es.map (·.1), [], orAll (es.map (·.2)), 0)

/-- The mode of a transit rounding (03 R89): RNE. -/
def transitCtl (flush ints : Bool) : RoundCtl := { mode := 0, flush, ints, r := fun _ => 0 }

/-- The lane record of an exact image (03 R75). -/
def laneBytes (l : Lane) : Bytes := toLE 40 l.w.toNat ++ toLE 8 l.side.toNat

/-- A slot as an exact image (03 R75). -/
def imageOf (s : Slot) : Bytes :=
  let hdr := toLE 8 s.count ++ toLE 4 s.flags.toNat ++ toLE 1 (if s.count = 0 then 0 else s.fmt.toNat) ++ zeros 47
  let recs := s.all.flatMap laneBytes
  hdr ++ toLE 4 (crc32c (hdr ++ recs)) ++ recs

/-- Lane records read back. -/
def lanesFrom : Nat → Bytes → List Lane
  | 0, _ => []
  | n + 1, b => { w := BitVec.ofNat 320 (leAt b 0 40), side := BitVec.ofNat 6 (leAt b 40 1) } :: lanesFrom n (b.drop 48)

/-- An exact image read into a slot, or nothing where its CHECK fails (03 R76). Reserved bits are ignored. -/
def slotOfImage (b : Bytes) : Option Slot :=
  let recs := b.drop 64
  if leAt b 60 4 == crc32c (b.take 60 ++ recs) then
    let ls := lanesFrom 1024 recs
    some { lanes := if ls.all (fun l => l == {}) then [] else ls,
           count := leAt b 0 8 % 2 ^ 33, flags := BitVec.ofNat 7 (leAt b 8 4), fmt := BitVec.ofNat 5 (leAt b 12 1) }
  else none

end Sys2Proof.Machine
end

