-- ==== Sys2Proof/Machine/Tiles.lean ====
section
/-!
DEFINITION. Tiles (06): header, check, forms, packing of elements (02 R38), and the checks at a point of use.
-/

namespace Sys2Proof.Machine

/-! The header fields of 06 R165. -/
def tTile (b : Bytes) : Nat := leAt b 0 4
def tChunk (b : Bytes) : Nat := leAt b 4 4
def tFormat (b : Bytes) : Nat := leAt b 8 1 % 32
def tForm (b : Bytes) : Nat := leAt b 9 1 % 16
def tPromoted (b : Bytes) : Nat := leAt b 9 1 / 16 % 2
def tCount (b : Bytes) : Nat := leAt b 10 2 % 2048
def tLength (b : Bytes) : Nat := leAt b 12 2 % 512
def tPromo (b : Bytes) : Nat := leAt b 14 2
def tCheck (b : Bytes) : Nat := leAt b 28 4
/-- The promotion count of a tile: PROMO is ignored where the format is not block-scaled (06 R165). -/
def promoOf (tbl : Tab DWord) (b : Bytes) : Nat :=
  match fmtOf tbl (tFormat b) with
  | some f => if f.block then tPromo b else 0
  | none => 0

/-- The CRC-32C of 06 R166 over a tile of 32 × LENGTH bytes. -/
def tileCrc (b : Bytes) : Nat := crc32c (b.take 28 ++ (b.take (32 * tLength b)).drop 32)

/-- LENGTH range and CHECK (06 R174) of a tile whose bytes are all at hand. -/
def tileCheckOk (b : Bytes) : Bool :=
  1 ≤ tLength b && tLength b ≤ 257 && 32 * tLength b ≤ b.length && tileCrc b == tCheck b

/-- The forms of 06 R167. -/
def fDense : Nat := 0
def fBlock : Nat := 1
def fSparse : Nat := 2
def fValidx : Nat := 3
def fShort : Nat := 4

/-- `n` elements of `w` bits from a little-endian bit string (02 R38). -/
def unpackN (w : Nat) : Nat → Nat → List Nat
  | 0, _ => []
  | n + 1, x => x % 2 ^ w :: unpackN w n (x >>> w)

def unpack (w n : Nat) (b : Bytes) : List Nat := unpackN w n (le b)

/-- The bit string of a list of `w`-bit elements. -/
def packNat (w : Nat) : List Nat → Nat
  | [] => 0
  | x :: xs => x % 2 ^ w + packNat w xs <<< w

/-- Packed elements, zero-padded to whole bytes. -/
def pack (w : Nat) (l : List Nat) : Bytes := toLE (ceilDiv (w * l.length) 8) (packNat w l)

/-- Sizes of 06 R168 in bytes. -/
def denseSize (f : Fmt) : Nat := 32 + 128 * f.width + (if f.block then 32 else 0)
def sparseSize (f : Fmt) : Nat := 32 + 64 * f.width + 128
def validxSize (f : Fmt) (n : Nat) : Nat := 32 + 32 * ceilDiv (n * f.width) 256 + 32 * ceilDiv (10 * n) 256
def shortSize (f : Fmt) (n : Nat) : Nat :=
  32 + 32 * ceilDiv (n * f.width) 256 + (if f.block && n != 0 then 32 else 0)

/-- The size that 06 R168 gives for a form and count, where the form is allowed for the format (06 R167). -/
def formSize (f : Fmt) (form count : Nat) : Option Nat :=
  match form with
  | 0 => if f.block then none else some (denseSize f)
  | 1 => if f.block then some (denseSize f) else none
  | 2 => if f.block then none else some (sparseSize f)
  | 3 => if f.block || count > 1024 then none else some (validxSize f count)
  | 4 => if f.width = 64 || count > 1024 then none else some (shortSize f count)
  | _ => none

/-- A tile's contents: format code and format, 1,024 encodings, and the 32 scale bytes of a block-scaled format. -/
structure Tile where
  code : Nat
  fmt : Fmt
  elems : List Nat
  scales : List Nat
deriving DecidableEq, Repr

/-- Scatter of (index, value) pairs into 1,024 elements; the rest are +0 (06 R169). -/
def place (n : Nat) (ps : List (Nat × Nat)) : List Nat :=
  let t := ps.foldl (fun t p => tset 0 t p.1 p.2) ([] : Tab Nat)
  (List.range n).map (fun i => tget 0 t i)

/-- Whether a list is strictly ascending. -/
def ascending : List Nat → Bool
  | a :: b :: l => decide (a < b) && ascending (b :: l)
  | _ => true

/-- The header conditions of step 2 of 06 R175 (the consumer's FMT apart). -/
def tileFields (tbl : Tab DWord) (b : Bytes) : Option Fmt :=
  match fmtOf tbl (tFormat b) with
  | none => none
  | some f =>
    if tForm b = fShort then none
    else match formSize f (tForm b) (tCount b) with
      | none => none
      | some n => if n = 32 * tLength b && n ≤ denseSize f then some f else none

/-- The elements of a tile whose header has passed; none where the sparse metadata fails (06 R170, R171, R175). -/
def tileElems (f : Fmt) (b : Bytes) : Option Tile :=
  let body := b.drop 32
  let code := tFormat b
  match tForm b with
  | 1 => some { code, fmt := f, elems := unpack f.width 1024 (body.take (128 * f.width)),
                scales := (slice body (128 * f.width) 32).map (·.toNat) }
  | 2 =>
    let vals := unpack f.width 512 (body.take (64 * f.width))
    let posn := unpack 4 256 (slice body (64 * f.width) 128)
    if posn.all (fun x => x % 4 < x / 4) then
      let ps := (List.range 256).zipWith (fun g x =>
        [(4 * g + x % 4, vals.getD (2 * g) 0), (4 * g + x / 4, vals.getD (2 * g + 1) 0)]) posn
      some { code, fmt := f, elems := place 1024 ps.flatten, scales := [] }
    else none
  | 3 =>
    let n := tCount b
    let vb := 32 * ceilDiv (n * f.width) 256
    let vals := unpack f.width n (body.take vb)
    let idx := unpack 10 n (body.drop vb)
    if ascending idx then some { code, fmt := f, elems := place 1024 (idx.zip vals), scales := [] } else none
  | _ => some { code, fmt := f, elems := unpack f.width 1024 (body.take (128 * f.width)), scales := [] }

/-- The elements of a SHORT tile (06 R167): COUNT of them, and the scale bytes of a block-scaled one. -/
def shortElems (f : Fmt) (b : Bytes) : List Nat × List Nat :=
  let n := tCount b
  let vb := 32 * ceilDiv (n * f.width) 256
  (unpack f.width n ((b.drop 32).take vb), if f.block then (slice (b.drop 32) vb (ceilDiv n 32)).map (·.toNat) else [])

/-- The exact values of elements as Blend reads them (02 R39, R41, R55), with the flags of the reading. -/
def elemVals (f : Fmt) (flush : Bool) (scales : List Nat) (elems : List Nat) : List (Val × FlagSet) :=
  if f.block then
    (List.range elems.length).zipWith (fun i x =>
      let sb := scales.getD (i / 32) 0
      if sb = 0xFF then (.nan false, 0)
      else
        let (v, fl) := f.operand flush x
        (unscale (127 - (sb : Int)) v, fl)) elems
  else elems.map (f.operand flush)

/-- Elements of blocks whose scale byte is 0xFF are written as zero (02 R41, 05 R446). -/
def clearNanBlocks (scales elems : List Nat) : List Nat :=
  (List.range elems.length).zipWith (fun i x => if scales.getD (i / 32) 0 = 0xFF then 0 else x) elems

/-- A tile: header, payload and trailer with its CHECK (06 R164-R166). -/
def mkTile (tile chunk code form promoted count promo : Nat) (body : Bytes) : Bytes :=
  let len := (32 + body.length) / 32
  let h := toLE 4 tile ++ toLE 4 chunk ++ toLE 1 code ++ toLE 1 (form + 16 * promoted) ++ toLE 2 count ++ toLE 2 len ++
    toLE 2 promo ++ zeros 12
  h ++ toLE 4 (crc32c (h ++ body)) ++ body

/-- A dense or BLOCK tile. -/
def denseTile (tile chunk code : Nat) (f : Fmt) (elems scales : List Nat) (promoted promo : Nat) : Bytes :=
  mkTile tile chunk code (if f.block then fBlock else fDense) promoted 0 promo
    (pack f.width elems ++ (if f.block then scales.map (BitVec.ofNat 8) else []))

/-- A SHORT tile of the Hairline unit (06 R167, 07 R209). -/
def shortTile (tile chunk code : Nat) (f : Fmt) (elems scales : List Nat) (promoted promo : Nat) : Bytes :=
  mkTile tile chunk code fShort promoted elems.length promo
    (padTo (pack f.width elems) 32 ++
      (if f.block && !elems.isEmpty then padTo (scales.map (BitVec.ofNat 8)) 32 else []))

/-- Indices of the stored elements (06 R169). -/
def storedIdx (elems : List Nat) : List Nat :=
  ((List.range elems.length).zip elems).filterMap (fun p => if p.2 = 0 then none else some p.1)

/-- The positions of one SPARSE24 group (06 R180): its stored elements, then the lowest unused. -/
def groupPos (g : List Nat) : Option (Nat × Nat) :=
  match storedIdx g with
  | [] => some (0, 1)
  | [0] => some (0, 1)
  | [p] => some (0, p)
  | [p, q] => some (p, q)
  | _ => none

/-- A VALIDX tile of the given elements. -/
def validxTile (src : Bytes) (f : Fmt) (idx elems : List Nat) : Bytes :=
  let vals := idx.map (fun i => elems.getD i 0)
  mkTile (tTile src) (tChunk src) (tFormat src) fValidx (tPromoted src) idx.length (tPromo src)
    (padTo (pack f.width vals) 32 ++ padTo (pack 10 idx) 32)

/-- The tile in dense or BLOCK form, other fields copied from its source (06 R172; 02 R41). -/
def asDense (src : Bytes) (t : Tile) : Bytes :=
  denseTile (tTile src) (tChunk src) t.code t.fmt (if t.fmt.block then clearNanBlocks t.scales t.elems else t.elems) t.scales
    (tPromoted src) (tPromo src)

/-- The form chosen by 06 R180. -/
def smallestForm (src : Bytes) (t : Tile) : Bytes :=
  if t.fmt.block then asDense src t
  else
    let gs := pieces 4 256 t.elems
    let pos := gs.map groupPos
    let idx := storedIdx t.elems
    let d := denseSize t.fmt
    let v := validxSize t.fmt idx.length
    let s := if pos.all Option.isSome then some (sparseSize t.fmt) else none
    let sOr := s.getD (d + v + 1)
    if d ≤ sOr && d ≤ v then asDense src t
    else if sOr ≤ v then
      let ps := pos.map (fun p => p.getD (0, 1))
      let vals := (gs.zip ps).flatMap (fun x => [x.1.getD x.2.1 0, x.1.getD x.2.2 0])
      mkTile (tTile src) (tChunk src) t.code fSparse (tPromoted src) 0 (tPromo src)
        (pack t.fmt.width vals ++ pack 4 (ps.map (fun p => p.1 + 4 * p.2)))
    else validxTile src t.fmt idx t.elems

/-- CMPCT (05 R156, 06 R181) of the elements whose mask bit is 1. -/
def compact (src : Bytes) (t : Tile) (mask : Nat) : Bytes :=
  let elems := (List.range 1024).zipWith (fun i x => if bitAt mask i then x else 0) t.elems
  if t.fmt.block then asDense src { t with elems := elems }
  else
    let idx := storedIdx elems
    if validxSize t.fmt idx.length ≤ denseSize t.fmt then validxTile src t.fmt idx elems
    else asDense src { t with elems := elems }

end Sys2Proof.Machine
end

