-- ==== Sys2Proof/Machine/Ops.lean ====
section
/-!
DEFINITION. The named operations over State: units, Easels and engines, functions, device memory, the Diary, interrupts.
-/

namespace Sys2Proof.Machine

/-- The outcome of a command. -/
abbrev Out := Host.Outcome State Fault Refusal

/-- The outcome of an event of a unit that the device does not have. -/
def absent : Out := .fault .absentUnit

/-- `go` when the unit exists. -/
def onUnit (present : Bool) (go : Out) : Out := if present then go else absent

/-- The state itself: an event whose condition does not hold cannot happen and changes nothing (assumption 8). -/
def same (s : State) : Out := .next s

/-- `go` when the event can happen. -/
def when' (c : Bool) (s : State) (go : State) : Out := .next (if c then go else s)

/-! Status codes (00 R11). -/
def stOk : Nat := 0x00
def stPending : Nat := 0x01
def stEngineAbsent : Nat := 0x10
def stUnitAbsent : Nat := 0x11
def stState : Nat := 0x12
def stBadField : Nat := 0x13
def stMismatch : Nat := 0x14
def stNoSpace : Nat := 0x15
def stFenced : Nat := 0x16
def stTileCheck : Nat := 0x17
def stSparse : Nat := 0x18
def stTimeout : Nat := 0x19
def stDegraded : Nat := 0x1A
def stNd : Nat := 0x1B
def stSequence : Nat := 0x1C
def stVersion : Nat := 0x1D
def stImpaired : Nat := 0x1E

/-- The lowest code among the conditions met (00 R13). -/
def lowest (l : List (Bool × Nat)) : Option Nat := minOf ((l.filter (·.1)).map (·.2))

/-! The device. -/

def State.now (s : State) : Nat := s.clock.cycle
def State.easelCount (s : State) : Nat := Config.gradeEasels s.boot.fuses.grade
def State.hasEngine (s : State) (e : EngId) : Bool := !(e == .order && s.boot.fuses.grade == 2)
/-- The logical Easel exists in this grade (00 R2). -/
def State.isEasel (s : State) (n : Nat) : Bool := decide (n < s.easelCount)
/-- The compute domain works (12 R361, 15 R407), its clock with it (16 R440). -/
def State.computing (s : State) : Bool := s.dev == .running && s.board.clock
/-- ACLK runs (01 R25) and no trip has stopped it (16 R440). -/
def State.aclk (s : State) : Bool := s.dev != .off && s.dev != .aon && s.board.clock
/-- The fabric side works (12 R361). -/
def State.fabricUp (s : State) : Bool := s.dev == .running || s.dev == .grisaille
/-- The physical Easels that the fuse map enables, in ascending number; a part has 272 (01 R19). -/
def Fuses.enabled (u : Fuses) : List Nat := (List.range 272).filter (fun p => u.easels.contains p)
/-- The physical number of a logical Easel: logical n is the (n+1)-th enabled one (01 R19). -/
def State.physical (s : State) (n : Nat) : Nat := s.boot.fuses.enabled.getD n 0

def State.draw (s : State) (n : Nat) : State := { s with freeCtr := s.freeCtr + n }

/-! Easels and engines. -/

def State.easel (s : State) (n : Nat) : Easel := tget {} s.easels n
def State.setEasel (s : State) (n : Nat) (x : Easel) : State := { s with easels := tput s.easels n x }
def Easel.engine (x : Easel) (e : EngId) : Engine := tget {} x.eng e.id
def Easel.setEngine (x : Easel) (e : EngId) (g : Engine) : Easel := { x with eng := tput x.eng e.id g }
def State.engine (s : State) (n : Nat) (e : EngId) : Engine := (s.easel n).engine e
def State.setEngine (s : State) (n : Nat) (e : EngId) (g : Engine) : State :=
  s.setEasel n ((s.easel n).setEngine e g)
def State.modEasel (s : State) (n : Nat) (f : Easel → Easel) : State := s.setEasel n (f (s.easel n))
def State.modEngine (s : State) (n : Nat) (e : EngId) (f : Engine → Engine) : State :=
  s.setEngine n e (f (s.engine n e))

def Engine.s' (g : Engine) (n : Nat) : Word := tget 0 g.s n
def Engine.c' (g : Engine) (n : Nat) : Word := tget 0 g.c n
def Engine.k' (g : Engine) (n : Nat) : Cmp := tget {} g.k n
def Engine.v' (g : Engine) (n : Nat) : BitVec 2048 := tget 0 g.v n
def Engine.slot (g : Engine) (q : Nat) : Slot := tget {} g.slots q
def Engine.studyAt (g : Engine) (j : Nat) : Study := tget {} g.studies j

/-- `len` bytes of the Tray from `a` (04 R102). -/
def Easel.read (x : Easel) (a len : Nat) : Bytes := (List.range len).map (fun i => tget 0 x.tray (a + i))

/-- Bytes written to the Tray (04 R102, R104: a byte never written is zero). -/
def putBytes (d : Byte) (t : Tab Byte) (a : Nat) : Bytes → Tab Byte
  | [] => t
  | b :: bs => putBytes d (tset d t a b) (a + 1) bs

/-- The top-level group that holds Easel `n` (01 R24). -/
def State.groupOf (s : State) (n : Nat) : Option Group :=
  s.coll.groups.find? (fun g => decide (g.base ≤ n) && decide (n < g.base + 2 ^ g.log2))

/-- The members of the top-level group of `n`, or `n` alone. -/
def State.members (s : State) (n : Nat) : List Nat :=
  match s.groupOf n with
  | none => [n]
  | some g => (List.range (2 ^ g.log2)).map (g.base + ·)

/-! Contexts. -/

def State.ctx (s : State) (c : Nat) : Ctx := tget {} s.coll.ctxs c
def State.setCtx (s : State) (c : Nat) (x : Ctx) : State :=
  { s with coll := { s.coll with ctxs := tset {} s.coll.ctxs c x } }
def State.modCtx (s : State) (c : Nat) (f : Ctx → Ctx) : State := s.setCtx c (f (s.ctx c))
/-- The contexts that are not FREE. -/
def State.openCtxs (s : State) : List Nat := (s.coll.ctxs.filter (fun p => p.2.st != .free)).map (·.1)

/-! Template fields (07 R185). -/
def Ctx.op (x : Ctx) : Nat := leAt x.tmpl 0 1 % 32
def Ctx.format (x : Ctx) : Nat := leAt x.tmpl 1 1 % 32
def Ctx.outFormat (x : Ctx) : Nat := leAt x.tmpl 2 1 % 32
def Ctx.transit (x : Ctx) : Nat := leAt x.tmpl 3 1 % 32
def Ctx.rmode (x : Ctx) : Nat := leAt x.tmpl 4 1 % 8
def Ctx.flushBit (x : Ctx) : Bool := bitAt (leAt x.tmpl 4 1) 3
def Ctx.arrival (x : Ctx) : Bool := bitAt (leAt x.tmpl 4 1) 4
def Ctx.firstK (x : Ctx) : Bool := bitAt (leAt x.tmpl 4 1) 7
def Ctx.carrySrc (x : Ctx) : Bool := bitAt (leAt x.tmpl 5 1) 0
def Ctx.headroom (x : Ctx) : Nat := fld (leAt x.tmpl 5 1) 1 4
def Ctx.vc (x : Ctx) : Nat := leAt x.tmpl 6 1 % 8
def Ctx.bucket (x : Ctx) : Nat := leAt x.tmpl 7 1
def Ctx.maxElements (x : Ctx) : Nat := leAt x.tmpl 8 4
def Ctx.ctLog2 (x : Ctx) : Nat := leAt x.tmpl 12 1 % 16
def Ctx.chunkWindow (x : Ctx) : Nat := leAt x.tmpl 14 2 % 2048
def Ctx.base (x : Ctx) : Nat := x.baseAt.getD (leAt x.tmpl 16 1)
def Ctx.log2 (x : Ctx) : Nat := leAt x.tmpl 17 1 % 16
def Ctx.units (x : Ctx) : Nat := leAt x.tmpl 18 1 % 32
def Ctx.studyOf (x : Ctx) (e : EngId) : Nat := fld (leAt x.tmpl 20 3) (4 * e.id) 4
def Ctx.palette (x : Ctx) : Nat := leAt x.tmpl 23 1 % 16
def Ctx.genTimeout (x : Ctx) : Nat := leAt x.tmpl 24 2
def Ctx.openWait (x : Ctx) : Nat := leAt x.tmpl 26 2
def Ctx.kField (x : Ctx) : Nat := leAt x.tmpl 28 2 % 2048
def Ctx.seedField (x : Ctx) : Nat := leAt x.tmpl 40 8
def Ctx.rosterN (x : Ctx) : Nat := leAt x.tmpl 48 4 % 2 ^ 21
def Ctx.engines (x : Ctx) : List EngId := EngId.all.filter (fun e => bitAt x.units e.id)
/-- The Easels a context is bound to. -/
def Ctx.bound (x : Ctx) : List Nat := (List.range (2 ^ x.log2)).map (x.base + ·)

/-- The contexts bound to an Easel (04 R136 BOUND, 07 R192): those not FREE whose range holds it. -/
def State.boundTo (s : State) (n : Nat) : List Nat :=
  s.openCtxs.filter (fun c => let x := s.ctx c
    decide (x.base ≤ n) && decide (n < x.base + 2 ^ x.log2))

/-- Generation `g` of context `c`, while in flight. -/
def Ctx.gen? (x : Ctx) (g : Word) : Option Gen := x.gens.find? (fun y => y.num == g)
def Ctx.setGen (x : Ctx) (y : Gen) : Ctx :=
  { x with gens := x.gens.map (fun z => if z.num == y.num then y else z) }
def State.modGen (s : State) (c : Nat) (g : Word) (f : Gen → Gen) : State :=
  match (s.ctx c).gen? g with
  | none => s
  | some y => s.setCtx c ((s.ctx c).setGen (f y))
def Gen.chunk (y : Gen) (k : Nat) : Chunk := tget {} y.chunks k
def Gen.setChunk (y : Gen) (k : Nat) (x : Chunk) : Gen := { y with chunks := tput y.chunks k x }
def Gen.modChunk (y : Gen) (k : Nat) (f : Chunk → Chunk) : Gen := y.setChunk k (f (y.chunk k))
/-- What position `pos` keeps of a generation (13 R370). -/
def Gen.note (y : Gen) (pos : Nat) : PosNote := tget {} y.notes pos
def Gen.modNote (y : Gen) (pos : Nat) (f : PosNote → PosNote) : Gen := { y with notes := tput y.notes pos (f (y.note pos)) }
def Gen.addFlags (y : Gen) (pos : Nat) (f : BitVec 7) : Gen := y.modNote pos (fun k => { k with flags := k.flags ||| f })
/-- A feature of 13 R368 has acted at a position. -/
def Gen.markNd (y : Gen) (pos : Nat) (b : Bool) : Gen := y.modNote pos (fun k => { k with nd := k.nd || b })
/-- Promotions of a chunk (13 R373): they count at its position, and no longer when the chunk is run again. -/
def Gen.addPromos (y : Gen) (key n : Nat) : Gen :=
  (y.modChunk key (fun k => { k with promos := k.promos + n })).modNote (key / 2 ^ 32) (fun k => { k with promos := k.promos + n })

/-! ENTER fields (07 R194). -/
def Entered.op (x : Entered) : Nat := leAt x.raw 16 1 % 32
def Entered.fmt (x : Entered) : Nat := leAt x.raw 17 1 % 32
def Entered.epoch (x : Entered) : Nat := leAt x.raw 12 4
def Entered.elements (x : Entered) : Nat := leAt x.raw 20 4
def Entered.root (x : Entered) : Nat := leAt x.raw 24 4 % 2 ^ 20
def Entered.shift (x : Entered) : Nat := leAt x.raw 28 4 % 2 ^ 20
def Entered.peer (x : Entered) : Nat := leAt x.raw 32 4 % 2 ^ 20
def Entered.fields (x : Entered) : Fields :=
  { rank := x.rank, op := x.op, fmt := x.fmt, elements := x.elements, root := x.root, shift := x.shift }
/-- Disagreement on the five fields of 07 R197. -/
def Fields.differs (a b : Fields) : Bool :=
  a.op != b.op || a.fmt != b.fmt || a.elements != b.elements || a.root != b.root || a.shift != b.shift

/-! Functions. -/

def State.func (s : State) (f : Nat) : Func := tget {} s.funcs f
def State.setFunc (s : State) (f : Nat) (x : Func) : State := { s with funcs := tput s.funcs f x }
def State.modFunc (s : State) (f : Nat) (g : Func → Func) : State := s.setFunc f (g (s.func f))
def State.enabled (s : State) (f : Nat) : Bool := decide (f < 4) && bitAt s.boot.functions.toNat f
/-- The functions a host can reach (14 R382, 15 R407): in HOLD PF0 alone. -/
def State.presents (s : State) (f : Nat) : Bool :=
  s.boot.presented && s.board.perst && (if s.dev == .hold then f == 0 else s.enabled f)
def State.emit (s : State) (o : Output) : State := { s with outs := s.outs ++ [o] }

/-- An event of vector `n` of function `f` (14 R405). -/
def State.interrupt (s : State) (f n : Nat) : State :=
  s.modFunc f (fun x => { x with intStatus := x.intStatus ||| BitVec.ofNat 16 (2 ^ n),
                                 intEvents := x.intEvents ||| BitVec.ofNat 16 (2 ^ n) })
/-- A global event: the bit in every enabled function. -/
def State.interruptAll (s : State) (n : Nat) : State :=
  (List.range 4).foldl (fun s f => if s.enabled f then s.interrupt f n else s) s

/-! Device memory (11). -/

/-- What an unlisted byte of HBM or of the scratchpad reads as (assumption 5). -/
def unlisted : Byte := 0

/-- The memory's canonical form: addresses strictly rising, no entry equal to an unlisted byte. -/
def Memory.wf (m : List Host.Cell) : Bool := tcanon unlisted m

def Mem.read (m : Mem) (a len : Nat) : Bytes := (List.range len).map (fun i => tget unlisted m.cells (a + i))
def Mem.write (m : Mem) (a : Nat) (b : Bytes) : Mem := { m with cells := putBytes unlisted m.cells a b }

def gib : Nat := 2 ^ 30
def Mem.sketchGib (m : Mem) : Nat := fld m.layout.toNat 0 7
def Mem.captureGib (m : Mem) : Nat := fld m.layout.toNat 7 7
def Mem.paletteGib (m : Mem) : Nat := fld m.layout.toNat 14 8
def Mem.sparesWanted (m : Mem) : Nat := fld m.layout.toNat 22 3
def captureBase : Nat := 0x4000000
def Mem.sketchBase (m : Mem) : Nat := captureBase + m.captureGib * gib
def Mem.paletteBase (m : Mem) : Nat := m.sketchBase + m.sketchGib * gib
def Mem.poolBase (m : Mem) : Nat := m.paletteBase + m.paletteGib * gib
def Mem.hbmEnd (m : Mem) : Nat := m.capacity * gib
def popcount (w n : Nat) : Nat := ((List.range w).filter (fun i => bitAt n i)).length
def Mem.slices (m : Mem) : Nat := popcount 64 m.scratch.toNat
def Mem.scratchEnd (m : Mem) : Nat := Config.scratchBase + m.slices * 0x400000
/-- Addresses that are mapped (11 R313). -/
def Mem.mapped (m : Mem) (a len : Nat) : Bool :=
  decide (a + len ≤ m.hbmEnd) || (decide (Config.scratchBase ≤ a) && decide (a + len ≤ m.scratchEnd))
/-- A range inside the data pool or the scratchpad (11 R325). -/
def Mem.grantable (m : Mem) (a len : Nat) : Bool :=
  (decide (m.poolBase ≤ a) && decide (a + len ≤ m.hbmEnd)) ||
  (decide (Config.scratchBase ≤ a) && decide (a + len ≤ m.scratchEnd))

/-! Palette bindings (11 R321, R323). -/
def State.binding (s : State) (b : Nat) : Binding := tget {} s.coll.bindings b
def State.setBinding (s : State) (b : Nat) (x : Binding) : State :=
  { s with coll := { s.coll with bindings := tset {} s.coll.bindings b x } }
def Binding.base (b : Binding) : Nat := leAt b.raw 0 8
def Binding.rows (b : Binding) : Nat := leAt b.raw 8 4 % 2 ^ 31
def Binding.rowBytes (b : Binding) : Nat := 32 * (leAt b.raw 12 1 % 64)
def Binding.format (b : Binding) : Nat := leAt b.raw 13 1 % 32
def Binding.shards (b : Binding) : Nat := leAt b.raw 16 4 % 2 ^ 20
def Binding.bytes (b : Binding) : Nat := ceilDiv b.rows (max 1 b.shards) * b.rowBytes

/-- The Sketchbook reservation R of 07 R190, in MiB. -/
def Ctx.reserveMib (x : Ctx) : Nat := ceilDiv (x.chunkWindow * 2 ^ x.ctLog2 * Config.imageBytes) (2 ^ 20)

/-! The Diary (15 R420-R422). -/

/-- An event to be recorded: it enters the queue in the order of 15 R421; where the queue is full the last one in that order is lost. -/
def State.note (s : State) (rule ev cls idx status : Nat) (payload : List Nat) : State :=
  let e : Event := { cyc := s.now, time := s.clock.ftime.toNat, unlocked := !s.clock.locked, rule, ev, cls, idx, status, payload }
  let q := insertBy (fun e => e.cyc * 2 ^ 16 + e.cls * 2 ^ 12 + e.idx) e s.diary.queue
  if s.diary.queue.length < 64 then { s with diary := { s.diary with queue := q } }
  else { s with diary := { s.diary with queue := q.take 64, lost := s.diary.lost + 1, lossMark := true } }

/-- A record whose source is the device itself. -/
def State.noteDev (s : State) (rule ev status : Nat) (payload : List Nat) : State := s.note rule ev 0 0 status payload
/-- A record whose source is logical port `p`. -/
def State.notePort (s : State) (rule ev p status : Nat) (payload : List Nat) : State := s.note rule ev 2 p status payload
/-- A record whose source is Easel `n`, by its physical number (01 R20). -/
def State.noteEasel (s : State) (rule ev n status : Nat) (payload : List Nat) : State :=
  s.note rule ev 1 (s.physical n) status payload
def State.noteCtx (s : State) (rule ev c status : Nat) (payload : List Nat) : State := s.note rule ev 6 c status payload

/-- A write to BAR0 that is ignored, recorded once per function per millisecond (14 R385). -/
def State.ignored (s : State) (f rule : Nat) : State :=
  match (s.func f).noted with
  | some t => if s.now < t + Config.msAclk then s
      else (s.modFunc f (fun x => { x with noted := some s.now })).note rule 0 5 f 0 []
  | none => (s.modFunc f (fun x => { x with noted := some s.now })).note rule 0 5 f 0 []

/-- A bit of function `f`'s Uncorrectable Error Status (14 R381; assumption 77): 12 a poisoned TLP received, 15 Completer Abort. -/
def State.aerSet (s : State) (f b : Nat) : State := s.modFunc f (fun x => { x with aer := x.aer ||| BitVec.ofNat 32 (2 ^ b) })

/-- A poisoned write is discarded and recorded (14 R391). -/
def State.poisoned (s : State) (f : Nat) : State := (s.aerSet f 12).note 391 0 5 f 0 []

/-- A read completes with Completer Abort (14 R387, R388; 11 R326). -/
def State.abortRead (s : State) (f : Nat) : State := (s.aerSet f 15).emit (.completion f none)

/-- A W1C bit set by hardware in this ACLK (00 R8): register kind, index and bit. -/
def State.setHot (s : State) (kind idx bit : Nat) : State :=
  if s.aclk then { s with hot := (kind, idx, bit) :: s.hot } else s
def State.isHot (s : State) (kind idx bit : Nat) : Bool := s.hot.contains (kind, idx, bit)

/-- An ALERT bit (15 R431). -/
def State.alertBit (s : State) (b : Nat) : State :=
  ({ s with boot := { s.boot with alert := s.boot.alert ||| BitVec.ofNat 6 (2 ^ b) } }).setHot 0 0 b

/-! Log MRAM and NOR (15 R410, R427). -/
def State.mramRead (s : State) (a len : Nat) : Bytes := (List.range len).map (fun i => tget 0 s.boot.mram (a + i))
def State.mramWrite (s : State) (a : Nat) (b : Bytes) : State :=
  { s with boot := { s.boot with mram := putBytes 0 s.boot.mram a b } }
def State.norRead (s : State) (a len : Nat) : Bytes := (List.range len).map (fun i => tget 0xFF s.boot.nor (a + i))
def State.norWrite (s : State) (a : Nat) (b : Bytes) : State :=
  { s with boot := { s.boot with nor := putBytes 0xFF s.boot.nor a b } }

/-- Bytes 0-27 and 32-63 of a record under its CHECK (15 R420). -/
def sealRecord (b : Bytes) : Bytes :=
  let h := b.take 28
  let p := (b.drop 32)
  h ++ toLE 4 (crc32c (h ++ p)) ++ p

/-- A new record (15 R420). -/
def recordOf (seq : Nat) (e : Event) (loss : Bool) : Bytes :=
  sealRecord (toLE 4 seq ++ toLE 6 e.time ++ toLE 2 (e.rule + 2 ^ 12 * e.ev) ++ toLE 2 (e.idx + 2 ^ 12 * e.cls) ++ toLE 2 0 ++
    toLE 1 e.status ++ toLE 1 (b2n e.unlocked + 2 * b2n loss) ++ toLE 6 e.time ++ zeros 8 ++
    slice (e.payload.flatMap (toLE 4)) 0 32)

/-- Whether an event repeats the newest record (15 R422). -/
def repeats (r : Bytes) (e : Event) : Bool :=
  leAt r 10 2 == e.rule + 2 ^ 12 * e.ev && leAt r 12 2 == e.idx + 2 ^ 12 * e.cls && leAt r 16 1 == e.status &&
    r.drop 32 == slice (e.payload.flatMap (toLE 4)) 0 32 && decide (leAt r 14 2 < 0xFFFF)

/-- One event of the queue is written (15 R421, R422). -/
def Diary.writeOne (d : Diary) : Diary :=
  match d.queue with
  | [] => d
  | e :: q =>
    let newest := (d.head - 1).toNat
    let r := tget [] d.recs (newest % 65536)
    if d.written && repeats r e then
      let r' := sealRecord (splice (splice r 14 (toLE 2 (leAt r 14 2 + 1))) 18 (toLE 6 e.time))
      { d with queue := q, recs := tput d.recs (newest % 65536) r' }
    else
      { d with queue := q, head := d.head + 1, written := true, lossMark := false,
               recs := tput d.recs (d.head.toNat % 65536) (recordOf d.head.toNat e d.lossMark) }

end Sys2Proof.Machine
end

