-- ==== Sys2Proof/Machine/Net.lean ====
section
/-!
DEFINITION. Frames, addresses, routing, egress queues, and the frames that this switch originates
(09 R249-R266, R271-R277; 10 R282-R292).
-/

namespace Sys2Proof.Machine

/-! The frame header (09 R249): bit 8k + b is bit b of byte k. -/
def Frame.get (f : Frame) (lo len : Nat) : Nat := fld f.hdr.toNat lo len
def Frame.put (f : Frame) (lo len v : Nat) : Frame := { f with hdr := BitVec.ofNat 256 (setFld f.hdr.toNat lo len v) }
def Frame.ver (f : Frame) : Nat := f.get 0 4
def Frame.ftype (f : Frame) : Nat := f.get 4 4
def Frame.vc (f : Frame) : Nat := f.get 8 3
def Frame.leg (f : Frame) : Nat := f.get 11 1
def Frame.rev (f : Frame) : Nat := f.get 13 1
def Frame.dkind (f : Frame) : Nat := f.get 16 3
def Frame.spanEnd (f : Frame) : Bool := f.get 20 1 == 1
def Frame.hops (f : Frame) : Nat := f.get 24 8
def Frame.dest (f : Frame) : Nat := f.get 32 24
def Frame.src (f : Frame) : Nat := f.get 64 24
/-- The source as a peer: the address, plus 2^24 for a switch. -/
def Frame.srcKey (f : Frame) : Nat := f.src + 2 ^ 24 * f.get 19 1
def Frame.via (f : Frame) : Nat := f.get 96 17
def Frame.viaEn (f : Frame) : Bool := f.get 119 1 == 1
def Frame.seq (f : Frame) : Nat := f.get 128 32
def Frame.fepoch (f : Frame) : Nat := f.get 160 16
def Frame.length (f : Frame) : Nat := f.get 176 9
def Frame.id (f : Frame) : Nat := f.get 192 14
/-- The class c = 2 × VC + LEG (09 R259). -/
def Frame.cls (f : Frame) : Nat := 2 * f.vc + f.leg
/-- Flits of a frame (09 R243, R273). -/
def flitsOf (bytes : Nat) : Nat := ceilDiv bytes 248
def Frame.flits (f : Frame) : Nat := flitsOf (32 * f.length)

/-- HCHECK (09 R249): bytes 0-27 with the fields of 09 R251 taken as zero. -/
def Frame.hcheck (f : Frame) : Nat :=
  let g := ((((((f.put 11 3 0).put 24 8 0).put 96 17 0).put 119 1 0).put 120 8 0).put 88 8 0)
  crc32c (toLE 28 g.hdr.toNat)
def Frame.sealed (f : Frame) : Frame := f.put 224 32 f.hcheck
def Frame.hcheckOk (f : Frame) : Bool := f.get 224 32 == f.hcheck

/-! Addresses (09 R252, R253). -/
def Fabric.dims (b : Fabric) : Nat := fld b.shape.toNat 28 2 + 1
def Fabric.ring (b : Fabric) (d : Nat) : Nat := if d < b.dims then fld b.shape.toNat (7 * d) 7 else 1
def Fabric.widthOf (b : Fabric) (d : Nat) : Nat := fld b.widths.toNat (3 * d) 3
def Fabric.hereAddr (b : Fabric) : Nat := fld b.here.toNat 0 24
/-- Where coordinate field d begins. -/
def Fabric.fieldAt (b : Fabric) (d : Nat) : Nat := 6 + ((List.range d).map b.widthOf).sum
def Fabric.coord (b : Fabric) (a d : Nat) : Nat := if d < b.dims then fld a (b.fieldAt d) (b.widthOf d) else 0
def Fabric.coords (b : Fabric) (a : Nat) : List Nat := (List.range b.dims).map (b.coord a)
/-- The switch of an address: its coordinate fields with EDGE zero. -/
def switchOf (a : Nat) : Nat := a / 64 * 64
def edgeOf (a : Nat) : Nat := a % 64
def Fabric.addrOf (b : Fabric) (cs : List Nat) : Nat :=
  ((List.range cs.length).map (fun d => cs.getD d 0 * 2 ^ b.fieldAt d)).sum
/-- The route index (09 R253). -/
def Fabric.indexOf (b : Fabric) (a : Nat) : Nat :=
  (List.range b.dims).foldr (fun d acc => b.coord a d + b.ring d * acc) 0
def Fabric.switches (b : Fabric) : Nat := ((List.range 4).map b.ring).foldl (· * ·) 1
/-- The coordinates of a route index. -/
def Fabric.coordsOfIndex (b : Fabric) (i : Nat) : List Nat :=
  (List.range b.dims).map (fun d => i / ((List.range d).map b.ring).foldl (· * ·) 1 % b.ring d)

/-! Ports (09 R236, R238). -/
def Fabric.port (b : Fabric) (n : Nat) : Port := tget {} b.ports n
def Fabric.lport (b : Fabric) (p : Nat) : LPort := tget {} b.lports p
def Port.breakout (x : Port) : Nat := fld x.cfg.toNat 0 2
def Port.enabled (x : Port) : Bool := bitAt x.cfg.toNat 2
/-- Lanes of a logical port. -/
def Port.lanes (x : Port) : Nat := 8 / 2 ^ x.breakout
def Fabric.lanes (b : Fabric) (p : Nat) : Nat := (b.port (p / 8)).lanes
/-- Logical port k of Pn exists while k < 8/w. -/
def Fabric.exists' (b : Fabric) (p : Nat) : Bool := decide (p < 1024) && decide (p % 8 < 2 ^ (b.port (p / 8)).breakout)
def LPort.role (x : LPort) : Nat := fld x.cfg.toNat 0 3
def LPort.dim (x : LPort) : Nat := fld x.cfg.toNat 3 2
def LPort.dir (x : LPort) : Nat := fld x.cfg.toNat 5 1
def LPort.index (x : LPort) : Nat := fld x.cfg.toNat 6 6
def LPort.up (x : LPort) : Bool := x.st == .up
def roleEdge : Nat := 1
def roleRing : Nat := 2
def roleExpress : Nat := 3
def roleBulk : Nat := 4

def State.port (s : State) (n : Nat) : Port := s.fab.port n
def State.lport (s : State) (p : Nat) : LPort := s.fab.lport p
def State.setFab (s : State) (b : Fabric) : State := { s with fab := b }
def State.setPort (s : State) (n : Nat) (x : Port) : State := s.setFab { s.fab with ports := tput s.fab.ports n x }
def State.setLPort (s : State) (p : Nat) (x : LPort) : State := s.setFab { s.fab with lports := tput s.fab.lports p x }
def State.modLPort (s : State) (p : Nat) (f : LPort → LPort) : State := s.setLPort p (f (s.lport p))

/-- Logical ports that exist (09 R236) and satisfy a test, ascending. -/
def Fabric.portsThat (b : Fabric) (t : LPort → Bool) : List Nat := (b.lports.filter (fun x => b.exists' x.1 && t x.2)).map (·.1)
def isRing (d dir : Nat) (x : LPort) : Bool := x.role == roleRing && x.dim == d && x.dir == dir
def isBulk (d dir : Nat) (x : LPort) : Bool := x.role == roleBulk && x.dim == d && x.dir == dir
def isExpress (i : Nat) (x : LPort) : Bool := x.role == roleExpress && x.index == i
def isEdge (e : Nat) (x : LPort) : Bool := x.role == roleEdge && x.index == e
/-- The address of the next switch in dimension `d` (09 R240). -/
def Fabric.nextAddr (b : Fabric) (d dir : Nat) : Nat :=
  let cs := b.coords b.hereAddr
  let l := max 1 (b.ring d)
  b.addrOf (cs.set d ((cs.getD d 0 + (if dir = 0 then 1 else l - 1)) % l))

/-- The switch at the other end of a port (09 R238, R240). -/
def Fabric.neighbour (b : Fabric) (x : LPort) : Option Nat :=
  if x.role == roleRing || x.role == roleBulk then some (b.nextAddr x.dim x.dir)
  else if x.role == roleExpress then some (switchOf x.peer.toNat)
  else none

/-- The UP members of a trunk (09 R238). -/
def Fabric.trunk (b : Fabric) (t : LPort → Bool) : List Nat := b.portsThat (fun x => t x && x.up)

/-- The trunk member a frame takes (09 R258). -/
def member (f : Frame) (ms : List Nat) : Option Nat :=
  if ms.isEmpty then none
  else
    let h := crc32c (toLE 3 f.src ++ toLE 3 f.dest ++ toLE 1 f.vc)
    ms[h % ms.length]?

/-- The direction choice of 09 R257: 0 for plus, 1 for minus. -/
def choose (c delta l : Nat) : Nat :=
  if c = 1 then 0 else if c = 2 then 1 else if delta ≤ l - delta then 0 else 1

/-- Where a frame goes next. -/
inductive Hop where
  | here (f : Frame)
  | out (p : Nat) (f : Frame) (entry : Bool)
  | held (p : Nat) (f : Frame) (entry : Bool)
  | drop (rule : Nat)
deriving DecidableEq, Repr

def LPort.onRing (x : LPort) : Bool := x.role == roleRing || x.role == roleBulk

/-- A frame that arrived on this port goes on in its ring in dimension `d`, direction `dir`: it came from the switch on the other
side, whose link is this switch's port of the opposite direction (09 R240, R259; assumption 58). -/
def LPort.continues (x : LPort) (d dir : Nat) : Bool := x.onRing && x.dim == d && x.dir != dir

/-- A ring entry (09 R259): not arrived on the same dimension and direction, or LEG or REV changed here. -/
def ringEntry (b : Fabric) (arr : Option Nat) (d dir : Nat) (old new : Frame) : Bool :=
  match arr with
  | none => true
  | some p => !(b.lport p).continues d dir || old.leg != new.leg || old.rev != new.rev

/-- A frame held for a trunk (09 R261); without a port of that trunk it waits for nothing. -/
def holdFor (b : Fabric) (t : LPort → Bool) (f : Frame) (entry : Bool) : Hop :=
  match b.portsThat t with
  | [] => .drop 261
  | p :: _ => .held p f entry

/-- A frame on its express hop (09 R256): a member of the trunk, or held for it (R261). It enters no ring. -/
def expressHop (b : Fabric) (i : Nat) (f : Frame) : Hop :=
  match member f (b.trunk (isExpress i)) with
  | some p => .out p f false
  | none => holdFor b (isExpress i) f false

/-- The direction that R257 chooses for a frame in dimension `d` toward the coordinates `t`. -/
def dirOf (b : Fabric) (f : Frame) (t : List Nat) (d : Nat) : Nat :=
  let here := b.coord b.hereAddr d
  let l := b.ring d
  let dirs := f.get (if f.leg = 0 then 120 else 88) 8
  let dir0 := choose (fld dirs (2 * d) 2) ((t.getD d 0 + l - here) % l) l
  if f.rev = 1 then 1 - dir0 else dir0

/-- The next hop in dimension d, with the reversal of 09 R260 and the hold of 09 R261. -/
def ringHop (b : Fabric) (arr : Option Nat) (old f : Frame) (t : List Nat) (d : Nat) : Hop :=
  let here := b.coord b.hereAddr d
  let l := b.ring d
  let dir := dirOf b f t d
  match member f (b.trunk (isRing d dir)) with
  | some p => .out p f (ringEntry b arr d dir old f)
  | none =>
    let nextC := if dir = 0 then (here + 1) % l else (here + l - 1) % l
    let back := f.put 13 1 1
    let target := (List.range b.dims).all (fun i => (if i = d then nextC else b.coord b.hereAddr i) == t.getD i 0)
    if f.rev = 0 && !target then
      match member back (b.trunk (isRing d (1 - dir))) with
      | some p => .out p back true
      | none => holdFor b (isRing d (1 - dir)) back true
    else holdFor b (isRing d dir) f (ringEntry b arr d dir old f)

/-- A frame as the switch it has reached takes it: at VIA its second leg begins (09 R257). -/
def legFrame (b : Fabric) (f : Frame) : Frame :=
  if f.leg = 0 && f.viaEn && b.coords b.hereAddr == b.coordsOfIndex f.via then (f.put 11 1 1).put 13 1 0 else f

/-- The coordinates that a frame is routed to now (09 R257). -/
def targetOf (b : Fabric) (f : Frame) : List Nat := if f.leg = 0 && f.viaEn then b.coordsOfIndex f.via else b.coords f.dest

/-- The lowest dimension in which this switch is not at the target. -/
def openDim (b : Fabric) (t : List Nat) : Option Nat :=
  (List.range b.dims).find? (fun d => (b.coords b.hereAddr).getD d 0 != t.getD d 0)

/-- REV that stands when a frame arrives belongs to the dimension it arrived in; where `again`, the frame was already routed here, and
REV belongs to the open dimension `d`. -/
def revFrame (b : Fabric) (arr : Option Nat) (again : Bool) (f : Frame) (d : Nat) : Frame :=
  let arrived := match arr with
    | some p => (b.lport p).dim == d
    | none => false
  if f.rev = 1 && !again && !arrived && arr.isSome then f.put 13 1 0 else f

/-- The next hop of a routed frame at this switch (09 R257). A frame for an endpoint whose edge index no port has is discarded at once
(assumption 75). -/
def hopFrom (b : Fabric) (arr : Option Nat) (again : Bool) (f0 : Frame) : Hop :=
  let f := legFrame b f0
  let t := targetOf b f
  match openDim b t with
  | some d => ringHop b arr f0 (revFrame b arr again f d) t d
  | none =>
    let f := f.put 13 1 0
    if f.dkind = 1 then .here f
    else match b.portsThat (isEdge (edgeOf f.dest)) with
      | [] => .drop 261
      | p :: _ => if (b.lport p).up then .out p f false else .held p f false

/-- The hop of a frame as it comes to this switch. -/
def nextHop (b : Fabric) (arr : Option Nat) (f : Frame) : Hop := hopFrom b arr false f

/-- A frame with the route fields written at injection (09 R256), and the INDEX of its express hop where its entry names one; none where
the entry reads UNREACHABLE. REV and HOPS, which the rule's table does not list, become 0 (assumption 75). -/
def injected (b : Fabric) (f : Frame) : Option (Frame × Option Nat) :=
  if switchOf f.dest == b.hereAddr then some (((f.put 11 1 0).put 13 1 0).put 119 1 0, none)
  else
    let e := (tget 0 b.routes (b.indexOf f.dest)).toNat
    let f := (f.put 13 1 0).put 24 8 0
    match fld e 0 2 with
    | 0 => some ((((f.put 11 1 0).put 119 1 0).put 120 8 (fld e 2 8)).put 88 8 0, none)
    | 1 =>
      let v := fld e 12 17
      let ev := (tget 0 b.routes v).toNat
      some (((((f.put 11 1 0).put 119 1 1).put 96 17 v).put 120 8 (fld ev 2 8)).put 88 8 (fld e 2 8), none)
    | 2 => some ((((f.put 11 1 1).put 119 1 0).put 120 8 0).put 88 8 (fld e 2 8), some (fld e 10 2))
    | _ => none

/-- The first hop of a frame as it is injected (09 R256). -/
def inject (b : Fabric) (arr : Option Nat) (f : Frame) : Hop :=
  match injected b f with
  | some (g, some i) => expressHop b i g
  | some (g, none) => nextHop b arr g
  | none => .drop 256

/-! Accounts and queues (10 R282-R292). -/

/-- A body stored for `copies` copies; the account is charged (10 R288). -/
def State.store (s : State) (acct : Account) (cells copies : Nat) : State × Nat :=
  let b := s.fab
  let b := match acct with
    | .inject v => { b with injected := tset 0 b.injected v (tget 0 b.injected v + cells) }
    | _ => b
  (s.setFab { b with bodies := tput b.bodies b.nextBody { acct, cells, copies }, nextBody := b.nextBody + 1 }, b.nextBody)

/-- Ingress cells of a port and class are freed, and its credit counter rises (09 R245, 10 R286). -/
def State.freeIngress (s : State) (p cls cells : Nat) : State :=
  s.modLPort p (fun x => { x with used := tset 0 x.used cls (tget 0 x.used cls - cells),
                                  granted := tset 0 x.granted cls ((tget 0 x.granted cls + cells) % 2 ^ 16), report := true })

/-- The cells of a body are freed. -/
def State.freeAccount (s : State) (acct : Account) (cells : Nat) : State :=
  match acct with
  | .ingress p c => s.freeIngress p c cells
  | .hairline p c => s.freeIngress p c cells
  | .inject v => s.setFab { s.fab with injected := tset 0 s.fab.injected v (tget 0 s.fab.injected v - cells) }
  | .none => s

/-- One copy of a body has left or is discarded (10 R288). -/
def State.dropCopy (s : State) (id : Nat) : State :=
  match tget? s.fab.bodies id with
  | none => s
  | some x =>
    if x.copies ≤ 1 then
      (s.setFab { s.fab with bodies := tdel s.fab.bodies id }).freeAccount x.acct x.cells
    else s.setFab { s.fab with bodies := tput s.fab.bodies id { x with copies := x.copies - 1 } }

def LPort.queue (x : LPort) (v : Nat) : List Queued := tget [] x.queues v
/-- The depth of a queue in cells (10 R288, R305). -/
def depth (q : List Queued) : Nat := (q.map (fun x => x.frame.flits)).sum

def Port.quantumOf (x : Port) (v : Nat) : Nat := tget 16 x.quantum v
def Port.markOf (x : Port) (v : Nat) : Nat := tget 512 x.mark v
def Port.burstOf (x : Port) (v : Nat) : Nat := tget 64 x.burst v
def Port.bufLimitOf (x : Port) (c : Nat) : Nat := if c == 2 || c == 3 then 40 else tget 96 x.bufLimit c
/-- The share of a class that a logical port receives (10 R283, R287). -/
def Fabric.share (b : Fabric) (p c : Nat) : Nat :=
  if c == 2 || c == 3 then 40 else (b.port (p / 8)).bufLimitOf c * b.lanes p / 8

/-- A frame is appended to the queue of its VC; CMARK is set when the queue is deeper than its mark (10 R289, R292). -/
def State.enqueue (s : State) (p : Nat) (q : Queued) : State :=
  let x := s.lport p
  let v := q.frame.vc
  let m := (s.port (p / 8)).markOf v
  let f := if m != 0xFFFF && depth (x.queue v) > m then q.frame.put 12 1 1 else q.frame
  let b := s.fab
  let bc := if v = 7 then tset 0 b.bucketCount (f.get 56 8) (tget 0 b.bucketCount (f.get 56 8) + 1) else b.bucketCount
  (s.setFab { b with bucketCount := bc }).setLPort p { x with queues := tset [] x.queues v (x.queue v ++ [{ q with frame := f }]) }

/-- A frame takes the hop chosen for it; `copy` is the body it refers to. -/
def State.takeHop (s : State) (arr : Option Nat) (body : Nat) (requeued : Bool) (h : Hop) : State :=
  match h with
  | .out p f entry | .held p f entry =>
    s.enqueue p { frame := f, body, src := arr, entry, group := false, since := s.now, requeued }
  | .drop rule => (s.noteDev rule 0 0 []).dropCopy body
  | .here _ => s.dropCopy body

/-! Flows and originated frames (09 R271-R277, 10 R286). -/

def swKey (a : Nat) : Nat := a + 2 ^ 24
def keyAddr (k : Nat) : Nat := k % 2 ^ 24
def keySw (k : Nat) : Bool := k ≥ 2 ^ 24

def Fabric.window (b : Fabric) (v : Nat) : Nat := tget (if v = 1 then 64 else 1024) b.rxWindow v
def Fabric.ejectOf (b : Fabric) (v : Nat) : Nat :=
  tget (if v = 0 then 32768 else if v = 1 then 16384 else if v < 6 then 94208 else 16384) b.ejectLimit v
def Fabric.injectOf (b : Fabric) (v : Nat) : Nat := tget (if v = 1 then 0 else 4096) b.injectLimit v

def State.flow? (s : State) (peer vc : Nat) : Option Flow := s.fab.flows.find? (fun x => x.peer == peer && x.vc == vc)
def State.flow (s : State) (peer vc : Nat) : Flow := (s.flow? peer vc).getD { peer, vc }
def State.setFlow (s : State) (x : Flow) : State :=
  let fs := s.fab.flows
  if fs.any (fun y => y.peer == x.peer && y.vc == x.vc) then
    s.setFab { s.fab with flows := fs.map (fun y => if y.peer == x.peer && y.vc == x.vc then x else y) }
  else s.setFab { s.fab with flows := fs ++ [x] }

/-- Frame types that carry PRIV (09 R277). -/
def isPriv (t : Nat) : Bool := t == 3 || t == 5 || t == 6 || t == 7

/-- The route fields of `g` (09 R256), which HCHECK does not cover (R251). -/
def Frame.copyRoute (f g : Frame) : Frame :=
  (((((f.put 11 1 g.leg).put 13 1 g.rev).put 96 17 g.via).put 119 1 (b2n g.viaEn)).put 120 8 (g.get 120 8)).put 88 8 (g.get 88 8)

/-- The frame that an origin becomes with SEQ and epoch given (09 R249, R277). A circuit message on its way keeps the destination of the
frame it came in (R268). -/
def State.frameOf (s : State) (o : Orig) (seq epoch : Nat) : Frame :=
  let body := o.body ++ o.trailer.getD []
  let h : Frame := { hdr := 0, body }
  let f := ((((((((((((h.put 0 4 1).put 4 4 o.ftype).put 8 3 o.vc).put 14 1 (b2n (isPriv o.ftype))).put 16 3 (b2n (keySw o.dest))).put 19 1 1).put
    20 1 (b2n o.trailer.isSome)).put 32 24 ((o.route.map Frame.dest).getD (keyAddr o.dest))).put 56 8 o.bucket).put 64 24 s.fab.hereAddr).put 128 32 seq).put
    160 16 epoch).put 176 9 (1 + body.length / 32) |>.sealed
  match o.route with
  | some g => f.copyRoute g
  | none => f

/-- Flits a flow has outstanding. -/
def FlowTx.outstanding (t : FlowTx) : Nat := (t.kept.map (fun x => x.frame.flits)).sum

/-- Room of the injection account of a VC for `n` cells (10 R284, R286); VC1 has none. -/
def Fabric.roomFor (b : Fabric) (vc n : Nat) : Bool := vc == 1 || decide (tget 0 b.injected vc + n ≤ b.injectOf vc)

/-- Whether the flow's window and the injection account admit an origin (10 R286). A frame sent again is outstanding already, and a
copy of a stored body needs no further cells (R288). Before a flow's first TACK, and after a RESET, the source takes its own RX_WINDOW of
the VC for the window (assumption 75). -/
def State.admits (s : State) (o : Orig) : Bool :=
  let n := flitsOf (32 + o.body.length + (o.trailer.getD []).length)
  let t := ((s.flow o.dest o.vc).tx).getD {}
  let free := o.ftype == 4 || o.again.isSome
  (free || decide (t.outstanding + n ≤ t.window.getD (s.fab.window o.vc))) &&
    (o.stored.isSome || s.fab.roomFor o.vc n) &&
    (free || (s.flow? o.dest o.vc).isSome || decide (s.fab.flows.length < 65536))

/-- The port a frame leaves by. -/
def Hop.port : Hop → Nat
  | .out p _ _ => p
  | .held p _ _ => p
  | _ => 0

/-- A frame of this switch leaves the core die; a tile that fails its check there is dropped with it (06 R174, R176). -/
def State.crossOut (s : State) (ftype : Nat) (tile : Bytes) (id : Nat) (h : Hop) : State :=
  if ftype = 0 && !tileCheckOk tile then
    (s.notePort 176 0 h.port stTileCheck [h.port, 1, tTile tile, tChunk tile]).dropCopy id
  else s.takeHop none id false h

/-- The first hop of a frame of this switch (09 R256), or the port it is given (R268). -/
def firstHop (b : Fabric) (out : Option Nat) (f : Frame) : Hop :=
  match out with
  | none => inject b none f
  | some p => .out p f (b.lport p).onRing

/-- A frame leaves its source: numbered and retained on its flow (09 R272), the stored body charged to the injection account,
and routed as injected here (09 R256). `body` refers to a body already stored for several copies. A frame sent again keeps its
number. -/
def State.placeFrame (s : State) (o : Orig) (body : Option Nat) : State :=
  let fl := s.flow o.dest o.vc
  let t := fl.tx.getD {}
  let f := o.again.getD (if o.ftype = 4 then s.frameOf o 0 0 else s.frameOf o t.seq t.epoch)
  let s := if o.ftype = 4 || o.again.isSome then s else
    s.setFlow { fl with tx := some { t with seq := (t.seq + 1) % 2 ^ 32, kept := t.kept ++ [{ frame := f, at' := s.now, out := o.out }] },
                        idleAt := s.now }
  let (s, id) := match body with
    | some id => (s, id)
    | none => s.store (if o.vc = 1 then .none else .inject o.vc) f.flits 1
  s.crossOut o.ftype o.body id (firstHop s.fab o.out f)

/-- An older frame of the flow waits: a younger one waits behind it. A TACK has no SEQ and waits behind other TACKs alone (09 R274). -/
def Orig.behind (o k : Orig) : Bool := k.dest == o.dest && k.vc == o.vc && (o.ftype != 4 || k.ftype == 4)

/-- The outbox is offered in order; a flow whose older frame waits keeps its younger ones waiting. -/
def drainGo : State → List Orig → List Orig → State
  | s, kept, [] => s.setFab { s.fab with outbox := kept }
  | s, kept, o :: l =>
    if !kept.any o.behind && s.admits o then drainGo (s.placeFrame o o.stored) kept l
    else drainGo s (kept ++ [o]) l

def State.drain (s : State) : State := drainGo s [] s.fab.outbox

def State.queueOrig (s : State) (o : Orig) : State := (s.setFab { s.fab with outbox := s.fab.outbox ++ [o] }).drain

/-- The trailer of a span (09 R277). -/
def spanTrailer (bodies : Bytes) (n : Nat) : Bytes := toLE 8 (crc64 bodies) ++ toLE 2 n ++ zeros 22

/-- The frame held back ends its span (09 R277). -/
def State.endSpan (s : State) (peer vc : Nat) : State :=
  let fl := s.flow peer vc
  let t := fl.tx.getD {}
  match t.held with
  | none => s
  | some (o, _) =>
    let tr := spanTrailer (t.spanBodies ++ o.body) (t.spanCount + 1)
    (s.setFlow { fl with tx := some { t with held := none, spanBodies := [], spanCount := 0 } }).queueOrig { o with trailer := some tr }

/-- A privileged frame joins its flow's span (09 R277): the frame before it leaves, and this one is held back until another
follows or the span ends. Where the flow table is full (R271) a new flow's frame is a span by itself, and waits at its source. -/
def State.privOrig (s : State) (o : Orig) : State :=
  let fl := s.flow o.dest o.vc
  let t := fl.tx.getD {}
  if (s.flow? o.dest o.vc).isNone && decide (65536 ≤ s.fab.flows.length) then s.queueOrig { o with trailer := some (spanTrailer o.body 1) }
  else match t.held with
    | none => s.setFlow { fl with tx := some { t with held := some (o, s.now) } }
    | some (p, _) =>
      if t.spanCount + 2 ≥ 16 || t.spanBodies.length + p.body.length + o.body.length > 65536 then
        let s := s.endSpan o.dest o.vc
        let fl := s.flow o.dest o.vc
        s.setFlow { fl with tx := some { (fl.tx.getD {}) with held := some (o, s.now) } }
      else
        (s.setFlow { fl with tx := some { t with held := some (o, s.now), spanBodies := t.spanBodies ++ p.body,
                                                 spanCount := t.spanCount + 1 } }).queueOrig p

/-- This switch originates a frame. -/
def State.originate (s : State) (dest vc ftype bucket : Nat) (body : Bytes) : State :=
  let o : Orig := { dest, vc, ftype, body, bucket }
  if isPriv ftype then s.privOrig o else s.queueOrig o

/-- 28 or 60 bytes closed by their CRC-32C (06 R166). -/
def withCheck (b : Bytes) : Bytes := b ++ toLE 4 (crc32c b)

/-- A transport acknowledgement (09 R274). -/
def State.sendTack (s : State) (dest kind vc epoch seq window echo : Nat) : State :=
  s.originate dest 0 4 0 (withCheck (toLE 1 kind ++ toLE 1 vc ++ toLE 2 epoch ++ toLE 4 seq ++ toLE 2 window ++ toLE 2 (min echo 0xFFFF) ++ zeros 16))

/-- The cells that the frames of an open span hold. -/
def FlowRx.spanCells (r : FlowRx) : Nat := (r.span.map Frame.flits).sum

/-- The window that the destination grants now (09 R273): what acknowledged frames still hold of the flow's ejection space is not
granted again. The frames of an open span, and those delivered since the last ACK, are not acknowledged, and count at the source. -/
def FlowRx.open' (r : FlowRx) : Nat := r.grant - (r.inUse - r.spanCells - r.unackedCells)

/-- An ACK (`kind` 0) or a NAK (`kind` 1) of a flow: the SEQ given, the window, and the marks counted since the last TACK (09 R274). -/
def State.tackFlow (s : State) (peer vc kind seq : Nat) : State :=
  let fl := s.flow peer vc
  match fl.rx with
  | none => s
  | some r =>
    let q := if kind = 0 then { r with unacked := 0, unackedCells := 0 } else r
    (s.setFlow { fl with rx := some { q with told := q.open', echo := 0 } }).sendTack peer kind vc r.epoch seq q.open' r.echo

/-- ACK of a flow (09 R274). -/
def State.ackFlow (s : State) (peer vc : Nat) : State :=
  match (s.flow peer vc).rx with
  | none => s
  | some r => s.tackFlow peer vc 0 r.seq

/-! Freeing what a delivered frame holds (10 R286). -/

/-- Cells of an ejection account are freed. -/
def State.freeCells (s : State) (vc cells : Nat) : State :=
  s.setFab { s.fab with ejected := tset 0 s.fab.ejected vc (tget 0 s.fab.ejected vc - cells) }

/-- Ejection cells of a frame from `src` are freed, those of acknowledged frames first; an ACK follows where the window changes by it
(09 R274). -/
def State.freeEject (s : State) (src vc cells : Nat) : State :=
  let s := s.freeCells vc cells
  match s.flow? src vc with
  | some fl => match fl.rx with
    | some r =>
      let r := { r with inUse := r.inUse - cells, unackedCells := min r.unackedCells (r.inUse - cells - r.spanCells) }
      let s := s.setFlow { fl with rx := some r }
      if r.told ≠ r.open' then s.ackFlow src vc else s
    | none => s
  | none => s

end Sys2Proof.Machine
end

