-- ==== Sys2Proof/Machine/Geometry.lean ====
section
/-!
DEFINITION. Positions of a context (08 R214-R222, 03 R85-R91): the box, the context tree, the ring walks, and what each
position expects of a chunk (07 R188, R202, R203).
-/

namespace Sys2Proof.Machine

/-- The reduction homes, by ascending rank (07 R189). -/
def Ctx.homes (x : Ctx) : List Nat := (x.roster.filter (fun p => decide (p.1 < x.rosterN))).map (·.2.home)
def Ctx.rank (x : Ctx) (r : Nat) : Rank := tget { endpoint := 0, epoch := 0 } x.roster r
def Ctx.homeOf (x : Ctx) (r : Nat) : Nat := (x.rank r).home
/-- Ranks whose home is the node `p`. -/
def Ctx.ranksAt (x : Ctx) (p : Nat) : List Nat :=
  (x.roster.filter (fun q => decide (q.1 < x.rosterN) && q.2.home == p)).map (·.1)

/-- The smallest arc of a ring of `l` coordinates that holds all of `cs`: its coordinates in ascending order (08 R214). -/
def arcOf (l : Nat) (cs : List Nat) : List Nat :=
  let spans := (List.range l).filterMap (fun a =>
    if cs.contains a then some (a, ((cs.map (fun c => (c + l - a) % l)).foldl max 0) + 1) else none)
  match minOf (spans.map (·.2)) with
  | none => []
  | some n => match spans.find? (fun x => x.2 == n) with
    | none => []
    | some (a, _) => (List.range l).filter (fun c => decide ((c + l - a) % l < n))

/-- The box of a context: for each dimension in use, the coordinates of its arc. -/
def Ctx.box (x : Ctx) (b : Fabric) : List (List Nat) :=
  (List.range b.dims).map (fun d => arcOf (b.ring d) (x.homes.map (fun h => b.coord h d)))

/-- Positions of a node; none where it is no participant. -/
def positions (b : Fabric) (box : List (List Nat)) (a : Nat) : Option (List Nat) :=
  if (List.range b.dims).all (fun d => (box.getD d []).contains (b.coord a d)) then
    some ((List.range b.dims).map (fun d => (box.getD d []).idxOf (b.coord a d)))
  else none

/-- The node at given positions. -/
def nodeAt (b : Fabric) (box : List (List Nat)) (ps : List Nat) : Nat :=
  b.addrOf ((List.range b.dims).map (fun d => (box.getD d []).getD (ps.getD d 0) 0))

/-- All participants, in ascending route index (08 R214, 11 R323). -/
def boxNodes (b : Fabric) (box : List (List Nat)) : List Nat :=
  let all := (List.range b.dims).foldl (fun (acc : List (List Nat)) d =>
    (List.range (box.getD d []).length).flatMap (fun i => acc.map (· ++ [i]))) [[]]
  all.map (nodeAt b box)

/-- The anchor (08 R215), by node. -/
def Ctx.anchor (x : Ctx) : Nat := x.homeOf 0

/-- Offsets of a node from the anchor, with the ring lengths of the box. -/
def offsets (b : Fabric) (box : List (List Nat)) (anchor a : Nat) : List (Nat × Nat) :=
  match positions b box anchor, positions b box a with
  | some pa, some p => (List.range b.dims).map (fun d =>
      let l := (box.getD d []).length
      ((p.getD d 0 + l - pa.getD d 0) % l, l))
  | _, _ => []

/-- The node with given offsets. -/
def nodeOff (b : Fabric) (box : List (List Nat)) (anchor : Nat) (us : List Nat) : Nat :=
  match positions b box anchor with
  | none => 0
  | some pa => nodeAt b box ((List.range b.dims).map (fun d => (us.getD d 0 + pa.getD d 0) % max 1 (box.getD d []).length))

/-- The tree parent of a node (08 R215). -/
def parentOf (b : Fabric) (box : List (List Nat)) (anchor a : Nat) : Option Nat :=
  let us := (offsets b box anchor a).map (·.1)
  match (List.range us.length).find? (fun d => us.getD d 0 != 0) with
  | none => none
  | some e => some (nodeOff b box anchor ((List.range us.length).map (fun d =>
      let u := us.getD d 0
      if d = e then u &&& (u - 1) else u)))

/-- The children of a node in the order of 08 R215. -/
def childrenOf (b : Fabric) (box : List (List Nat)) (anchor a : Nat) : List Nat :=
  let os := offsets b box anchor a
  let us := os.map (·.1)
  (List.range us.length).flatMap (fun d =>
    if (List.range d).all (fun j => us.getD j 0 == 0) then
      (List.range 8).filterMap (fun k =>
        let u := us.getD d 0
        let v := u + 2 ^ k
        if u % 2 ^ (k + 1) = 0 && v < (os.getD d (0, 0)).2 then
          some (nodeOff b box anchor ((List.range us.length).map (fun j => if j = d then v else us.getD j 0)))
        else none)
    else [])

/-- Whether the subtree of a node holds a rank; the tree has at most 32 levels (08 R215). -/
def holdsRank (b : Fabric) (box : List (List Nat)) (anchor : Nat) (homes : List Nat) : Nat → Nat → Bool
  | 0, a => homes.contains a
  | k + 1, a => homes.contains a || (childrenOf b box anchor a).any (holdsRank b box anchor homes k)

/-- What is fixed about a context's geometry at this switch. -/
structure Geo where
  fab : Fabric
  box : List (List Nat)
  anchor : Nat
  homes : List Nat
  lost : List (Nat × Option Nat)

def State.geo (s : State) (x : Ctx) : Geo :=
  { fab := s.fab, box := x.box s.fab, anchor := x.anchor, homes := x.homes, lost := x.lost }

/-- The switch that holds a node: itself, or its host (12 R353). -/
def Geo.holder (g : Geo) (a : Nat) : Nat :=
  match g.lost.find? (fun p => p.1 == a) with
  | some (_, some h) => h
  | _ => a

/-- The nodes this switch holds: its own position first, then those it hosts (03 R99). -/
def Geo.held (g : Geo) : List Nat :=
  let me := g.fab.hereAddr
  (if (positions g.fab g.box me).isSome then [me] else []) ++ (g.lost.filter (fun p => p.2 == some me)).map (·.1)

/-- The node that the nodes held here report to: none where they hold the anchor (08 R223, R225; 12 R351). -/
def Geo.up (g : Geo) : Option Nat :=
  if g.held.contains g.anchor then none
  else (g.held.filterMap (fun a => parentOf g.fab g.box g.anchor a)).find? (fun p => g.holder p != g.fab.hereAddr)

def Geo.node (g : Geo) (pos : Nat) : Nat := g.held.getD pos g.fab.hereAddr
def Geo.parent (g : Geo) (a : Nat) : Option Nat := parentOf g.fab g.box g.anchor a
def Geo.children (g : Geo) (a : Nat) : List Nat := childrenOf g.fab g.box g.anchor a
/-- Children whose subtree holds a rank (08 R215, R222). -/
def Geo.feeding (g : Geo) (a : Nat) : List Nat :=
  (g.children a).filter (holdsRank g.fab g.box g.anchor g.homes 32)
def Geo.participants (g : Geo) : List Nat := boxNodes g.fab g.box
/-- Whether the whole roster is local here (07 R203). -/
def Geo.alone (g : Geo) : Bool := g.participants.all (fun a => g.holder a == g.fab.hereAddr)

/-- The context neighbours of a node (08 R217): parent, children, ring neighbours. -/
def Geo.neighbours (g : Geo) (a : Nat) : List Nat :=
  let ring := match positions g.fab g.box a with
    | none => []
    | some p => (List.range g.fab.dims).flatMap (fun d =>
        let l := (g.box.getD d []).length
        if l ≤ 1 then [] else
          [nodeAt g.fab g.box (p.set d ((p.getD d 0 + 1) % l)), nodeAt g.fab g.box (p.set d ((p.getD d 0 + l - 1) % l))])
  ((g.parent a).toList ++ g.children a ++ ring).eraseDups.filter (fun n => n != a)

/-! Operations (07 R188). -/
def isSum (op : Nat) : Bool := op == 1 || op == 2 || op == 3 || op == 0xA || op == 0xE
def blockNumbered (op : Nat) : Bool := !(isSum op || op == 5)
/-- Operations handled at ROOT's home (07 R188, R206). -/
def atRoot (op : Nat) : Bool := op == 8 || op == 0xB || op == 0xC || op == 0xD

/-- Elements of one Palette row (11 R321). -/
def State.rowElems (s : State) (x : Ctx) : Nat :=
  let b := s.binding x.palette
  match fmtOf s.formats b.format with
  | some f => b.rowBytes * 8 / max 1 f.width
  | none => 0

/-- Tiles one rank contributes to a generation (07 R188, R194, R202). -/
def State.tilesPer (s : State) (x : Ctx) (e : Nat) : Nat :=
  if x.op = 0 then 0
  else if x.op = 0xA then ceilDiv e 1024 + ceilDiv (e * s.rowElems x) 1024
  else ceilDiv e 1024

/-- The tile numbers a generation uses (07 R202). -/
def State.tileCount (s : State) (x : Ctx) (e : Nat) : Nat :=
  s.tilesPer x e * (if blockNumbered x.op then x.rosterN else 1)

/-- Whether rank `r` contributes tile `t` (07 R188). -/
def State.contributes (s : State) (x : Ctx) (ref : Entered) (r t : Nat) : Bool :=
  let per := s.tilesPer x ref.elements
  if x.op = 0 then false
  else if x.op = 5 then r == ref.root && decide (t < per)
  else if blockNumbered x.op then per != 0 && t / per == r
  else decide (t < per)

/-- The path of a generation (07 R206), from its payload per member. -/
def State.pathOf (s : State) (x : Ctx) (fmt elements : Nat) : Path :=
  let w := match fmtOf s.formats fmt with | some f => f.width | none => 0
  let pay := ceilDiv (elements * w) 8
  let tr := if pay ≤ x.treeMax then Path.tree else Path.ring
  match x.op with
  | 0 => .hairline
  | 1 | 2 | 5 | 0xE => if pay ≤ x.hairMax && fmt != 0 then .hairline else tr
  | 3 | 4 => tr
  | _ => .direct

/-- Incoming partials of a position for one chunk, as (stage of 13 R372, node), and where it sends the chunk next:
none when the position delivers. -/
structure StepPlan where
  partials : List (Nat × Nat)
  next : Option Nat

/-- The walk of a chunk through the ring stages, from dimension `d` on; `m` is its place in the stage's sequence (03 R88,
R89; 08 R218). -/
def Geo.walk (g : Geo) (p : List Nat) : List Nat → Nat → StepPlan
  | [], _ => { partials := [], next := none }
  | d :: ds, m =>
    let l := (g.box.getD d []).length
    if l ≤ 1 then g.walk p ds m
    else
      let o := m % l
      let plus := m % (2 * l) < l
      let me := p.getD d 0
      let h := if plus then (me + l - o) % l else (o + l - me) % l
      let at' := fun i => nodeAt g.fab g.box (p.set d (i % l))
      let pred := if plus then at' (me + l - 1) else at' (me + 1)
      let succ := if plus then at' (me + 1) else at' (me + l - 1)
      let inc := if h = 1 then [] else [(1 + d, pred)]
      if h = 0 then
        let r := g.walk p ds (m / l)
        { r with partials := inc ++ r.partials }
      else { partials := inc, next := some succ }

/-- The positions of the owners of a chunk, dimension by dimension: `m` is its place in a stage's sequence (08 R218). -/
def Geo.owners (g : Geo) : List Nat → Nat → List Nat
  | [], _ => []
  | d :: ds, m =>
    let l := max 1 (g.box.getD d []).length
    (m % l) :: g.owners ds (m / l)

/-- The final owner of a chunk (08 R218, R220). -/
def Geo.ownerOf (g : Geo) (c : Nat) : Nat := nodeAt g.fab g.box (g.owners (List.range g.fab.dims) c)

/-- Whether the position `p` owns chunk `c` after the ring stages of the first `k` dimensions (08 R218). -/
def Geo.ownsAfter (g : Geo) (p : List Nat) (c k : Nat) : Bool := (g.owners (List.range g.fab.dims) c).take k == p.take k

/-- Where the all-gather sends a chunk from a position, with the dimension (08 R221): along the dimension `from'` it came on unless its
next hop is the owner, and to hop 1 of every lower dimension; from the final owner in every dimension. -/
def Geo.gather (g : Geo) (p : List Nat) (from' : Option Nat) : List Nat → Nat → List (Nat × Nat)
  | [], _ => []
  | d :: ds, m =>
    let l := (g.box.getD d []).length
    if l ≤ 1 then g.gather p from' ds m
    else
      let o := m % l
      let plus := m % (2 * l) < l
      let me := p.getD d 0
      let h := if plus then (me + l - o) % l else (o + l - me) % l
      let succ := nodeAt g.fab g.box (p.set d ((if plus then me + 1 else me + l - 1) % l))
      match from' with
      | none => (d, succ) :: g.gather p from' ds (m / l)
      | some f => if d < f then (d, succ) :: g.gather p from' ds (m / l)
                  else if d = f && h + 1 < l then [(d, succ)] else []

/-- The plan of the node `a` for chunk `c` (07 R203, 08 R218-R222). -/
def State.plan (s : State) (x : Ctx) (g : Geo) (y : Gen) (a c : Nat) : StepPlan :=
  if isSum x.op && x.op != 0xA then
    match y.path with
    | .ring => match positions s.fab g.box a with
      | some p => g.walk p (List.range s.fab.dims) c
      | none => { partials := [], next := none }
    | _ => { partials := (g.feeding a).map (fun n => (1, n)), next := g.parent a }
  else { partials := [], next := none }

/-- The key under which a node's tiles are recorded beside those of ranks. -/
def nodeKey (a : Nat) : Nat := 2 ^ 32 + a

/-- The ranks whose contributions arrived first at ROOT's home, in order (07 R188 FIRST_K). -/
def State.firstRanks (s : State) (x : Ctx) (y : Gen) : List Nat :=
  ((y.inputs.map (fun i => i.tile / max 1 (s.tilesPer x y.ref.elements))).eraseDups).take x.kField
/-- Under FIRST_K, whether rank `r` still counts. -/
def State.amongFirst (s : State) (x : Ctx) (y : Gen) (r : Nat) : Bool :=
  !(x.op == 8 && x.firstK) ||
    (let l := s.firstRanks x y
     l.contains r || decide (l.length < x.kField))

/-- The sources of tile `t` at the node `a` (07 R203 A2): ranks, and nodes under `nodeKey`. -/
def State.sources (s : State) (x : Ctx) (g : Geo) (y : Gen) (a t : Nat) : List Nat :=
  let c := t >>> x.ctLog2
  if atRoot x.op then
    if x.homeOf y.ref.root == a then
      (x.roster.filter (fun q => s.contributes x y.ref q.1 t && s.amongFirst x y q.1)).map (fun q => if q.2.home == a then q.1 else nodeKey q.2.home)
    else []
  else
    (x.ranksAt a).filter (fun r => s.contributes x y.ref r t) ++ (s.plan x g y a c).partials.map (fun p => nodeKey p.2)

/-- A2 of a chunk (07 R203): the local ranks that contribute a tile to it, and the partials that the position's step requires. -/
def State.perTile (s : State) (x : Ctx) (g : Geo) (y : Gen) (a c : Nat) : Nat :=
  let ct := 2 ^ x.ctLog2
  if blockNumbered x.op then
    let ts := (List.range ct).map (· + c * ct)
    ((x.roster.map (·.1)).filter (fun r => x.homeOf r == a && ts.any (fun t => s.contributes x y.ref r t))).length
  else (s.sources x g y a (c * ct)).length

/-- Tiles of a chunk. -/
def State.chunkTiles (s : State) (x : Ctx) (y : Gen) (c : Nat) : List Nat :=
  let ct := 2 ^ x.ctLog2
  ((List.range ct).map (· + c * ct)).filter (fun t => decide (t < s.tileCount x y.ref.elements))

/-- The Easel that a tile is placed on (01 R22). -/
def Ctx.easelOf (x : Ctx) (t : Nat) : Nat := x.base + t % 2 ^ x.log2

/-- Tiles of a chunk placed on Easel `n` with the sources they are expected from. -/
def State.expected (s : State) (x : Ctx) (g : Geo) (y : Gen) (a c : Nat) : List (Nat × Nat) :=
  (s.chunkTiles x y c).flatMap (fun t => (s.sources x g y a t).map (fun r => (t, r)))
def State.expectedOn (s : State) (x : Ctx) (g : Geo) (y : Gen) (a c n : Nat) : List (Nat × Nat) :=
  (s.expected x g y a c).filter (fun p => x.easelOf p.1 == n)

/-- Chunks of a generation (07 R202). -/
def State.chunkCount (s : State) (x : Ctx) (y : Gen) : Nat := ceilDiv (s.tileCount x y.ref.elements) (2 ^ x.ctLog2)

/-- Tiles of a chunk that the node `a` handles on Easel `n` (07 R203): of a sum all those placed there, of any other operation those that
someone contributes to it. -/
def State.tilesOn (s : State) (x : Ctx) (g : Geo) (y : Gen) (a c n : Nat) : List Nat :=
  (s.chunkTiles x y c).filter (fun t => x.easelOf t == n && ((isSum x.op && x.op != 0xA) || !(s.sources x g y a t).isEmpty))

/-- A3 (07 R203): the highest chunk number that places a tile on Easel `n`, from a position held here. -/
def State.lastChunkOn (s : State) (x : Ctx) (y : Gen) (n : Nat) : Nat :=
  let g := s.geo x
  ((List.range (s.chunkCount x y)).filter (fun c => g.held.any (fun a => !(s.tilesOn x g y a c n).isEmpty))).getLast?.getD 0

/-- Whether a position takes part in a chunk: it expects tiles of it, or starts its walk (08 R219). -/
def State.takesPart (s : State) (x : Ctx) (g : Geo) (y : Gen) (a ch : Nat) : Bool :=
  !(s.expected x g y a ch).isEmpty || (isSum x.op && x.op != 0xA && y.path == .ring && !(s.chunkTiles x y ch).isEmpty)

/-- Whether every chunk of context `c` that comes before chunk `key` of generation `num` has been granted its entry: entries go in
ascending order of generation, then chunk (07 R205). Within a FIRST_K generation the order of chunks is that of arrival, which 07 R188
asks for (DEDUCED, assumption 70). -/
def State.grantedBefore (s : State) (c : Nat) (num : Word) (key : Nat) : Bool :=
  let x := s.ctx c
  let g := s.geo x
  let d := dist32 x.gLow.toNat num.toNat
  x.gens.all (fun y =>
    let e := dist32 x.gLow.toNat y.num.toNat
    decide (d < e) || (decide (d = e) && x.op == 8 && x.firstK) || y.failed.isSome || y.path == .hairline ||
      (List.range (if e = d then key % 2 ^ 32 else s.chunkCount x y)).all (fun ch =>
        (List.range g.held.length).all (fun i =>
          let k := y.chunk (ch + 2 ^ 32 * i)
          k.entry || k.done || k.parked || !s.takesPart x g y (g.node i) ch)))

/-! Tracker entries and their park areas (07 R205, 12 R344). -/

/-- The bytes of one park area (12 R344). -/
def Ctx.areaBytes (x : Ctx) : Nat := 2 ^ x.ctLog2 * Config.imageBytes

/-- The park area of the lowest-numbered tracker entry of the context that no chunk holds (12 R344; assumption 44). -/
def Ctx.freeArea (x : Ctx) : Nat :=
  let used := x.gens.flatMap (fun y => (y.chunks.filter (fun k => k.2.entry)).map (·.2.area))
  (((List.range (max 1 x.chunkWindow)).map (fun i => x.sketchBase + i * x.areaBytes)).find? (fun a => !used.contains a)).getD x.sketchBase

/-- The chunk holds a tracker entry, with the park area of that entry. -/
def Gen.grant (y : Gen) (x : Ctx) (key : Nat) : Gen :=
  y.modChunk key (fun k => if k.entry then k else { k with entry := true, area := x.freeArea })

end Sys2Proof.Machine
end

