-- ==== Sys2Proof/Machine/Gesso.lean ====
section
/-!
DEFINITION. Where granules lie (11 R310), the Gesso cache (R315-R318), and the accesses that keep a stack awake (R328).
-/

namespace Sys2Proof.Machine

/-! The channel map (11 R310). -/

/-- An order of the elements of `l`, in which each next one is drawn by `pickOf`. -/
def drawOrder (pickOf : Nat → Nat) : Nat → List Nat → List Nat
  | 0, _ => []
  | k + 1, l =>
    let i := pickOf k % l.length
    l.getD i 0 :: drawOrder pickOf k (l.eraseIdx i)

/-- The logical pseudo-channel that holds a granule, with `n` logical channels: an aligned run of 2n granules places one on each. -/
def pseudoOf (n granule : Nat) : Nat :=
  (drawOrder (Config.placing n (granule / (2 * n))) (2 * n) (List.range (2 * n))).getD (granule % (2 * n)) 0

/-- The logical channel that holds a granule. -/
def channelOf (n granule : Nat) : Nat := pseudoOf n granule / 2

/-- The channel that holds an address of HBM. -/
def Mem.channelAt (m : Mem) (a : Nat) : Nat := m.logical.getD (channelOf m.logical.length (a / 256)) 0

/-! Gesso (11 R315-R317). -/

/-- The slices in SCRATCH mode, or in CACHE mode, in ascending number. -/
def Mem.slicesIn (m : Mem) (scratch : Bool) : List Nat := (List.range 64).filter (fun i => bitAt m.scratch.toNat i == scratch)

/-- The slice that holds a granule of the scratchpad (11 R316). -/
def Mem.scratchSlice (m : Mem) (a : Nat) : Nat :=
  let l := m.slicesIn true
  l.getD ((a - Config.scratchBase) / 256 % max 1 l.length) 0

/-- The cached regions (11 R313): the Sketchbook and the data pool. -/
def Mem.cached (m : Mem) (a : Nat) : Bool :=
  (decide (m.sketchBase ≤ a) && decide (a < m.paletteBase)) || (decide (m.poolBase ≤ a) && decide (a < m.hbmEnd))

/-- The set that holds the line of a granule: 1,024 × slice plus the set in it; a slice of 4 MiB has 1,024 sets of 16 lines. -/
def Mem.lineSet (m : Mem) (granule : Nat) : Nat :=
  let l := m.slicesIn false
  let h := Config.lineHash granule
  1024 * l.getD (h % max 1 l.length) 0 + h / 64 % 1024

/-- An access to a line; which granules it moves from or to HBM: the one read, unless the access writes all of it, and the dirty one that
the set's least recently used line held. -/
def Mem.useLine (m : Mem) (wr whole : Bool) (granule : Nat) : Mem × List Nat :=
  let k := m.lineSet granule
  let l := tget [] m.lines k
  let old := l.find? (fun x => x.granule == granule)
  let new := { granule, dirty := wr || old.any (·.dirty) } :: l.filter (fun x => x.granule != granule)
  ({ m with lines := tset [] m.lines k (new.take 16) },
   (if old.isSome || (wr && whole) then [] else [granule]) ++ ((new.drop 16).filter (·.dirty)).map (·.granule))

/-- An access to a granule of HBM restarts its stack's idle time and wakes it (11 R328). -/
def Mem.touchStack (m : Mem) (now granule : Nat) : Mem :=
  let h := m.channelAt (256 * granule) / 32
  { m with lastAccess := tput m.lastAccess h now, powerSt := tdel m.powerSt h }

/-- The wide path reaches a granule (11 R317): through the cache where its region is cached. -/
def Mem.accessWide (m : Mem) (now : Nat) (wr whole : Bool) (granule : Nat) : Mem :=
  if decide (Config.scratchBase ≤ 256 * granule) then m
  else if m.cached (256 * granule) && !(m.slicesIn false).isEmpty then
    let r := m.useLine wr whole granule
    r.2.foldl (fun m g => m.touchStack now g) r.1
  else m.touchStack now granule

/-- Accesses to 32-byte sectors at these addresses. -/
def State.access (s : State) (wr : Bool) (addrs : List Nat) : State :=
  let gs := addrs.map (· / 256)
  { s with mem := gs.eraseDups.foldl (fun m g => m.accessWide s.now wr (gs.count g == 8) g) s.mem }

/-- Accesses to `len` bytes from `a`. -/
def State.accessRun (s : State) (wr : Bool) (a len : Nat) : State :=
  s.access wr ((List.range ((a + len + 31) / 32 - a / 32)).map (fun i => 32 * (a / 32 + i)))

/-- Iczal itself writes bytes to device memory (11 R317, R328). -/
def State.putMem (s : State) (a : Nat) (b : Bytes) : State :=
  if b.isEmpty then s else ({ s with mem := s.mem.write a b } : State).accessRun true a b.length

/-- The lines of some granules leave the cache (11 R312). -/
def Mem.dropLines (m : Mem) (gone : Nat → Bool) : Mem :=
  { m with lines := (m.lines.map (fun p => (p.1, p.2.filter (fun x => !gone x.granule)))).filter (fun p => !p.2.isEmpty) }

end Sys2Proof.Machine
end

