-- ==== Sys2Proof/Machine/Results.lean ====
section
/-!
DEFINITION. Result slots and completions of commands (14 R400-R402, R405).
-/

namespace Sys2Proof.Machine

/-- Bytes 0-7 of a result slot (14 R400). -/
def Result.head (r : Result) : Bytes :=
  toLE 4 r.gen.toNat ++ toLE 1 r.st ++ toLE 1 r.status ++ toLE 1 r.opcode.toNat ++ zeros 1

/-- The 128 bytes of a result slot (14 R400). -/
def Result.bytes (r : Result) : Bytes := r.head ++ slice r.payload 0 112 ++ toLE 8 r.shown

def Func.result (x : Func) (i : Nat) : Result := tget {} x.results i
def Func.setResult (x : Func) (i : Nat) (r : Result) : Func := { x with results := tput x.results i r }

/-- SEAL follows bytes 0-7 (14 R401). -/
def Result.sealed (r : Result) : Result := { r with shown := le r.head }

/-- A command completes (14 R401): the whole record is written, and CMD_DONE is raised when its IRQ is 1 (R405). -/
def State.finish (s : State) (f slot : Nat) (seq : DWord) (opcode : Byte) (irq : Bool) (status : Nat) (payload : Bytes) : State :=
  let r : Result := { gen := seq.setWidth 32, st := 2, status, opcode, payload, shown := 0 }
  let s := s.modFunc f (fun x => x.setResult slot r.sealed)
  if irq then s.interrupt f 0 else s

/-- Function `f`'s commands that wait on what `p` names complete with `status`. -/
def State.endWaitsOf (s : State) (f : Nat) (p : WaitsOn → Bool) (status : Nat) (payload : Bytes) : State :=
  let ws := (s.func f).waits
  if ws.any (fun w => p w.on) then
    (ws.filter (fun w => p w.on)).foldl (fun s w => s.finish f w.slot w.seq w.opcode w.irq status payload)
      (s.modFunc f (fun x => { x with waits := ws.filter (fun w => !p w.on) }))
  else s

/-- Every command that waits on what `p` names completes with `status`. -/
def State.endWaits (s : State) (p : WaitsOn → Bool) (status : Nat) (payload : Bytes) : State :=
  (List.range 4).foldl (fun s f => s.endWaitsOf f p status payload) s

def WaitsOn.isOpen (c : Nat) : WaitsOn → Bool
  | .openOf d => d == c
  | _ => false
def WaitsOn.isFree (c : Nat) : WaitsOn → Bool
  | .freeOf d => d == c
  | _ => false
def WaitsOn.isReplay (c : Nat) : WaitsOn → Bool
  | .replay d => d == c
  | _ => false
def WaitsOn.isCircuit (k : Nat) : WaitsOn → Bool
  | .circuit d => d == k
  | _ => false
def WaitsOn.isNor : WaitsOn → Bool
  | .nor => true
  | _ => false

end Sys2Proof.Machine
end

