-- ==== Sys2Proof/Machine/Sha.lean ====
section
/-!
DEFINITION. SHA-256 (FIPS 180-4), which the spec names for every digest (02 R47, 05 R162, 07 R189, 08 R217, 13 R371, 15 R413-R419).
-/

namespace Sys2Proof.Machine.Sha

/-- Word `i` of a number that packs 32-bit words, the last word lowest. -/
def wordAt (packed count i : Nat) : Nat := packed >>> (32 * (count - 1 - i)) % 2 ^ 32

/-- The 64 round constants, sixteen packed in each number. -/
def roundConst (i : Nat) : Nat :=
  wordAt (match i / 16 with
    | 0 => 0x428a2f9871374491b5c0fbcfe9b5dba53956c25b59f111f1923f82a4ab1c5ed5d807aa9812835b01243185be550c7dc372be5d7480deb1fe9bdc06a7c19bf174
    | 1 => 0xe49b69c1efbe47860fc19dc6240ca1cc2de92c6f4a7484aa5cb0a9dc76f988da983e5152a831c66db00327c8bf597fc7c6e00bf3d5a7914706ca635114292967
    | 2 => 0x27b70a852e1b21384d2c6dfc53380d13650a7354766a0abb81c2c92e92722c85a2bfe8a1a81a664bc24b8b70c76c51a3d192e819d6990624f40e3585106aa070
    | _ => 0x19a4c1161e376c082748774c34b0bcb5391c0cb34ed8aa4a5b9cca4f682e6ff3748f82ee78a5636f84c878148cc7020890befffaa4506cebbef9a3f7c67178f2) 16 (i % 16)

/-- The chaining value before the first block, its eight words packed. -/
def start : List Nat := (List.range 8).map (wordAt 0x6a09e667bb67ae853c6ef372a54ff53a510e527f9b05688c1f83d9ab5be0cd19 8)

/-- Sums of words wrap at 32 bits. -/
def wrap (x : Nat) : Nat := x % 2 ^ 32

/-- A word turned right by `n`. -/
def turn (n x : Nat) : Nat := x >>> n ||| wrap (x <<< (32 - n))

/-- Three turns of a word, of which the last only shifts when `drop`. -/
def stir (i j l : Nat) (drop : Bool) (x : Nat) : Nat := turn i x ^^^ turn j x ^^^ (if drop then x >>> l else turn l x)

/-- The message schedule: a window of sixteen words moves on by one. -/
def slide : List Nat → List Nat
  | [] => []
  | w :: l => l ++ [wrap (stir 17 19 10 true (l.getD 13 0) + l.getD 8 0 + stir 7 18 3 true (l.headD 0) + w)]

/-- Round `i` on the eight working words, given the message word. -/
def mixIn (i w : Nat) : List Nat → List Nat
  | [a, b, c, d, e, f, g, h] =>
    let pick := g ^^^ (e &&& (f ^^^ g))
    let most := (a &&& b) ||| (c &&& (a ||| b))
    let t := h + stir 6 11 25 false e + pick + roundConst i + w
    [wrap (t + stir 2 13 22 false a + most), a, b, c, wrap (d + t), e, f, g]
  | l => l

/-- Rounds `i` to 63: `n` of them are left. -/
def rounds : Nat → Nat → List Nat → List Nat → List Nat
  | 0, _, _, v => v
  | n + 1, i, w, v => rounds n (i + 1) (slide w) (mixIn i (w.headD 0) v)

/-- The sixteen words of a block of 64 bytes. -/
def blockWords (b : Bytes) : List Nat := (List.range 16).map (wordAt (be (slice b 0 64)) 16)

/-- The chaining value after one more block. -/
def absorb (v : List Nat) (b : Bytes) : List Nat := (rounds 64 0 (blockWords b) v).zipWith (fun x y => wrap (x + y)) v

/-- The chaining value after `n` blocks from the front of `b`. -/
def absorbAll : Nat → List Nat → Bytes → List Nat
  | 0, v, _ => v
  | n + 1, v, b => absorbAll n (absorb v b) (b.drop 64)

/-- What follows the message: one 1 bit, zeros up to 8 bytes short of a block, and the bit count. -/
def ending (len : Nat) : Bytes := toBE 1 128 ++ zeros ((119 - len % 64) % 64) ++ toBE 8 (8 * len)

end Sys2Proof.Machine.Sha

namespace Sys2Proof.Machine

/-- SHA-256 of a byte string: 32 bytes. -/
def sha256 (b : Bytes) : Bytes :=
  let m := b ++ Sha.ending b.length
  (Sha.absorbAll (m.length / 64) Sha.start m).flatMap (toBE 4)

end Sys2Proof.Machine
end

