-- ==== Sys2Proof/Machine/CollOps.lean ====
section
/-!
DEFINITION. Operations on generations: messages, failure (07 R200), re-run requests (12 R351), the Varnish record (13 R370),
DONEs and retirement (07 R211, R212), Diary flushes (15 R425).
-/

namespace Sys2Proof.Machine

/-! Diary flushes. -/

/-- Where spill slot `i` lies (11 R313). -/
def spillAt (i : Nat) : Nat := i * 0x400000

/-- The records a flush copies when HEAD is `h`: from SEQ `first`, `n` of them (15 R425). -/
def flushRange (written : Bool) (h : Nat) : Nat × Nat :=
  if h < 65536 then (if written then (0, min h 65535) else (0, 0)) else (h - 65535, 65535)

/-- A spill slot's header (15 R426). -/
def spillHeader (st cause number first count time : Nat) : Bytes :=
  withCheck (toLE 4 0x52594944 ++ toLE 1 1 ++ toLE 1 st ++ toLE 1 cause ++ toLE 1 0 ++ toLE 4 number ++ toLE 4 first ++
    toLE 4 count ++ toLE 8 time ++ zeros 32)

/-- A flush begins, or waits for the current one (15 R425). -/
def State.startFlush (s : State) (cause : Nat) : State :=
  let d := s.diary
  match d.busy with
  | some _ => { s with diary := { d with pendingCause := some (d.pendingCause.getD cause) } }
  | none =>
    let slot := (d.slot + 1) % 16
    let number := if d.started then d.number + 1 else d.number
    let r := flushRange d.written d.head.toNat
    let hdr := spillHeader 0 cause number r.1 r.2 s.clock.ftime.toNat
    let s := s.putMem (spillAt slot) hdr
    { s with diary := { d with slot, number, started := true, busy := some (cause, d.head.toNat), copied := 0,
                               lastEasel := if cause = 4 then some s.now else d.lastEasel } }

def State.setCopied (s : State) (n : Nat) : State := { s with diary := { s.diary with copied := n } }

/-- The current flush, from SEQ `first`, copies its records `i` to `i + n - 1` to the spill slot. -/
def State.copyRecords (s : State) (first i n : Nat) : State :=
  (s.putMem (spillAt s.diary.slot + 64 + 64 * i)
    ((List.range n).flatMap (fun j => slice (tget [] s.diary.recs ((first + (i + j)) % 65536)) 0 64))).setCopied (i + n)

/-- The current flush copies two records per ACLK, the oldest first (15 R425). -/
def State.copyTwo (s : State) : State :=
  match s.diary.busy with
  | none => s
  | some (_, head) =>
    let r := flushRange s.diary.written head
    let i := s.diary.copied
    let n := min 2 (r.2 - i)
    if s.mem.lostHbm then s else s.copyRecords r.1 i n

/-- A flush of cause EASEL, at least GAP_MS after the last one of this cause began (15 R425). -/
def State.easelFlush (s : State) : State :=
  let go := match s.diary.lastEasel with
    | none => true
    | some t => decide (t + s.diary.gapMs * Config.msAclk ≤ s.now)
  if go then s.startFlush 4 else s

/-! Messages of a context. -/

/-- A frame for a position held here, delivered without crossing a link: its cells lie in ejection space (10 R282). -/
def State.selfDeliver (s : State) (vc ftype : Nat) (body : Bytes) (assoc : Option (Nat × Word × Nat)) : State :=
  let n := flitsOf (32 + body.length)
  s.setFab { s.fab with ejected := tset 0 s.fab.ejected vc (tget 0 s.fab.ejected vc + n), inbox := s.fab.inbox ++
    [{ src := swKey s.fab.hereAddr, vc, ftype, body, cells := n, port := none, assoc }] }

/-- The bucket tag in every frame of a context on VC7 (08 R230). -/
def Ctx.tag (x : Ctx) : Nat := if x.vc = 7 then x.bucket else 0

/-- Cells that the body of a frame takes. -/
def cellsOf (body : Bytes) : Nat := flitsOf (32 + body.length)

/-- A frame that waits in the packet buffer holds cells there, charged to the injection account of its VC (08 R217, 10 R286). -/
def State.holdCells (s : State) (vc : Nat) (body : Bytes) : State :=
  if vc = 1 then s
  else s.setFab { s.fab with injected := tset 0 s.fab.injected vc (tget 0 s.fab.injected vc + cellsOf body) }

/-- The cells of a frame that waited are freed. -/
def State.freeHeld (s : State) (vc : Nat) (body : Bytes) : State :=
  s.freeAccount (if vc = 1 then .none else .inject vc) (cellsOf body)

/-- The virtual channel of a generation's frames (08 R229). -/
def Ctx.vcOf (x : Ctx) (y : Gen) : Nat := if y.path == .hairline then 1 else x.vc

/-- What waited for a switch leaves the packet buffer (08 R217). -/
def State.freeHolds (s : State) (l : List Held) : State := l.foldl (fun s h => if h.stored then s.freeHeld h.vc h.body else s) s

/-- Tiles of a generation that wait for a stage (08 R219, R221), `p` by chunk, go: their cells are freed. -/
def State.dropStaged (s : State) (c : Nat) (num : Word) (p : Nat → Bool) : State :=
  let x := s.ctx c
  match x.gen? num with
  | none => s
  | some y =>
    let out := fun (q : Nat × Nat × Nat × Nat × Bytes) => p (q.2.2.2.1 % 2 ^ 32)
    let on := fun (q : Nat × Nat × Nat × Nat × Bytes) => p (q.2.2.2.1 >>> x.ctLog2)
    let s := (y.staged.filter out ++ y.gather.filter on).foldl (fun s q => s.freeHeld (x.vcOf y) q.2.2.2.2) s
    s.modGen c num (fun y => { y with staged := y.staged.filter (fun q => !out q), gather := y.gather.filter (fun q => !on q) })

/-- A frame of context `c` for the node `a` (08 R216, R217): to its holder; it waits while a context neighbour that it is
addressed to is not confirmed: in the packet buffer where its VC has room, and at its source until then (10 R286). -/
def State.sendNode (s : State) (c a vc ftype : Nat) (body : Bytes) (assoc : Option (Nat × Word × Nat)) : State :=
  let x := s.ctx c
  let g := s.geo x
  let h := g.holder a
  if h = s.fab.hereAddr then s.selfDeliver vc ftype body assoc
  else if g.held.any (fun n => (g.neighbours n).contains a) && !x.confirmed.contains h then
    let room := s.fab.roomFor vc (cellsOf body)
    let s := s.setCtx c { x with held := x.held ++ [{ sw := h, vc, ftype, tag := x.tag, body, stored := room }] }
    if room then s.holdCells vc body else s
  else s.originate (swKey h) vc ftype x.tag body

def State.toNode (s : State) (c a vc ftype : Nat) (body : Bytes) : State := s.sendNode c a vc ftype body none

/-- A stage message (08 R216) that carries fields. -/
def stageMsg (mtype status c : Nat) (g : Word) (f : Fields) (disagree : Bool) (release : Nat) : Bytes :=
  withCheck (toLE 1 mtype ++ toLE 1 status ++ toLE 2 c ++ toLE 4 g.toNat ++ toLE 4 f.rank ++ toLE 1 f.op ++ toLE 1 f.fmt ++
    toLE 1 (b2n disagree) ++ toLE 1 0 ++ toLE 4 f.elements ++ toLE 4 f.root ++ toLE 4 f.shift ++ toLE 8 release ++ zeros 24)

def noFields : Fields := { rank := 0, op := 0, fmt := 0, elements := 0, root := 0, shift := 0 }

/-- A ROSTER message (12 R334). -/
def rosterMsg (rtype status c : Nat) (g : Word) (rank epoch addr reenter first last addr2 aux : Nat) : Bytes :=
  withCheck (toLE 1 rtype ++ toLE 1 status ++ toLE 2 c ++ toLE 4 g.toNat ++ toLE 4 rank ++ toLE 4 epoch ++ toLE 3 addr ++
    toLE 1 reenter ++ toLE 4 first ++ toLE 4 last ++ toLE 3 addr2 ++ toLE 1 aux ++ zeros 28)

/-- A ROSTER message for an endpoint or the authority. -/
def State.rosterTo (s : State) (dest : Nat) (body : Bytes) : State := s.originate dest 0 6 0 body
/-- A ROSTER message for the roster authority, while one is known (12 R335). -/
def State.toAuthority (s : State) (body : Bytes) : State :=
  if bitAt s.health.auth.toNat 24 then s.rosterTo (fld s.health.auth.toNat 0 24) body else s
/-- A ROSTER message for the holder of a node. -/
def State.rosterNode (s : State) (c a : Nat) (body : Bytes) : State :=
  let h := (s.geo (s.ctx c)).holder a
  if h = s.fab.hereAddr then s.selfDeliver 0 6 body none else s.originate (swKey h) 0 6 0 body

/-- A stage message down the tree (08 R223): to the children of every node held here that another switch holds. -/
def State.downTree (s : State) (c : Nat) (body : Bytes) : State :=
  let g := s.geo (s.ctx c)
  ((g.held.flatMap g.children).filter (fun n => g.holder n != s.fab.hereAddr)).foldl (fun s n => s.toNode c n 0 3 body) s

/-! Failure (07 R200). -/

/-- A tile of the stage that a running Intake study is to receive. -/
def Easel.claimed (e : Easel) (t : InTile) : Bool :=
  let g := e.engine .intake
  t.covered && g.st != .idle && g.ctx == t.ctx && g.gen == t.gen && g.chunk.toNat == t.chunk % 2 ^ 32

/-- Start entries and tiles of a generation leave Easel `n`. -/
def State.clearEasel (s : State) (n c : Nat) (num : Word) : State :=
  let e := s.easel n
  let mine := fun (t : InTile) => t.ctx == c && t.gen == num
  let eng := e.eng.map (fun p => (p.1, { p.2 with startq := p.2.startq.filter (fun q => !(q.ctx == c && q.gen == num && !q.test)) }))
  let serving := e.serving.filter (fun v => !(v.ctx == c && v.gen == num))
  let stage := e.stage.filter (fun t => !mine t || e.claimed t)
  let s := s.setEasel n { e with eng, serving, stage, waiting := e.waiting.filter (fun t => !mine t) }
  (e.waiting.filter mine).foldl (fun s t => s.freeEject t.src t.vc t.cells) s

/-- The lowest-ranked of a nonempty list of field sets. -/
def lowestFields : Fields → List Fields → Fields
  | f, [] => f
  | f, g :: l => lowestFields (if g.rank < f.rank then g else f) l

/-- The fields of the lowest rank known here, which a VERDICT of failure carries (assumption 68). -/
def Gen.known (y : Gen) : Fields :=
  match y.enters.map (·.fields) ++ y.summaries.map (·.2.1) with
  | [] => noFields
  | f :: l => lowestFields f l

/-- A failure is reported up the tree; the anchor sends the VERDICT (08 R225). -/
def State.report (s : State) (c : Nat) (num : Word) (status : Nat) : State :=
  let g := s.geo (s.ctx c)
  if g.alone || (s.ctx c).replay then s
  else if g.held.contains g.anchor then
    match (s.ctx c).gen? num with
    | none => s
    | some y => (s.downTree c (stageMsg 0x13 status c num y.known false 0)).modGen c num (fun y => { y with verdict := some (status, y.known) })
  else match g.up with
    | some p => s.toNode c p 0 3 (stageMsg 0x14 status c num noFields false 0)
    | none => s

/-- Generation `num` of context `c` fails here with `status`; a generation that has failed keeps the lowest code (00 R13). -/
def State.failQuiet (s : State) (c : Nat) (num : Word) (status : Nat) : State :=
  match (s.ctx c).gen? num with
  | none => s
  | some y =>
    match y.failed with
    | some k => s.modGen c num (fun y => { y with failed := some (min k status) })
    | none =>
      let x := s.ctx c
      let s := (x.bound.foldl (fun s n => s.clearEasel n c num) s).dropStaged c num (fun _ => true)
      s.modGen c num (fun y => { y with failed := some status, failAt := s.now, chunks := [], release := none, owing := [] })

/-- A failure found here (07 R200): it is to be reported to the other switches at the end of the ACLK, with the lowest code that came up
in it (04 R128). -/
def State.failGen (s : State) (c : Nat) (num : Word) (status : Nat) : State :=
  match (s.ctx c).gen? num with
  | none => s
  | some y =>
    let s := s.failQuiet c num status
    if y.failed.isNone then s.modGen c num (fun y => { y with owed := true }) else s

/-- A failure that is still to be reported is (08 R225). -/
def State.tell (s : State) (c : Nat) (num : Word) : State :=
  match (s.ctx c).gen? num with
  | none => s
  | some y => if y.owed then (s.modGen c num (fun y => { y with owed := false })).report c num (y.failed.getD stOk) else s

/-- The failures of the ACLK that has ended are reported. -/
def State.tellAll (s : State) : State :=
  s.openCtxs.foldl (fun s c => ((s.ctx c).gens.filter (·.owed)).foldl (fun s y => s.tell c y.num) s) s

/-- Ranks whose fields differ from a given set, among the ENTERs accepted (07 R198, 08 R224). -/
def differing (l : List Entered) (f : Fields) : List Nat :=
  (l.filter (fun e => e.fields.differs f)).foldl (fun acc e => insertBy id e.rank acc) []

/-- A generation fails with MISMATCH in the cycle of the first disagreement, with its list, which is formed once (07 R198). -/
def State.mismatch (s : State) (c : Nat) (num : Word) : State :=
  match (s.ctx c).gen? num with
  | none => s
  | some y =>
    let low := y.enters.foldl (fun (m : Entered) e => if e.rank < m.rank then e else m) y.ref
    (s.failGen c num stMismatch).modGen c num (fun z =>
      { z with differ := if z.differ.isEmpty then differing y.enters low.fields else z.differ })

/-! Re-runs (12 R351). -/

/-- A range of chunks that the anchor is asked to run again is merged for 1,250 ACLK. -/
def State.mergeRerun (s : State) (c : Nat) (num : Word) (first last : Nat) : State :=
  let ms := s.coll.merges
  if ms.any (fun m => m.ctx == c && m.gen == num) then
    { s with coll := { s.coll with merges := ms.map (fun m =>
      if m.ctx == c && m.gen == num then { m with first := min m.first first, last := max m.last last } else m) } }
  else { s with coll := { s.coll with merges := ms ++ [{ ctx := c, gen := num, first, last, since := s.now }] } }

/-- A participant asks for chunks to be run again. -/
def State.requestRerun (s : State) (c : Nat) (num : Word) (first last : Nat) : State :=
  let g := s.geo (s.ctx c)
  if (s.ctx c).replay then s.failGen c num stTileCheck
  else if g.held.contains g.anchor then s.mergeRerun c num first last
  else match g.up with
    | none => s
    | some p => s.rosterNode c p (rosterMsg 6 0 c num 0 0 0 0 first last 0 0)

/-! The Varnish record (13 R370-R373). -/

/-- The input list of a position in key order (13 R372). -/
def inputsOf (l : List Input) (pos : Nat) : List Input :=
  insertSort (fun a b => a.stage < b.stage || (a.stage == b.stage && (a.tile < b.tile || (a.tile == b.tile && a.sender < b.sender))))
    (l.filter (fun i => i.chunk / 2 ^ 32 == pos))

/-- A tile enters the input list once (13 R372). -/
def Gen.addInput (y : Gen) (i : Input) : Gen :=
  if y.inputs.any (fun j => j.stage == i.stage && j.tile == i.tile && j.sender == i.sender && j.chunk / 2 ^ 32 == i.chunk / 2 ^ 32)
  then y else { y with inputs := y.inputs ++ [i] }

/-- The image digests of the studies a context uses (13 R371). -/
def State.imageDigests (s : State) (x : Ctx) : Bytes :=
  x.engines.flatMap (fun e => slice ((s.engine x.base e).studyAt (x.studyOf e)).digest 0 32)

/-- DIGEST (13 R371). -/
def State.varnishDigest (s : State) (x : Ctx) (ins : List Input) : Bytes :=
  sha256 (s.imageDigests x ++ x.rosterDigest ++ sha256 (tableBytes s.formats) ++ x.tmpl ++ ins.flatMap (fun i => toLE 4 i.check))

/-- Whether block scales were carried (03 R95). -/
def State.carried (s : State) (x : Ctx) : Bool :=
  x.carrySrc && x.lastValid && x.lastStat == stOk &&
    (match fmtOf s.formats x.transit with | some f => f.block | none => false)

/-- The Varnish record of a generation at a position (13 R370). -/
def State.varnish (s : State) (c : Nat) (x : Ctx) (y : Gen) (pos : Nat) (captured : Bool) : Bytes :=
  let ins := inputsOf y.inputs pos
  let st := y.failed.getD stOk
  let dig := if st = stOk then s.varnishDigest x ins else zeros 32
  let k := y.note pos
  let bits := b2n k.nd + 2 * b2n (k.flags &&& fFlushed != 0) + 4 * b2n (k.flags &&& fSaturated != 0) + 8 * b2n (k.promos != 0) +
    16 * b2n x.strictAtOpen + 32 * b2n captured + 64 * b2n (s.carried x)
  withCheck (dig ++ toLE 4 y.num.toNat ++ toLE 2 c ++ toLE 1 1 ++ toLE 1 bits ++ toLE 4 (min k.promos 0xFFFFFFFF) ++ toLE 4 ins.length ++
    toLE 3 (s.fab.indexOf ((s.geo x).node pos)) ++ zeros 9)

/-! DONE (07 R211). -/

/-- DONE of a rank whose home is position `pos`. -/
def doneBody (st c : Nat) (y : Gen) (pos : Nat) (e : Entered) : Bytes :=
  let l := if st = stMismatch then y.differ else []
  withCheck (toLE 1 3 ++ toLE 1 st ++ toLE 2 c ++ toLE 4 y.num.toNat ++ toLE 4 e.rank ++ toLE 4 e.epoch ++ toLE 4 (y.note pos).flags.toNat ++
    toLE 4 l.length ++ slice ((l.take 8).flatMap (toLE 4)) 0 32 ++ zeros 4)

/-- Whether a rank may be sent results and DONEs (12 R341). -/
def Ctx.reachable (x : Ctx) (r : Nat) : Bool := (x.rank r).live

/-- The DONEs of a generation, in ascending rank (07 R211, R212); `captured` lists the positions that were captured. -/
def State.sendDones (s : State) (c : Nat) (y : Gen) (captured : List Nat) : State :=
  let x := s.ctx c
  let st := y.failed.getD stOk
  let g := s.geo x
  let vc := x.vcOf y
  (y.enters.foldl (fun acc e => insertBy (·.rank) e acc) ([] : List Entered)).foldl (fun s e =>
    if x.reachable e.rank then
      let pos := g.held.idxOf (x.homeOf e.rank)
      s.originate (x.rank e.rank).endpoint vc 1 x.tag (doneBody st c y pos e ++ s.varnish c x y pos (captured.contains pos))
    else s) s

/-! Captures (13 R375). -/

/-- A capture's header (13 R375) of a generation at one position. -/
def captureHeader (cst st c : Nat) (gen : Word) (route log2 first last : Nat) (sections : List (Nat × Nat)) (varnish : Bytes) : Bytes :=
  let h := toLE 4 0x56524E43 ++ toLE 1 1 ++ toLE 1 cst ++ toLE 1 st ++ toLE 1 0 ++ toLE 4 gen.toNat ++ toLE 2 c ++ toLE 3 route ++
    toLE 1 log2 ++ zeros 6 ++ toLE 4 first ++ toLE 4 last ++ sections.flatMap (fun p => toLE 4 p.1 ++ toLE 4 p.2) ++ slice varnish 0 64
  let h := slice h 0 4092
  h ++ toLE 4 (crc32c h)

/-- The State section (13 R375 step 1). The roster entries are those whose homes the roster digest names; a block with no carried scale
has 0xFF (assumption 33). -/
def State.captureState (s : State) (x : Ctx) (y : Gen) (pos first last : Nat) : Bytes :=
  let node := (s.geo x).node pos
  let tiles := ((List.range (s.chunkCount x y)).filter (fun ch => decide (first ≤ ch) && decide (ch ≤ last))).flatMap (s.chunkTiles x y)
  let carry := if s.carried x then tiles.flatMap (fun t => match x.carry.find? (fun p => p.1 == node && p.2.1 == t) with
      | some p => p.2.2 ++ List.replicate (32 - p.2.2.length) 0xFF
      | none => List.replicate 32 0xFF)
    else []
  x.tmpl ++ (List.range x.rosterN).flatMap (fun r => toLE 4 (x.rank r).first ++ toLE 4 (x.rank r).epoch) ++ toLE 4 x.rosterN ++
    tableBytes s.formats ++ toLE 4 x.hairMax ++ toLE 4 x.treeMax ++ toLE 4 (x.rmode + 8 * b2n x.flushBit) ++ toLE 8 x.seedField ++ carry

/-- The Images section (13 R375 step 2): each image whose digest enters the record, once. -/
def State.captureImages (s : State) (x : Ctx) : Bytes :=
  (x.engines.map (fun e => ((s.engine x.base e).studyAt (x.studyOf e)).image)).eraseDups.flatten

/-- What a capture holds (13 R375): its four sections. -/
def State.captureSections (s : State) (x : Ctx) (y : Gen) (pos first last : Nat) : List Bytes :=
  let inRange := fun (k : Nat) => k / 2 ^ 32 == pos && decide (first ≤ k % 2 ^ 32) && decide (k % 2 ^ 32 ≤ last)
  let ins := (inputsOf y.inputs pos).filter (fun i => inRange i.chunk)
  let arr := (y.inputs.filter (fun i => inRange i.chunk)).map (fun i => ins.idxOf i)
  let outs := insertSort (fun (a b : Nat × Nat × Bytes) => a.1 < b.1 || (a.1 == b.1 && a.2.1 < b.2.1))
    ((y.outputs.filter (fun o => o.1 == pos)).map (·.2) |>.filter (fun o => decide (first ≤ o.2.1 >>> x.ctLog2) && decide (o.2.1 >>> x.ctLog2 ≤ last)))
  [s.captureState x y pos first last, s.captureImages x,
   ins.flatMap (·.bytes) ++ (if (y.note pos).nd then arr.flatMap (toLE 4) else []), outs.flatMap (fun o => o.2.2)]

/-- Offsets and lengths of sections that follow the header. -/
def sectionTable : Nat → List Bytes → List (Nat × Nat)
  | _, [] => []
  | off, b :: l => (off, b.length) :: sectionTable (off + b.length) l

/-- The captures of a generation that runs. -/
def State.capturing (s : State) (c : Nat) (num : Word) : List Capture :=
  s.coll.captures.filter (fun k => k.going && k.st != 3 && k.ctx == c && k.gen == num)

/-- Where a capture that is being written begins: behind those whose generations have retired. -/
def State.captureAt (s : State) (k : Capture) : Nat :=
  s.coll.captures.foldl (fun b j => if j.going then b else max b (j.base + j.len)) k.base

/-- The bytes of a capture. -/
def captureSize (secs : List Bytes) : Nat := 4096 + (secs.map List.length).sum

/-- A capture whose next byte would pass the end of its region is TRUNCATED, and the generation runs on (13 R376). -/
def State.truncateOne (s : State) (c : Nat) (x : Ctx) (y : Gen) (k : Capture) : State :=
  let secs := s.captureSections x y k.pos k.first k.last
  let room := s.mem.sketchBase - s.captureAt k
  if k.st != 0 || decide (captureSize secs ≤ room) then s
  else
    let s := ({ s with coll := { s.coll with captures := s.coll.captures.map (fun j => if j == k then { j with st := 2 } else j) } } :
      State).interrupt k.owner 7
    if k.pos != 0 then s
    else s.putMem k.base ((captureHeader 2 0 c y.num (s.fab.indexOf ((s.geo x).node 0)) x.log2 k.first k.last (List.replicate 4 (0, 0)) []).take
      (s.mem.sketchBase - k.base))

/-- The captures are held to the room of their region. -/
def State.truncateAll (s : State) : State :=
  if s.board.warmSeq then s
  else (s.coll.captures.filter (fun k => k.going && k.st == 0)).foldl (fun s k =>
    match (s.ctx k.ctx).gen? k.gen with
    | some y => s.truncateOne k.ctx (s.ctx k.ctx) y k
    | none => s) s

/-- The capture of one position being written is closed when its generation retires (13 R376). -/
def State.closeOne (s : State) (c : Nat) (x : Ctx) (y : Gen) (k : Capture) : State :=
  let secs := s.captureSections x y k.pos k.first k.last
  let total := captureSize secs
  let base := s.captureAt k
  let room := s.mem.sketchBase - base
  let cst := if k.st != 2 && decide (total ≤ room) then 1 else 2
  let len := min total room
  let hdr := captureHeader cst (y.failed.getD stOk) c y.num (s.fab.indexOf ((s.geo x).node k.pos)) x.log2 k.first k.last
    (sectionTable 4096 secs) (s.varnish c x y k.pos true)
  let done := fun (j : Capture) => if j == k then { j with base, len, st := cst, going := false } else j
  let s := s.putMem base ((hdr ++ secs.flatten).take len)
  let s : State := { s with coll := { s.coll with captures := s.coll.captures.map done } }
  if k.st = 2 then s else s.interrupt k.owner 7

/-- Every capture of the generation is closed, in the order of the positions; the sequence of 11 R327 writes no more memory. -/
def State.closeCapture (s : State) (c : Nat) (x : Ctx) (y : Gen) : State :=
  if s.board.warmSeq then s
  else (s.capturing c y.num).foldl (fun s k => s.closeOne c x y k) s

/-! Contexts come and go. -/

/-- ENTER_ACK (07 R196). -/
def State.enterAck (s : State) (src vc : Nat) (enter : Bytes) (status : Nat) : State :=
  let c := leAt enter 2 2 % 4096
  s.originate src vc 1 (s.ctx c).tag (withCheck (toLE 1 2 ++ toLE 1 status ++ slice enter 2 14 ++ zeros 44))

/-- A context returns to FREE and its reservation is released (07 R191, R192). ENTERs that waited are refused with STATE; the
commands that wait for the context complete: an OPEN or a REPLAY with STATE, a CLOSE or an ABORT with OK. -/
def State.freeCtx (s : State) (c : Nat) : State :=
  let x := s.ctx c
  let s := s.setCtx c {}
  let s := { s with coll := { s.coll with
    opens := s.coll.opens.filter (fun o => o.ctx != c), accums := s.coll.accums.filter (fun a => a.ctx != c),
    merges := s.coll.merges.filter (fun m => m.ctx != c), noted := s.coll.noted.filter (fun p => p.1 != c),
    armed := match s.coll.armed with | some a => if a.ctx == c then none else some a | none => none,
    replays := s.coll.replays.filter (fun r => r.ctx != c) } }
  let s := s.freeHolds x.held
  let s := x.waits.foldl (fun s w => (s.enterAck w.src w.vc w.body stState).freeEject w.src w.vc w.cells) s
  ((s.endWaits (WaitsOn.isOpen c) stState []).endWaits (WaitsOn.isReplay c) stState []).endWaits (WaitsOn.isFree c) stOk []

/-- Where the phase-one result of a LOWRANK context lies: the last quarter of its reservation (08 R227; assumption 69). -/
def Ctx.keptBase (x : Ctx) : Nat := x.sketchBase + x.mib * 2 ^ 20 / 4 * 3

/-- Number, address and length of tiles kept from an address on. -/
def keptTable : Nat → List (Nat × Bytes) → List (Nat × Nat × Nat)
  | _, [] => []
  | a, (t, b) :: l => (t, a, b.length) :: keptTable (a + b.length) l

/-- The tiles are written to memory. -/
def State.keepTiles (s : State) (a : Nat) (l : List (Nat × Bytes)) : State :=
  if s.board.warmSeq then s else s.putMem a (l.flatMap (·.2))

/-- Generation `y` retires (07 R212): its DONEs, its capture, the context's counters; a DRAINING context whose last generation
retires returns to FREE. -/
def State.retireGen (s : State) (c : Nat) (y : Gen) : State :=
  let s := s.tell c y.num
  let x := s.ctx c
  let g := s.geo x
  let st := y.failed.getD stOk
  let captured := if s.board.warmSeq then [] else (s.capturing c y.num).map (·.pos)
  let s := s.closeCapture c x y
  let s := if y.dones then s else s.sendDones c y captured
  let tiles := if x.op = 0xE && y.num.toNat % 2 = 0 then (y.outputs.filter (fun o => o.2.1 == 8)).map (fun o => (o.2.2.1, o.2.2.2)) else []
  let kept := if x.op != 0xE then x.kept else if y.num.toNat % 2 = 0 then some (y.num, st, keptTable x.keptBase tiles) else none
  let s := s.keepTiles x.keptBase tiles
  let s := s.setCtx c { x with
    gens := x.gens.filter (fun z => z.num != y.num), gLow := y.num + 1, lastGen := y.num, lastStat := st, lastValid := true,
    carry := if st = stOk then y.notes.flatMap (fun k => k.2.carry.map (fun p => (g.node k.1, p))) else [], kept }
  let s := { s with coll := { s.coll with accums := s.coll.accums.filter (fun a => !(a.ctx == c && a.gen == y.num)) } }
  if x.st == .draining && (s.ctx c).gens.isEmpty then s.freeCtx c else s

/-- Every generation in flight fails with `status` and retires, in ascending order. -/
def State.failAll (s : State) (c status : Nat) : State :=
  let nums := ((s.ctx c).gens.map (·.num.toNat)).foldl (fun acc n => insertBy (fun m => dist32 (s.ctx c).gLow.toNat m) n acc) []
  nums.foldl (fun s n =>
    let s := s.failGen c (BitVec.ofNat 32 n) status
    match (s.ctx c).gen? (BitVec.ofNat 32 n) with
    | some y => s.retireGen c y
    | none => s) s

end Sys2Proof.Machine
end

