-- ==== Sys2Proof/Machine/RecoveryOps.lean ====
section
/-!
DEFINITION. Fencing, health and expulsion as shared operations (12 R337-R342, R357, R358).
-/

namespace Sys2Proof.Machine

/-- The ROSTER message that names a rank, its epoch and an address (12 R335: FENCE, FENCED, REJOIN). -/
def rankMsg (rtype status c r epoch addr : Nat) : Bytes := rosterMsg rtype status c 0 r epoch addr 0 0 0 0 0

/-- A message to the context-tree parent and children of the nodes held here, but not to `skip` (12 R340). -/
def State.spread (s : State) (c : Nat) (skip : Option Nat) (body : Bytes) : State :=
  let g := s.geo (s.ctx c)
  let me := s.fab.hereAddr
  ((g.held.flatMap (fun a => (g.parent a).toList ++ g.children a)).eraseDups.filter (fun a =>
    g.holder a != me && some (g.holder a) != skip)).foldl (fun s a => s.rosterNode c a body) s

/-- Whether rank `r` is local here (07 R189). -/
def State.isLocal (s : State) (x : Ctx) (r : Nat) : Bool := (s.geo x).held.contains (x.homeOf r)

/-- What becomes of the generations in flight when a local rank is fenced (12 R342). -/
def State.fenceGens (s : State) (c : Nat) : State :=
  let x := s.ctx c
  x.gens.foldl (fun s y =>
    if y.failed.isSome || y.path == .hairline || (isSum x.op && y.path != .direct) || x.op == 0xA then s
    else s.failGen c y.num stFenced) s

/-- FENCED goes to an endpoint; the next for a frame of it goes 1 ms later (12 R341). -/
def State.sendFenced (s : State) (ep : Nat) (m : Bytes) : State :=
  ({ s with coll := { s.coll with fencedSent := (ep, s.now) :: s.coll.fencedSent.filter (fun p => p.1 != ep) } } : State).rosterTo ep m

/-- A home fences the current epoch of rank `r` (12 R338-R342). -/
def State.fenceRank (s : State) (c r : Nat) (skip : Option Nat) : State :=
  let x := s.ctx c
  let k := x.rank r
  if !k.live then s
  else
    let s := s.setCtx c { x with roster := tput x.roster r { k with live := false, fenced := k.epoch } }
    let s := s.spread c skip (rankMsg 2 0 c r k.epoch 0)
    let m := rankMsg 3 stFenced c r k.epoch k.endpoint
    let s := (s.toAuthority m).sendFenced k.endpoint m
    s.fenceGens c

/-- Every local rank that names an endpoint is fenced, in every context (12 R338). -/
def State.fenceEndpoint (s : State) (ep : Nat) : State :=
  s.openCtxs.foldl (fun s c =>
    let x := s.ctx c
    if x.st == .ready || x.st == .draining then
      ((x.roster.filter (fun q => q.2.endpoint == ep && q.2.live && s.isLocal x q.1)).map (·.1)).foldl (fun s r => s.fenceRank c r none) s
    else s) s

/-- Whether a rank naming the endpoint is fenced in some context (12 R363 HEALTHe). -/
def State.endpointFenced (s : State) (ep : Nat) : Bool :=
  s.openCtxs.any (fun c => (s.ctx c).roster.any (fun q => q.2.endpoint == ep && !q.2.live))

/-- The endpoint of edge index `e` here (09 R252). -/
def State.edgeAddr (s : State) (e : Nat) : Nat := s.fab.hereAddr + e

/-- EXPEL (12 R358). -/
def State.sendExpel (s : State) (e status : Nat) : State :=
  ((s.toAuthority (rosterMsg 9 status 0 0 0 0 (s.edgeAddr e) 0 0 0 0 (tget 0 s.health.score e))).interruptAll 8).alertBit 5

/-- An expulsion with a token taken (12 R358). -/
def State.expel (s : State) (e : Nat) : State :=
  let s := { s with health := { s.health with tokens := s.health.tokens - 1, impaired := s.health.impaired.filter (· != e) } }
  (s.fenceEndpoint (s.edgeAddr e)).sendExpel e stOk

/-- An endpoint whose score has reached HEALTH_LIMIT asks to be expelled (12 R358). -/
def State.expulsion (s : State) (e : Nat) : State :=
  let h := s.health
  if tget 0 h.score e < h.limit || h.impaired.contains e || s.endpointFenced (s.edgeAddr e) then s
  else if h.tokens > 0 then s.expel e
  else ({ s with health := { h with impaired := h.impaired ++ [e] } } : State).sendExpel e stImpaired

/-- A health event traced to an attached endpoint (12 R357). -/
def State.addHealth (s : State) (ep w : Nat) : State :=
  if switchOf ep = s.fab.hereAddr then
    let e := edgeOf ep
    ({ s with health := { s.health with score := tset 0 s.health.score e (min 255 (tget 0 s.health.score e + w)) } } : State).expulsion e
  else s

/-- The rank that supplied a tile, by its number and CHECK in the generation's input list (06 R178): the sender of a contribution; of a
tile from another home, what its number or the operation tells. A partial has none, nor has a tile that was loaded. -/
def State.sourceOf (s : State) (c : Nat) (g : Word) (tile check : Nat) : Option Nat :=
  let x := s.ctx c
  match x.gen? g with
  | none => none
  | some y => (y.inputs.find? (fun i => i.tile == tile && i.check == check)).bind (fun i =>
      if i.stage = 0 then some i.sender
      else if blockNumbered x.op then some (i.tile / max 1 (s.tilesPer x y.ref.elements))
      else if x.op = 5 then some y.ref.root
      else none)

def State.healthOf (s : State) (c : Nat) (src : Option Nat) (w : Nat) : State :=
  match src with
  | some r => s.addHealth ((s.ctx c).rank r).endpoint w
  | none => s

end Sys2Proof.Machine
end

