-- ==== Sys2Proof/Machine/Operands.lean ====
section
/-!
DEFINITION. The fields of instruction words, their classes, and Tray addresses (05 R138-R141, 04 R102).
-/

namespace Sys2Proof.Machine

/-! Field positions of 05 R139. -/
def IWord.f (w : IWord) (lo len : Nat) : Nat := fld w.toNat lo len
def wD (w : IWord) : Nat := IWord.f w 51 5
def wA (w : IWord) : Nat := IWord.f w 46 5
/-- Format R. -/
def rB (w : IWord) : Nat := IWord.f w 41 5
def rC (w : IWord) : Nat := IWord.f w 36 5
def rFA (w : IWord) : Nat := IWord.f w 31 5
def rFD (w : IWord) : Nat := IWord.f w 26 5
def rMOD (w : IWord) : Nat := IWord.f w 16 10
/-- Format T. -/
def tAX (w : IWord) : Nat := IWord.f w 45 1
def tADDR (w : IWord) : Nat := IWord.f w 26 19
def tFMT (w : IWord) : Nat := IWord.f w 21 5
def tB (w : IWord) : Nat := IWord.f w 16 5
def tSEM (w : IWord) : Nat := IWord.f w 11 5
def tMOD (w : IWord) : Nat := IWord.f w 0 8
/-- Format I. -/
def iMOD (w : IWord) : Nat := IWord.f w 40 6
def iIMM (w : IWord) : Nat := IWord.f w 0 32
/-- Format B. -/
def bK (w : IWord) : Nat := IWord.f w 54 2
def bCOND (w : IWord) : Nat := IWord.f w 52 2
def bCSRC (w : IWord) : Nat := IWord.f w 50 2
def bCREG (w : IWord) : Nat := IWord.f w 45 5
def bCIMM (w : IWord) : Nat := IWord.f w 29 16
def bADDR (w : IWord) : Nat := IWord.f w 0 12
/-- Format Y. -/
def ySEM (w : IWord) : Nat := IWord.f w 51 5
def yAMT (w : IWord) : Nat := IWord.f w 43 8
def yENG (w : IWord) : Nat := IWord.f w 40 3
def ySCOPE (w : IWord) : Nat := IWord.f w 38 2
def yLEVEL (w : IWord) : Nat := IWord.f w 35 3
def ySP (w : IWord) : Nat := IWord.f w 30 4

/-- The used fields, as (lowest bit, width). -/
abbrev Used := List (Nat × Nat)

def fldD : Nat × Nat := (51, 5)
def fldA : Nat × Nat := (46, 5)
def fldRB : Nat × Nat := (41, 5)
def fldRC : Nat × Nat := (36, 5)
def fldFA : Nat × Nat := (31, 5)
def fldFD : Nat × Nat := (26, 5)
/-- The low `n` bits of MOD in format R. -/
def modR (n : Nat) : Nat × Nat := (16, n)
/-- A, AX and TADDR: the Tray address of format T. -/
def fldTray : Used := [(46, 5), (45, 1), (26, 19)]
def fldFMT : Nat × Nat := (21, 5)
def fldTB : Nat × Nat := (16, 5)
def fldSEM : Nat × Nat := (11, 5)
def modT (n : Nat) : Nat × Nat := (0, n)
/-- The low `n` bits of IMM. -/
def immI (n : Nat) : Nat × Nat := (0, n)

/-- Every bit outside the used fields is zero (05 R138, R139). -/
def reservedOk (w : IWord) (u : Used) : Bool :=
  w.toNat &&& (2 ^ 56 - 1 - u.foldl (fun m f => m ||| ((2 ^ f.2 - 1) <<< f.1)) 0) == 0

/-- A scalar register (05 R140). -/
def isS (n : Nat) : Bool := decide (n < 16)
/-- A counter. -/
def isC (n : Nat) : Bool := decide (n < 8)
/-- A comparator, or a tile slot. -/
def isK (n : Nat) : Bool := decide (n < 4)
/-- A pair operand (05 R140). -/
def isPair (n : Nat) : Bool := decide (n < 16) && n % 2 == 0

/-- The 64-bit value of a pair (05 R140). -/
def Engine.pair (g : Engine) (n : Nat) : DWord := BitVec.ofNat 64 ((g.s' n).toNat + (g.s' (n + 1)).toNat * 2 ^ 32)

/-- The Tray address of format T (05 R141). -/
def Engine.trayAddr (g : Engine) (w : IWord) : Nat :=
  tADDR w + (if tAX w = 1 then fld (g.s' (wA w)).toNat 0 19 else 0)

/-- A Tray address taken from a scalar register (05 R141). -/
def Engine.sAddr (g : Engine) (n : Nat) : Nat := fld (g.s' n).toNat 0 19

/-- An aligned access of `len` bytes that stays in the Tray (04 R102). -/
def trayOk (a len : Nat) : Bool := a % 32 == 0 && (len == 0 || decide (a + len ≤ Config.trayBytes))

/-- Whether two Tray areas share a byte. -/
def overlap (a n b m : Nat) : Bool := n != 0 && m != 0 && decide (a < b + m) && decide (b < a + n)

end Sys2Proof.Machine
end

