-- ==== Sys2Proof/Machine/Issue.lean ====
section
/-!
DEFINITION. Issue (04 R105-R108), engine faults (R127), failed checks (06 R177, R178), landing of writes, start entries.
-/

namespace Sys2Proof.Machine

/-! The causes of 04 R127. -/
def cUnitBusy : Nat := 1
def cLoopDepth : Nat := 2
def cPcRange : Nat := 3
def cSemOverflow : Nat := 4
def cWaitTimeout : Nat := 5
def cTrayRange : Nat := 6
def cSemUnbalanced : Nat := 7
def cIllegal : Nat := 8
def cInstr : Nat := 9

/-! Register kinds of W1C bits set by hardware (`State.hot`): 0 ALERT, 1 FSTAT, 2 EASEL_STATUS.FAULTED, 3 ENG_FAULT.VALID,
4 CMD_ERR. Engines are indexed 8 × Easel + engine. -/
def engIdx (n : Nat) (e : EngId) : Nat := 8 * n + e.id

/-- Every engine of the Easel and of its top-level group stops at the end of this cycle (04 R127, 06 R177). -/
def State.stopGroup (s : State) (n : Nat) (isFault : Bool) : State :=
  (s.members n).foldl (fun s m => s.modEasel m (fun x =>
    { x with stopAt := some (x.stopAt.getD s.now), stopIsFault := x.stopIsFault || isFault,
             faultAt := if isFault then some s.now else x.faultAt })) s

/-- The context and generation an engine serves; a START run serves none (14 R397). -/
def Engine.serves (g : Engine) : Nat × Word := if g.test then (4096, 0) else (g.ctx, g.gen)
/-- The chunk an engine serves, with its position. -/
def Engine.key (g : Engine) : Nat := g.chunk.toNat + 2 ^ 32 * g.pos

/-- An engine fault (04 R127). The instruction has no effect. An engine that a landing faults still issues in that cycle. -/
def State.engineFault (s : State) (n : Nat) (e : EngId) (cause status pc : Nat) : State :=
  let g := s.engine n e
  let s := s.setEngine n e { g with fault := { cause, status, pc, valid := true } }
  let s := (s.modEasel n (fun x => { x with faulted := true })).stopGroup n true
  let s := ((s.setHot 2 n 0).setHot 3 (engIdx n e) 0).noteEasel 127 0 n status [cause, status, pc]
  s.easelFlush.failGen g.serves.1 g.serves.2 status

/-- A failed check stops the group; its other effects come at the end of the ACLK. -/
def State.addCheck (s : State) (n : Nat) (k : BadCheck) : State :=
  (s.stopGroup n false).modEasel n (fun x => { x with checks := x.checks ++ [k] })

/-- A failed check (06 R177): the point of use, the tile's number and chunk, and the chunk it is charged to. -/
def State.checkFail (s : State) (n point tile chunk check c : Nat) (num : Word) (own : Nat) : State :=
  (s.noteEasel 177 0 n stTileCheck [point, s.physical n, tile, chunk]).addCheck n
    { at' := s.now, sparse := false, tile, chunk, check, ctx := c, gen := num, own }

/-- Inconsistent sparse metadata (06 R178). The record of a tile with no source rank, a partial or one that was loaded, names rank 0 (DESIGN
CHOICE, assumption 74). -/
def State.sparseFail (s : State) (n tile check c : Nat) (num : Word) : State :=
  (s.noteEasel 178 0 n stSparse [(s.sourceOf c num tile check).getD 0]).addCheck n
    { at' := s.now, sparse := true, tile, chunk := 0, check, ctx := c, gen := num, own := 0 }

/-- The effects of a failed check (06 R177, R178). What a third one in a chunk does follows at the return to idle. -/
def State.applyCheck (s : State) (k : BadCheck) : State :=
  let src := s.sourceOf k.ctx k.gen k.tile k.check
  if k.sparse then (s.easelFlush.healthOf k.ctx src 32).failGen k.ctx k.gen stSparse
  else (s.easelFlush.healthOf k.ctx src 8).modGen k.ctx k.gen (fun y =>
    if y.failed.isSome then y else y.modChunk k.own (fun x => { x with runs := x.runs + 1 }))

/-- The failed checks of the ACLK that has ended take effect; one that fell in the ACLK of an engine fault of the group is recorded
only (06 R179). -/
def State.settleChecks (s : State) (n : Nat) : State :=
  let x := s.easel n
  if x.checks.isEmpty then s
  else (x.checks.filter (fun k => x.faultAt != some k.at')).foldl (fun s k => s.applyCheck k)
    (s.setEasel n { x with checks := [] })

/-! Landing (04 R105, R107). -/

def setFlags (s : State) (n : Nat) (e : EngId) (f : BitVec 7) (c : Nat) (num : Word) (pos : Nat) : State :=
  let s := s.modEngine n e (fun g => { g with fstat := g.fstat ||| f })
  let s := (List.range 7).foldl (fun s b => if bitAt f.toNat b then s.setHot 1 (engIdx n e) b else s) s
  s.modGen c num (fun y => y.addFlags pos f)

/-- One write lands. -/
def State.landOne (s : State) (n : Nat) (e : EngId) : Landing → State
  | .sreg k v => s.modEngine n e (fun g => { g with s := tset 0 g.s k v })
  | .creg k v => s.modEngine n e (fun g => { g with c := tset 0 g.c k v })
  | .kreg k v => s.modEngine n e (fun g => { g with k := tset {} g.k k v })
  | .vreg k v => s.modEngine n e (fun g => { g with v := tset 0 g.v k v })
  | .slot q x => s.modEngine n e (fun g => { g with slots := tset {} g.slots q x })
  | .tray a b => s.modEasel n (fun x => { x with tray := putBytes 0 x.tray a b })
  | .fmode m fl => s.modEngine n e (fun g => { g with rmode := m, flush := fl })
  | .seed v => s.modEngine n e (fun g => { g with seed := v })
  | .flags f c num pos => setFlags s n e f c num pos
  | .clear f => s.modEngine n e (fun g => { g with fstat := g.fstat &&& ~~~f })
  | .promos k c num key => s.modGen c num (fun y => y.addPromos key k)
  | .checkFail p t ch ck c num own => s.checkFail n p t ch ck c num own
  | .sparseFail t ck c num => s.sparseFail n t ck c num
  | .fieldFault pc => s.engineFault n e cInstr stBadField pc
  | .study b => s.modEngine n e (fun g => { g with pc := b })
  | .noLoops => s.modEngine n e (fun g => { g with loops := [] })

def Landing.isClear : Landing → Bool
  | .clear _ => true
  | _ => false

/-- The Tray bytes that a landing of engine `e` writes. -/
def Pending.wrote (p : Pending) (e : EngId) (now : Nat) : Option Wrote :=
  match p.what with
  | .tray a b => some { at' := now, a, len := b.length, by' := if e = .intake then some p.issued else none }
  | _ => none

/-- Tray bytes written in this ACLK are kept for the pieces of LOAD and GATHER that land in it (04 R107). -/
def Easel.addWrote (x : Easel) (now : Nat) (l : List Wrote) : Easel :=
  { x with wrote := x.wrote.filter (fun w => w.at' == now) ++ l }

/-- The writes of one engine that are due land in issue order, flag clears before flags (02 R57). -/
def State.landEngine (s : State) (n : Nat) (e : EngId) : State :=
  let g := s.engine n e
  let due := g.pend.filter (fun p => decide (p.due ≤ s.now))
  if due.isEmpty then s
  else
    let s := s.setEngine n e { g with pend := g.pend.filter (fun p => !decide (p.due ≤ s.now)) }
    let s := s.modEasel n (fun x => x.addWrote s.now (due.filterMap (fun p => p.wrote e s.now)))
    (due.filter (·.what.isClear) ++ due.filter (fun p => !p.what.isClear)).foldl (fun s p => s.landOne n e p.what) s

/-- The writes of every engine land, in ascending engine ID (04 R107). -/
def State.landAll (s : State) : State :=
  (s.easels.map (·.1)).foldl (fun s n => EngId.all.foldl (fun s e => s.landEngine n e) s) s

/-! Scheduling. -/

/-- A write with update cycle `due`. -/
def State.sched (s : State) (n : Nat) (e : EngId) (due : Nat) (l : Landing) : State :=
  s.modEngine n e (fun g => { g with pend := g.pend ++ [{ due, what := l, issued := s.now }] })
/-- A write of latency `l` issued now. -/
def State.after (s : State) (n : Nat) (e : EngId) (l : Nat) (w : Landing) : State := s.sched n e (s.now + l) w
/-- Flags of latency `l`, also for the generation's flag word. -/
def State.raise (s : State) (n : Nat) (e : EngId) (l : Nat) (f : BitVec 7) : State :=
  let g := s.engine n e
  if f = 0 then s else s.after n e l (.flags f g.serves.1 g.serves.2 g.pos)
/-- The unit accepts nothing new for `k` cycles (04 R108). -/
def State.occupy (s : State) (n : Nat) (e : EngId) (u : UnitId) (k : Nat) : State :=
  s.modEngine n e (fun g => { g with busy := (u, s.now + k) :: g.busy.filter (fun p => p.1 != u) })
def State.unitBusy (s : State) (n : Nat) (e : EngId) (u : UnitId) : Bool :=
  (s.engine n e).busy.any (fun p => p.1 == u && decide (s.now < p.2))

/-! Issue. -/

/-- Where an engine goes after an instruction: on in order, to a branch's target, past a skipped body, into a loop, or as the
instruction itself has set it (END). -/
inductive Next where
  | seq
  | branch (pc : Nat)
  | skip (pc : Nat)
  | loop (l : Level)
  | set

/-- What an instruction answers: a fault, or the state it leaves and where the engine goes. -/
inductive Res where
  | fault (cause status : Nat)
  | go (s : State) (k : Next)

def illegal : Res := .fault cIllegal stBadField
def badField : Res := .fault cInstr stBadField
def trayRange : Res := .fault cTrayRange stBadField
def busyFault : Res := .fault cUnitBusy stState

/-- After the instruction at `pc` (04 R122): the next PC and the loop stack. -/
def afterIssue (pc : Nat) : List Level → Nat × List Level
  | [] => (pc + 1, [])
  | l :: ls =>
    if pc = l.last then
      if l.left ≤ 1 then afterIssue pc ls
      else (l.first, { l with left := l.left - 1, idx := l.idx + 1 } :: ls)
    else (pc + 1, l :: ls)

/-- A taken branch pops every level whose body it leaves (04 R122). -/
def popOutside (pc : Nat) (l : List Level) : List Level := l.filter (fun v => decide (v.first ≤ pc) && decide (pc ≤ v.last))

/-- The engine after issue in cycle `t` (04 R106, R119, R120, R122). -/
def Engine.advance (g : Engine) (t : Nat) : Next → Engine
  | .seq => { g with pc := (afterIssue g.pc g.loops).1, loops := (afterIssue g.pc g.loops).2, nextIssue := t + 1 }
  | .branch pc => { g with pc, loops := popOutside pc g.loops, nextIssue := t + 3 }
  | .skip pc => { g with pc, nextIssue := t + 3 }
  | .loop l => { g with pc := g.pc + 1, loops := l :: g.loops, nextIssue := t + 1 }
  | .set => g

/-- Whether engine `e` of Easel `n` issues in this cycle (04 R106, R127). -/
def State.canIssue (s : State) (n : Nat) (e : EngId) : Bool :=
  let x := s.easel n
  let g := s.engine n e
  s.computing && s.aclk && x.power == .awake && (g.st == .run || g.st == .switch) && g.hold.isNone && decide (g.nextIssue ≤ s.now) &&
    (match x.stopAt with | none => true | some t => t == s.now)

/-- The PC lies in the running study (04 R127 PC_RANGE). -/
def Engine.inStudy (g : Engine) (pc : Nat) : Bool :=
  let j := g.studyAt g.study
  decide (j.base ≤ pc) && decide (pc < j.base + j.len)

/-- The word of an instruction (05 R138). -/
def wordOf (op : Nat) (w : IWord) : DWord := BitVec.ofNat 64 (op * 2 ^ 56 + w.toNat)

/-- An opcode that the tables of 05 R143 to R157 list for the engine. -/
def opListed (e : EngId) (op : Nat) : Bool :=
  decide (op ≤ 0x12) || (match e with
    | .intake => decide (0x40 ≤ op) && decide (op ≤ 0x42)
    | .blend => (decide (0x40 ≤ op) && decide (op ≤ 0x4C)) || (decide (0x60 ≤ op) && decide (op ≤ 0x65)) || (decide (0x68 ≤ op) && decide (op ≤ 0x6A))
    | .order => decide (0x40 ≤ op) && decide (op ≤ 0x42)
    | .mask => decide (0x40 ≤ op) && decide (op ≤ 0x45)
    | .outlet => decide (0x40 ≤ op) && decide (op ≤ 0x42))

/-- The fault of the instruction that the engine issues in this cycle. -/
def State.issueFault (s : State) (n : Nat) (e : EngId) (cause status pc : Nat) : State :=
  (s.engineFault n e cause status pc).modEngine n e (fun g => { g with nextIssue := s.now + 1 })

/-- The instruction queue (04 R101): up to four words fetched ahead of the PC. It is full but for the cycles after a redirect or in a
study switch, one word less for each cycle that issue is away; nothing else reads it. -/
def Engine.instrQueue (g : Engine) (now : Nat) : List DWord :=
  if g.st == .idle then []
  else (List.range (4 - min 4 (g.nextIssue - (now + 1)))).map (fun i => tget 0 g.imem (g.pc + i))

/-- Engine `e` of Easel `n` issues the word with opcode `op` and bits [55:0] `w` in this cycle. A PC outside the study, or an opcode that
no table lists, faults whatever instruction was to be issued. -/
def issue (s : State) (n : Nat) (e : EngId) (op : Nat) (w : IWord) (body : State → Engine → Res) : Out :=
  onUnit (s.isEasel n && s.hasEngine e) <|
    let g := s.engine n e
    if !s.canIssue n e then same s
    else if !g.inStudy g.pc then .next (s.issueFault n e cPcRange stBadField g.pc)
    else if !opListed e ((tget 0 g.imem g.pc) >>> 56).toNat then .next (s.issueFault n e cIllegal stBadField g.pc)
    else if tget 0 g.imem g.pc != wordOf op w then same s
    else
      let s := s.setEngine n e { g with st := .run }
      match body s { g with st := .run } with
      | .fault c st => .next (s.issueFault n e c st g.pc)
      | .go s' k => .next (s'.modEngine n e (fun g' => g'.advance s.now k))

/-- An instruction's fields pass `ok`, or it is ILLEGAL (05 R138). -/
def legal (w : IWord) (u : Used) (ok : Bool) (r : Res) : Res := if reservedOk w u && ok then r else illegal

/-! Start entries and waking (04 R124, R133). -/

/-- An event that wakes the Easel (04 R133). -/
def State.wake (s : State) (n : Nat) : State :=
  s.modEasel n (fun x => match x.power, x.wakeBy with
    | .awake, _ => x
    | _, some _ => x
    | .doze, none => { x with wakeBy := some (s.now + 8) }
    | .sleep, none => { x with wakeBy := some (s.now + 304) })

/-- Every Easel bound to the context is woken (04 R133). -/
def State.wakeBound (s : State) (c : Nat) : State := (s.ctx c).bound.foldl (fun s n => s.wake n) s

/-- A start entry is pushed to an engine with room for it (04 R124). -/
def State.pushStart (s : State) (n : Nat) (e : EngId) (q : StartEntry) : State :=
  (s.modEngine n e (fun g => { g with startq := g.startq ++ [q] })).wake n
def State.startRoom (s : State) (n : Nat) (e : EngId) : Bool := decide ((s.engine n e).startq.length < 16)

end Sys2Proof.Machine
end

