-- ==== Sys2Proof/Machine/Blend.lean ====
section
/-!
DEFINITION. The vector instructions of the Blend engine (05 R150, R151; 02 R48-R62).
-/

namespace Sys2Proof.Machine

/-- Bits of a lane (05 R151): a 6-bit element stands in an 8-bit lane. -/
def Fmt.lane (f : Fmt) : Nat := if f.width = 6 then 8 else f.width
/-- Lanes of a V register. -/
def Fmt.lanes (f : Fmt) : Nat := 2048 / f.lane

/-- The elements of a V register. -/
def lanesOf (f : Fmt) (v : BitVec 2048) : List Nat := (unpack f.lane f.lanes (toLE 256 v.toNat)).map (· % 2 ^ f.width)
/-- A V register made of elements. -/
def vecOf (f : Fmt) (l : List Nat) : BitVec 2048 := BitVec.ofNat 2048 (packNat f.lane l)

/-- A format that a vector row may name (05 R140, R151). -/
def State.vfmt (s : State) (code : Nat) : Option Fmt :=
  match fmtOf s.formats code with
  | some f => if f.block then none else some f
  | none => none

/-- Tray bytes of a V register (05 R151). -/
def Fmt.vbytes (f : Fmt) : Nat := if f.width = 6 then 192 else 256

def execVld (n : Nat) (w : IWord) (s : State) : Out :=
  issue s n .blend 0x40 w fun s g => legal w (fldD :: fldFMT :: fldTray) (isS (wA w)) <|
    match s.vfmt (tFMT w) with
    | none => illegal
    | some f =>
      let a := g.trayAddr w
      if !trayOk a f.vbytes then trayRange
      else
        let b := (s.easel n).read a f.vbytes
        let v := if f.width = 6 then vecOf f (unpack 6 256 b) else BitVec.ofNat 2048 (le b)
        .go (s.after n .blend 3 (.vreg (wD w) v)) .seq

def execVst (n : Nat) (w : IWord) (s : State) : Out :=
  issue s n .blend 0x41 w fun s g => legal w (fldD :: fldFMT :: fldTray) (isS (wA w)) <|
    match s.vfmt (tFMT w) with
    | none => illegal
    | some f =>
      let a := g.trayAddr w
      let v := g.v' (wD w)
      if !trayOk a f.vbytes then trayRange
      else .go (s.after n .blend 2 (.tray a (if f.width = 6 then pack 6 (lanesOf f v) else toLE 256 v.toNat))) .seq

/-- A target that may round stochastically (02 R50). -/
def Fmt.stochastic (f : Fmt) : Bool := f.block || (!f.int && decide (f.width ≤ 16))

/-- The bits R of an element (02 R51, R52): from the hash, or from the entropy source at `k`. -/
def Engine.srOf (g : Engine) (k elem0 i : Nat) : Nat :=
  if g.rmode = 5 then (Config.entropy (k + i)).toNat
  else srBits g.seed g.ctx g.gen.toNat g.chunk.toNat (elem0 + i)

/-- A rounding under SR_UNSEEDED draws `k` values and marks the generation (13 R370 ND). -/
def State.stochDraw (s : State) (n : Nat) (e : EngId) (k : Nat) : State :=
  let g := s.engine n e
  if g.rmode = 5 then (s.draw k).modGen g.serves.1 g.serves.2 (fun y => y.markNd g.pos true) else s

/-- Values delivered in a format, one per lane, each with the flags of its operation (02 R58, R62). -/
def Engine.deliver (g : Engine) (f : Fmt) (intSrc : Bool) (k elem0 : Nat) (l : List (Val × FlagSet)) : List Nat × FlagSet :=
  let r := (List.range l.length).zipWith (fun i x =>
    let c := convert f g.rmode.toNat g.flush (g.srOf k elem0 i) intSrc x.1
    (c.1, x.2 ||| c.2)) l
  (r.map (·.1), orAll (r.map (·.2)))

/-- The operands of a lane (02 R55), with the flags of reading them. -/
def Engine.operands (g : Engine) (f : Fmt) (v : BitVec 2048) : List (Val × FlagSet) := (lanesOf f v).map (f.operand g.flush)

/-- An arithmetic row with sources in FA and its result in FD (05 R151). -/
def arith (s : State) (n op : Nat) (w : IWord) (used : Used) (ok : Bool) (lat lat64 : Nat) (div : Bool) (elemReg : IWord → Nat)
    (f : Engine → Fmt → List (Val × FlagSet)) : Out :=
  issue s n .blend op w fun s g => legal w used ok <|
    match s.vfmt (rFA w), s.vfmt (rFD w) with
    | some fa, some fd =>
      let b64 := fa.width = 64
      if fa.width != fd.width then illegal
      else if div && s.unitBusy n .blend .div then busyFault
      else if g.rmode.toNat ≥ 4 && !fd.stochastic then badField
      else
        let (l, fl) := g.deliver fd false s.freeCtr (g.s' (elemReg w)).toNat (f g fa)
        let s := s.stochDraw n .blend l.length
        let s := if div then s.occupy n .blend .div (if b64 then 16 else 8) else s
        let k := if b64 then lat64 else lat
        .go ((s.after n .blend k (.vreg (wD w) (vecOf fd l))).raise n .blend k fl) .seq
    | _, _ => illegal

/-- A two-operand function over lanes. -/
def zip2 (g : Engine) (f : Fmt) (w : IWord) (op : Val → Val → Val × FlagSet) : List (Val × FlagSet) :=
  (g.operands f (g.v' (wA w))).zipWith (fun a b => let r := op a.1 b.1; (r.1, r.2 ||| a.2 ||| b.2)) (g.operands f (g.v' (rB w)))

/-- RDN decides the sign of an exact zero sum. -/
def Engine.rdn (g : Engine) : Bool := g.rmode == 3

def fldArith : Used := [fldD, fldA, fldRB, fldRC, fldFA, fldFD]

def execVadd (n : Nat) (w : IWord) (s : State) : Out :=
  arith s n 0x42 w fldArith (isS (rC w)) 4 6 false rC fun g f => zip2 g f w (addVal g.rdn)

def execVsub (n : Nat) (w : IWord) (s : State) : Out :=
  arith s n 0x43 w fldArith (isS (rC w)) 4 6 false rC fun g f => zip2 g f w (fun a b => addVal g.rdn a (negVal b))

def execVmul (n : Nat) (w : IWord) (s : State) : Out :=
  arith s n 0x44 w fldArith (isS (rC w)) 4 6 false rC fun g f => zip2 g f w mulVal

def execVfma (n : Nat) (w : IWord) (s : State) : Out :=
  arith s n 0x45 w (modR 4 :: fldArith) true 5 8 false (fun w => fld (rMOD w) 0 4) fun g f =>
    let a := lanesOf f (g.v' (wA w))
    let b := lanesOf f (g.v' (rB w))
    let c := lanesOf f (g.v' (rC w))
    (a.zip (b.zip c)).map (fun x =>
      let p := f.operand g.flush x.1
      let q := f.operand g.flush x.2.1
      let r := f.operand g.flush x.2.2
      let z := fmaVal g.rdn (Config.fmaNanInvalid x.1 x.2.1 x.2.2) p.1 q.1 r.1
      (z.1, z.2 ||| p.2 ||| q.2 ||| r.2))

def execVdiv (n : Nat) (w : IWord) (s : State) : Out :=
  arith s n 0x48 w fldArith (isS (rC w)) 24 40 true rC fun g f => zip2 g f w divVal

def execVsqrt (n : Nat) (w : IWord) (s : State) : Out :=
  arith s n 0x49 w [fldD, fldA, fldRC, fldFA, fldFD] (isS (rC w)) 24 40 true rC fun g f =>
    (g.operands f (g.v' (wA w))).map (fun a => let r := sqrtVal a.1; (r.1, r.2 ||| a.2))

/-- VMIN and VMAX (05 R151): with FD = FA nothing rounds. -/
def minMaxRow (s : State) (n op : Nat) (w : IWord) (mx : Bool) : Out :=
  issue s n .blend op w fun s g => legal w fldArith (isS (rC w)) <|
    match s.vfmt (rFA w), s.vfmt (rFD w) with
    | some fa, some fd =>
      let same := rFA w == rFD w
      if fa.width != fd.width then illegal
      else if !same && g.rmode.toNat ≥ 4 && !fd.stochastic then badField
      else
        let vals := zip2 g fa w (fun a b =>
          let r := minMax mx a b
          (match r.1 with | none => Val.nan false | some true => a | some false => b, r.2))
        let g' := if same then { g with rmode := 0, flush := false } else g
        let (l, fl) := g'.deliver fd (fa.int && fd.int) s.freeCtr (g.s' (rC w)).toNat vals
        let s := if same then s else s.stochDraw n .blend l.length
        .go ((s.after n .blend 2 (.vreg (wD w) (vecOf fd l))).raise n .blend 2 fl) .seq
    | _, _ => illegal

def execVmin (n : Nat) (w : IWord) (s : State) : Out := minMaxRow s n 0x46 w false

def execVmax (n : Nat) (w : IWord) (s : State) : Out := minMaxRow s n 0x47 w true

/-- Part `p` of a list cut in parts of `k`. -/
def part {α : Type} (k p : Nat) (l : List α) : List α := (l.drop (k * p)).take k

/-- The lanes of a V register as they stand, bits [7:6] of a 6-bit format's lanes with them. -/
def rawLanes (f : Fmt) (v : BitVec 2048) : List Nat := unpack f.lane f.lanes (toLE 256 v.toNat)

/-- VCVT. DESIGN CHOICE (assumption 62): a part beyond those of the format pair is ILLEGAL; under a stochastic RMODE every conversion
into a target that 02 R50 refuses is BAD_FIELD, also one that never rounds. -/
def execVcvt (n : Nat) (w : IWord) (s : State) : Out :=
  issue s n .blend 0x4A w fun s g => legal w [fldD, fldA, fldRC, fldFA, fldFD, modR 2] (isS (rC w)) <|
    match s.vfmt (rFA w), s.vfmt (rFD w) with
    | some fa, some fd =>
      let p := fld (rMOD w) 0 2
      let na := fa.lanes
      let nd := fd.lanes
      if p ≥ max (na / nd) (nd / na) then illegal
      else if g.rmode.toNat ≥ 4 && !fd.stochastic then badField
      else
        let src := g.operands fa (g.v' (wA w))
        let (l, fl) := g.deliver fd (fa.int && fd.int) s.freeCtr (g.s' (rC w)).toNat (if na > nd then part nd p src else src)
        let old := rawLanes fd (g.v' (wD w))
        let out := if nd > na then old.take (na * p) ++ l ++ old.drop (na * (p + 1)) else l
        let s := s.stochDraw n .blend l.length
        .go ((s.after n .blend 3 (.vreg (wD w) (vecOf fd out))).raise n .blend 3 fl) .seq
    | _, _ => illegal

/-- VIADD and VISUB (05 R151). -/
def intRow (s : State) (n op : Nat) (w : IWord) (f : Int → Int → Int) : Out :=
  issue s n .blend op w fun s g => legal w [fldD, fldA, fldRB, fldFA, fldFD, modR 1] (rFA w == rFD w) <|
    match s.vfmt (rFA w) with
    | none => illegal
    | some fm =>
      if !fm.int then illegal
      else
        let lim : Int := (2 ^ (fm.width - 1) : Nat)
        let sums := (lanesOf fm (g.v' (wA w))).zipWith (fun a b => f (signed fm.width a) (signed fm.width b)) (lanesOf fm (g.v' (rB w)))
        let sat := rMOD w == 1
        let out := sums.map (fun z => unsignedOf fm.width (if sat then max (-lim) (min (lim - 1) z) else z))
        let big := sat && sums.any (fun z => decide (z < -lim) || decide (lim - 1 < z))
        .go ((s.after n .blend 2 (.vreg (wD w) (vecOf fm out))).raise n .blend 2 (flagIf big fSaturated)) .seq

def execViadd (n : Nat) (w : IWord) (s : State) : Out := intRow s n 0x4B w (· + ·)

def execVisub (n : Nat) (w : IWord) (s : State) : Out := intRow s n 0x4C w (· - ·)

end Sys2Proof.Machine
end

