-- ==== Sys2Proof/Machine/CircuitOps.lean ====
section
/-!
DEFINITION. Circuit table entries and the messages that set circuits up and tear them down (09 R267-R270).
-/

namespace Sys2Proof.Machine

/-! The fields of an entry (09 R267). -/
def Circuit.st (x : Circuit) : Nat := fld x.ent.toNat 0 2
def Circuit.orig (x : Circuit) : Bool := bitAt x.ent.toNat 2
def Circuit.term (x : Circuit) : Bool := bitAt x.ent.toNat 3
def Circuit.inPort (x : Circuit) : Nat := fld x.ent.toNat 4 10
def Circuit.outPort (x : Circuit) : Nat := fld x.ent.toNat 14 10
def Circuit.dest (x : Circuit) : Nat := fld x.ent.toNat 32 24
def circuitEnt (st : Nat) (orig term : Bool) (inP outP dest : Nat) : DWord :=
  BitVec.ofNat 64 (st + 4 * b2n orig + 8 * b2n term + 16 * inP + 2 ^ 14 * outP + 2 ^ 32 * dest)
def Circuit.setSt (x : Circuit) (st : Nat) : Circuit := { x with ent := BitVec.ofNat 64 (setFld x.ent.toNat 0 2 st) }

/-- The entry of an ID while it is not FREE. -/
def State.circuit? (s : State) (id : Nat) : Option Circuit := tget? s.fab.circuits id
/-- An entry changes; in Grisaille mode the table is frozen (12 R361). -/
def State.setCircuit (s : State) (id : Nat) (x : Circuit) : State :=
  if s.dev == .grisaille then s.noteDev 361 0 stDegraded [] else s.setFab { s.fab with circuits := tput s.fab.circuits id x }
def State.freeCircuit (s : State) (id : Nat) : State :=
  if s.dev == .grisaille then s.noteDev 361 0 stDegraded [] else s.setFab { s.fab with circuits := tdel s.fab.circuits id }

/-- A circuit message (09 R270). -/
def cctlBody (op status id source dest : Nat) : Bytes :=
  withCheck (toLE 1 op ++ toLE 1 status ++ toLE 2 id ++ toLE 3 source ++ toLE 1 0 ++ toLE 3 dest ++ zeros 17)

/-- A circuit message leaves on port `p` for the switch at its other end (assumption 30), and is held while the port is not UP (09 R261);
CSETUP takes its destination and its route fields along. -/
def State.cctlOn (s : State) (p : Nat) (body : Bytes) (route : Option Frame := none) : State :=
  match s.fab.neighbour (s.lport p) with
  | some a => s.privOrig { dest := swKey a, vc := 0, ftype := 5, body, bucket := 0, out := some p, route }
  | none => s

/-- The port and the frame of a hop. -/
def Hop.taken : Hop → Option (Nat × Frame)
  | .out p f _ => some (p, f)
  | .held p f _ => some (p, f)
  | _ => none

/-- The port of a circuit toward its next hop (09 R268), with the frame that takes it: an UP BULK port of the dimension and direction
that R257 needs, of the lowest index, or else the port of the hop. -/
def circuitHop (b : Fabric) (arr : Option Nat) (f0 : Frame) : Option (Nat × Frame) :=
  let f := legFrame b f0
  let t := targetOf b f
  match openDim b t with
  | some d =>
    let g := revFrame b arr false f d
    match b.trunk (isBulk d (dirOf b g t d)) with
    | p :: _ => some (p, g)
    | [] => (nextHop b arr f0).taken
  | none => (nextHop b arr f0).taken

/-- A CSETUP from the switch of `src` for the switch of `dest`, as it is routed (09 R268): its trunk members follow from its origin's
address (R258). -/
def State.setupFrame (s : State) (src dest : Nat) : Frame :=
  (s.frameOf { dest := swKey (switchOf dest), vc := 0, ftype := 5, body := [], bucket := 0 } 0 0).put 64 24 (switchOf src)

/-- OUT_LPORT at the origin of a circuit to a destination at another switch, where CSETUP is injected (09 R256). -/
def State.circuitPort (s : State) (src dest : Nat) : Option (Nat × Frame) :=
  match injected s.fab (s.setupFrame src dest) with
  | some (g, some i) => (expressHop s.fab i g).taken
  | some (g, none) => circuitHop s.fab none g
  | none => none

/-- OUT_LPORT at a later switch, by the route fields that CSETUP brought; no route table is read (09 R256, R257). -/
def State.circuitOn (s : State) (p : Nat) (came : Frame) (src dest : Nat) : Option (Nat × Frame) :=
  circuitHop s.fab (some p) ((s.setupFrame src dest).copyRoute came)

/-- The edge port of an endpoint attached here. -/
def State.edgePort (s : State) (ep : Nat) : Option Nat :=
  if switchOf ep = s.fab.hereAddr then (s.fab.portsThat (isEdge (edgeOf ep))).head? else none

/-- CTEAR leaves along the circuit, on every side but the one it came on (09 R268), and the entry is FREE. -/
def State.tearCircuit (s : State) (id : Nat) (came : Option Nat) : State :=
  match s.circuit? id with
  | none => s
  | some x =>
    let body := cctlBody 4 stOk id x.source x.dest
    let s := s.freeCircuit id
    let s := if x.term || came == some x.outPort then s else s.cctlOn x.outPort body
    if x.orig || came == some x.inPort then s else s.cctlOn x.inPort body

/-- An entry becomes BROKEN (09 R269): CBROKEN goes back; at the origin the owner's circuit interrupt is raised. -/
def State.breakCircuit (s : State) (id : Nat) : State :=
  match s.circuit? id with
  | none => s
  | some x =>
    let s := s.setCircuit id (x.setSt 3)
    if x.orig then s.interrupt x.owner 2 else s.cctlOn x.inPort (cctlBody 5 stOk id x.source x.dest)

/-- The circuits that leave on a port that goes down become BROKEN (09 R269). -/
def State.circuitsDown (s : State) (p : Nat) : State :=
  ((s.fab.circuits.filter (fun c => c.2.outPort == p && c.2.st != 3)).map (·.1)).foldl (fun s id => s.breakCircuit id) s

end Sys2Proof.Machine
end

