-- ==== Sys2Proof/Machine/EaselEvents.lean ====
section
/-!
DEFINITION. Events of an Easel: return to idle (04 R127), semaphores (R112), token queues (R116), timeouts (R113, R117),
study switches (R125), power (R132, R133), the ingress stage (05 R148) and start entries (07 R203).
-/

namespace Sys2Proof.Machine

/-- An event of Easel `n` while the compute domain works. -/
def onEasel (s : State) (n : Nat) (c : Bool) (go : State) : Out := onUnit (s.isEasel n) (when' (s.computing && c) s go)

/-! Semaphores. -/

/-- A semaphore in this ACLK (04 R112 steps 1 and 2). -/
def State.semAdd (s : State) (n k : Nat) : State :=
  let x := s.easel n
  let due := x.sigs.filter (fun g => g.sem == k && decide (g.due ≤ s.now))
  if due.isEmpty then s
  else
    let total := tget 0 x.sems k + (due.map (·.amt)).sum
    let s := s.setEasel n { x with sigs := x.sigs.filter (fun g => !(g.sem == k && decide (g.due ≤ s.now))) }
    if total > 65535 then
      (due.map (·.sender)).foldl (fun s p => s.engineFault p.1 p.2.1 cSemOverflow stBadField p.2.2) s
    else s.modEasel n (fun x => { x with sems := tset 0 x.sems k total })

/-- The engine goes on from what it was held in. -/
def Engine.resume (g : Engine) (t : Nat) : Engine := { g with st := .run, hold := none, nextIssue := max g.nextIssue t }

/-- A waiting engine is examined (04 R112 step 3). -/
def State.semWait (s : State) (n : Nat) (e : EngId) : State :=
  let x := s.easel n
  let g := s.engine n e
  match g.hold with
  | some { kind := .wait k a, .. } =>
    if a ≤ tget 0 x.sems k then
      (s.modEasel n (fun x => { x with sems := tset 0 x.sems k (tget 0 x.sems k - a) })).setEngine n e (g.resume (s.now + 1))
    else s
  | _ => s

/-- The semaphores of an AWAKE Easel are resolved. What reaches one in DOZE or SLEEP is added once it is AWAKE (DESIGN CHOICE,
assumption 64). -/
def execSemResolve (n : Nat) (s : State) : Out :=
  onEasel s n ((s.easel n).power == .awake) <|
    let s := (List.range 32).foldl (fun s k => s.semAdd n k) s
    if (s.easel n).stopAt.any (fun t => t < s.now) then s else EngId.all.foldl (fun s e => s.semWait n e) s

/-! Token queues. -/

/-- The queue's free space as it stood at the start of the cycle (04 R116). -/
def Engine.openQueue (g : Engine) (t : Nat) : Engine :=
  if g.tokenCycle = t then g else { g with tokenCycle := t, tokenFree := 16 - g.tokenq.length }

/-- Iczal's own tokens land ahead of every engine (12 R344), while there is room. -/
def Engine.placeAhead (g : Engine) : Engine :=
  let k := min g.tokenFree g.ahead.length
  { g with tokenq := g.tokenq ++ g.ahead.take k, ahead := g.ahead.drop k, tokenFree := g.tokenFree - k }

/-- A push of engine `p` that lands now is placed in the queue of `q` while there is room. -/
def State.placePush (s : State) (n : Nat) (q p : EngId) : State :=
  let g := s.engine n p
  match g.hold with
  | some { kind := .push t tok, since, .. } =>
    let d := s.engine n q
    if t = q && since + 1 ≤ s.now && d.tokenFree > 0 then
      (s.setEngine n q { d with tokenq := d.tokenq ++ [tok], tokenFree := d.tokenFree - 1 }).setEngine n p (g.resume s.now)
    else s
  | _ => s

/-- A token of a program that the Blend study serving a chunk takes for one of its tiles is counted (12 R345; assumption 44). -/
def State.noteToken (s : State) (q : EngId) (g : Engine) (tok : DWord) : State :=
  let t := fld tok.toNat 32 32
  if q != .blend || g.test || 0xFD ≤ fld tok.toNat 24 8 then s
  else s.modGen g.ctx g.gen (fun y =>
    if (y.chunk g.key).entered.any (fun p => p.1 == t) then
      y.modChunk g.key (fun k => { k with blended := tset 0 k.blended t (tget 0 k.blended t + 1) })
    else y)

/-- A waiting TAKE is served (04 R116). -/
def State.serveTake (s : State) (n : Nat) (q : EngId) : State :=
  let g := s.engine n q
  if (s.easel n).stopAt.any (fun t => t < s.now) then s
  else match g.hold, g.tokenq with
  | some { kind := .take sp, .. }, tok :: rest =>
    let s := (s.setEngine n q { (g.resume (s.now + 1)) with tokenq := rest }).noteToken q g tok
    (s.after n q 1 (.sreg sp (tok.setWidth 32))).after n q 1 (.sreg (sp + 1) ((tok >>> 32).setWidth 32))
  | _, _ => s

def execTokenQueueResolve (n : Nat) (s : State) : Out :=
  onEasel s n ((s.easel n).power == .awake) <|
    EngId.all.foldl (fun s q =>
      let s := s.modEngine n q (fun g => (g.openQueue s.now).placeAhead)
      (EngId.all.foldl (fun s p => s.placePush n q p) s).serveTake n q) s

def HoldKind.isWait : HoldKind → Bool
  | .wait _ _ => true
  | _ => false

/-- ENG_WDOG: a WAIT that has not completed after its limit (04 R113), a TAKE or PUSH that has waited longer than it (R117). -/
def execWaitTimeout (n : Nat) (e : EngId) (s : State) : Out :=
  onUnit (s.isEasel n && s.hasEngine e) <|
    let g := s.engine n e
    match g.hold with
    | none => same s
    | some h =>
      when' (s.computing && g.wdog != 0 && decide (h.since + g.wdog.toNat + b2n (!h.kind.isWait) ≤ s.now) &&
          (match (s.easel n).stopAt with | none => true | some t => t == s.now)) s <|
        (s.setEngine n e { g with hold := none, st := .run }).issueFault n e cWaitTimeout stTimeout h.pc

/-! Return to idle. -/

/-- Everything issued before the stop has landed. -/
def State.settled (s : State) (n : Nat) : Bool :=
  let x := s.easel n
  EngId.all.all (fun e => let g := s.engine n e
    g.pend.isEmpty && (match g.hold with | some { kind := .push _ _, since, .. } => decide (since + 1 < s.now) | _ => true)) &&
    x.ops.isEmpty && x.egress.isEmpty && x.sigs.all (fun g => decide (g.due ≤ s.now))

/-- Chunks that must be run again when the group idles (06 R177): those with an entry pushed to this Easel or a tile at its port or
in its stage, and not complete. -/
def State.incomplete (s : State) (n : Nat) : List (Nat × Word × Nat) :=
  (s.boundTo n).flatMap (fun c => (s.ctx c).gens.flatMap (fun y =>
    if y.failed.isSome then []
    else (y.chunks.filter (fun k => !k.2.done && (k.2.pushed.any (fun p => p.1 == n) ||
      ((s.easel n).stage ++ (s.easel n).waiting).any (fun t => t.ctx == c && t.gen == y.num && t.chunk == k.1)))).map
        (fun k => (c, y.num, k.1))))

/-- A chunk is run again, or has failed its third check (06 R177). -/
def State.runAgain (s : State) (c : Nat) (num : Word) (key : Nat) : State :=
  match (s.ctx c).gen? num with
  | none => s
  | some y =>
    if y.failed.isSome then s
    else if 3 ≤ (y.chunk key).runs then s.failGen c num stTileCheck
    else s.requestRerun c num (key % 2 ^ 32) (key % 2 ^ 32)

def Engine.idled (g : Engine) (t : Nat) : Engine :=
  { g with st := .idle, startq := [], tokenq := [], ahead := [], loops := [], hold := none, nextIssue := t }

def execEaselReturnIdle (n : Nat) (s : State) : Out :=
  onEasel s n ((s.easel n).stopAt.any (fun t => t < s.now) && s.settled n) <|
    let again := s.incomplete n
    let x := s.easel n
    let eng := x.eng.map (fun p => (p.1, p.2.idled s.now))
    let s := s.setEasel n { x with eng, sems := [], sigs := [], stage := [], waiting := [], serving := [], stopAt := none, stopIsFault := false,
                                   idleSince := s.now }
    let s := x.waiting.foldl (fun s t => s.freeEject t.src t.vc t.cells) s
    again.foldl (fun s p => s.runAgain p.1 p.2.1 p.2.2) s

/-! Study switches. -/

/-- The writes of a switch whose END issued in cycle `t` (04 R125). -/
def State.loadEntry (s : State) (n : Nat) (e : EngId) (q : StartEntry) (t : Nat) : State :=
  let size := match s.groupOf n with | some g => 2 ^ g.log2 | none => 1
  let idx := match s.groupOf n with | some g => n - g.base | none => 0
  let s := (s.sched n e (t + 2) (.study ((s.engine n e).studyAt q.study).base)).sched n e (t + 3) .noLoops
  let s := [(0, q.a0), (1, q.a1), (2, q.a2), (3, q.a3)].foldl (fun s p => s.sched n e (t + 3) (.creg p.1 p.2)) s
  let s := [(13, q.chunk), (14, BitVec.ofNat 32 size), (15, BitVec.ofNat 32 idx)].foldl (fun s p => s.sched n e (t + 3) (.sreg p.1 p.2)) s
  let g := s.engine n e
  if q.test then
    ((s.sched n e (t + 4) (.fmode 0 false)).sched n e (t + 4) (.seed 0)).modEngine n e (fun g => { g with served := none })
  else if g.served = some (q.ctx, q.gen) then s
  else
    let x := s.ctx q.ctx
    ((s.sched n e (t + 4) (.fmode (BitVec.ofNat 3 x.rmode) x.flushBit)).sched n e (t + 4) (.seed (BitVec.ofNat 64 x.seedField))).modEngine
      n e (fun g => { g with served := some (q.ctx, q.gen) })

/-- The engine has taken an entry of the generation (04 R114). -/
def Easel.startServing (x : Easel) (c : Nat) (g : Word) (e : EngId) : Easel :=
  if x.serving.any (fun v => v.ctx == c && v.gen == g) then
    { x with serving := x.serving.map (fun v =>
        if v.ctx == c && v.gen == g then { v with started := e :: v.started.filter (· != e) } else v) }
  else { x with serving := x.serving ++ [{ ctx := c, gen := g, started := [e], ended := [] }] }

def execStudySwitch (n : Nat) (e : EngId) (s : State) : Out :=
  onUnit (s.isEasel n && s.hasEngine e) <|
    let g := s.engine n e
    match g.startq with
    | [] => same s
    | q :: rest =>
      let c0 := max g.nextIssue q.arrived
      when' (s.computing && s.aclk && (s.easel n).power == .awake && (g.st == .idle || g.st == .ended) && decide (c0 ≤ s.now) &&
          (s.easel n).stopAt.isNone) s <|
        let g := { g with startq := rest, st := .switch, study := q.study, ctx := q.ctx,
                          gen := q.gen, chunk := q.chunk, lastChunk := q.a3, pos := q.pos, test := q.test, nextIssue := c0 + 8 }
        let s := (s.setEngine n e g).loadEntry n e q (c0 - 1)
        if q.test then s else s.modEasel n (fun x => x.startServing q.ctx q.gen e)

/-! Power. -/

/-- Every engine is IDLE with empty start and token queues (04 R132). -/
def Easel.resting (x : Easel) : Bool :=
  x.eng.all (fun p => p.2.st == .idle && p.2.startq.isEmpty && p.2.tokenq.isEmpty && p.2.ahead.isEmpty)

def execEaselLowPowerEntry (n : Nat) (s : State) : Out :=
  let x := s.easel n
  onEasel s n (x.power == .awake && !x.holdAwake && x.stopAt.isNone && x.resting &&
      decide (x.idleSince + 64 * max 1 x.idleDelay ≤ s.now)) <|
    s.setEasel n { x with power := if x.dozeOnly then .doze else .sleep,
                          wakeBy := (minOf (x.sigs.map (·.due))).map (fun t => max t s.now + if x.dozeOnly then 8 else 304) }

/-- The Easel wakes; the idle time of IDLE_DELAY counts anew (DESIGN CHOICE, assumption 64). -/
def execEaselWake (n : Nat) (s : State) : Out :=
  let x := s.easel n
  onEasel s n x.wakeBy.isSome <|
    s.setEasel n { x with power := .awake, wakeBy := none, idleSince := s.now,
                          eng := x.eng.map (fun p => (p.1, { p.2 with nextIssue := max p.2.nextIssue s.now })) }

/-! The ingress stage and start entries. -/

/-- Every local ENTER has been accepted and compared (07 R199). -/
def State.allEntered (s : State) (x : Ctx) (y : Gen) : Bool :=
  let g := s.geo x
  (g.held.flatMap x.ranksAt).all (fun r => y.enters.any (fun e => e.rank == r))

/-- The generation's data phase may run here: 07 R199, and 11 R324 for the operations on a Palette binding. -/
def State.dataPhase (s : State) (c : Nat) (y : Gen) : Bool :=
  let x := s.ctx c
  let uses := x.op == 9 || x.op == 0xA
  (isSum x.op && x.op != 0xA || s.allEntered x y) &&
    (!uses || s.openCtxs.all (fun d => let z := s.ctx d
      !((z.op == 9 || z.op == 0xA) && z.palette == x.palette) ||
        z.gens.all (fun w => !(!w.enters.isEmpty && decide (w.order < y.order) && (x.op == 0xA || z.op == 0xA)))))

/-- Every tile of the chunks below `k`, at whichever position, that is expected at Easel `n` has entered its stage, or counts as entered
(05 R148, 12 R345). A FIRST_K generation is fed in order of arrival (07 R188; assumption 70). -/
def State.earlierIn (s : State) (c n : Nat) (y : Gen) (k : Nat) : Bool :=
  let x := s.ctx c
  let g := s.geo x
  (x.op == 8 && x.firstK) || (List.range (k % 2 ^ 32)).all (fun j => (List.range (max 1 g.held.length)).all (fun pos =>
    let z := y.chunk (j + 2 ^ 32 * pos)
    z.done || z.parking || z.parked || (s.expectedOn x g y (g.node pos) j n).all (fun p => z.entered.contains p)))

/-- A tile of a binary64 sum enters in its turn: under order RANK the contributions of the local ranks to one tile in ascending rank, once
all of them are present (03 R80), and in both orders the partials after them, in the order of the children (03 R81, R82; assumption 66).
The pairwise tree itself is the additions of the study. -/
def State.inTurn (s : State) (x : Ctx) (y : Gen) (t : InTile) : Bool :=
  let g := s.geo x
  let n := tTile t.bytes
  let k := y.chunk t.chunk
  let from' := s.sources x g y (g.node (t.chunk / 2 ^ 32)) n
  x.format != 0 || !isSum x.op || (x.arrival && decide (t.from' < 2 ^ 32)) ||
    ((from'.takeWhile (· != t.from')).all (fun r => k.entered.contains (n, r)) &&
      (from'.filter (fun r => decide (r < 2 ^ 32))).all (fun r => x.arrival || k.taken.contains (n, r)))

/-- Whether a waiting tile may enter the stage (05 R148). Between an Easel's return to idle and the re-run that 06 R177 asks for, tiles of the
chunk to be run again and of later chunks may (DESIGN CHOICE, assumption 74). -/
def State.mayEnter (s : State) (n : Nat) (t : InTile) : Bool :=
  match (s.ctx t.ctx).gen? t.gen with
  | none => false
  | some y => y.failed.isNone && !(y.chunk t.chunk).parking && !(y.chunk t.chunk).parked &&
      s.dataPhase t.ctx y && s.earlierIn t.ctx n y t.chunk && s.inTurn (s.ctx t.ctx) y t

/-- The first tile of a list that satisfies a test, and the rest. -/
def pick {α : Type} (p : α → Bool) : List α → Option (α × List α)
  | [] => none
  | a :: l => if p a then some (a, l) else (pick p l).map (fun r => (r.1, a :: r.2))

def execIngressStagePlace (n : Nat) (s : State) : Out :=
  let x := s.easel n
  match pick (s.mayEnter n) x.waiting with
  | none => onUnit (s.isEasel n) (same s)
  | some (t, rest) =>
    onEasel s n (x.power == .awake && x.stopAt.isNone && decide (x.stage.length < 8)) <|
      let s := (s.setEasel n { x with waiting := rest, stage := x.stage ++ [t] }).freeEject t.src t.vc t.cells
      s.modGen t.ctx t.gen (fun y => y.modChunk t.chunk (fun k => { k with
        entered := k.entered ++ [(tTile t.bytes, t.from')], stallAt := some (k.stallAt.getD s.now),
        came := if k.came.any (fun p => p.1 == n) then k.came else k.came ++ [(n, s.now)] }))

/-- The start entry of a chunk for Easel `n` (07 R203), with A1 given. -/
def State.entryOf (s : State) (x : Ctx) (c n : Nat) (y : Gen) (k a1 : Nat) (e : EngId) : StartEntry :=
  let g := s.geo x
  let pos := k / 2 ^ 32
  let a := g.node pos
  let ch := k % 2 ^ 32
  let a0 := match (s.plan x g y a ch).next with | some _ => 2 | none => 1
  { study := x.studyOf e, ctx := c, gen := y.num, chunk := BitVec.ofNat 32 ch, a0 := BitVec.ofNat 32 a0, a1 := BitVec.ofNat 32 a1,
    a2 := BitVec.ofNat 32 (s.perTile x g y a ch), a3 := BitVec.ofNat 32 (s.lastChunkOn x y n), arrived := s.now, test := false, pos }

/-- The entry of one engine other than Intake for a chunk with a tile in the stage of Easel `n`. -/
def State.pushChunk (s : State) (n c : Nat) (num : Word) (k : Nat) (e : EngId) : State :=
  let x := s.ctx c
  match x.gen? num with
  | none => s
  | some y =>
    if y.failed.isSome || (y.chunk k).pushed.contains (n, e) || !s.startRoom n e then s
    else
      let g := s.geo x
      let here := s.tilesOn x g y (g.node (k / 2 ^ 32)) (k % 2 ^ 32) n
      let q := s.entryOf x c n y k here.length e
      (s.pushStart n e q).modGen c num (fun y => y.modChunk k (fun z => { z with pushed := z.pushed ++ [(n, e)] }))

/-- Intake's entry (07 R203): every uncovered tile of the lowest-numbered chunk of the oldest uncovered tile's generation. -/
def State.pushIntake (s : State) (n : Nat) : State :=
  let x := s.easel n
  match x.stage.find? (fun t => !t.covered) with
  | none => s
  | some t0 =>
    let mine := fun (t : InTile) => !t.covered && t.ctx == t0.ctx && t.gen == t0.gen
    let order := fun (k : Nat) => k % 2 ^ 32 * 2 ^ 32 + k / 2 ^ 32
    let k := (x.stage.filter mine).foldl (fun m t => if order t.chunk < order m then t.chunk else m) t0.chunk
    let cov := fun (t : InTile) => mine t && t.chunk == k
    let c := s.ctx t0.ctx
    match c.gen? t0.gen with
    | none => s
    | some y =>
      if y.failed.isSome || !c.engines.contains .intake || !(s.engine n .intake).startq.isEmpty then s
      else
        let q := s.entryOf c t0.ctx n y k (x.stage.filter cov).length .intake
        let s := s.setEasel n { x with stage := x.stage.map (fun t => if cov t then { t with covered := true } else t) }
        (s.pushStart n .intake q).modGen t0.ctx t0.gen (fun y => y.modChunk k (fun z =>
          { z with pushed := if z.pushed.contains (n, .intake) then z.pushed else z.pushed ++ [(n, .intake)] }))

/-- Tracker entries that a context's chunks hold (07 R205). -/
def Ctx.entries (x : Ctx) : Nat := (x.gens.map (fun y => (y.chunks.filter (fun k => k.2.entry)).length)).sum

/-- The first step of a walk at a position with no rank (08 R219): once the verdict is OK, the chunk's entries are pushed to the
engines other than Intake. -/
def State.pushEmptyStep (s : State) (n c : Nat) (num : Word) (pos ch : Nat) : State :=
  let x := s.ctx c
  let g := s.geo x
  let key := ch + 2 ^ 32 * pos
  match x.gen? num with
  | none => s
  | some y =>
    if (y.chunk key).done || !(s.sources x g y (g.node pos) (ch * 2 ^ x.ctLog2)).isEmpty ||
        (s.plan x g y (g.node pos) ch).next.isNone || (s.tilesOn x g y (g.node pos) ch n).isEmpty ||
        !((y.chunk key).entry || (decide (x.entries < x.chunkWindow) && s.grantedBefore c num key)) then s
    else
      let s := s.modGen c num (fun y => y.grant x key)
      (x.engines.filter (· != .intake)).foldl (fun s e => s.pushChunk n c num key e) s

def State.pushEmpty (s : State) (n : Nat) : State :=
  (s.boundTo n).foldl (fun s c =>
    let x := s.ctx c
    (x.gens.filter (fun y => y.failed.isNone && y.path == .ring && isSum x.op && x.op != 0xA && y.verdict.any (fun v => v.1 == stOk))).foldl
      (fun s y =>
        let g := s.geo x
        ((List.range g.held.length).filter (fun i => (x.ranksAt (g.node i)).isEmpty && (!x.replay || i + 1 == g.held.length))).foldl (fun s i =>
          (List.range (s.chunkCount x y)).foldl (fun s ch => s.pushEmptyStep n c y.num i ch) s) s) s) s

/-- Cycles in which start entries are pushed under the share in force (16 R439), in 1/65,536. -/
def State.pushCycle (s : State) : Bool :=
  (s.now + 1) * s.board.share / 65536 != s.now * s.board.share / 65536

/-- Chunks with a tile in or through the stage of Easel `n`, with the cycle in which their first tile entered it, in the order in which they
came: an engine whose start queue was full is owed their entries (04 R124, 07 R203). -/
def State.owedChunks (s : State) (n : Nat) : List (Nat × Nat × Word × Nat) :=
  insertSort (fun a b => decide (a.1 < b.1)) <|
    (s.boundTo n).flatMap (fun c =>
      let x := s.ctx c
      (x.gens.filter (fun y => y.failed.isNone)).flatMap (fun y =>
        (y.chunks.filter (fun k => !k.2.done && k.2.entered.any (fun p => x.easelOf p.1 == n) &&
          x.engines.any (fun e => e != .intake && !k.2.pushed.contains (n, e)))).map (fun k =>
            (((k.2.came.find? (fun p => p.1 == n)).map (·.2)).getD 0, c, y.num, k.1))))

def execStartEntryPush (n : Nat) (s : State) : Out :=
  let x := s.easel n
  onEasel s n (x.power == .awake && x.stopAt.isNone && s.pushCycle) <|
    let s := (s.owedChunks n).foldl (fun s k =>
      ((s.ctx k.2.1).engines.filter (· != .intake)).foldl (fun s e => s.pushChunk n k.2.1 k.2.2.1 k.2.2.2 e) s) s
    (s.pushIntake n).pushEmpty n

end Sys2Proof.Machine
end

