-- ==== Sys2Proof/Machine/MemUnit.lean ====
section
/-!
DEFINITION. Memory operations of Intake and Outlet (05 R142, R149; 11 R311, R314, R319-R326).
-/

namespace Sys2Proof.Machine

/-- The regions assigned to a context (11 R325), from and up to: its VALID grants and its Sketchbook reservation. -/
def Ctx.regions (x : Ctx) : List (Nat × Nat) :=
  (x.sketchBase, x.sketchBase + x.mib * 2 ^ 20) :: (x.grants.filter (fun g => g.st == 1)).map (fun g => (g.base, g.base + g.pages * 4096))

/-- An address range in the regions assigned to a context: each part of it that lies in one page of 4 KiB lies in one of them. -/
def State.inRegions (s : State) (c a len : Nat) : Bool :=
  s.mem.mapped a len &&
    (List.range (len / 4096 + 2)).all (fun i =>
      let lo := max a ((a / 4096 + i) * 4096)
      let hi := min (a + len) ((a / 4096 + i + 1) * 4096)
      decide (hi ≤ lo) || (s.ctx c).regions.any (fun r => decide (r.1 ≤ lo) && decide (hi ≤ r.2)))

/-- Outstanding operations of a MEM unit (05 R149). -/
def Easel.outstanding (x : Easel) (intake : Bool) : Nat :=
  (x.ops.filter (fun o => (o.kind == .load || o.kind == .gather) == intake)).length

/-- An operation is issued. -/
def State.issueOp (s : State) (n : Nat) (g : Engine) (kind : MemKind) (sem : Nat) (check : Bool) (tray len : Nat)
    (todo : List (Nat × Nat)) (data : List (Nat × Bytes)) : State :=
  let eng := if kind == .load || kind == .gather then EngId.intake else EngId.outlet
  let addrs := todo.map (·.1) ++ data.map (·.1)
  let op : MemOp := { id := (s.easel n).nextOp, kind, eng, pc := g.pc, sem, check, tray, len, todo, data, ctx := g.serves.1,
                      gen := g.serves.2, chunk := g.key, issued := s.now, grans := (addrs.map (· / 256)).eraseDups }
  (s.modEasel n (fun x => { x with ops := x.ops ++ [op], nextOp := x.nextOp + 1 })).access (kind == .store || kind == .scatter) addrs

/-- A byte of the Tray that a write with precedence over an instruction of Intake issued in cycle `t` has taken in this ACLK
(04 R107). -/
def Easel.taken (x : Easel) (now t a : Nat) : Bool :=
  x.wrote.any (fun w => w.at' == now && decide (w.a ≤ a) && decide (a < w.a + w.len) &&
    (match w.by' with | none => true | some u => decide (t < u)))

/-- Bytes land in the Tray, but where a write with precedence has landed. -/
def Easel.landPiece (x : Easel) (now t a : Nat) (b : Bytes) : Easel :=
  let b' := ((List.range b.length).zip b).map (fun p => if x.taken now t (a + p.1) then tget 0 x.tray (a + p.1) else p.2)
  ({ x with tray := putBytes 0 x.tray a b' } : Easel).addWrote now [{ at' := now, a, len := b.length, by' := some t }]

/-- One 32-byte piece of an operation issued in cycle `t` moves: from memory to the Tray, or from the data read at issue to memory. -/
def State.movePiece (s : State) (n t : Nat) (p : Nat × Nat) : State :=
  s.modEasel n (fun x => x.landPiece s.now t p.2 (s.mem.read p.1 32))
def State.writePiece (s : State) (p : Nat × Bytes) : State := { s with mem := s.mem.write p.1 p.2 }

/-- A checked LOAD keeps what leaves memory (05 R149). -/
def MemOp.keep (o : MemOp) (m : Mem) (l : List (Nat × Nat)) : MemOp :=
  if o.check then { o with got := o.got ++ l.map (fun p => (p.2, m.read p.1 32)) } else o
/-- The area of a checked LOAD, as it left memory. -/
def MemOp.area (o : MemOp) : Bytes := (insertSort (fun a b => decide (a.1 < b.1)) o.got).flatMap (·.2)

/-- An access to a logical channel that a spare is taking over waits until it has (11 R311). -/
def Mem.waits (m : Mem) (a : Nat) : Bool :=
  decide (a < Config.scratchBase) && m.takeover.any (fun t => channelOf m.logical.length (a / 256) == t.1)

/-- In each ACLK some pieces of the outstanding operations move (05 R142, 11 R314); which of them is free. -/
def State.moveSome (s : State) (n id : Nat) : State :=
  match (s.easel n).ops.find? (fun o => o.id == id) with
  | none => s
  | some o =>
    let k := s.freeCtr
    let m := s.mem
    let lands := fun (p : Nat × Nat × Nat) => Config.landsNow (k + p.1) && !m.waits p.2.1
    let leaves := fun (p : Nat × Nat × Bytes) => Config.landsNow (k + p.1) && !m.waits p.2.1
    let ti := (List.range o.todo.length).zip o.todo
    let di := (List.range o.data.length).zip o.data
    let s := (ti.filter lands).foldl (fun s p => s.movePiece n o.issued p.2) s
    let s := (di.filter leaves).foldl (fun s p => s.writePiece p.2) s
    let o' := { o.keep m ((ti.filter lands).map (·.2)) with todo := (ti.filter (fun p => !lands p)).map (·.2), data := (di.filter (fun p => !leaves p)).map (·.2) }
    (s.modEasel n (fun x => { x with ops := x.ops.map (fun z => if z.id == id then o' else z) })).draw (o.todo.length + o.data.length)

/-- Every outstanding operation in one ACLK; none moves while the sequence of a warm reset runs (11 R327). -/
def State.moveAll (s : State) : State :=
  if s.board.warmSeq then s
  else s.easels.foldl (fun s p => p.2.ops.foldl (fun s o => s.moveSome p.1 o.id) s) s

/-- A corrected, and an uncorrected, read of a channel is counted (11 R326). -/
def Mem.countCe (m : Mem) (ch : Nat) : Mem := { m with ce := tset 0 m.ce ch (tget 0 m.ce ch + 1) }
def Mem.countUe (m : Mem) (now ch : Nat) : Mem :=
  { m with ue := tset 0 m.ue ch (tget 0 m.ue ch + 1), ueTimes := m.ueTimes ++ [(now, ch)] }

/-- The channel whose counter a Gesso error in an access to these granules raises: that of one of them, in HBM (assumption 65). -/
def State.gessoChannel (s : State) (grans : List Nat) : Option Nat :=
  let l := grans.filter (fun g => decide (256 * g < Config.scratchBase))
  if l.isEmpty then none else some (s.mem.channelAt (256 * l.getD (Config.errorAt s.freeCtr % l.length) 0))

/-- Counters and records of a memory error in an access to these granules (11 R311, R326). -/
def State.memErr (s : State) (err : MemErr) (grans : List Nat) : State :=
  match err with
  | .clean => s
  | .corrected ch => { s with mem := s.mem.countCe ch }
  | .uncorrected ch => ({ s with mem := s.mem.countUe s.now ch } : State).note 326 0 3 ch 0 [ch]
  | .gessoCorrected _ =>
    match s.gessoChannel grans with
    | some ch => ({ s with mem := s.mem.countCe ch } : State).draw 1
    | none => s
  | .gessoUncorrected k =>
    let s := match s.gessoChannel grans with
      | some ch => ({ s with mem := s.mem.countUe s.now ch } : State).draw 1
      | none => s
    s.note 326 0 4 k 0 [k]

def memErrBad : MemErr → Bool
  | .uncorrected _ => true
  | .gessoUncorrected _ => true
  | _ => false

/-- The completion signal (05 R142). -/
def State.complete (s : State) (n sem : Nat) (e : EngId) (pc : Nat) : State :=
  s.modEasel n (fun x => { x with sigs := x.sigs ++ [{ due := s.now, sem, amt := 1, sender := (n, e, pc) }] })

/-- The first tile of an area that fails its check (06 R174): its number, chunk and CHECK. -/
def badTile : Nat → Bytes → Option (Nat × Nat × Nat)
  | 0, _ => none
  | k + 1, b =>
    if b.isEmpty then none
    else if tileCheckOk b then badTile k (b.drop (32 * tLength b))
    else some (tTile b, tChunk b, tCheck b)

/-- Free bytes in a Tray area (06 R175). -/
def State.spoil (s : State) (n a len : Nat) : State :=
  let k := s.freeCtr
  (s.modEasel n (fun x => { x with tray := putBytes 0 x.tray a ((List.range len).map (fun i => Config.anyByte (k + i))) })).draw len

/-- What an operation's completion meets: an operation in flight to a channel that was mapped out fails as an uncorrected read
(11 R311). -/
def MemOp.outcome (o : MemOp) (err : MemErr) : MemErr :=
  match o.spoilt with
  | some ch => .uncorrected ch
  | none => err

/-- An outstanding operation of one of the given kinds completes, or its data fails. -/
def completeOp (s : State) (n id : Nat) (kind : MemKind) (err : MemErr) : Out :=
  onUnit (s.isEasel n) <|
    match (s.easel n).ops.find? (fun o => o.id == id && o.kind == kind) with
    | none => same s
    | some o =>
      let free := !(o.todo.any (fun p => s.mem.waits p.1) || o.data.any (fun p => s.mem.waits p.1))
      let err := o.outcome err
      when' (s.computing && !s.board.warmSeq && decide (o.issued < s.now) && (memErrBad err || free)) s <|
        let o := o.keep s.mem o.todo
        let s := o.todo.foldl (fun s p => s.movePiece n o.issued p) s
        let s := (s.modEasel n (fun x => { x with ops := x.ops.filter (fun z => z.id != id) })).memErr err o.grans
        let area := (s.easel n).read o.tray o.len
        if memErrBad err then (if o.eng == .intake then s.spoil n o.tray o.len else s).checkFail n 2 (tTile area) (tChunk area) (tCheck area) o.ctx o.gen o.chunk
        else match (if o.check then badTile 2048 o.area else none) with
          | some (t, c, k) => (s.spoil n o.tray o.len).checkFail n 2 t c k o.ctx o.gen o.chunk
          | none => (o.data.foldl (fun s p => s.writePiece p) s).complete n o.sem o.eng o.pc

/-- Row indices listed in the Tray (05 R147, R157). -/
def Easel.indices (x : Easel) (a k : Nat) : List Nat := (List.range k).map (fun i => le (x.read (a + 4 * i) 4))

/-- The shard of row `r`, and its number as a local row of that shard (11 R323). -/
def Binding.shardOf (b : Binding) (r : Nat) : Nat := r % max 1 b.shards
def Binding.localRow (b : Binding) (r : Nat) : Nat := r / max 1 b.shards

/-- The participant that is shard `k`: the one of ordinal `k` among all participants in ascending route index (11 R323). -/
def Geo.shardNode (g : Geo) (k : Nat) : Option Nat := g.participants[k]?

/-- The device address of row `r` on its shard (11 R323). GATHER and SCATTER use it for any row index of the table: an index whose row
lies on another shard names the local row of the same number here (assumption 71). -/
def Binding.rowAddr (b : Binding) (r : Nat) : Nat := b.base + b.localRow r * b.rowBytes

/-- 32-byte pieces of a run. -/
def runPieces (src dst len : Nat) : List (Nat × Nat) := (List.range (len / 32)).map (fun i => (src + 32 * i, dst + 32 * i))

/-- A LOAD or STORE length (05 R149). -/
def lenOk (k : Nat) : Bool := k % 32 == 0 && decide (32 ≤ k) && decide (k ≤ 65536)

end Sys2Proof.Machine
end

