-- ==== Sys2Proof/Machine/Deliver.lean ====
section
/-!
DEFINITION. Where tiles go (07 R188, R204; 08 R220-R222): receivers, moves between positions, and SEND_COMPLETION (05 R157).
-/

namespace Sys2Proof.Machine

/-- Operations whose result every position receives (08 R220-R222). -/
def spreads (op : Nat) : Bool := op == 2 || op == 4 || op == 5 || op == 0xE

/-- The ranks that receive tile `t` (07 R188). -/
def State.receivers (s : State) (x : Ctx) (y : Gen) (t : Nat) : List Nat :=
  let n := x.rosterN
  let r := t / max 1 (s.tilesPer x y.ref.elements)
  match x.op with
  | 1 | 8 | 0xC | 0xD => [y.ref.root]
  | 2 | 4 | 5 | 0xE => List.range n
  | 3 => [t / max 1 (ceilDiv y.ref.elements (1024 * n))]
  | 6 => [(r + y.ref.shift) % n]
  | 7 => ((y.enters.find? (fun e => e.rank == r)).map (·.peer)).toList
  | 9 | 0xB => [r]
  | _ => []

/-- A step of a tile out of a position: to a rank here, to another node, or to every rank of the node and on from it. -/
inductive Move where
  | rank (r : Nat)
  | node (a : Nat) (forRank : Nat)
  | copy (a : Nat)
deriving DecidableEq, Repr

/-- Where a copy goes on from node `a` (08 R221, R222), with the stage of the all-gather that it starts there: none for a further hop of
the walk that brought it, and on a tree, where it goes to the children whose subtree holds a rank (R215). -/
def State.copyNext (s : State) (x : Ctx) (y : Gen) (a ch : Nat) (fromDim : Option Nat) : List (Option Nat × Nat) :=
  let g := s.geo x
  match y.path with
  | .ring => match positions s.fab g.box a with
    | some p => (g.gather p fromDim (List.range s.fab.dims) ch).map (fun q => (if some q.1 == fromDim then none else some q.1, q.2))
    | none => []
  | _ => (g.feeding a).map (fun n => (none, n))

/-- The dimension in which two nodes differ. -/
def State.dimOf (s : State) (a b : Nat) : Option Nat := (List.range s.fab.dims).find? (fun d => s.fab.coord a d != s.fab.coord b d)

/-- A tile of a chunk from `r` has been received: it entered the ingress stage, and a RECV took it out (05 R148). -/
def State.gotTile (s : State) (x : Ctx) (c : Nat) (y : Gen) (key t r : Nat) : Bool :=
  (y.chunk key).entered.contains (t, r) &&
    !(s.easel (x.easelOf t)).stage.any (fun z => z.ctx == c && z.gen == y.num && z.chunk == key && tTile z.bytes == t && z.from' == r)

/-- The ring stage of dimension `e` may start at position `i` held here (08 R219): every chunk that it owns after the stages before is an
exact sum, all that those stages and the local ranks give it having been received. -/
def State.stageOpen (s : State) (x : Ctx) (c : Nat) (y : Gen) (i e : Nat) : Bool :=
  let g := s.geo x
  let a := g.node i
  match positions s.fab g.box a with
  | none => true
  | some p =>
    (List.range e).all (fun d => decide ((g.box.getD d []).length ≤ 1)) || (List.range (s.chunkCount x y)).all (fun ch =>
      let k := y.chunk (ch + 2 ^ 32 * i)
      let from' := x.ranksAt a ++ ((s.plan x g y a ch).partials.filter (fun q => decide (q.1 ≤ e))).map (fun q => nodeKey q.2)
      !g.ownsAfter p ch e || k.done || (s.chunkTiles x y ch).all (fun t => from'.all (fun r => s.gotTile x c y (ch + 2 ^ 32 * i) t r)))

/-- The stage of dimension `d` of the all-gather may start at node `a` (08 R221): it holds every tile that the stage sends from it. -/
def State.gatherOpen (s : State) (x : Ctx) (y : Gen) (a d : Nat) : Bool :=
  match positions s.fab (s.geo x).box a with
  | none => true
  | some p => (List.range (s.tileCount x y.ref.elements)).all (fun t =>
      !(s.geo x).ownsAfter p (t >>> x.ctLog2) (d + 1) || y.delivered.contains (t, nodeKey a))

/-- The way of a result tile from the node `a` that made it (07 R204 RESULT, 08 R220, R222). -/
def State.resultMoves (s : State) (x : Ctx) (y : Gen) (a ch t : Nat) : List Move :=
  let g := s.geo x
  let rs := s.receivers x y t
  if g.alone && decide (g.held.length ≤ 1) then rs.map .rank
  else if spreads x.op then
    if isSum x.op then [.copy a]
    else match y.path with
      | .ring => if g.ownerOf ch == a then [.copy a] else [.node (g.ownerOf ch) 0]
      | _ => match g.parent a with
        | none => [.copy a]
        | some p => [.node (if x.op = 5 then g.anchor else p) 0]
  else rs.map (fun r => if x.homeOf r == a then .rank r else .node (x.homeOf r) (r + 1))

/-- The moves of a tile under a send selector (07 R204); none where the selector names no destination, which KIND 2 does not where nothing
comes next (DESIGN CHOICE, assumption 74). -/
def State.movesOf (s : State) (x : Ctx) (y : Gen) (a ch t : Nat) (sel : Word) : Option (List Move) :=
  let target := fld sel.toNat 3 20
  if fld sel.toNat 23 9 != 0 || target ≥ x.rosterN then none
  else match sel.toNat % 8 with
    | 0 => some [.rank target]
    | 1 => some (s.resultMoves x y a ch t)
    | 2 => (s.plan x (s.geo x) y a ch).next.map (fun n => [.node n 0])
    | _ => none

/-- The peers that the frames of a move are addressed to at once. -/
def State.peersOf (s : State) (x : Ctx) (y : Gen) (ch : Nat) : Move → List Nat
  | .rank r => if x.reachable r then [(x.rank r).endpoint] else []
  | .node a _ => let h := (s.geo x).holder a
    if h == s.fab.hereAddr then [] else [swKey h]
  | .copy a => ((x.ranksAt a).filter x.reachable).map (fun r => (x.rank r).endpoint) ++
      (((s.copyNext x y a ch none).filter (fun n => n.1.isNone)).map (fun n => (s.geo x).holder n.2) |>.filter (fun h => h != s.fab.hereAddr)).map swKey

/-- The bodies of a tile that a copy at node `a` stores: one for its ranks, one for each other switch it goes on to, and one for each
stage of the all-gather that it waits for (10 R288). -/
def State.copyBodies (s : State) (x : Ctx) (y : Gen) (a ch : Nat) (fromDim : Option Nat) : Nat :=
  b2n ((x.ranksAt a).any x.reachable) +
    ((s.copyNext x y a ch fromDim).filter (fun n => n.1.isSome || (s.geo x).holder n.2 != s.fab.hereAddr)).length

/-- The bodies that the moves of a tile store (10 R288): what goes to ranks shares one. -/
def State.bodiesOf (s : State) (x : Ctx) (y : Gen) (ch : Nat) (l : List Move) : Nat :=
  b2n (l.any (fun m => match m with | .rank r => x.reachable r | _ => false)) +
    (l.map (fun m => match m with
      | .rank _ => 0
      | .node a _ => b2n ((s.geo x).holder a != s.fab.hereAddr)
      | .copy a => s.copyBodies x y a ch none)).sum

/-- Whether frames with this body may leave for all these peers now, `n` of them stored on their own (10 R286). -/
def State.clearFor (s : State) (vc : Nat) (peers : List Nat) (n : Nat) (body : Bytes) : Bool :=
  s.fab.roomFor vc (n * cellsOf body) && peers.all (fun d => !s.fab.outbox.any (fun o => o.dest == d && o.vc == vc) &&
    s.admits { dest := d, vc, ftype := 0, body, bucket := 0 })

/-- Copies of one tile to several endpoints share one stored body (10 R288). -/
def State.multicast (s : State) (dests : List Nat) (vc tag : Nat) (body : Bytes) : State :=
  if dests.isEmpty then s else
    let (s, id) := s.store (if vc = 1 then .none else .inject vc) (flitsOf (32 + body.length)) dests.length
    dests.foldl (fun s d => s.queueOrig { dest := d, vc, ftype := 0, body, bucket := tag, stored := some id }) s

/-- What position `pos` sent or delivered is kept for a capture (13 R375) and for phase two (08 R227). -/
def Gen.addOutput (y : Gen) (op pos stage t : Nat) (b : Bytes) : Gen :=
  if (y.captured || op == 0xE) && !y.outputs.any (fun o => o.1 == pos && o.2.1 == stage && o.2.2.1 == t) then
    { y with outputs := y.outputs ++ [(pos, stage, t, b)] } else y

/-- A second contribution for one destination rank (07 R188 PERMUTE). -/
def State.permuteTwice (s : State) (x : Ctx) (y : Gen) (t : Nat) (rs : List Nat) : Bool :=
  let per := max 1 (s.tilesPer x y.ref.elements)
  x.op == 7 && rs.any (fun r => y.delivered.any (fun d => d.2 == r && d.1 / per != t / per))

/-- A result tile that position `pos` delivers to ranks (07 R204); a fenced rank is owed it (12 R341). -/
def State.toRanks (s : State) (c : Nat) (num : Word) (pos t : Nat) (b : Bytes) (rs : List Nat) : State :=
  let x := s.ctx c
  match x.gen? num with
  | none => s
  | some y =>
    if s.permuteTwice x y t rs then s.failGen c num stBadField
    else
      let live := rs.filter x.reachable
      let vc := x.vcOf y
      let s := s.multicast (live.map (fun r => (x.rank r).endpoint)) vc x.tag b
      s.modGen c num (fun y => (({ y with
        delivered := y.delivered ++ live.map (fun r => (t, r)),
        owing := y.owing ++ (rs.filter (fun r => !x.reachable r)).map (fun r => (t >>> x.ctLog2, r)) } : Gen).markNd pos
          (x.op == 8 && x.firstK)).addOutput x.op pos 8 t b)

/-- What `assoc` says of a copy of a result (08 R221, R222). -/
def copyMark : Nat := 2 ^ 32

/-- A tile for another node, on the context's virtual channel (08 R229). -/
def State.tileTo (s : State) (c : Nat) (num : Word) (a forRank : Nat) (b : Bytes) : State :=
  match (s.ctx c).gen? num with
  | none => s
  | some y => s.sendNode c a ((s.ctx c).vcOf y) 0 b (some (c, num, forRank))

/-- Copies that waited at node `a` for a stage of the all-gather go out once it starts, the higher dimension first (08 R221). -/
def State.startGather (s : State) (c : Nat) (num : Word) (a : Nat) : State :=
  let x := s.ctx c
  match x.gen? num with
  | none => s
  | some y =>
    let go := insertSort (fun (p q : Nat × Nat × Nat × Nat × Bytes) => decide (q.1 < p.1))
      (y.gather.filter (fun q => q.2.1 == a && s.gatherOpen x y a q.1))
    go.foldl (fun s q => (s.freeHeld (x.vcOf y) q.2.2.2.2).tileTo c num q.2.2.1 copyMark q.2.2.2.2)
      (s.modGen c num (fun y => { y with gather := y.gather.filter (fun q => !go.contains q) }))

/-- Tiles wait in the packet buffer (10 R282). -/
def State.holdAll (s : State) (vc n : Nat) (b : Bytes) : State := (List.range n).foldl (fun s _ => s.holdCells vc b) s

/-- A copy reaches node `a`: its ranks receive it and it goes on (08 R221, R222). -/
def State.copyAt (s : State) (c : Nat) (num : Word) (a ch t : Nat) (b : Bytes) (fromDim : Option Nat) : State :=
  let x := s.ctx c
  match x.gen? num with
  | none => s
  | some y =>
    if y.delivered.contains (t, nodeKey a) then s
    else
      let onto := s.copyNext x y a ch fromDim
      let wait := onto.filterMap (fun n => n.1.map (fun d => (d, a, n.2, t, b)))
      let s := s.modGen c num (fun y => { y with delivered := y.delivered ++ [(t, nodeKey a)], gather := y.gather ++ wait })
      let s := (s.holdAll (x.vcOf y) wait.length b).toRanks c num ((s.geo x).held.idxOf a) t b (x.ranksAt a)
      ((onto.filter (fun n => n.1.isNone)).foldl (fun s n => s.tileTo c num n.2 copyMark b) s).startGather c num a

def State.runMove (s : State) (c : Nat) (num : Word) (pos ch t : Nat) (b : Bytes) : Move → State
  | .rank r => s.toRanks c num pos t b [r]
  | .node a k => s.tileTo c num a k b
  | .copy a => s.copyAt c num a ch t b none

/-- The moves of one tile out of position `pos`; those to ranks go together. -/
def State.runMoves (s : State) (c : Nat) (num : Word) (pos ch t : Nat) (b : Bytes) (l : List Move) : State :=
  let rs := l.filterMap (fun m => match m with | .rank r => some r | _ => none)
  let s := if rs.isEmpty then s else s.toRanks c num pos t b rs
  (l.filter (fun m => match m with | .rank _ => false | _ => true)).foldl (fun s m => s.runMove c num pos ch t b m) s

/-- The stage under which a tile that node `a` sends to node `n` is recorded as an output (13 R372, R375): a result for a rank counts as
delivered, and anything else has the stage at which `n` takes it (assumption 33). -/
def State.outStage (s : State) (x : Ctx) (y : Gen) (a n forRank : Nat) : Nat :=
  if 0 < forRank then 8 else if y.path == .ring && isSum x.op then 1 + (s.dimOf a n).getD 0 else 1

/-- The block scales of a partial sent on (03 R95 CARRY). -/
def carryOf (tbl : Tab DWord) (b : Bytes) : Option Bytes :=
  match fmtOf tbl (tFormat b) with
  | some f => if f.block && tForm b == fBlock then some (slice (b.drop 32) (128 * f.width) 32) else none
  | none => none

/-- What a position keeps of a tile it sends to another node. CARRY takes up the scales that each position itself last sent (DESIGN CHOICE,
assumption 63). -/
def State.noteSent (s : State) (c : Nat) (num : Word) (a key : Nat) (b : Bytes) (l : List Move) : State :=
  let x := s.ctx c
  let t := tTile b
  let s := s.modGen c num (fun y => y.modChunk key (fun k => { k with sent := k.sent ++ [t] }))
  match l.findSome? (fun m => match m with | .node n k => some (n, k) | _ => none) with
  | some (n, k) => s.modGen c num (fun y =>
      let pos := key / 2 ^ 32
      let y := y.addOutput x.op pos (s.outStage x y a n k) t b
      match carryOf s.formats b with
      | some sc => if k = 0 then y.modNote pos (fun z => { z with carry := (z.carry.filter (fun p => p.1 != t)) ++ [(t, sc)] }) else y
      | none => y)
  | none => s

/-- What a replayed position would have sent or delivered (13 R377) is kept, and goes nowhere. -/
def State.keepSent (s : State) (c : Nat) (num : Word) (a key : Nat) (b : Bytes) (l : List Move) : State :=
  let s := s.noteSent c num a key b l
  if l.any (fun m => match m with | .node _ _ => true | _ => false) then s
  else s.modGen c num (fun y => y.addOutput (s.ctx c).op (key / 2 ^ 32) 8 (tTile b) b)

/-- The stage of the ring that a move starts from position `i`, where that stage has not started (08 R219). -/
def State.stagedIn (s : State) (x : Ctx) (c : Nat) (y : Gen) (i : Nat) : Move → Option (Nat × Nat)
  | .node n _ =>
    if y.path == .ring && isSum x.op then
      (s.dimOf ((s.geo x).node i) n).bind (fun e => if s.stageOpen x c y i e then none else some (e, n))
    else none
  | _ => none

/-- Partials that waited for a ring stage leave once it starts (08 R219). -/
def State.startStages (s : State) (c : Nat) (num : Word) : State :=
  let x := s.ctx c
  match x.gen? num with
  | none => s
  | some y =>
    let go := y.staged.filter (fun q => s.stageOpen x c y q.2.1 q.1)
    go.foldl (fun s q => (s.freeHeld (x.vcOf y) q.2.2.2.2).tileTo c num q.2.2.1 0 q.2.2.2.2)
      (s.modGen c num (fun y => { y with staged := y.staged.filter (fun q => !go.contains q) }))

/-- The moves of a tile that leaves position `i`; a partial of a ring stage that has not started waits in the packet buffer. -/
def State.leaveFor (s : State) (c : Nat) (num : Word) (key ch t : Nat) (b : Bytes) (l : List Move) : State :=
  let x := s.ctx c
  match x.gen? num with
  | none => s
  | some y =>
    let i := key / 2 ^ 32
    let wait := (l.filterMap (s.stagedIn x c y i)).map (fun p => (p.1, i, p.2, key, b))
    let s := if wait.isEmpty then s else (s.modGen c num (fun y => { y with staged := y.staged ++ wait })).holdAll (x.vcOf y) wait.length b
    (s.runMoves c num i ch t b (l.filter (fun m => (s.stagedIn x c y i m).isNone))).startStages c num

/-- Every stage that may start does (08 R219). -/
def State.startAll (s : State) : State :=
  s.openCtxs.foldl (fun s c => ((s.ctx c).gens.filter (fun y => !y.staged.isEmpty)).foldl (fun s y => s.startStages c y.num) s) s

/-- The tile has left the egress stage, and its completion signal lands (05 R157). -/
def State.leaveEgress (s : State) (n : Nat) (t : OutTile) (rest : List OutTile) : State :=
  (s.modEasel n (fun x => { x with egress := rest })).complete n t.sem .outlet t.pc

def execSendCompletion (n : Nat) (s : State) : Out :=
  onUnit (s.isEasel n) <|
    match (s.easel n).egress with
    | [] => same s
    | t :: rest =>
      if !s.computing then same s
      else
        let x := s.ctx t.ctx
        let num := t.gen
        match (if t.test then none else x.gen? num) with
        | none => .next (s.leaveEgress n t rest)
        | some y =>
          if y.failed.isSome then .next (s.leaveEgress n t rest)
          else
            let a := (s.geo x).node (t.chunk / 2 ^ 32)
            let tl := tTile t.bytes
            let ch := tl >>> x.ctLog2
            match s.movesOf x y a ch tl t.sel with
            | none => .next ((s.leaveEgress n t rest).failGen t.ctx num stBadField)
            | some l =>
              if x.replay then .next ((s.leaveEgress n t rest).keepSent t.ctx num a t.chunk t.bytes l)
              else if !s.clearFor (x.vcOf y) (l.flatMap (s.peersOf x y ch)) (s.bodiesOf x y ch l) t.bytes then same s
              else .next (((s.leaveEgress n t rest).noteSent t.ctx num a t.chunk t.bytes l).leaveFor t.ctx num t.chunk ch tl t.bytes l)

end Sys2Proof.Machine
end

