-- ==== Sys2Proof/Machine/Hairline.lean ====
section
/-!
DEFINITION. The Hairline unit (07 R208-R210, 03 R91): accumulators, partials and results of small generations.
-/

namespace Sys2Proof.Machine

def State.accum? (s : State) (c : Nat) (num : Word) (pos : Nat) : Option Accum :=
  s.coll.accums.find? (fun a => a.ctx == c && a.gen == num && a.pos == pos)
def State.setAccum (s : State) (x : Accum) : State :=
  { s with coll := { s.coll with accums := s.coll.accums.map (fun a =>
      if a.ctx == x.ctx && a.gen == x.gen && a.pos == x.pos then x else a) } }

/-- An accumulator of 512 lanes with nothing added (07 R209). -/
def freshAccum (c : Nat) (num : Word) (pos : Nat) : Accum :=
  { ctx := c, gen := num, pos, lanes := List.replicate 512 {}, got := [], scales := List.replicate 16 none, promo := 0 }

/-- The positions held here that still need an accumulator for a Hairline generation: those with a rank in their subtree (07 R209,
08 R215). -/
def State.wantsAccum (s : State) (c : Nat) (num : Word) : List Nat :=
  let x := s.ctx c
  let g := s.geo x
  (List.range g.held.length).filter (fun pos =>
    (!(x.ranksAt (g.node pos)).isEmpty || !(g.feeding (g.node pos)).isEmpty) && (s.accum? c num pos).isNone)
/-- Accumulators left for what the generation still needs (07 R205, R209). -/
def State.accumRoom (s : State) (c : Nat) (num : Word) : Bool :=
  decide (s.coll.accums.length + (s.wantsAccum c num).length ≤ 256)

/-- Each position held that has a rank in its subtree takes an accumulator for a Hairline generation, once it is known here (07 R209, 03
R99). -/
def State.takeAccums (s : State) (c : Nat) (num : Word) : State :=
  let x := s.ctx c
  match x.gen? num with
  | none => s
  | some y =>
    if y.path != .hairline || y.failed.isSome || (x.op != 0 && y.ref.elements = 0) || !s.accumRoom c num then s
    else { s with coll := { s.coll with accums := s.coll.accums ++ (s.wantsAccum c num).map (freshAccum c num) } }

/-- The accumulators of a generation that is run again begin anew (12 R351). -/
def State.clearAccums (s : State) (c : Nat) (num : Word) : State :=
  { s with coll := { s.coll with accums := s.coll.accums.map (fun a => if a.ctx == c && a.gen == num then freshAccum c num a.pos else a) } }

/-- Sums that the unit adds. -/
def hairSums (op : Nat) : Bool := op == 1 || op == 2 || op == 0xE

/-- The larger of two scales of a block; 0xFF is none (03 R96). -/
def maxScale (a : Option Nat) (b : Nat) : Option Nat :=
  if b = 0xFF then a else match a with | none => some b | some x => some (max x b)

/-- A SHORT tile is added to an accumulator (07 R208, R209); none where the tile does not serve. -/
def Accum.addTile (a : Accum) (tbl : Tab DWord) (flush partial' : Bool) (code count : Nat) (key : Nat) (b : Bytes) :
    Option (Accum × FlagSet) :=
  match fmtOf tbl code with
  | none => none
  | some f =>
    if tFormat b != code || tForm b != fShort || tCount b != count || shortSize f count != 32 * tLength b then none
    else
      let (es, sc) := shortElems f b
      if f.block && !sc.all f.scaleOk then none
      else
        let vs := elemVals f flush sc es
        let r := addAll a.lanes (vs.map (·.1))
        some ({ a with lanes := r.1, got := a.got ++ [key],
                       scales := if partial' then a.scales.zipWith maxScale (sc ++ List.replicate 16 0xFF) else a.scales,
                       promo := if partial' then a.promo + promoOf tbl b else a.promo }, r.2 ||| orAll (vs.map (·.2)))

/-- The values that the ranks known here contribute to block `k` (03 R95). -/
def State.blockVals (s : State) (x : Ctx) (y : Gen) (k : Nat) : List Val :=
  match fmtOf s.formats x.format with
  | none => []
  | some f => (y.inputs.filter (fun i => i.stage == 0)).flatMap (fun i =>
      let e := shortElems f i.bytes
      (((elemVals f x.flushBit e.2 e.1).map (·.1)).drop (32 * k)).take 32)

/-- The agreed scale byte of block `k` at a position (03 R95): carried, or SCALE_HEADROOM above the scale that fits every rank's block, of
which those of other homes are known by the pre-pass alone. A block that the position rounded for transit in no previous generation has no
scale to carry: it is given 0xFF, for which 03 R96 provides (DESIGN CHOICE, assumption 74). -/
def State.agreedScale (s : State) (c : Nat) (x : Ctx) (y : Gen) (f : Fmt) (pos k : Nat) : Nat :=
  let g := s.geo x
  if s.carried x then ((x.carry.find? (fun p => p.1 == g.node pos && p.2.1 == 0)).bind (fun p => (p.2.2[k]?).map BitVec.toNat)).getD 0xFF
  else
    let near := f.chooseScale (s.blockVals x y k) + 127
    let far := min (f.sMax + 127) (max (f.sMin + 127) (Config.prepassScale c y.num.toNat k : Int))
    (min (f.sMax + 127) ((if g.alone then near else max near far) + x.headroom)).toNat

/-- The pre-pass has seen all the local contributions (03 R95). -/
def State.prepassed (s : State) (x : Ctx) (y : Gen) : Bool :=
  s.allEntered x y || s.carried x || (match fmtOf s.formats x.transit with | some f => !f.block | none => true)

/-- The candidate scale bytes of a transit rounding (03 R96 step 1). -/
def State.candidates (s : State) (c : Nat) (x : Ctx) (y : Gen) (f : Fmt) (a : Accum) : List Nat :=
  (List.range 16).map (fun k => ((maxScale (a.scales.getD k none) (s.agreedScale c x y f a.pos k)).getD 0xFF))

/-- The block scales of a partial in SHORT form, as CARRY takes them up (03 R95). -/
def shortScales (tbl : Tab DWord) (code : Nat) (b : Bytes) : List (Nat × Bytes) :=
  match fmtOf tbl code with
  | some f => if f.block then [(0, (shortElems f b).2.map (BitVec.ofNat 8))] else []
  | none => []

/-- The SHORT tile of an accumulator's sum: a partial in the transit format, or a result in OUT_FORMAT (03 R91, 07 R209); with
the flags raised and the blocks promoted. -/
def State.hairRound (s : State) (c : Nat) (x : Ctx) (y : Gen) (a : Accum) (transit : Bool) : Option (Bytes × FlagSet × Nat) :=
  let code := if transit then x.transit else x.outFormat
  match fmtOf s.formats code with
  | none => none
  | some f =>
    let ints := (match fmtOf s.formats x.format with | some g => g.int | none => false) && f.int
    let r := fun (i : Nat) => if x.rmode = 5 then (Config.entropy (s.freeCtr + i)).toNat
      else srBits (BitVec.ofNat 64 x.seedField) c y.num.toNat 0 i
    let ctl : RoundCtl := if transit then transitCtl x.flushBit ints else { mode := x.rmode, flush := x.flushBit, ints, r }
    let e := y.ref.elements
    let vals := (a.lanes.take e).map (Lane.val (!transit && x.rmode == 3))
    let o := roundSum f ctl 0 (if transit then some (s.candidates c x y f a) else none) vals
    let promo := if transit && f.block then a.promo + o.2.2.2 else 0
    some (shortTile 0 0 code f o.1 o.2.1 (b2n (promo != 0)) (min promo 0xFFFF), o.2.2.1, if transit then o.2.2.2 else 0)

/-- Whether an accumulator holds every input its position needs. -/
def State.hairFull (s : State) (x : Ctx) (a : Accum) : Bool :=
  let g := s.geo x
  let node := g.node a.pos
  (x.ranksAt node).all (fun r => a.got.contains r) &&
    (!hairSums x.op || (g.feeding node).all (fun n => a.got.contains (nodeKey n)))

/-- A position that holds its inputs sends its partial, or the root its results (07 R210). -/
def State.hairSend (s : State) (c : Nat) (num : Word) (pos : Nat) : State :=
  let x := s.ctx c
  match x.gen? num, s.accum? c num pos with
  | some y, some a =>
    let g := s.geo x
    let node := g.node pos
    if y.failed.isSome || a.sent || !s.hairFull x a then s
    else if x.op = 5 then
      match a.tile with
      | none => s
      | some b =>
        let s := s.setAccum { a with sent := true }
        (if (g.parent node).isSome then s.modGen c num (fun y => y.addOutput x.op pos 1 0 b) else s).runMoves c num pos 0 0 b (s.resultMoves x y node 0 0)
    else if !hairSums x.op || !(x.homes.any (fun h => holdsRank s.fab g.box g.anchor [h] 32 node)) then s.setAccum { a with sent := true }
    else
      let up := g.parent node
      if up.isSome && !s.prepassed x y then s
      else match s.hairRound c x y a up.isSome with
      | none => s.failGen c num stBadField
      | some (b, fl, k) =>
        let s := (s.setAccum { a with sent := true }).modGen c num (fun y =>
          ((y.addFlags pos fl).markNd pos (up.isNone && x.rmode == 5)).addPromos (2 ^ 32 * pos) (k + if up.isNone then a.promo else 0))
        let s := if up.isNone && x.rmode == 5 then s.draw y.ref.elements else s
        match up with
        | some p =>
          let s := s.modGen c num (fun y => y.modNote pos (fun z => { z with carry := shortScales s.formats x.transit b }))
          (s.modGen c num (fun y => y.addOutput x.op pos 1 0 b)).tileTo c num p 0 b
        | none => s.runMoves c num pos 0 0 b (s.resultMoves x y node 0 0)
  | _, _ => s

/-- Every position held tries to send, the last held first, so that a hosted child precedes its parent here. -/
def State.hairPump (s : State) (c : Nat) (num : Word) : State :=
  (List.range (s.geo (s.ctx c)).held.length).reverse.foldl (fun s pos => s.hairSend c num pos) s

/-- The contribution of rank `r` (07 R208). -/
def State.hairAdd (s : State) (c : Nat) (num : Word) (r : Nat) (b : Bytes) : State :=
  let x := s.ctx c
  match x.gen? num with
  | none => s
  | some y =>
    let pos := (s.geo x).held.idxOf (x.homeOf r)
    match s.accum? c num pos with
    | none => s
    | some a =>
      if y.failed.isSome || a.got.contains r then s
      else if hairSums x.op then
        match a.addTile s.formats x.flushBit false x.format y.ref.elements r b with
        | none => s.failGen c num stBadField
        | some (a, fl) =>
          (s.setAccum a).modGen c num (fun y => (y.addFlags pos fl).addInput
            { stage := 0, tile := tTile b, sender := r, check := tCheck b, chunk := 2 ^ 32 * pos, bytes := b })
      else
        let s := s.setAccum { a with got := a.got ++ [r], tile := if x.op = 5 && r = y.ref.root then some b else a.tile }
        if tCount b = 0 then s
        else s.modGen c num (fun y => y.addInput
          { stage := 0, tile := tTile b, sender := r, check := tCheck b, chunk := 2 ^ 32 * pos, bytes := b })

/-- A SHORT tile from another switch: a child's partial, what BROADCAST moves to the root, or a result (03 R91, 08 R222); `mark` is what its
`assoc` says of it. -/
def State.hairTile (s : State) (c : Nat) (num : Word) (src : Nat) (b : Bytes) (mark : Nat) : State :=
  let x := s.ctx c
  match x.gen? num with
  | none => s
  | some y =>
    let g := s.geo x
    let child := fun (pos : Nat) (a : Accum) =>
      if mark != 0 then none
      else if hairSums x.op then (g.feeding (g.node pos)).find? (fun n => g.holder n == src && !a.got.contains (nodeKey n))
      else if x.op = 5 && a.tile.isNone && g.node pos == g.anchor && g.holder (x.homeOf y.ref.root) == src then some (x.homeOf y.ref.root)
      else none
    let hit := (List.range g.held.length).findSome? (fun pos =>
      (s.accum? c num pos).bind (fun a => (child pos a).map (fun n => (pos, a, n))))
    if y.failed.isSome then s
    else match hit with
      | some (pos, a, n) =>
        let inp : Input := { stage := 1, tile := tTile b, sender := s.fab.indexOf n, check := tCheck b, chunk := 2 ^ 32 * pos, bytes := b }
        if x.op = 5 then ((s.setAccum { a with tile := some b }).modGen c num (fun y => y.addInput inp)).hairPump c num
        else match a.addTile s.formats x.flushBit true x.transit y.ref.elements (nodeKey n) b with
          | none => s.failGen c num stBadField
          | some (a, fl) => ((s.setAccum a).modGen c num (fun y => (y.addFlags pos fl).addInput inp)).hairPump c num
      | none =>
        if mark = 0 then s
        else if spreads x.op then
          match (List.range g.held.length).find? (fun pos => (g.parent (g.node pos)).any (fun p => g.holder p == src) &&
              !y.delivered.contains (0, nodeKey (g.node pos))) with
          | some pos =>
            let inp : Input := { stage := 8, tile := tTile b, sender := s.fab.indexOf ((g.parent (g.node pos)).getD 0), check := tCheck b, chunk := 2 ^ 32 * pos, bytes := b }
            (s.modGen c num (fun y => y.addInput inp)).copyAt c num (g.node pos) 0 0 b none
          | none => s
        else if g.holder g.anchor == src then
          s.toRanks c num (g.held.idxOf (x.homeOf y.ref.root)) 0 b ((s.receivers x y 0).filter (fun r => s.isLocal x r && !y.delivered.contains (0, r)))
        else s

/-- The tiles on VC1 of a generation that have been delivered here are taken in order; those of a lost switch are discarded (12 R352). -/
def hairTakeGo (c : Nat) (num : Word) : Nat → State → State
  | 0, s => s
  | k + 1, s =>
    match pick (fun (a : Arrived) => a.vc == 1 && a.ftype == 0 && a.assoc.any (fun p => p.1 == c && p.2.1 == num)) s.fab.inbox with
    | none => s
    | some (a, rest) =>
      let s := (s.setFab { s.fab with inbox := rest }).freeEject a.src 1 a.cells
      hairTakeGo c num k (if (s.ctx c).lost.any (fun p => p.1 == keyAddr a.src) then s.noteDev 352 0 stFenced []
        else s.hairTile c num (keyAddr a.src) a.body ((a.assoc.map (·.2.2)).getD 0))

/-- They wait until every position that needs an accumulator has one (07 R205), and what BROADCAST moves until every local ENTER has been
accepted and compared (07 R199). -/
def State.hairTake (s : State) (c : Nat) (num : Word) : State :=
  let s := s.takeAccums c num
  match (s.ctx c).gen? num with
  | none => s
  | some y =>
    if !(s.wantsAccum c num).isEmpty || ((s.ctx c).op = 5 && !s.allEntered (s.ctx c) y) then s
    else hairTakeGo c num s.fab.inbox.length s

end Sys2Proof.Machine
end

