-- ==== Sys2Proof/Machine/Stage.lean ====
section
/-!
DEFINITION. Stage messages (08 R216-R225): agreement on the context, the summary pass, verdicts and failures.
-/

namespace Sys2Proof.Machine

/-! Frames delivered here, oldest first on each flow. -/

def State.front (s : State) (src vc : Nat) : Option Arrived := s.fab.inbox.find? (fun a => a.src == src && a.vc == vc)
def State.popFront (s : State) (src vc : Nat) : State :=
  match pick (fun (a : Arrived) => a.src == src && a.vc == vc) s.fab.inbox with
  | none => s
  | some (_, rest) => s.setFab { s.fab with inbox := rest }
/-- The frame has been consumed (10 R286). -/
def State.consume (s : State) (a : Arrived) : State := (s.popFront a.src a.vc).freeEject a.src a.vc a.cells

/-- The ENTER that the tiles of a flow belong to now (07 R194). -/
def State.flowEnter (s : State) (src vc : Nat) : Option (Nat × Word × Nat) :=
  ((s.flow? src vc).bind (·.rx)).bind (fun r => r.enter.getD none)

/-- What an ENTER's bytes name: context, generation and rank. -/
def enterNames (b : Bytes) : Nat × Word × Nat := (leAt b 2 2 % 4096, BitVec.ofNat 32 (leAt b 4 4), leAt b 8 4 % 2 ^ 20)

/-- The ENTER of a flow that waits for G_low (07 R205). -/
def State.waitingEnter (s : State) (src vc : Nat) : Option Bytes :=
  s.openCtxs.findSome? (fun c => ((s.ctx c).waits.find? (fun w => w.src == src && w.vc == vc)).map (·.body))

/-- The ENTER that a frame belongs to that stands behind `ahead` in the packet buffer (07 R194): the last one before it on its flow,
else the one of its flow that waits, else the one that the flow has come to. -/
def State.enterBehind (s : State) (src vc : Nat) (ahead : List Arrived) : Option (Nat × Word × Nat) :=
  match (ahead.filter (fun b => b.src == src && b.vc == vc && (b.ftype == 1 || b.ftype == 2))).getLast? with
  | some b => some (enterNames b.body)
  | none => match s.waitingEnter src vc with
    | some b => some (enterNames b)
    | none => s.flowEnter src vc

/-- The row of a message: the oldest frame of `src` on VC0, when it is of this frame type and message type. -/
def onMessage (src ftype mtype : Nat) (s : State) (go : Arrived → State → State) : Out :=
  match s.front src 0 with
  | none => same s
  | some a => when' (s.fabricUp && a.ftype == ftype && leAt a.body 0 1 == mtype) s (go a (s.consume a))

/-- The context a message names. -/
def msgCtx (b : Bytes) : Nat := leAt b 2 2 % 4096
def msgGen (b : Bytes) : Word := BitVec.ofNat 32 (leAt b 4 4)
/-- Contexts whose traffic counts here. -/
def Ctx.live (x : Ctx) : Bool := x.st == .ready || x.st == .draining

/-- A frame from a switch lost for the context is discarded with FENCED (12 R352). -/
def State.notLost (s : State) (src c : Nat) (go : State) : State :=
  if keySw src && (s.ctx c).lost.any (fun p => p.1 == keyAddr src) then s.noteCtx 352 0 c stFenced [] else go

/-! Agreement (08 R217). -/

/-- The fabric digest. -/
def Ctx.fabric (x : Ctx) : Bytes := sha256 (x.tmpl ++ x.rosterDigest ++ toLE 4 x.hairMax ++ toLE 4 x.treeMax)

/-- The switches that hold a context neighbour of a position held here. -/
def State.neighbourSw (s : State) (c : Nat) : List Nat :=
  let g := s.geo (s.ctx c)
  ((g.held.flatMap g.neighbours).map g.holder).eraseDups.filter (fun h => h != s.fab.hereAddr)

/-- CHECK to every neighbour that has not sent one. -/
def State.sendChecks (s : State) (c : Nat) : State :=
  let x := s.ctx c
  let body := withCheck (toLE 1 0x11 ++ toLE 1 0 ++ toLE 2 c ++ zeros 12 ++ slice x.fabricDigest 0 32 ++ zeros 12)
  ((s.neighbourSw c).filter (fun h => !x.checked.contains h)).foldl (fun s h =>
    s.originate (swKey h) 0 3 x.tag body) (s.setCtx c { x with checkSent := s.now })

/-- What waited for the neighbour leaves. -/
def State.releaseHeld (s : State) (c sw : Nat) : State :=
  let x := s.ctx c
  (x.held.filter (fun h => h.sw == sw)).foldl (fun s h => (s.freeHolds [h]).originate (swKey h.sw) h.vc h.ftype h.tag h.body)
    (s.setCtx c { x with held := x.held.filter (fun h => h.sw != sw) })

def execStageCheck (src : Nat) (s : State) : Out :=
  onMessage src 3 0x11 s fun a s =>
    let c := msgCtx a.body
    let x := s.ctx c
    let sw := keyAddr src
    s.notLost src c <|
      if x.st != .ready then s
      else
        let s := s.setCtx c { x with checked := sw :: x.checked.filter (· != sw) }
        let x := s.ctx c
        if slice a.body 16 32 == slice x.fabricDigest 0 32 then
          (s.setCtx c { x with confirmed := sw :: x.confirmed.filter (· != sw) }).releaseHeld c sw
        else (s.setCtx c { x with disagreed := true }).noteCtx 217 0 c stBadField [sw]

def execCheckResendTimer (c : Nat) (s : State) : Out :=
  let x := s.ctx c
  when' (s.fabricUp && x.st == .ready && decide (x.checkSent + Config.msAclk ≤ s.now) &&
      (s.neighbourSw c).any (fun h => !x.checked.contains h)) s (s.sendChecks c)

/-! Generations known here. -/

/-- The fields of a message (08 R216). -/
def msgFields (b : Bytes) : Fields :=
  { rank := leAt b 8 4 % 2 ^ 20, op := leAt b 12 1 % 32, fmt := leAt b 13 1 % 32, elements := leAt b 16 4, root := leAt b 20 4 % 2 ^ 20,
    shift := leAt b 24 4 % 2 ^ 20 }

/-- Fields as an ENTER would carry them, for a generation that no local ENTER has opened (08 R219). -/
def Fields.entered (f : Fields) : Entered :=
  { rank := f.rank, src := 0,
    raw := zeros 8 ++ toLE 4 f.rank ++ zeros 4 ++ toLE 1 f.op ++ toLE 1 f.fmt ++ zeros 2 ++ toLE 4 f.elements ++ toLE 4 f.root ++
      toLE 4 f.shift ++ zeros 28 }

/-- A generation that this switch learns of from a message or a tile (08 R219). -/
def State.learn (s : State) (c : Nat) (num : Word) (f : Fields) : State :=
  let x := s.ctx c
  match x.gen? num with
  | some y => if y.enters.isEmpty && y.ref.elements = 0 && y.failed.isNone then
      (s.modGen c num (fun y => { y with ref := f.entered, path := s.pathOf x x.format f.elements })).hairTake c num else s
  | none =>
    if dist32 x.gLow.toNat num.toNat ≥ 2 ^ 31 then s
    else
      let y : Gen := { num, ref := f.entered, enters := [], t0 := s.now, path := s.pathOf x x.format f.elements }
      (s.setCtx c { x with gens := x.gens ++ [y] }).takeAccums c num

/-! Verdicts (08 R223-R225, R231). -/

/-- A Pose barrier (08 R231). -/
def Ctx.pose (x : Ctx) : Bool := x.op == 0 && x.units != 0

/-- The effect of a verdict on the generation here. -/
def State.takeVerdict (s : State) (c : Nat) (num : Word) (status : Nat) (f : Fields) (release : Nat) : State :=
  let x := s.ctx c
  match x.gen? num with
  | none => s
  | some y =>
    let s := if status = stOk && y.verdict.any (fun v => v.1 != stOk) then s else s.modGen c num (fun y => { y with verdict := some (status, f) })
    if status = stOk then
      if !x.pose || y.failed.isSome then s
      else if !s.clock.locked then s.failGen c num stState
      else if s.clock.ftime.toNat ≥ release then s.failGen c num stTimeout
      else s.modGen c num (fun y => { y with release := some release })
    else
      let s := s.failQuiet c num status
      if status = stMismatch then
        s.modGen c num (fun z => { z with differ := if z.differ.isEmpty then differing y.enters f else z.differ })
      else s

/-- The anchor sends a verdict down the tree and applies it. -/
def State.sendVerdict (s : State) (c : Nat) (num : Word) (status : Nat) (f : Fields) : State :=
  let x := s.ctx c
  let release := if status = stOk && x.pose then (s.clock.ftime.toNat + x.poseLead) % 2 ^ 64 else 0
  (s.downTree c (stageMsg 0x13 status c num f false release)).takeVerdict c num status f release

/-- The summary of node `a`, once its conditions hold (08 R223), of a generation that has failed here too. -/
def State.sumNode (s : State) (c : Nat) (num : Word) (a : Nat) : State :=
  let x := s.ctx c
  match x.gen? num with
  | none => s
  | some y =>
    let g := s.geo x
    let kids := g.feeding a
    let ranks := x.ranksAt a
    if y.summarised.contains a || (ranks.isEmpty && kids.isEmpty) ||
        !ranks.all (fun r => y.enters.any (fun e => e.rank == r)) || !kids.all (fun k => y.summaries.any (fun m => m.1 == k)) then s
    else
      let subs := y.summaries.filter (fun m => kids.contains m.1)
      let all := (y.enters.filter (fun e => ranks.contains e.rank)).map (·.fields) ++ subs.map (·.2.1)
      match all with
      | [] => s
      | f :: l =>
        let low := lowestFields f l
        let dis := subs.any (·.2.2) || all.any (fun h => h.differs low)
        let s := s.modGen c num (fun y => { y with summarised := y.summarised ++ [a] })
        match g.parent a with
        | some p => s.toNode c p 0 3 (stageMsg 0x12 stOk c num low dis 0)
        | none =>
          if dis then s.sendVerdict c num stMismatch low
          else if y.failed.isSome then s
          else s.sendVerdict c num stOk low

/-- Every node held here whose summary is due sends it. -/
def State.pumpSummary (s : State) (c : Nat) (num : Word) : State :=
  ((s.geo (s.ctx c)).held).foldl (fun s a => s.sumNode c num a) s

def execSummary (src : Nat) (s : State) : Out :=
  onMessage src 3 0x12 s fun a s =>
    let c := msgCtx a.body
    let num := msgGen a.body
    let f := msgFields a.body
    s.notLost src c <|
      if !(s.ctx c).live then s
      else
        let s := s.learn c num f
        let g := s.geo (s.ctx c)
        match (s.ctx c).gen? num with
        | none => s
        | some y =>
          let dis := bitAt (leAt a.body 14 1) 0
          if y.summaries.any (fun m => g.holder m.1 == keyAddr src && m.2.1 == f && m.2.2 == dis) then s
          else match (g.held.flatMap g.feeding).find? (fun k => g.holder k == keyAddr src && !y.summaries.any (fun m => m.1 == k)) with
          | none => s
          | some k =>
            (s.modGen c num (fun y => { y with summaries := y.summaries ++ [(k, f, dis)] })).pumpSummary c num

def execVerdict (src : Nat) (s : State) : Out :=
  onMessage src 3 0x13 s fun a s =>
    let c := msgCtx a.body
    let num := msgGen a.body
    let f := msgFields a.body
    let st := leAt a.body 1 1
    s.notLost src c <|
      if !(s.ctx c).live then s
      else
        let s := s.learn c num f
        match (s.ctx c).gen? num with
        | none => s.downTree c a.body
        | some y => if y.verdict == some (st, f) then s
          else ((s.downTree c a.body).takeVerdict c num st f (leAt a.body 28 8)).wakeBound c

def execFail (src : Nat) (s : State) : Out :=
  onMessage src 3 0x14 s fun a s =>
    let c := msgCtx a.body
    let num := msgGen a.body
    let st := leAt a.body 1 1
    s.notLost src c <|
      if !(s.ctx c).live then s
      else
        let g := s.geo (s.ctx c)
        if g.held.contains g.anchor then
          let s := s.learn c num noFields
          match (s.ctx c).gen? num with
          | none => s.downTree c (stageMsg 0x13 st c num noFields false 0)
          | some y =>
            if y.verdict.any (fun v => v.1 != stOk && decide (v.1 ≤ st)) then s
            else s.sendVerdict c num st y.known
        else match g.up with
          | some p => s.toNode c p 0 3 a.body
          | none => s

def execPoseRelease (c : Nat) (g : Word) (s : State) : Out :=
  let x := s.ctx c
  match x.gen? g with
  | none => same s
  | some y =>
    when' (s.computing && !y.posed && y.failed.isNone && y.release.any (fun r => decide (r ≤ s.clock.ftime.toNat)) &&
        x.bound.all (fun n => (s.easel n).stopAt.isNone && x.engines.all (fun e => s.startRoom n e))) s <|
      let q := fun (e : EngId) => ({ study := x.studyOf e, ctx := c, gen := g, chunk := 0, a0 := 0, a1 := 0, a2 := 0, a3 := 0, arrived := s.now,
                                     test := false } : StartEntry)
      (x.bound.foldl (fun s n => x.engines.foldl (fun s e => s.pushStart n e (q e)) s) s).modGen c g (fun y => { y with posed := true })

end Sys2Proof.Machine
end

