-- ==== Sys2Proof/Machine/Collect.lean ====
section
/-!
DEFINITION. ENTERs (07 R194-R198, R447), contribution tiles (R194, R205; 12 R348), timeouts and retirement (R201, R205, R212).
-/

namespace Sys2Proof.Machine

/-! ENTER. -/

/-- A reserved field of an ENTER is nonzero (07 R194, R195). -/
def enterReserved (b : Bytes) : Bool :=
  leAt b 1 1 != 0 || fld (leAt b 2 2) 12 4 != 0 || fld (leAt b 8 4) 20 12 != 0 || fld (leAt b 16 1) 5 3 != 0 ||
    fld (leAt b 17 1) 5 3 != 0 || leAt b 18 2 != 0 || fld (leAt b 24 4) 20 12 != 0 || fld (leAt b 28 4) 20 12 != 0 ||
    fld (leAt b 32 4) 20 12 != 0 || leAt b 36 24 != 0

def enteredOf (src : Nat) (b : Bytes) : Entered := { rank := leAt b 8 4 % 2 ^ 20, raw := slice b 0 60, src }

/-- What becomes of an ENTER (07 R195). -/
inductive Judge where
  | refuse (status : Nat)
  | again
  | hold
  | take
deriving DecidableEq, Repr

def State.judge (s : State) (src : Nat) (b : Bytes) : Judge :=
  let c := msgCtx b
  let num := msgGen b
  let x := s.ctx c
  let e := enteredOf src b
  let k := x.rank e.rank
  let old := (x.gen? num).bind (fun y => y.enters.find? (fun o => o.rank == e.rank))
  let begun := (x.gen? num).any (fun y => !y.enters.isEmpty)
  let rep := old.any (fun o => o.raw == e.raw)
  let reentry := old.any (fun o => o.epoch != e.epoch)
  let d := dist32 x.gLow.toNat num.toNat
  match lowest [(!x.live || (x.st == .draining && !begun), stState),
    (enterReserved b || decide (x.rosterN ≤ e.rank) || !s.isLocal x e.rank, stBadField),
    (e.epoch != k.epoch || !k.live, stFenced),
    (decide (2 ^ 31 ≤ d) || (old.isSome && !rep && !reentry), stSequence)] with
  | some st => .refuse st
  | none => if d ≥ 8 then .hold else if rep then .again else .take

/-- The ENTER that the tiles behind it on the flow belong to (07 R194); none for one that was refused. -/
def State.setEnter (s : State) (src vc : Nat) (v : Option (Nat × Word × Nat)) : State :=
  let fl := s.flow src vc
  s.setFlow { fl with rx := some { (fl.rx.getD {}) with enter := some v } }

/-- A frame of a fenced epoch (12 R341): one record per rank and generation, FENCED to its endpoint once per ms. -/
def State.fencedFrame (s : State) (c r : Nat) (num : Word) (ep epoch : Nat) : State :=
  let s := if s.coll.noted.contains (c, r, num.toNat) then s
    else ({ s with coll := { s.coll with noted := s.coll.noted ++ [(c, r, num.toNat)] } } : State).noteCtx 341 0 c stFenced []
  if s.coll.fencedSent.any (fun p => p.1 == ep && decide (s.now < p.2 + Config.msAclk)) then s
  else s.sendFenced ep (rankMsg 3 stFenced c r epoch ep)

/-- The epoch of a rank that is fenced (12 R341): the current one, or the one before the last REJOIN. -/
def Rank.fencedEpoch (k : Rank) : Nat := if k.live then k.fenced else k.epoch

/-- An armed capture begins with its generation's reference (13 R375), one per position held. -/
def State.beginCapture (s : State) (c : Nat) (num : Word) : State :=
  match s.coll.armed with
  | none => s
  | some a =>
    if a.ctx != c || a.gen != num || s.board.warmSeq then s
    else
      let x := s.ctx c
      let base := s.coll.captures.foldl (fun b k => max b (k.base + k.len)) captureBase
      let g := s.geo x
      let hdr := (captureHeader 0 0 c num (s.fab.indexOf (g.node 0)) x.log2 a.first a.last (List.replicate 4 (0, 0)) []).take (s.mem.sketchBase - base)
      let caps := (List.range g.held.length).map (fun pos =>
        ({ base, len := if pos = 0 then hdr.length else 0, st := 0, ctx := c, gen := num, first := a.first, last := a.last, owner := a.owner, pos } : Capture))
      ({ s.putMem base hdr with coll := { s.coll with armed := none, captures := s.coll.captures ++ caps } } : State).modGen c num
        (fun y => { y with captured := true })

/-- How the reference of a generation fails it (07 R197; 08 R217, R226; 11 R323, R325). -/
def State.refFault (s : State) (x : Ctx) (e : Entered) (num : Word) : Option Nat :=
  let b := s.binding x.palette
  let pal := x.op == 9 || x.op == 0xA
  let w64 := match fmtOf s.formats b.format with | some f => f.width == 64 | none => false
  lowest [(e.op != x.op || e.fmt != x.format || decide (x.maxElements < e.elements) ||
      (if x.op = 0 then e.elements != 0 else e.elements == 0) || decide (x.rosterN ≤ e.root) || decide (x.rosterN ≤ e.shift) ||
      x.disagreed || (pal && b.shards != (s.geo x).participants.length) || (x.op == 0xA && w64), stBadField),
    ((pal && b.st != 1) || x.grants.any (fun g => g.st == 2) ||
      (x.op == 0xE && num.toNat % 2 == 1 && !x.kept.any (fun k => k.1 == num - 1 && k.2.1 == stOk)), stState)]

/-- PEER of an accepted ENTER (07 R197). -/
def peerBad (x : Ctx) (e : Entered) : Bool := if x.op = 7 then decide (x.rosterN ≤ e.peer) else e.peer != 0

/-- The form an ENTER must have (07 R208, R447): on the Hairline path a SHORT tile with COUNT, FORMAT and LENGTH to its payload. TILE and
CHUNK of that tile may be anything (DESIGN CHOICE, assumption 74). -/
def State.formBad (s : State) (x : Ctx) (y : Gen) (e : Entered) : Option Bytes → Bool
  | none => y.path == .hairline
  | some t =>
    let n := if x.op = 0 || (x.op = 5 && e.rank != y.ref.root) then 0 else e.elements
    y.path != .hairline || tForm t != fShort || tCount t != n ||
      (if n = 0 then tLength t != 1
       else match fmtOf s.formats x.format with
        | some f => tFormat t != x.format || shortSize f n != 32 * tLength t
        | none => true)

/-- An ENTER is accepted (07 R196-R198, R447). `tile` is the SHORT tile of a Hairline ENTER. -/
def State.accept (s : State) (c : Nat) (num : Word) (e : Entered) (tile : Option Bytes) : State :=
  let x := s.ctx c
  let y? := x.gen? num
  let isRef := y?.all (fun y => y.enters.isEmpty)
  let base : Gen := y?.getD { num, ref := e, enters := [], t0 := s.now, path := .hairline }
  let y := if isRef then { base with ref := e, enters := [e], t0 := s.now, path := s.pathOf x x.format e.elements, order := s.coll.nextRef }
    else { base with enters := base.enters.filter (fun o => o.rank != e.rank) ++ [e] }
  let x' := if y?.isSome then x.setGen y else { x with gens := x.gens ++ [y] }
  let s := s.setCtx c x'
  let s := if isRef then ({ s with coll := { s.coll with nextRef := s.coll.nextRef + 1 } } : State).beginCapture c num else s
  let s := match (if isRef then s.refFault x' e num else none) with
    | some st => s.failGen c num st
    | none => s
  let s := if !isRef && e.fields.differs y.ref.fields then s.mismatch c num else s
  let s := if peerBad x' e || s.formBad x' y e tile then s.failGen c num stBadField else s
  let ok := ((s.ctx c).gen? num).any (fun z => z.failed.isNone)
  let s := s.takeAccums c num
  let s := match tile with
    | some t => if ok then ((s.hairAdd c num e.rank t).hairPump c num).hairTake c num else s
    | none => s
  s.pumpSummary c num

/-- An ENTER leaves its flow or its wait: it is refused, repeated or accepted, and answered (07 R195, R196). A repeated Hairline ENTER
brings its tile again, which is taken where a re-run has cleared it (12 R348, R351). -/
def State.settleEnter (s : State) (src vc : Nat) (body : Bytes) : State :=
  let c := msgCtx body
  let num := msgGen body
  let b := slice body 0 64
  let e := enteredOf src b
  match s.judge src b with
  | .refuse st =>
    let s := (s.enterAck src vc b st).setEnter src vc none
    let s := if st = stBadField || st = stSequence then s.addHealth src 4 else s
    if st = stFenced then s.fencedFrame c e.rank num src e.epoch else s
  | .again =>
    let s := (s.enterAck src vc b stOk).setEnter src vc (some (c, num, e.rank))
    if body.length > 64 then ((s.hairAdd c num e.rank (body.drop 64)).hairPump c num).hairTake c num else s
  | _ =>
    let s := (s.enterAck src vc b stOk).setEnter src vc (some (c, num, e.rank))
    (s.accept c num e (if body.length > 64 then some (body.drop 64) else none)).wakeBound c

/-- An ENTER of the flow waits, and holds back what is behind it (07 R205). -/
def State.flowWaits (s : State) (src vc : Nat) : Bool :=
  s.openCtxs.any (fun c => (s.ctx c).waits.any (fun w => w.src == src && w.vc == vc))

/-- A frame with an ENTER is handled: it begins to wait or is settled. -/
def State.takeEnter (s : State) (a : Arrived) : State :=
  match s.judge a.src (slice a.body 0 64) with
  | .hold => (s.popFront a.src a.vc).modCtx (msgCtx a.body) (fun x =>
      { x with waits := x.waits ++ [{ src := a.src, vc := a.vc, body := a.body, cells := a.cells }] })
  | _ => (s.consume a).settleEnter a.src a.vc a.body

def execEnter (src vc : Nat) (s : State) : Out :=
  match s.front src vc with
  | none => same s
  | some a => when' (s.fabricUp && a.ftype == 1 && leAt a.body 0 1 == 1 && !s.flowWaits src vc) s (s.takeEnter a)

/-- A Hairline ENTER would open a generation and no accumulator is free (07 R205, R209). -/
def State.hairBlocked (s : State) (src : Nat) (body : Bytes) : Bool :=
  let c := msgCtx body
  let x := s.ctx c
  let e := enteredOf src body
  s.judge src (slice body 0 64) == .take && !(x.gen? (msgGen body)).any (fun y => !y.enters.isEmpty) &&
    s.pathOf x x.format e.elements == .hairline && !s.accumRoom c (msgGen body)

def execHairlineEnter (src : Nat) (s : State) : Out :=
  match s.front src 1 with
  | none => same s
  | some a => when' (s.fabricUp && a.ftype == 2 && !s.flowWaits src 1 && !s.hairBlocked src a.body) s (s.takeEnter a)

def execEnterWaitRelease (c : Nat) (s : State) : Out :=
  let x := s.ctx c
  match pick (fun (w : WaitEnter) => s.judge w.src (slice w.body 0 64) != .hold) x.waits with
  | none => same s
  | some (w, rest) =>
    when' (s.fabricUp && !(decide (w.body.length > 64) && s.hairBlocked w.src w.body)) s <|
      ((s.setCtx c { x with waits := rest }).freeEject w.src w.vc w.cells).settleEnter w.src w.vc w.body

/-! Contribution tiles and what other switches send. -/

/-- What a delivered tile is (07 R194; 08 R218-R222; 12 R341, R348). -/
inductive TileAs where
  | drop (rule : Nat)
  | again (c : Nat) (num : Word)
  | learn (c : Nat) (num : Word)
  | fails (c : Nat) (num : Word)
  | fenced (c r : Nat) (num : Word)
  | place (c : Nat) (num : Word) (key from' : Nat) (inp : Option (Nat × Nat))
  | forward (c : Nat) (num : Word) (key a r : Nat)
  | copy (c : Nat) (num : Word) (pos : Nat) (fromDim : Option Nat) (stage sender : Nat)
  | up (c : Nat) (num : Word) (pos sender : Nat)
  | result (c : Nat) (num : Word) (rs : List Nat) (sender : Nat)
  | hair (c : Nat) (num : Word)
  | wait
deriving DecidableEq, Repr

/-- PERMUTE: another contribution for the destination of rank `r` has reached that destination's home here (07 R188). -/
def State.permuteClash (s : State) (x : Ctx) (y : Gen) (r : Nat) : Bool :=
  let peer := fun (q : Nat) => (y.enters.find? (fun e => e.rank == q)).map (·.peer)
  x.op == 7 && (peer r).any (fun d => s.isLocal x d &&
    (y.inputs.any (fun i => i.stage == 0 && i.sender != r && peer i.sender == some d) ||
     y.delivered.any (fun z => z.2 == d && z.1 / max 1 (s.tilesPer x y.ref.elements) != r)))

/-- A tile from an endpoint. -/
def State.contribution (s : State) (src : Nat) (b : Bytes) (en : Nat × Word × Nat) : TileAs :=
  let (c, num, r) := en
  let x := s.ctx c
  let k := x.rank r
  let t := tTile b
  let ch := t >>> x.ctLog2
  let g := s.geo x
  if !x.live then .drop 194
  else if k.endpoint != src || !k.live then .fenced c r num
  else match x.gen? num with
    | none => .drop 194
    | some y =>
      if y.failed.isSome || x.op = 0 then .drop 0
      else if tChunk b != ch || !s.contributes x y.ref r t then .fails c num
      else if y.path == .hairline then .again c num
      else
        let key := fun (a : Nat) => ch + 2 ^ 32 * g.held.idxOf a
        let home := if atRoot x.op then x.homeOf y.ref.root else x.homeOf r
        let here := g.held.contains home
        let k' := key (if here then home else x.homeOf r)
        if (y.chunk k').taken.contains (t, r) || (y.chunk k').done then .again c num
        else if s.permuteClash x y r then .fails c num
        else if !here then .forward c num k' home r
        else if !s.amongFirst x y r then .drop 0
        else .place c num k' r (some (0, r))

/-- A tile that another switch, or a position held here, sent on. A switch with no local rank learns of the generation from it (08 R219),
and takes it once a stage message has told what the generation is. A partial that comes a second time is dropped. What is no sum waits until every local ENTER has been accepted and
compared (07 R199, 08 R220). -/
def State.transit (s : State) (src : Nat) (b : Bytes) (as : Nat × Word × Nat) : TileAs :=
  let (c, num, k) := as
  let x := s.ctx c
  let t := tTile b
  let ch := t >>> x.ctLog2
  let g := s.geo x
  let pos := List.range g.held.length
  if !x.live then .drop 0
  else if x.lost.any (fun p => p.1 == src) then .drop 352
  else match x.gen? num with
    | none =>
      if dist32 x.gLow.toNat num.toNat ≥ 2 ^ 31 then .drop 0
      else if (g.held.flatMap x.ranksAt).isEmpty then .learn c num
      else .wait
    | some y =>
      let inp := fun (n : Nat) => s.fab.indexOf n
      let fresh := fun (i n : Nat) => !(y.chunk (ch + 2 ^ 32 * i)).taken.contains (t, nodeKey n) && !(y.chunk (ch + 2 ^ 32 * i)).done
      let partial' := pos.findSome? (fun i =>
        (((s.plan x g y (g.node i) ch).partials.find? (fun p => g.holder p.2 == src && fresh i p.2)).map (fun p => (i, p))))
      let rootAt := pos.find? (fun i => atRoot x.op && x.homeOf y.ref.root == g.node i)
      let giver := (x.roster.map (·.1)).find? (fun r => s.contributes x y.ref r t)
      let origin := giver.map x.homeOf
      let notHeld := fun (i : Nat) => !y.delivered.contains (t, nodeKey (g.node i))
      if y.failed.isSome then .drop 0
      else if x.op != 0 && y.enters.isEmpty && y.ref.elements = 0 then .wait
      else if y.path == .hairline then .hair c num
      else if isSum x.op && x.op != 0xA && k = 0 && partial'.isNone then .drop 0
      else match (if k = 0 then partial' else none), rootAt with
        | some (i, p), _ => .place c num (ch + 2 ^ 32 * i) (nodeKey p.2) (some (p.1, inp p.2))
        | none, some i =>
          match origin with
          | some h => if g.holder h == src && fresh i h && giver.all (s.amongFirst x y) then .place c num (ch + 2 ^ 32 * i) (nodeKey h) (some (1, inp h)) else .drop 0
          | none => .drop 0
        | none, none =>
          if (!isSum x.op || x.op == 0xA) && !s.allEntered x y then .wait
          else if spreads x.op then
            match y.path with
            | .ring =>
              match pos.find? (fun i => k = 0 && notHeld i && g.ownerOf ch == g.node i && !isSum x.op) with
              | some i => .copy c num i none 1 (inp (origin.getD 0))
              | none => match pos.find? (fun i => k != 0 && notHeld i && (g.neighbours (g.node i)).any (fun n => g.holder n == src)) with
                | some i =>
                  let n := ((g.neighbours (g.node i)).find? (fun n => g.holder n == src)).getD 0
                  let d := (s.dimOf n (g.node i)).getD 0
                  .copy c num i (some d) (8 - d) (inp n)
                | none => .drop 0
            | _ =>
              match pos.find? (fun i => k = 0 && x.op == 5 && notHeld i && g.node i == g.anchor && origin.any (fun h => g.holder h == src)) with
              | some i => .copy c num i none 1 (inp (origin.getD 0))
              | none => match pos.find? (fun i => k != 0 && notHeld i && (g.parent (g.node i)).any (fun p => g.holder p == src)) with
              | some i => .copy c num i none 8 (inp ((g.parent (g.node i)).getD 0))
              | none => match pos.find? (fun i => k = 0 && x.op != 5 && notHeld i && (g.feeding (g.node i)).any (fun p => g.holder p == src)) with
                | some i =>
                  let child := inp (((g.feeding (g.node i)).find? (fun p => g.holder p == src)).getD 0)
                  if (g.parent (g.node i)).isNone then .copy c num i none 1 child else .up c num i child
                | none => .drop 0
          else
            let rs := if k > 0 then [k - 1] else s.receivers x y t
            .result c num (rs.filter (fun r => s.isLocal x r && !y.delivered.contains (t, r))) (inp (origin.getD 0))

def State.tileAs (s : State) (a : Arrived) : TileAs :=
  if keySw a.src then match a.assoc with
    | some as => s.transit (keyAddr a.src) a.body as
    | none => .drop 194
  else match s.flowEnter a.src a.vc with
    | some en => s.contribution a.src a.body en
    | none => .drop 194

/-- Whether the chunk holds an entry or may take one now: an entry is granted once those before it are, and
of the tiles that wait at the head of their flows the lowest goes first (07 R205); those of a FIRST_K generation go as they arrive (07 R188;
assumption 70). -/
def State.entryRoom (s : State) (c : Nat) (num : Word) (key : Nat) : Bool :=
  let x := s.ctx c
  let holds := fun (g : Word) (k : Nat) => (x.gen? g).any (fun y => (y.chunk k).entry)
  let order := fun (g : Word) (k : Nat) => dist32 x.gLow.toNat g.toNat * 2 ^ 64 + k % 2 ^ 32
  holds num key ||
    (decide (x.entries < x.chunkWindow) && s.grantedBefore c num key &&
      s.fab.inbox.all (fun a => s.front a.src a.vc != some a || a.ftype != 0 || s.flowWaits a.src a.vc ||
        (match s.tileAs a with
         | .place d g k _ _ => d != c || holds g k || decide (order num key ≤ order g k) || (g == num && x.op == 8 && x.firstK)
         | _ => true)))

/-- A tile is recorded as an input of the generation (13 R372). -/
def State.noteInput (s : State) (c : Nat) (num : Word) (stage sender key : Nat) (b : Bytes) : State :=
  s.modGen c num (fun y => y.addInput { stage, tile := tTile b, sender, check := tCheck b, chunk := key, bytes := b })

/-- Whether a partial that position `pos` takes in stage `st` ends its walk there, or is added at the tree root (13 R373). -/
def State.endsWalk (s : State) (x : Ctx) (y : Gen) (pos ch st : Nat) : Bool :=
  let g := s.geo x
  match y.path with
  | .ring => (positions s.fab g.box (g.node pos)).any (fun p => g.ownsAfter p ch st)
  | _ => (g.parent (g.node pos)).isNone

/-- A tile enters a chunk: it waits for the stage of the Easel it is placed on (05 R148, 07 R205). The promotions of a partial that
the last step of a walk adds, or the tree root, count at its position (13 R373). -/
def State.placeTile (s : State) (a : Arrived) (c : Nat) (num : Word) (key from' : Nat) (inp : Option (Nat × Nat)) : State :=
  let x := s.ctx c
  let t := tTile a.body
  let n := x.easelOf t
  let tile : InTile := { bytes := a.body, ctx := c, gen := num, chunk := key, from', src := a.src, vc := a.vc, cells := a.cells }
  let arr := x.arrival && x.format == 0 && isSum x.op
  let s := (s.popFront a.src a.vc).modEasel n (fun e => { e with waiting := e.waiting ++ [tile] })
  let s := s.modGen c num (fun y =>
    let last := isSum x.op && decide (2 ^ 32 ≤ from') && inp.any (fun p => s.endsWalk x y (key / 2 ^ 32) (key % 2 ^ 32) p.1)
    (((y.grant x key).modChunk key (fun k => { k with taken := k.taken ++ [(t, from')] })).markNd (key / 2 ^ 32) arr).addPromos key
      (if last then promoOf s.formats a.body else 0))
  let s := match inp with
    | some (st, who) => s.noteInput c num st who key a.body
    | none => s
  s.wakeBound c

/-- A tile that position `pos` of the context sends on to the node `b` enters its lists (13 R372, R375) and goes. -/
def State.relay (s : State) (c : Nat) (num : Word) (pos ch stage sender b : Nat) (body : Bytes) : State :=
  ((s.noteInput c num stage sender (ch + 2 ^ 32 * pos) body).modGen c num (fun y => y.addOutput (s.ctx c).op pos 1 (tTile body) body)).tileTo
    c num b 0 body

/-- A result tile for rank `r`, of another home, reaches the position that is the rank's home. -/
def State.takeResult (s : State) (c : Nat) (num : Word) (who : Nat) (body : Bytes) (r : Nat) : State :=
  let x := s.ctx c
  let pos := (s.geo x).held.idxOf (x.homeOf r)
  let t := tTile body
  (if isSum x.op || x.op = 3 then s else s.noteInput c num 1 who ((t >>> x.ctLog2) + 2 ^ 32 * pos) body).toRanks c num pos t body [r]

def execContributionTile (src vc : Nat) (s : State) : Out :=
  match s.front src vc with
  | none => same s
  | some a =>
    let t := tTile a.body
    if a.ftype != 0 || !s.fabricUp || s.flowWaits src vc then same s
    else match s.tileAs a with
      | .wait => same s
      | .drop rule => .next (if rule = 0 then s.consume a else (s.consume a).noteDev rule 0 (if rule = 352 then stFenced else 0) [])
      | .again c num => .next ((s.consume a).modGen c num (fun y => { y with again := y.again + 1 }))
      | .learn c num => .next (s.learn c num noFields)
      | .fails c num => .next (((s.consume a).addHealth src 4).failGen c num stBadField)
      | .fenced c r num => .next ((s.consume a).fencedFrame c r num src ((s.ctx c).rank r).fencedEpoch)
      | .place c num key from' inp => when' (s.entryRoom c num key) s (s.placeTile a c num key from' inp)
      | .forward c num key b r =>
        when' (s.fab.roomFor vc (cellsOf a.body)) s
          (((s.consume a).modGen c num (fun y => y.modChunk key (fun k => { k with taken := k.taken ++ [(t, r)] }))).relay
            c num (key / 2 ^ 32) (key % 2 ^ 32) 0 r b a.body)
      | .copy c num pos d st who =>
        let x := s.ctx c
        let ch := t >>> x.ctLog2
        let b := (s.geo x).node pos
        when' ((x.gen? num).all (fun y => s.fab.roomFor (x.vcOf y) (s.copyBodies x y b ch d * cellsOf a.body))) s
          (((s.consume a).noteInput c num st who (ch + 2 ^ 32 * pos) a.body).copyAt c num b ch t a.body d)
      | .up c num pos who =>
        let x := s.ctx c
        let g := s.geo x
        when' (s.fab.roomFor vc (cellsOf a.body)) s (match g.parent (g.node pos) with
          | some p => (s.consume a).relay c num pos (t >>> x.ctLog2) 1 who p a.body
          | none => s.consume a)
      | .result c num rs who =>
        when' (s.fab.roomFor vc (rs.length * cellsOf a.body)) s (rs.foldl (fun s r => s.takeResult c num who a.body r) (s.consume a))
      | .hair c num => .next (s.hairTake c num)

/-- Generations with an accepted ENTER and not retired (07 R213 INFLIGHT). -/
def Ctx.inflight (x : Ctx) : Nat := (x.gens.filter (fun y => !y.enters.isEmpty)).length

/-! Timeouts and retirement. -/

def execGenTimeout (c : Nat) (g : Word) (s : State) : Out :=
  let x := s.ctx c
  match x.gen? g with
  | none => same s
  | some y => when' (s.computing && x.live && y.failed.isNone && !y.enters.isEmpty && decide (y.t0 + x.genTimeout * Config.msAclk ≤ s.now)) s
      (s.failGen c g stTimeout)

/-- The engines that are to serve a chunk on Easel `n` (07 R203). -/
def State.servers (s : State) (x : Ctx) (g : Geo) (y : Gen) (a ch n : Nat) : List EngId :=
  x.engines.filter (fun e => e != .intake || !(s.expectedOn x g y a ch n).isEmpty)

/-- Everything of a chunk has entered, ended and left (07 R205). -/
def State.chunkOver (s : State) (x : Ctx) (c : Nat) (y : Gen) (key : Nat) : Bool :=
  let g := s.geo x
  let a := g.node (key / 2 ^ 32)
  let ch := key % 2 ^ 32
  let k := y.chunk key
  let easels := ((s.chunkTiles x y ch).map x.easelOf).eraseDups
  (s.expected x g y a ch).all (fun p => k.entered.contains p) &&
    easels.all (fun n =>
      let e := s.easel n
      (s.servers x g y a ch n).all (fun i => k.ended.contains (n, i)) &&
        !e.egress.any (fun t => t.ctx == c && t.gen == y.num && t.chunk == key) &&
        !e.stage.any (fun t => t.ctx == c && t.gen == y.num && t.chunk == key) &&
        EngId.all.all (fun i => let q := e.engine i
          !q.startq.any (fun z => z.ctx == c && z.gen == y.num && z.chunk.toNat == ch && z.pos == key / 2 ^ 32 && !z.test) &&
            (q.st == .idle || q.st == .ended || q.test || q.ctx != c || q.gen != y.num || q.key != key)))

def execChunkRetire (c : Nat) (g : Word) (k : Nat) (s : State) : Out :=
  let x := s.ctx c
  match x.gen? g with
  | none => same s
  | some y => when' (s.computing && y.failed.isNone && (y.chunk k).entry && !(y.chunk k).parking && !(y.chunk k).parked &&
        s.chunkOver x c y k) s
      (s.modGen c g (fun y => y.modChunk k (fun z => { z with entry := false, done := true })))

/-- Result tiles that a local rank is owed by other positions have arrived (07 R212). -/
def State.resultsIn (s : State) (x : Ctx) (y : Gen) (pos : Nat) : Bool :=
  let g := s.geo x
  let a := g.node pos
  let tc := s.tileCount x y.ref.elements
  let per := s.tilesPer x y.ref.elements
  let sl := ceilDiv y.ref.elements (1024 * x.rosterN)
  let count := if y.path == .hairline then (if x.op = 0 then 0 else 1) else tc
  let need := fun (r : Nat) => match x.op with
    | 1 => if r = y.ref.root then count else 0
    | 3 => min per ((r + 1) * sl) - min per (r * sl)
    | 6 | 7 | 0xB => per
    | _ => 0
  if g.alone && decide (g.held.length ≤ 1) then true
  else if spreads x.op && y.path != .ring && (x.ranksAt a).isEmpty && (g.feeding a).isEmpty then true
  else if spreads x.op then (List.range count).all (fun t => y.delivered.contains (t, nodeKey a))
  else (x.ranksAt a).all (fun r => decide (need r ≤ ((y.delivered ++ y.owing).filter (fun d => d.2 == r)).length))

/-- A generation is ready to retire (07 R212; 08 R224, R231). One that failed here waits for a VERDICT, where the switch has other
participants to get it from. -/
def State.mayRetire (s : State) (c : Nat) (y : Gen) : Bool :=
  let x := s.ctx c
  let g := s.geo x
  let pos := List.range g.held.length
  if y.failed.isSome then y.verdict.isSome || g.alone || x.replay || g.held.isEmpty
  else
    (y.verdict.any (fun v => v.1 == stOk) && (!x.pose || y.posed) && s.allEntered x y && y.staged.isEmpty && pos.all (s.resultsIn x y) &&
      (if y.path == .hairline then
        x.op == 0 || pos.all (fun i => !(x.ranksAt (g.node i) != [] || g.feeding (g.node i) != []) || x.op == 5 || (s.accum? c y.num i).any (·.sent))
      else pos.all (fun i => (List.range (s.chunkCount x y)).all (fun ch =>
        (y.chunk (ch + 2 ^ 32 * i)).done || !s.takesPart x g y (g.node i) ch))))

def execGenerationRetire (c : Nat) (s : State) : Out :=
  let x := s.ctx c
  match x.gen? x.gLow with
  | none => same s
  | some y => when' (s.computing && x.live && s.mayRetire c y) s (s.retireGen c y)

end Sys2Proof.Machine
end

