-- ==== Sys2Proof/Machine/Loader.lean ====
section
/-!
DEFINITION. Xanim images: their layout (05 R160), the checks of a load (R161) and its effect (R162).
-/

namespace Sys2Proof.Machine

/-- A section of an image (05 R160): its study entries (index, base, length) and its instruction words. -/
structure ImgSection where
  eng : EngId
  studies : List (Nat × Nat × Nat)
  words : List DWord

/-- Where the header places the section of engine `e`: its offset, its length in instructions, its count of study entries. -/
def sectionAt (img : Bytes) (e : EngId) : Nat × Nat × Nat :=
  (leAt img (16 + 8 * e.id) 4, leAt img (20 + 8 * e.id) 2, leAt img (22 + 8 * e.id) 1)

def imgUnits (img : Bytes) : Nat := leAt img 5 1 % 32

/-- The section of engine `e` lies wholly in the image and has at most 16 study entries. -/
def sectionOk (img : Bytes) (e : EngId) : Bool :=
  let p := sectionAt img e
  decide (p.2.2 ≤ 16) && decide (p.1 + 4 * p.2.2 + 8 * p.2.1 ≤ img.length)

/-- The instruction words from byte `off`. -/
def wordsOf : Nat → Bytes → List DWord
  | 0, _ => []
  | n + 1, b => BitVec.ofNat 64 (le (b.take 8)) :: wordsOf n (b.drop 8)

def sectionOf (img : Bytes) (e : EngId) : ImgSection :=
  let p := sectionAt img e
  { eng := e
    studies := (List.range p.2.2).map (fun j =>
      let w := leAt img (p.1 + 4 * j) 4
      (fld w 0 4, fld w 4 12, fld w 16 13))
    words := wordsOf p.2.1 (img.drop (p.1 + 4 * p.2.2)) }

/-- The sections an image carries, those that lie in it. -/
def sectionsOf (img : Bytes) : List ImgSection :=
  (EngId.all.filter (fun e => bitAt (imgUnits img) e.id && sectionOk img e)).map (sectionOf img)

/-- 05 R161 step 1. -/
def imageMalformed (img : Bytes) : Bool :=
  decide (img.length < 64) || leAt img 0 4 != 0x4D494E58 || leAt img 4 1 != 1 || leAt img 60 4 != crc32c (slice img 0 60) ||
    EngId.all.any (fun e => if bitAt (imgUnits img) e.id then !sectionOk img e else sectionAt img e != (0, 0, 0))

/-- The engines that the PUSH instructions of a section name. -/
def ImgSection.pushes (x : ImgSection) : List Nat :=
  (x.words.filter (fun (w : DWord) => (w >>> 56).toNat == 6)).map (fun (w : DWord) => yENG (w.setWidth 56))

def meets (a b : Nat × Nat) : Bool := decide (a.1 < b.1 + b.2) && decide (b.1 < a.1 + a.2)
def anyMeet : List (Nat × Nat) → Bool
  | [] => false
  | r :: l => l.any (meets r) || anyMeet l

/-- The study entries of a section break 05 R161 step 4 by themselves. -/
def ImgSection.bad (x : ImgSection) : Bool :=
  x.studies.any (fun t => t.2.2 == 0 || decide (x.words.length < t.2.1 + t.2.2) || decide (Config.imemWords x.eng < t.2.1 + t.2.2)) ||
    (x.studies.map (·.1)).eraseDups.length != x.studies.length ||
    x.pushes.any (fun t => t == x.eng.id || decide (4 < t))

/-- The regions that a section writes. -/
def ImgSection.regions (x : ImgSection) : List (Nat × Nat) := x.studies.map (·.2)

/-- Valid studies of an engine: their index and region. -/
def Engine.valid (g : Engine) : List (Nat × Nat × Nat) :=
  (g.studies.filter (fun p => p.2.valid)).map (fun p => (p.1, p.2.base, p.2.len))

/-- A section overlaps a study that is kept. -/
def ImgSection.clashes (x : ImgSection) (g : Engine) : Bool :=
  anyMeet (x.regions ++ (g.valid.filter (fun t => !(x.studies.map (·.1)).contains t.1)).map (·.2))

/-- Studies that are running or named in the start queue (04 R123). -/
def Engine.inUse (g : Engine) : List Nat := (if g.st == .idle then [] else [g.study]) ++ g.startq.map (·.study)

/-- A section would write a study in use (05 R161 step 5). -/
def ImgSection.disturbs (x : ImgSection) (g : Engine) : Bool :=
  g.inUse.any (fun j => (x.studies.map (·.1)).contains j ||
    (g.valid.filter (fun t => t.1 == j)).any (fun t => x.regions.any (meets t.2)))

/-- The target is a top-level group with exactly this base and size, or one Easel in no group (01 R24). -/
def State.isTarget (s : State) (base log2 : Nat) : Bool :=
  match s.groupOf base with
  | some g => g.base == base && g.log2 == log2
  | none => log2 == 0

/-- The checks of 05 R161, by status. -/
def State.loadChecks (s : State) (img : Bytes) (base log2 : Nat) : List (Bool × Nat) :=
  let secs := sectionsOf img
  let members := (List.range (2 ^ log2)).map (base + ·)
  [(imageMalformed img, stVersion),
   (decide (s.easelCount < base + 2 ^ log2), stEngineAbsent),
   (EngId.all.any (fun e => bitAt (imgUnits img) e.id && !s.hasEngine e) ||
      secs.any (fun x => x.pushes.any (fun t => match EngId.ofId? t with | some e => !s.hasEngine e | none => false)), stUnitAbsent),
   (!s.isTarget base log2 || log2 != leAt img 6 1 || secs.any ImgSection.bad ||
      members.any (fun n => secs.any (fun x => x.clashes (s.engine n x.eng))), stBadField),
   (members.any (fun n => secs.any (fun x => x.disturbs (s.engine n x.eng))), stState)]

/-- The words of a study are written to the same addresses of the IMEM. -/
def putWords (t : Tab DWord) (a : Nat) : List DWord → Tab DWord
  | [] => t
  | w :: ws => putWords (tset 0 t a w) (a + 1) ws

/-- A section is written to an engine (05 R162). -/
def Engine.loadSection (g : Engine) (x : ImgSection) (img digest : Bytes) : Engine :=
  x.studies.foldl (fun g t => { g with
    imem := putWords g.imem t.2.1 ((x.words.drop t.2.1).take t.2.2)
    studies := tput g.studies t.1 { base := t.2.1, len := t.2.2, valid := true, digest, image := img } }) g

/-- A load that passes its checks (05 R162). -/
def State.loadImage (s : State) (img : Bytes) (base log2 : Nat) : State :=
  let digest := sha256 img
  (List.range (2 ^ log2)).foldl (fun s i =>
    (sectionsOf img).foldl (fun s x => s.modEngine (base + i) x.eng (fun g => g.loadSection x img digest)) s) s

end Sys2Proof.Machine
end

