-- ==== Sys2Proof/Machine/ReplayOps.lean ====
section
/-!
DEFINITION. Bench replay (13 R377-R379): a capture read back, its inputs presented to the bound Easels, its end.
-/

namespace Sys2Proof.Machine

/-! A capture as bytes (13 R375). -/

def capState (b : Bytes) : Nat := leAt b 5 1
def capGen (b : Bytes) : Word := BitVec.ofNat 32 (leAt b 8 4)
def capPosition (b : Bytes) : Nat := leAt b 14 3 % 2 ^ 17
def capLog2 (b : Bytes) : Nat := leAt b 17 1
def capFirst (b : Bytes) : Nat := leAt b 24 4
def capLast (b : Bytes) : Nat := leAt b 28 4
/-- ND of the captured Varnish record (13 R370). -/
def capNd (b : Bytes) : Bool := bitAt (leAt b 103 1) 0
def capSpan (b : Bytes) (i : Nat) : Nat × Nat := (leAt b (32 + 8 * i) 4, leAt b (36 + 8 * i) 4)
def capSection (b : Bytes) (i : Nat) : Bytes := (b.drop (capSpan b i).1).take (capSpan b i).2
/-- Where the sections of a capture end. -/
def capEnd (b : Bytes) : Nat := ((List.range 4).map (fun i => (capSpan b i).1 + (capSpan b i).2)).foldl max 4096

/-- The captured template, roster size, roster entries, format table and carried scales (13 R375 step 1). -/
def capTemplate (b : Bytes) : Bytes := slice (capSection b 0) 0 64
def capN (b : Bytes) : Nat := leAt (capTemplate b) 48 4 % 2 ^ 21
def capFormats (b : Bytes) : Bytes := slice (capSection b 0) (68 + 8 * capN b) 128
def capThresholds (b : Bytes) : Nat × Nat := (leAt (capSection b 0) (196 + 8 * capN b) 4, leAt (capSection b 0) (200 + 8 * capN b) 4)
def capScales (b : Bytes) : Bytes := (capSection b 0).drop (216 + 8 * capN b)

/-- Whole tiles at the front of a byte string, and what follows them. `tail` is the length of an arrival list per tile. -/
def capTiles (tail : Nat) : Nat → Nat → Bytes → List Bytes × Bytes
  | 0, _, b => ([], b)
  | k + 1, n, b =>
    let l := 32 * tLength b
    if b.length < 32 || l = 0 || b.length < l || b.length = tail * n then ([], b)
    else
      let r := capTiles tail k (n + 1) (b.drop l)
      (b.take l :: r.1, r.2)

/-- The captured inputs in list order, and the arrival order when one was captured. -/
def capInputs (b : Bytes) : List Bytes × List Nat :=
  let sec := capSection b 2
  let r := capTiles (if capNd b then 4 else 0) sec.length 0 sec
  (r.1, if capNd b then (List.range r.1.length).map (fun i => leAt r.2 (4 * i) 4) else [])
/-- The captured outputs. -/
def capOutputs (b : Bytes) : List Bytes :=
  let sec := capSection b 3
  (capTiles 0 sec.length 0 sec).1

/-- A Xanim image begins here (05 R160). -/
def imageStarts (b : Bytes) : Bool := decide (64 ≤ b.length) && leAt b 0 4 == 0x4D494E58 && leAt b 4 1 == 1 && leAt b 60 4 == crc32c (slice b 0 60)
/-- The bytes an image must have for the sections its header places. -/
def imageNeeds (b : Bytes) : Nat :=
  (EngId.all.map (fun e => let p := sectionAt b e; if bitAt (imgUnits b) e.id then p.1 + 4 * p.2.2 + 8 * p.2.1 else 0)).foldl max 64
/-- The captured images: each ends where the next begins, beyond the bytes that its header places. -/
def capImages : Nat → Bytes → List Bytes
  | 0, _ => []
  | k + 1, b =>
    if b.isEmpty then []
    else
      let m := imageNeeds b
      match (List.range (b.length - m)).find? (fun i => imageStarts (b.drop (m + i))) with
      | some i => b.take (m + i) :: capImages k (b.drop (m + i))
      | none => [b]

/-- A field or a section of the capture is malformed (13 R379). -/
def capMalformed (b : Bytes) : Bool :=
  let sec := capSection b 0
  let whole := capState b != 2
  capN b == 0 || decide (2 ^ 20 < capN b) || decide (8 < capLog2 b) || decide (capLast b < capFirst b) ||
    (List.range 4).any (fun i => decide ((capSpan b i).1 < 4096)) ||
    decide (sec.length < 216 + 8 * capN b) || leAt sec (64 + 8 * capN b) 4 != capN b ||
    (whole && (decide (b.length < capEnd b) ||
      (capTiles (if capNd b then 4 else 0) (capSection b 2).length 0 (capSection b 2)).2.length !=
        (if capNd b then 4 * (capInputs b).1.length else 0)))

/-- The bytes of the capture whose header lies at `a`: up to its end, or to the end of its region. -/
def State.readCapture (s : State) (a : Nat) : Bytes :=
  let h := s.mem.read a 4096
  let room := if captureBase ≤ a && a < s.mem.sketchBase then s.mem.sketchBase - a else s.mem.hbmEnd - a
  s.mem.read a (min (capEnd h) (max 4096 room))

/-! The generation that is replayed. -/

/-- The elements of the replayed generation, from its tiles (assumption 34). -/
def replayElements (x : Ctx) (b : Bytes) (local' : List Nat) : Nat :=
  let ts := ((capInputs b).1 ++ capOutputs b)
  let m := (ts.map (fun t => tTile t + 1)).foldl max 0
  let ins := ((capInputs b).1.map (fun t => tTile t + 1)).foldl max 0
  let top := local'.foldl max 0
  let short := ts.find? (fun t => tForm t == fShort)
  match short with
  | some t => max 1 (tCount t)
  | none =>
    if !blockNumbered x.op then 1024 * max 1 m
    else if x.op == 4 || atRoot x.op then 1024 * max 1 (ceilDiv m x.rosterN)
    else 1024 * max 1 (ceilDiv ins (top + 1))

/-- The inputs that a position expects of a chunk, in key order: stage, TILE, sender, and the source's key. -/
def State.inputKeys (s : State) (x : Ctx) (g : Geo) (y : Gen) (a ch : Nat) : List (Nat × Nat × Nat × Nat) :=
  let ps := (s.plan x g y a ch).partials
  let one := fun (p : Nat × Nat) =>
    if p.2 < 2 ^ 32 then (0, p.1, p.2, p.2)
    else ((((ps.find? (fun q => q.2 == p.2 - 2 ^ 32)).map (·.1)).getD 1), p.1, s.fab.indexOf (p.2 - 2 ^ 32), p.2)
  (s.expected x g y a ch).map one

def keyBefore (a b : Nat × Nat × Nat × Nat) : Bool :=
  a.1 < b.1 || (a.1 == b.1 && (a.2.1 < b.2.1 || (a.2.1 == b.2.1 && a.2.2.1 < b.2.2.1)))

/-- The tiles in list order are given the keys that they can have. -/
def matchKeys : List (Nat × Nat × Nat × Nat) → List Bytes → List ((Nat × Nat × Nat × Nat) × Bytes) × List Bytes
  | [], l => ([], l)
  | _, [] => ([], [])
  | k :: ks, b :: l =>
    if tTile b = k.2.1 then
      let r := matchKeys ks l
      ((k, b) :: r.1, r.2)
    else matchKeys ks (b :: l)

/-- A list in an order drawn from the entropy source. -/
def shuffled {α : Type} (d : Nat) : Nat → List α → List α
  | 0, l => l
  | k + 1, l =>
    match l[Config.shuffle (d + k) % max 1 l.length]? with
    | none => l
    | some a => a :: shuffled d k (l.eraseIdx (Config.shuffle (d + k) % max 1 l.length))

/-- The local contributions of each chunk, shuffled in the places they hold (13 R377 SHUFFLE). -/
def shuffleLocals (d ct : Nat) (chunks : List Nat) (l : List ((Nat × Nat × Nat × Nat) × Bytes)) : List ((Nat × Nat × Nat × Nat) × Bytes) :=
  chunks.flatMap (fun ch =>
    let mine := l.filter (fun p => p.1.2.1 >>> ct == ch)
    let loc := mine.filter (fun p => p.1.1 == 0)
    shuffled d loc.length loc ++ mine.filter (fun p => p.1.1 != 0))

/-- The inputs go to the Easels' waiting tiles. -/
def State.present (s : State) (c : Nat) (num : Word) (pos : Nat) (l : List ((Nat × Nat × Nat × Nat) × Bytes)) : State :=
  l.foldl (fun s p =>
    let x := s.ctx c
    let t := p.1.2.1
    let tile : InTile := { bytes := p.2, ctx := c, gen := num, chunk := (t >>> x.ctLog2) + 2 ^ 32 * pos, from' := p.1.2.2.2, src := 0, vc := 0, cells := 0 }
    ((s.modEasel (x.easelOf t) (fun e => { e with waiting := e.waiting ++ [tile] })).modGen c num (fun y => y.modChunk tile.chunk (fun k =>
      { k with taken := k.taken ++ [(t, tile.from')] }))).wake (x.easelOf t)) s

/-- The Hairline position is replayed on its accumulator (07 R209). -/
def State.replayHairline (s : State) (c : Nat) (num : Word) (pos : Nat) (l : List ((Nat × Nat × Nat × Nat) × Bytes)) : State :=
  let x := s.ctx c
  match x.gen? num with
  | none => s
  | some y =>
    let a0 := freshAccum c num pos
    let r := l.foldl (fun (acc : Option (Accum × FlagSet)) p => acc.bind (fun q =>
      (q.1.addTile s.formats x.flushBit (p.1.1 != 0) (if p.1.1 != 0 then x.transit else x.format) y.ref.elements p.1.2.2.2 p.2).map
        (fun z => (z.1, q.2 ||| z.2)))) (some (a0, 0))
    if !hairSums x.op then
      l.foldl (fun s p => if tCount p.2 = 0 then s else s.modGen c num (fun y => y.addOutput x.op pos 8 0 p.2)) s
    else match r with
      | none => s.failGen c num stBadField
      | some (a, fl) =>
        let g := s.geo x
        let up := (g.parent (g.node pos)).isSome
        match s.hairRound c x y a up with
        | none => s.failGen c num stBadField
        | some (b, fl', k) =>
          s.modGen c num (fun y => ((y.addFlags pos (fl ||| fl')).addPromos (2 ^ 32 * pos) (k + if up then 0 else a.promo)).addOutput
            x.op pos (if up then 1 else 8) 0 b)

/-- Stages for tiles of the list that match no key, in list order: a tile whose number does not rise begins the next stage (13 R372;
assumption 34). -/
def restStages : Nat → Option Nat → List Bytes → List (Nat × Bytes)
  | _, _, [] => []
  | st, last, b :: l =>
    let st := if last.any (fun t => decide (tTile b ≤ t)) then st + 1 else st
    (st, b) :: restStages st (some (tTile b)) l

/-- The ROOT of the replayed generation (assumption 34): a rank of the position where what it took or sent tells so, and else the first
rank of another home. -/
def replayRoot (x : Ctx) (per a : Nat) (ins : List Bytes) : Nat :=
  let here := (x.ranksAt a).headD 0
  let away := ((List.range x.rosterN).find? (fun r => x.homeOf r != a)).getD here
  let ranks := ins.map (fun b => tTile b / max 1 per)
  if atRoot x.op then
    (if ranks.any (fun r => decide (r < x.rosterN) && x.homeOf r != a) || (List.range x.rosterN).all (fun r => x.homeOf r == a) then here else away)
  else if x.op = 5 then (if (ins.map tTile).eraseDups.length != ins.length || (List.range x.rosterN).all (fun r => x.homeOf r == a) then here else away)
  else here

/-- The captured generation is set up in its context and its inputs are presented (13 R377). -/
def State.startReplay (s : State) (c : Nat) (r : Replay) : State :=
  let b := r.captured
  let x := s.ctx c
  let g := s.geo x
  let pos := g.held.length - 1
  let a := g.node pos
  let num := capGen b
  let e := replayElements x b (x.ranksAt a)
  let root := replayRoot x (s.tilesPer x e) a (capInputs b).1
  let f : Fields := { rank := root, op := x.op, fmt := x.format, elements := e, root, shift := 0 }
  let ref := f.entered
  let enters := (g.held.flatMap x.ranksAt).map (fun q => { ref with rank := q, src := (x.rank q).endpoint })
  let y : Gen := { num, ref, enters, t0 := s.now, path := s.pathOf x x.format e, captured := true, verdict := some (stOk, f), order := s.coll.nextRef }
  let chunks := (List.range (s.chunkCount x y)).filter (fun ch => decide (capFirst b ≤ ch) && decide (ch ≤ capLast b))
  let hair := y.path == .hairline
  let keys := if hair then
      (x.ranksAt a).map (fun q => (0, 0, q, q)) ++
        (if hairSums x.op then (g.feeding a).map (fun n => (1, 0, s.fab.indexOf n, nodeKey n)) else [])
    else chunks.flatMap (s.inputKeys x g y a)
  let ins := capInputs b
  let m := matchKeys (insertSort keyBefore keys) ins.1
  let whole := fun (ch : Nat) => (s.expected x g y a ch).all (fun p => m.1.any (fun q => q.1.2.1 == p.1 && q.1.2.2.2 == p.2))
  let input := fun (q : (Nat × Nat × Nat × Nat) × Bytes) =>
    ({ stage := q.1.1, tile := q.1.2.1, sender := q.1.2.2.1, check := tCheck q.2, chunk := (q.1.2.1 >>> x.ctLog2) + 2 ^ 32 * pos, bytes := q.2 } : Input)
  let passed := restStages (if isSum x.op then 5 else 1) none m.2
  let rest := passed.map (fun p => ({ stage := p.1, tile := tTile p.2, sender := 0, check := tCheck p.2, chunk := (tTile p.2 >>> x.ctLog2) + 2 ^ 32 * pos,
                                      bytes := p.2 } : Input))
  let done := (List.range (s.chunkCount x y)).filter (fun ch => !chunks.contains ch || !whole ch)
  let tab := (List.range (s.chunkCount x y)).foldl (fun (t : Tab Chunk) ch => tput t (ch + 2 ^ 32 * pos) { done := done.contains ch }) []
  let y := ({ y with inputs := m.1.map input ++ rest, chunks := tab } : Gen).markNd pos (capNd b)
  let y := passed.foldl (fun y p => y.addOutput x.op pos 8 (tTile p.2) p.2) y
  let s := s.setCtx c { x with gens := [y] }
  let s : State := { s with coll := { s.coll with nextRef := s.coll.nextRef + 1 } }
  if hair then s.replayHairline c num pos m.1
  else
    let use := m.1.filter (fun q => !done.contains (q.1.2.1 >>> x.ctLog2))
    let order := if r.shuffle then shuffleLocals s.freeCtr x.ctLog2 chunks use
      else if ins.2.isEmpty then use
      else (ins.2.filterMap (fun i => m.1[i]?)).filter (fun q => !done.contains (q.1.2.1 >>> x.ctLog2))
    (s.present c num pos order).draw (if r.shuffle then m.1.length else 0)

/-- A study that the context names is missing on a bound Easel (07 R193). -/
def State.studyMissing (s : State) (x : Ctx) : Bool :=
  x.engines.any (fun e => x.bound.any (fun n => !((s.engine n e).studyAt (x.studyOf e)).valid))

/-- A replay whose reservation is granted (13 R377): the images are loaded under 05 R161, or the command fails with what they break; no
start entry may name a study that is missing (04 R124). -/
def State.grantReplay (s : State) (c : Nat) : State :=
  match s.coll.replays.find? (fun r => r.ctx == c) with
  | none => s
  | some r =>
    let x := s.ctx c
    let imgs := capImages 5 (capSection r.captured 1)
    let go := imgs.foldl (fun (acc : Except Nat State) img => match acc with
      | .error e => .error e
      | .ok s => match lowest (s.loadChecks img x.base x.log2) with
        | some e => .error e
        | none => .ok (s.loadImage img x.base x.log2)) (.ok s)
    match go with
    | .error e => (s.endWaits (WaitsOn.isReplay c) e []).freeCtx c
    | .ok t => if t.studyMissing x then (s.endWaits (WaitsOn.isReplay c) stBadField []).freeCtx c else t.startReplay c r

/-- The outputs of a replay in (stage, TILE) order. -/
def Gen.sortedOutputs (y : Gen) : List Bytes :=
  (insertSort (fun (a b : Nat × Nat × Bytes) => a.1 < b.1 || (a.1 == b.1 && a.2.1 < b.2.1)) (y.outputs.map (·.2))).map (·.2.2)

/-- REPLAY_FINISH (13 R377): the outputs are written, the Varnish record is built and is the command's payload, and the context
returns to FREE. -/
def State.finishReplay (s : State) (r : Replay) (y : Gen) : State :=
  let x := s.ctx r.ctx
  let pos := (s.geo x).held.length - 1
  let out := y.sortedOutputs.flatten
  let s := x.bound.foldl (fun s n => s.clearEasel n r.ctx y.num) s
  if !out.isEmpty && !s.mem.mapped r.out out.length then (s.endWaits (WaitsOn.isReplay r.ctx) stBadField []).freeCtx r.ctx
  else
    let s := s.putMem r.out out
    (s.endWaits (WaitsOn.isReplay r.ctx) (y.failed.getD stOk) (s.varnish r.ctx x y pos false)).freeCtx r.ctx

end Sys2Proof.Machine
end

