-- ==== Sys2Proof/Machine/HostCmd.lean ====
section
/-!
DEFINITION. The host's commands (14 R393-R399): their take, what each does at its effect point, and its completion.
-/

namespace Sys2Proof.Machine

/-! Takes (14 R393-R395). -/

def Taken.opc (t : Taken) : Nat := leAt t.bytes 0 1
def Taken.irq (t : Taken) : Bool := bitAt (leAt t.bytes 1 1) 0
/-- The host bytes read for the command; none while a read has failed or none was made. -/
def Taken.data (t : Taken) : Option Bytes := t.got.bind id
/-- A host read of the command failed (14 R399). -/
def Taken.failedRead (t : Taken) : Bool := t.got == some none
/-- Every host read of the command has finished (14 R399). -/
def Taken.ready (t : Taken) : Bool := t.wants.isNone || t.got.isSome

/-- The device states in which command slots are examined (14 R394). -/
def State.hostWorks (s : State) : Bool := s.aclk && (s.dev == .hold || s.dev == .running || s.dev == .grisaille)

/-- The 64 bytes of a command slot (14 R393). -/
def Func.slotBytes (x : Func) (i : Nat) : Bytes := (List.range 64).map (fun k => tget 0 x.slots (64 * i + k))

/-- The host memory a command reads before its effect point (14 R397, R399; 15 R416). -/
def wantsOf (b : Bytes) : Option (Nat × Nat) :=
  let one := fun (at' len : Nat) (ok : Bool) => if ok && leAt b at' 8 % 64 == 0 then some (leAt b at' 8, len) else none
  let n := leAt b 8 4
  match leAt b 0 1 with
  | 0x01 => one 8 64 true
  | 0x02 => one 16 (8 * n) (decide (1 ≤ n) && decide (n ≤ 2 ^ 20))
  | 0x06 => one 16 n (decide (64 ≤ n) && decide (n ≤ 1048576))
  | 0x14 => one 16 n (n % 64 == 0 && decide (1088 ≤ n) && decide (n ≤ 66060288))
  | _ => none

/-- The requests for a run of host memory (14 R399): each at most `m` bytes, and within one 4 KiB page, as PCI Express asks. -/
def splitRun (m : Nat) : Nat → Nat → Nat → List (Nat × Nat)
  | 0, _, _ => []
  | k + 1, a, n =>
    let l := min n (min (max 4 m) (4096 - a % 4096))
    if n = 0 then [] else (a, l) :: splitRun m k (a + l) (n - l)

/-- Function `f` reads host memory with Memory Read requests (14 R399). -/
def State.readHost (s : State) (f a n : Nat) : State :=
  (splitRun (s.func f).maxRead n a n).foldl (fun s p => s.emit (.hostRead f p.1 p.2)) s

/-- Function `f` writes host memory with Memory Write requests (14 R399). -/
def State.writeHost (s : State) (f a : Nat) (b : Bytes) : State :=
  (splitRun (s.func f).maxPayload b.length a b.length).foldl (fun s p => s.emit (.hostWrite f p.1 ((b.drop (p.1 - a)).take p.2))) s

/-- The command in slot `i` is taken (14 R394, R401): the result slot is PENDING and keeps everything else. -/
def State.takeCommand (s : State) (f i : Nat) (b : Bytes) : State :=
  let x := s.func f
  let t : Taken := { slot := i, seq := x.next, bytes := b.take 56, at' := s.now, wants := wantsOf b, got := none }
  let s := s.setFunc f { x with next := x.next + 1, taken := x.taken ++ [t], errLast := tdel x.errLast i,
                                results := tput x.results i { (x.result i) with st := 1, status := stPending } }
  match wantsOf b with
  | some (a, n) => s.readHost f a n
  | none => s

/-- A slot whose SEQ is neither expected nor the slot's previous one (14 R395): the slot and the status are recorded in CMD_ERR and in
the Diary. -/
def State.seqError (s : State) (f i : Nat) (seq : DWord) : State :=
  let s := s.modFunc f (fun x => { x with errSeq := true, errSlot := i, errLast := tput x.errLast i seq })
  ((s.interrupt f 1).setHot 4 f 0).note 395 0 5 f stSequence [i]

/-- Function `f` examines the slot of its next command (14 R394, R395). -/
def State.examine (s : State) (f : Nat) : State :=
  let x := s.func f
  let i := x.next.toNat % 256
  let b := x.slotBytes i
  let seq : DWord := BitVec.ofNat 64 (leAt b 56 8)
  if !s.hostWorks || !s.enabled f then s
  else if seq = x.next then (if (x.result i).st == 0 then s.takeCommand f i b else s)
  else if seq != 0 && seq != x.next - 256 && tget? x.errLast i != some seq then s.seqError f i seq else s

def execCommandTake (f : Nat) (s : State) : Out := onUnit (decide (f < 4)) (same (s.examine f))

/-- The takes of an ACLK, which come before its register writes, in ascending function (14 R391, R396). -/
def State.examineAll (s : State) : State := (List.range 4).foldl State.examine s

/-- The bytes that a host read returned go to the oldest command that waits for some (14 R399). -/
def giveData (d : Option Bytes) : List Taken → List Taken
  | [] => []
  | t :: l => if t.ready then t :: giveData d l else { t with got := some d } :: l

def execHostReadCompletion (f : Nat) (data : Option Bytes) (s : State) : Out :=
  onUnit (decide (f < 4)) <|
    when' (s.aclk && (s.func f).taken.any (fun t => !t.ready)) s
      (s.modFunc f (fun x => { x with taken := giveData data x.taken }))

/-! Effect points (14 R396-R398). -/

/-- How a command's effect point ends: it fails and has no effect; it completes with a payload; or it waits for something, and
then goes on as given. -/
inductive CmdEnd where
  | fail (status : Nat)
  | done (s : State) (payload : Bytes)
  | waits (on : WaitsOn) (go : State → State)

/-- Every command of another function that was taken before this one of function `f` has had its effect (14 R396); of those taken in one
ACLK the lower function comes first. -/
def State.turnOf (s : State) (f : Nat) (t : Taken) : Bool :=
  (List.range 4).all (fun g => g == f || (s.func g).taken.all (fun u => decide (t.at' < u.at') || (t.at' == u.at' && decide (f < g))))

/-- An IMAGE_WRITE of the function has not completed: its effect point is its completion (14 R397, 15 R416). -/
def State.norBusy (s : State) (f : Nat) : Bool := s.boot.norJob.any (fun j => j.f == f)

/-- The oldest command that function `f` has taken reaches its effect point (14 R396). -/
def runCmd (s : State) (f : Nat) (isOp : Nat → Bool) (k : Taken → State → CmdEnd) : Out :=
  onUnit (decide (f < 4)) <|
    match (s.func f).taken with
    | [] => same s
    | t :: rest =>
      when' (s.hostWorks && isOp t.opc && t.ready && s.turnOf f t && !s.norBusy f) s <|
        let s := s.modFunc f (fun x => { x with taken := rest })
        let fin := fun (s : State) (st : Nat) (p : Bytes) =>
          if t.quiet then s else s.finish f t.slot t.seq (BitVec.ofNat 8 t.opc) t.irq st p
        match k t s with
        | .fail st => fin s st []
        | .done s' p => fin s' stOk p
        | .waits on go => go (if t.quiet then s else s.modFunc f (fun x => { x with
            waits := x.waits ++ [{ slot := t.slot, seq := t.seq, opcode := BitVec.ofNat 8 t.opc, irq := t.irq, on }] }))

/-- The lowest status among the conditions met, or the effect. -/
def checked (l : List (Bool × Nat)) (go : CmdEnd) : CmdEnd :=
  match lowest l with
  | some st => .fail st
  | none => go

/-- The rows of 14 R398 and R399 that hold for every command. -/
def State.common (s : State) (f : Nat) (t : Taken) : List (Bool × Nat) :=
  let o := t.opc
  [(s.dev == .hold && !(o == 0 || o == 0x13 || o == 0x14), stState),
   (s.dev == .grisaille && [1, 2, 3, 6, 7, 8, 9, 0xB, 0xC, 0xE, 0x10].contains o, stDegraded),
   (f != 0 && [0x0F, 0x11, 0x12, 0x14].contains o, stBadField),
   (o > 0x14, stBadField),
   (t.failedRead, stTimeout)]

def Taken.ctx (t : Taken) : Nat := leAt t.bytes 2 2 % 4096
def Taken.haddr (t : Taken) (at' : Nat) : Nat := leAt t.bytes at' 8

/-- The context that the command names is another function's (14 R384). -/
def foreign (x : Ctx) (f : Nat) : Bool := x.st != .free && x.owner != f

/-- Some Easel of a range, within the grade, is another function's (14 R384). -/
def State.foreignEasel (s : State) (f base size : Nat) : Bool :=
  (List.range size).any (fun i => s.isEasel (base + i) && (s.easel (base + i)).owner != f)
/-- Every Easel of a range that the grade has is woken: a host command is addressed to it (04 R133, assumption 22). -/
def State.wakeRange (s : State) (base size : Nat) : State :=
  (List.range size).foldl (fun s i => if s.isEasel (base + i) then s.wake (base + i) else s) s
/-- Some Easel of a range has a context bound to it. -/
def State.anyBound (s : State) (base size : Nat) : Bool := (List.range size).any (fun i => !(s.boundTo (base + i)).isEmpty)

/-! NOP, and the opcodes that are reserved (14 R397, R398). -/

def execCmdNop (f : Nat) (s : State) : Out :=
  runCmd s f (fun o => o == 0 || o > 0x14) fun t s => checked (s.common f t) (.done s [])

/-! OPEN (07 R185-R191). -/

/-- A reserved field of a template is nonzero (07 R185). -/
def reservedTemplate (b : Bytes) : Bool :=
  [(0, 1, 5), (1, 1, 5), (2, 1, 5), (3, 1, 5), (5, 1, 5), (6, 1, 3), (12, 1, 4), (13, 1, 0), (14, 2, 11), (17, 1, 4), (18, 1, 5),
   (19, 1, 0), (20, 3, 20), (23, 1, 4), (28, 2, 11), (30, 1, 3), (31, 1, 0), (48, 4, 21), (52, 12, 0)].any
    (fun p => leAt b p.1 p.2.1 >>> p.2.2 != 0)

/-- TRANSIT breaks 03 R94 for the data format. -/
def transitBad (x : Ctx) (f : Fmt) : Bool :=
  if x.format == 0 then x.transit != 0
  else if f.int then x.transit != 6
  else !(x.transit == 1 || x.transit == 8 || x.transit == 0xD)

/-- OUT_FORMAT breaks 07 R187. -/
def outBad (x : Ctx) (f o : Fmt) : Bool :=
  if x.op == 1 || x.op == 2 || x.op == 3 || x.op == 0xA then
    (if x.format == 0 then x.outFormat != 0 else if f.int then !o.int else o.int || x.outFormat == 0)
  else x.outFormat != x.format

/-- A format into which stochastic rounding is refused (02 R50). -/
def noStochastic (f : Fmt) : Bool := f.int || decide (16 < f.width)

/-- A template breaks 07 R186 by its own fields: BAD_FIELD. -/
def State.templateBad (s : State) (x : Ctx) : Bool :=
  let usesK := x.op == 0xC || x.firstK
  let k := leAt x.tmpl 28 2 % 2048
  reservedTemplate x.tmpl || decide (0xE < x.op) || decide (5 < x.rmode) || !([2, 3, 4, 5, 7].contains x.vc) ||
    decide (5 < leAt x.tmpl 30 1 % 8) || (x.vc != 7 && x.bucket != 0) || (x.op != 9 && x.op != 0xA && x.palette != 0) ||
    (if usesK then k == 0 || decide (1024 < k) else k != 0) ||
    decide (8 < x.ctLog2) || x.chunkWindow == 0 || decide (1024 < x.chunkWindow) || decide (8 < x.log2) || x.genTimeout == 0 ||
    x.rosterN == 0 || decide (2 ^ 20 < x.rosterN) ||
    (match fmtOf s.formats x.format, fmtOf s.formats x.outFormat, fmtOf s.formats x.transit with
     | some f, some o, some t => transitBad x f || outBad x f o || (decide (4 ≤ x.rmode) && (noStochastic o || noStochastic t)) ||
         (x.op == 0xE && (x.maxElements == 0 || decide (x.reserveMib * 2 ^ 20 < 4 * (ceilDiv x.maxElements 1024 * denseSize o))))
     | _, _, _ => true)

/-- A template uses a feature that STRICT refuses (13 R368). -/
def Ctx.nonStrict (x : Ctx) : Bool := x.arrival || x.rmode == 5 || x.firstK

/-- A context needs an engine that the grade lacks (00 R5). -/
def State.unitsMissing (s : State) (x : Ctx) : Bool :=
  EngId.all.any (fun e => bitAt x.units e.id && !s.hasEngine e) || ((x.op == 0xB || x.op == 0xC) && !s.hasEngine .order)

/-- The Palette binding that a template names is another function's (14 R384). -/
def State.foreignBinding (s : State) (f : Nat) (x : Ctx) : Bool :=
  (x.op == 9 || x.op == 0xA) && (s.binding x.palette).st != 0 && (s.binding x.palette).owner != f

/-- The checks of 07 R186. -/
def State.openChecks (s : State) (f c : Nat) (x : Ctx) : List (Bool × Nat) :=
  [(decide (s.easelCount < x.base + 2 ^ x.log2), stEngineAbsent),
   (s.unitsMissing x, stUnitAbsent),
   ((s.ctx c).st != .free || s.foreignEasel f x.base (2 ^ x.log2) || s.foreignBinding f x, stState),
   (s.templateBad x || !s.isTarget x.base x.log2 || decide (s.mem.sketchGib * 1024 < x.reserveMib) ||
      decide (Config.trackerEntries < x.chunkWindow), stBadField),
   (s.coll.strict && x.nonStrict, stNd)]

/-- Semaphores of the Easels of a range that no context other than `c` is bound to are cleared (04 R110). -/
def State.clearSems (s : State) (c : Nat) (x : Ctx) : State :=
  (x.bound.filter (fun n => (s.boundTo n).all (· == c))).foldl (fun s n => s.modEasel n (fun e => { e with sems := [] })) s

/-- A context is taken and waits for its reservation (07 R191). A REPLAY that gets none has no effect (13 R379). -/
def State.takeCtx (s : State) (c accepted : Nat) (x : Ctx) : State :=
  let s := (if x.replay then s else s.clearSems c x).setCtx c { x with st := .granting }
  { s with coll := { s.coll with opens := s.coll.opens ++ [{ ctx := c, accepted, limit := x.openWait }] } }

def execOpenCtx (f : Nat) (s : State) : Out :=
  runCmd s f (· == 1) fun t s =>
    let x : Ctx := { tmpl := t.data.getD [], owner := f, strictAtOpen := s.coll.strict }
    let c := t.ctx
    checked (s.common f t ++ [(t.haddr 8 % 64 != 0, stBadField), (foreign (s.ctx c) f, stState)] ++
        (if t.data.isSome then s.openChecks f c x else [((s.ctx c).st != .free, stState)]))
      (.waits (.openOf c) (fun s => (s.takeCtx c t.at' x).wakeRange x.base (2 ^ x.log2)))

/-- The Sketchbook areas of the contexts that hold a reservation, as (base, MiB). -/
def State.reserved (s : State) : List (Nat × Nat) := ((s.coll.ctxs.map (·.2)).filter (fun x => x.mib != 0)).map (fun x => (x.sketchBase, x.mib))

/-- Where a reservation of `mib` MiB fits in the Sketchbook: the lowest place that is free (assumption 20). -/
def State.sketchFit (s : State) (mib : Nat) : Option Nat :=
  let used := s.reserved
  let last := s.mem.sketchBase + s.mem.sketchGib * gib
  let at' := s.mem.sketchBase :: used.map (fun p => p.1 + p.2 * 2 ^ 20)
  minOf (at'.filter (fun a => decide (a + mib * 2 ^ 20 ≤ last) &&
    used.all (fun p => decide (a + mib * 2 ^ 20 ≤ p.1) || decide (p.1 + p.2 * 2 ^ 20 ≤ a))))

/-- Where the reservation of an OPEN could be granted now (07 R191): both of its parts are free. -/
def State.grantAt (s : State) (x : Ctx) : Option Nat :=
  let held := ((s.coll.ctxs.map (·.2)).map (·.window)).sum
  if held + x.chunkWindow ≤ Config.trackerEntries then s.sketchFit x.reserveMib else none

def execReservationGranted (s : State) : Out :=
  match s.coll.opens with
  | [] => same s
  | o :: rest =>
    let x := s.ctx o.ctx
    match s.grantAt x with
    | none => same s
    | some a =>
      when' (s.aclk && (s.dev == .running)) s <|
        let s := s.setCtx o.ctx { x with st := .loading, mib := x.reserveMib, window := x.chunkWindow, sketchBase := a }
        let s : State := { s with coll := { s.coll with opens := rest } }
        if x.replay then (s.clearSems o.ctx x).grantReplay o.ctx else s.endWaits (WaitsOn.isOpen o.ctx) stOk []

/-- An OPEN waits no longer than OPEN_WAIT; with OPEN_WAIT = 0 it fails at the head when it cannot be granted (07 R191). -/
def execOpenWaitExpiry (c : Nat) (s : State) : Out :=
  match s.coll.opens.find? (fun o => o.ctx == c) with
  | none => same s
  | some o =>
    let head := (s.coll.opens.head?).map (·.ctx) == some c
    let due := if o.limit = 0 then head && (s.grantAt (s.ctx c)).isNone else decide (o.accepted + o.limit * Config.msAclk ≤ s.now)
    when' (s.aclk && due) s
      (((s.endWaits (WaitsOn.isOpen c) stNoSpace []).endWaits (WaitsOn.isReplay c) stNoSpace []).freeCtx c)

/-! ROSTER and COMMIT (07 R189, R193). -/

/-- The entries of a ROSTER command are written from rank `r` on (07 R189). -/
def writeRoster (b : Fabric) (x : Ctx) (r : Nat) : Nat → Bytes → Ctx
  | 0, _ => x
  | n + 1, d =>
    let ep := leAt d 0 3
    let k : Rank := { endpoint := ep, first := ep, epoch := leAt d 4 4, home := b.addrOf (b.coords ep) }
    writeRoster b { x with roster := tput x.roster r k, written := if x.written.contains r then x.written else x.written ++ [r] } (r + 1) n (d.drop 8)

def execRoster (f : Nat) (s : State) : Out :=
  runCmd s f (· == 2) fun t s =>
    let c := t.ctx
    let x := s.ctx c
    let first := leAt t.bytes 4 4 % 2 ^ 20
    let n := leAt t.bytes 8 4
    checked (s.common f t ++ [(t.haddr 16 % 64 != 0 || n == 0 || decide (2 ^ 20 < n), stBadField),
        (foreign x f || x.st != .loading || x.replay, stState), (x.st == .loading && decide (x.rosterN < first + n), stBadField)])
      (.done (s.setCtx c (writeRoster s.fab x first n (t.data.getD []))) [])

/-- The checks of 07 R193. -/
def State.commitBad (s : State) (x : Ctx) : Bool :=
  let n := x.rosterN
  let eps := (x.roster.filter (fun p => decide (p.1 < n))).map (·.2.endpoint)
  let tiles := ceilDiv x.maxElements 1024
  !(List.range n).all x.written.contains || eps.eraseDups.length != eps.length || s.studyMissing x ||
    (x.op == 0xB && decide (4194304 < n * x.maxElements)) ||
    ((x.op == 4 || x.op == 8) && decide (2 ^ 32 < n * 1024 * tiles)) ||
    ([6, 7, 9, 0xC, 0xD].contains x.op && decide (2 ^ 32 < n * tiles))

/-- What a context latches as it enters READY (07 R189, R193; 08 R217, R233). -/
def State.ready (s : State) (x : Ctx) : Ctx :=
  let digest := sha256 (toLE 4 x.rosterN ++ (List.range x.rosterN).flatMap (fun r => toLE 3 (x.homeOf r)))
  let x := { x with st := .ready, gLow := 0, lastValid := false, hairMax := s.coll.hairMax, treeMax := s.coll.treeMax, poseLead := s.coll.poseLead,
                    rosterDigest := digest, confirmed := [], checked := [], disagreed := false }
  { x with fabricDigest := x.fabric }

def execCommit (f : Nat) (s : State) : Out :=
  runCmd s f (· == 3) fun t s =>
    let c := t.ctx
    let x := s.ctx c
    checked (s.common f t ++ [(foreign x f || x.st != .loading || x.replay, stState), (x.st == .loading && s.commitBad x, stBadField)])
      (let x := s.ready x
       .done ((s.setCtx c x).sendChecks c) x.rosterDigest)

/-! CLOSE and ABORT (07 R192). -/

def execClose (f : Nat) (s : State) : Out :=
  runCmd s f (· == 4) fun t s =>
    let c := t.ctx
    let x := s.ctx c
    checked (s.common f t ++ [(foreign x f || x.st == .free || x.st == .draining, stState)])
      (.waits (.freeOf c) (fun s =>
        if x.st == .ready && !x.gens.isEmpty then s.setCtx c { x with st := .draining } else s.freeCtx c))

/-- ABORT of a context (07 R192): every generation in flight fails with STATE, and the context returns to FREE. -/
def State.abortCtx (s : State) (c : Nat) : State := (s.failAll c stState).freeCtx c

def execAbort (f : Nat) (s : State) : Out :=
  runCmd s f (· == 5) fun t s =>
    let c := t.ctx
    let x := s.ctx c
    checked (s.common f t ++ [(foreign x f || x.st == .free, stState)]) (.waits (.freeOf c) (fun s => s.abortCtx c))

/-! LOAD, GROUP, START (05 R161, R162; 01 R21-R24; 14 R448; 04 R124). -/

def execCmdLoad (f : Nat) (s : State) : Out :=
  runCmd s f (· == 6) fun t s =>
    let base := leAt t.bytes 4 1
    let log2 := leAt t.bytes 5 1 % 16
    let n := leAt t.bytes 8 4
    let img := t.data.getD []
    checked (s.common f t ++ [(t.haddr 16 % 64 != 0 || decide (n < 64) || decide (1048576 < n), stBadField),
        (decide (s.easelCount < base + 2 ^ log2), stEngineAbsent), (s.foreignEasel f base (2 ^ log2), stState)] ++
        (if t.data.isSome then s.loadChecks img base log2 else []))
      (.done ((s.loadImage img base log2).wakeRange base (2 ^ log2)) (sha256 img))

/-- The nibbles of NEST up to the last nonzero one (14 R448). -/
def nestOf (v : Nat) : List Nat := ((List.range 8).map (fun l => fld v (4 * l) 4)).take (if v = 0 then 0 else Nat.log2 v / 4 + 1)

/-- Strictly rising and nonzero. -/
def rising : Nat → List Nat → Bool
  | _, [] => true
  | a, b :: l => decide (a < b) && rising b l

/-- NEST breaks 14 R448. -/
def nestBad (log2 v : Nat) : Bool :=
  if log2 = 0 then v != 0 else v != 0 && (!rising 0 (nestOf v) || (nestOf v).getLast? != some log2)

/-- The checks of GROUP (01 R21, R24; 14 R398, R448). -/
def State.groupChecks (s : State) (f base log2 nest : Nat) : List (Bool × Nat) :=
  let gs := s.coll.groups
  let there := gs.find? (fun g => g.base == base)
  let size := if log2 = 0 then (match there with | some g => 2 ^ g.log2 | none => 1) else 2 ^ log2
  let meets' := gs.filter (fun g => meets (g.base, 2 ^ g.log2) (base, size))
  let same' := meets'.all (fun g => g.base == base && g.log2 == log2)
  [(decide (s.easelCount < base + size), stEngineAbsent),
   (s.foreignEasel f base size || s.anyBound base size || (log2 == 0 && there.isNone) ||
      meets'.any (fun g => s.anyBound g.base (2 ^ g.log2)), stState),
   (nestBad log2 nest || (log2 != 0 && (decide (8 < log2) || base % size != 0 || !same')), stBadField)]

def execGroup (f : Nat) (s : State) : Out :=
  runCmd s f (· == 7) fun t s =>
    let base := leAt t.bytes 4 1
    let log2 := leAt t.bytes 5 1 % 16
    let nest := leAt t.bytes 8 4
    let others := s.coll.groups.filter (fun g => g.base != base)
    let now := if log2 = 0 then others
      else insertBy (·.base) { base, log2, nest := if nest = 0 then [log2] else nestOf nest } others
    checked (s.common f t ++ s.groupChecks f base log2 nest)
      (.done (({ s with coll := { s.coll with groups := now } } : State).wakeRange base (2 ^ log2)) [])

/-- The checks of START that its own operands call for (14 R398, 04 R124). -/
def State.startChecks (s : State) (f : Nat) (t : Taken) : List (Bool × Nat) :=
  let n := leAt t.bytes 4 1
  let pre := s.common f t ++ [(!s.isEasel n, stEngineAbsent), (s.isEasel n && ((s.easel n).owner != f || !(s.boundTo n).isEmpty), stState)]
  match EngId.ofId? (leAt t.bytes 5 1 % 8) with
  | none => pre ++ [(true, stEngineAbsent)]
  | some e => pre ++ [(!s.hasEngine e, stUnitAbsent), ((s.engine n e).st != .idle || (s.easel n).stopAt.isSome, stState),
      (!((s.engine n e).studyAt (leAt t.bytes 6 1 % 16)).valid, stBadField)]

/-- A START that meets no failure waits: for room in the start queue (04 R124), and for a cycle of the dispatch share (16 R439). -/
def State.startWaits (s : State) (f : Nat) (t : Taken) : Bool :=
  t.opc == 8 && (lowest (s.startChecks f t)).isNone &&
    !(s.pushCycle && (match EngId.ofId? (leAt t.bytes 5 1 % 8) with | some e => s.startRoom (leAt t.bytes 4 1) e | none => true))

def execStart (f : Nat) (s : State) : Out :=
  if ((s.func f).taken.take 1).any (s.startWaits f) then same s
  else runCmd s f (· == 8) fun t s =>
    let w := fun (o : Nat) => BitVec.ofNat 32 (leAt t.bytes o 4)
    checked (s.startChecks f t) (match EngId.ofId? (leAt t.bytes 5 1 % 8) with
      | none => .fail stEngineAbsent
      | some e =>
        let q : StartEntry :=
          { study := leAt t.bytes 6 1 % 16, ctx := 0, gen := 0, chunk := w 8, a0 := w 12, a1 := w 16, a2 := w 20, a3 := w 24, arrived := s.now, test := true }
        .done (s.pushStart (leAt t.bytes 4 1) e q) [])

/-! Palette bindings and grants (11 R321-R325). -/

/-- An open context names binding `b` (11 R322). -/
def State.bindingNamed (s : State) (b : Nat) : Bool :=
  s.openCtxs.any (fun c => let x := s.ctx c; (x.op == 9 || x.op == 0xA) && x.palette == b)

/-- A binding breaks 11 R321 or R322. -/
def State.bindingBad (s : State) (k : Nat) (b : Binding) : Bool :=
  let units := leAt b.raw 12 1 % 64
  let region := (s.mem.paletteBase, s.mem.paletteBase + s.mem.paletteGib * gib)
  b.base % 256 != 0 || b.rows == 0 || units == 0 || decide (32 < units) || b.shards == 0 ||
    (match fmtOf s.formats b.format with
     | none => true
     | some f => f.block || (f.width == 6 && b.rowBytes % 96 != 0)) ||
    decide (b.base < region.1) || decide (region.2 < b.base + b.bytes) ||
    (List.range 16).any (fun j => let o := s.binding j; j != k && o.st != 0 && meets (o.base, o.bytes) (b.base, b.bytes))

def execBind (f : Nat) (s : State) : Out :=
  runCmd s f (· == 9) fun t s =>
    let k := leAt t.bytes 4 1 % 16
    let old := s.binding k
    let b : Binding := { raw := slice t.bytes 8 32, st := 1, owner := f }
    checked (s.common f t ++ [((old.st != 0 && old.owner != f) || s.bindingNamed k, stState), (s.bindingBad k b, stBadField)])
      (.done (s.setBinding k b) [])

def execUnbind (f : Nat) (s : State) : Out :=
  runCmd s f (· == 0xA) fun t s =>
    let k := leAt t.bytes 4 1 % 16
    let old := s.binding k
    checked (s.common f t ++ [(old.st == 0 || old.owner != f, stState)]) (.done (s.setBinding k { old with st := 0 }) [])

/-- Grants of contexts of another function (11 R325). -/
def State.othersGrants (s : State) (f : Nat) : List (Nat × Nat) :=
  ((s.coll.ctxs.map (·.2)).filter (fun x => x.st != .free && x.owner != f)).flatMap (fun x =>
    (x.grants.filter (fun g => g.st != 0)).map (fun g => (g.base, g.pages * 4096)))

def execGrant (f : Nat) (s : State) : Out :=
  runCmd s f (· == 0xB) fun t s =>
    let c := t.ctx
    let x := s.ctx c
    let i := leAt t.bytes 4 1 % 4
    let a := leAt t.bytes 8 8
    let n := leAt t.bytes 16 4
    let g : Grant := if n = 0 then {} else { base := a, pages := n, st := 1 }
    checked (s.common f t ++ [(foreign x f || x.replay || !(x.st == .loading || (x.st == .ready && x.inflight == 0)), stState),
        (n != 0 && (a % 4096 != 0 || !s.mem.grantable a (n * 4096) || (s.othersGrants f).any (meets (a, n * 4096))), stBadField)])
      (.done (s.setCtx c { x with grants := (List.range 4).map (fun j => if j = i then g else x.grants.getD j {}) }) [])

/-! Circuits (09 R268). -/

/-- CIRCUIT past its checks (09 R268): the entry is SETTING and CSETUP leaves; a circuit between two endpoints of this switch is
open at once. -/
def State.setUpCircuit (s : State) (f id src dst : Nat) : State :=
  let inP := (s.edgePort src).getD 0
  let put := fun (st outP : Nat) (term : Bool) =>
    s.setCircuit id { ent := circuitEnt st true term inP outP dst, source := src, owner := f, sentAt := s.now }
  if switchOf dst = s.fab.hereAddr then
    match s.edgePort dst with
    | some p => (put 2 p true).endWaits (WaitsOn.isCircuit id) stOk []
    | none => s.endWaits (WaitsOn.isCircuit id) stBadField []
  else match s.circuitPort src dst with
    | some (p, g) => (put 1 p false).cctlOn p (cctlBody 1 stOk id src dst) (some g)
    | none => (put 1 0 false).noteDev 256 0 0 []

def execCircuit (f : Nat) (s : State) : Out :=
  runCmd s f (· == 0xC) fun t s =>
    let id := leAt t.bytes 4 2
    let src := leAt t.bytes 8 3
    let dst := leAt t.bytes 12 3
    checked (s.common f t ++ [(decide (4095 < id) || (s.edgePort src).isNone, stBadField), ((s.circuit? id).isSome, stState)])
      (.waits (.circuit id) (fun s => s.setUpCircuit f id src dst))

/-- TEAR of a circuit (14 R397); a CIRCUIT that still waits for it completes with STATE (assumption 31). -/
def State.tearNow (s : State) (id : Nat) : State := (s.tearCircuit id none).endWaits (WaitsOn.isCircuit id) stState []

def execTear (f : Nat) (s : State) : Out :=
  runCmd s f (· == 0xD) fun t s =>
    let id := leAt t.bytes 4 2
    let x := s.circuit? id
    checked (s.common f t ++ [(decide (4095 < id), stBadField),
        (decide (id ≤ 4095) && (x.isNone || x.any (fun k => k.orig && k.owner != f)), stState)]) (.done (s.tearNow id) [])

/-! Captures (13 R374-R379). -/

def execCapture (f : Nat) (s : State) : Out :=
  runCmd s f (· == 0xE) fun t s =>
    let c := t.ctx
    let x := s.ctx c
    let g := BitVec.ofNat 32 (leAt t.bytes 4 4)
    let first := leAt t.bytes 8 4
    let last := leAt t.bytes 12 4
    checked (s.common f t ++ [(foreign x f || x.st != .ready || decide (2 ^ 31 ≤ dist32 x.gLow.toNat g.toNat), stState),
        (decide (last < first), stBadField), (s.mem.captureGib == 0 || s.coll.captures.any (fun k => k.st != 1), stNoSpace)])
      (.done { s with coll := { s.coll with armed := some { ctx := c, gen := g, first, last, owner := f } } } [])

/-- The whole capture region is freed (13 R376); no header is left in it (assumption 33). -/
def State.clearCaptures (s : State) : State :=
  let t := s.coll.captures.foldl (fun s k => s.putMem k.base (zeros (min 4096 k.len))) s
  { t with coll := { t.coll with captures := [] } }

/-- The sequence of 11 R327 issues no new access to memory: a command that needs one waits, and the reset ends it. -/
def execCaptureClear (f : Nat) (s : State) : Out :=
  if s.board.warmSeq then same s else runCmd s f (· == 0xF) fun t s =>
    checked (s.common f t ++ [(s.coll.armed.isSome || s.coll.captures.any (fun k => k.st == 0), stState)]) (.done s.clearCaptures [])

/-- The context of a replay (13 R377): the captured template, roster and thresholds; the position is held as a hosted one is. -/
def State.replayCtx (s : State) (f base : Nat) (b : Bytes) : Ctx :=
  let x : Ctx := { tmpl := capTemplate b, owner := f, strictAtOpen := s.coll.strict, replay := true, baseAt := some base }
  let x := writeRoster s.fab x 0 (capN b) (slice (capSection b 0) 64 (8 * capN b))
  let node := s.fab.addrOf (s.fab.coordsOfIndex (capPosition b))
  let ct := capFirst b <<< x.ctLog2
  let sc := capScales b
  { (s.ready x) with st := .granting, hairMax := (capThresholds b).1, treeMax := (capThresholds b).2, lost := if node = s.fab.hereAddr then [] else [(node, some s.fab.hereAddr)],
                     gLow := capGen b, lastValid := !sc.isEmpty, lastStat := stOk,
                     carry := (List.range (sc.length / 32)).map (fun i => (node, ct + i, slice sc (32 * i) 32)) }

/-- The header of a capture has its MAGIC, VERSION and CHECK. -/
def capHeaded (b : Bytes) : Bool := leAt b 0 4 == 0x56524E43 && leAt b 4 1 == 1 && leAt b 4092 4 == crc32c (slice b 0 4092)

/-- What the Easel range of a REPLAY and its context meet (13 R379). -/
def State.replayRange (s : State) (f c base log2 : Nat) : List (Bool × Nat) :=
  [(decide (s.easelCount < base + 2 ^ log2), stEngineAbsent),
   ((s.ctx c).st != .free || s.foreignEasel f base (2 ^ log2), stState),
   (decide (8 < log2) || base % 2 ^ log2 != 0 || !s.isTarget base log2, stBadField)]

/-- What the capture itself meets (13 R379): every condition is looked at, in what its bytes hold, and the lowest counts (00 R13). -/
def State.captureChecks (s : State) (f base log2 : Nat) (b : Bytes) (x : Ctx) : List (Bool × Nat) :=
  [(decide (64 ≤ (capSection b 0).length) && s.unitsMissing x, stUnitAbsent),
   (capState b == 0 || capState b == 3 || s.foreignBinding f x, stState),
   (capMalformed b || capLog2 b != log2 || s.templateBad x, stBadField),
   (s.coll.strict && x.nonStrict, stNd),
   (!capHeaded b || sha256 (capFormats b) != sha256 (tableBytes s.formats), stVersion)] ++
    (capImages 5 (capSection b 1)).flatMap (fun i => s.loadChecks i base log2)

def execReplay (f : Nat) (s : State) : Out :=
  if s.board.warmSeq then same s else runCmd s f (· == 0x10) fun t s =>
    let c := t.ctx
    let base := leAt t.bytes 4 1
    let log2 := leAt t.bytes 5 1 % 16
    let a := leAt t.bytes 8 8
    let out := leAt t.bytes 16 8
    let b := s.readCapture a
    let s := s.accessRun false a b.length
    let x := s.replayCtx f base b
    let there := s.mem.mapped a 4096
    checked (s.common f t ++ [(foreign (s.ctx c) f, stState), (!there || !s.mem.mapped out 32, stBadField)] ++
        s.replayRange f c base log2 ++ (if there then s.captureChecks f base log2 b x else []))
      (.waits (.replay c) (fun s =>
        ({ s with coll := { s.coll with
          replays := s.coll.replays ++ [{ ctx := c, out, shuffle := bitAt (leAt t.bytes 5 1) 4, captured := b }] } } : State).takeCtx c t.at' x |>.wakeRange base (2 ^ log2)))

/-- Every chunk of a replay is over, or the generation has failed (13 R377). -/
def State.replayOver (s : State) (r : Replay) (y : Gen) : Bool :=
  let x := s.ctx r.ctx
  y.failed.isSome || y.path == .hairline || y.chunks.all (fun k => k.2.done || s.chunkOver x r.ctx y k.1)

/-- The first replay that is over, with its generation. -/
def State.replayEnded (s : State) : Option (Replay × Gen) :=
  s.coll.replays.findSome? (fun r => (s.ctx r.ctx).gens.head?.bind (fun y => if s.replayOver r y then some (r, y) else none))

def execReplayFinish (s : State) : Out :=
  match s.replayEnded with
  | none => same s
  | some (r, y) => when' (s.computing && !s.board.warmSeq) s (s.finishReplay r y)

/-! HBM_RETRY and ASSIGN (11 R311, 14 R384). -/

/-- Where the exclusion record of a channel lies in the log MRAM (15 R427). -/
def exclusionAt (ch : Nat) : Nat := 0x30000 + 16 * ch
/-- The channel has an exclusion record. -/
def State.excluded (s : State) (ch : Nat) : Bool :=
  let r := s.mramRead (exclusionAt ch) 16
  leAt r 0 1 == 1 && leAt r 12 4 == crc32c (r.take 12)

def execHbmRetry (f : Nat) (s : State) : Out :=
  runCmd s f (· == 0x11) fun t s =>
    let ch := leAt t.bytes 4 1 % 128
    checked (s.common f t ++ [(!s.excluded ch, stBadField)]) (.done (s.mramWrite (exclusionAt ch) (zeros 16)) [])

def execAssign (f : Nat) (s : State) : Out :=
  runCmd s f (· == 0x12) fun t s =>
    let base := leAt t.bytes 4 1
    let n := leAt t.bytes 5 2
    let g := leAt t.bytes 7 1 % 4
    let l := (List.range (min n 256)).map (base + ·)
    checked (s.common f t ++ [(n == 0 || decide (256 < n) || !s.enabled g, stBadField), (decide (s.easelCount < base + n), stEngineAbsent),
        (l.any (fun k => (s.groupOf k).isSome || !(s.boundTo k).isEmpty), stState)])
      (.done ((l.foldl (fun s k => s.modEasel k (fun x => { x with owner := g })) s).wakeRange base n) [])

end Sys2Proof.Machine
end

