-- ==== Sys2Proof/Machine/MemoryOps.lean ====
section
/-!
DEFINITION. Changes of the device state, power-fail logs (15 R427, R428), Grisaille mode (12 R360, R361), and channels mapped out
with their takeover (11 R311, R312).
-/

namespace Sys2Proof.Machine

/-- The device enters another state; ALERT bit 0 (15 R431). -/
def State.setDev (s : State) (d : DevSt) : State :=
  if s.dev == d then s else ({ s with dev := d } : State).alertBit 0

/-! Power-fail logs (15 R427, R428). -/

def logBase (k : Nat) : Nat := 0x10000 + 0x10000 * k

/-- The number of log `k` (0 for A, 1 for B), when its CHECK is good. -/
def State.logNumber (s : State) (k : Nat) : Option Nat :=
  let h := s.mramRead (logBase k) 64
  if leAt h 60 4 = crc32c (h.take 60) then some (leAt h 8 4) else none

/-- The newest valid log: which one and its number. -/
def State.newestLog (s : State) : Option (Nat × Nat) :=
  match s.logNumber 0, s.logNumber 1 with
  | some a, some b => if a < b then some (1, b) else some (0, a)
  | some a, none => some (0, a)
  | none, some b => some (1, b)
  | none, none => none

/-- The MRAM header (15 R427; the places of its fields: assumption 40). -/
def mramHeader (number : Nat) : Bytes :=
  withCheck (toLE 4 0x4D524C51 ++ toLE 1 1 ++ zeros 3 ++ toLE 4 number ++ zeros 48)

/-- What a log writes (15 R428; 16 R437), in order: nothing with a good CHECK stays in its header, then come the newest 512 records, or
as many as exist, the header, and the MRAM header (assumption 54). -/
def State.logPlan (s : State) : List (Nat × Bytes) :=
  let d := s.diary
  let count := min 512 d.recs.length
  let first := (d.head.toNat + 2 ^ 32 - count) % 2 ^ 32
  let (k, number) := match s.newestLog with
    | some (0, n) => (1, n + 1)
    | some (_, n) => (0, n + 1)
    | none => (0, 1)
  let recs := (List.range count).map (fun i => (logBase k + 64 * (i + 1), slice (tget [] d.recs ((first + i) % 65536)) 0 64))
  let hdr := withCheck (zeros 8 ++ toLE 4 number ++ toLE 4 first ++ toLE 4 count ++ zeros 40)
  (logBase k, zeros 64) :: recs ++ [(logBase k, hdr), (0, mramHeader number)]

def State.setLog (s : State) (j : Option LogJob) : State := { s with boot := { s.boot with logJob := j } }

/-- Pieces of a log reach the MRAM; behind the last one ALERT bit 3 is set (15 R431). -/
def State.logPieces (s : State) (j : LogJob) (n : Nat) (l : List (Nat × Bytes)) : State :=
  let s := (l.take n).foldl (fun s p => s.mramWrite p.1 p.2) s
  if l.length ≤ n then (s.setLog none).alertBit 3 else s.setLog (some { j with todo := some (l.drop n) })

/-- 64 bytes take 200 ACLK at the 400 MB/s of 15 R428. -/
def logPace : Nat := 200

/-- The log in one ACLK: the events that came before it are recorded first; then a piece is written every 200 ACLK (15 R428;
assumption 54). -/
def State.logTick (s : State) : State :=
  match s.boot.logJob with
  | none => s
  | some j => match j.todo with
    | none => s.setLog (some (if j.wait ≤ 1 then { j with since := s.now, todo := some s.logPlan } else { j with wait := j.wait - 1 }))
    | some l => if (s.now - j.since) % logPace = 0 then s.logPieces j 1 l else s

/-- A log being written is completed; what its records still lack is recorded first. -/
def State.endLog (s : State) : State :=
  match s.boot.logJob with
  | none => s
  | some j => match j.todo with
    | none =>
      let s : State := { s with diary := (List.range j.wait).foldl (fun d _ => d.writeOne) s.diary }
      let l := s.logPlan
      s.logPieces j l.length l
    | some l => s.logPieces j l.length l

/-- A log begins, unless one has been written since PWR_FAIL_L fell; one being written comes first (15 R428). -/
def State.powerLog (s : State) : State :=
  if !s.boot.logArmed then s
  else let s := s.endLog; s.setLog (some { wait := s.diary.queue.length, since := s.now })

/-! Lost participants (12 R353). -/

/-- Two nodes on one ring of the box: their positions differ in one dimension. -/
def Geo.ringMates (g : Geo) (a b : Nat) : Bool :=
  match positions g.fab g.box a, positions g.fab g.box b with
  | some p, some q => ((List.range g.fab.dims).filter (fun d => p.getD d 0 != q.getD d 0)).length == 1
  | _, _ => false

/-- A switch may host the node `a` (12 R353, 03 R100): it is not lost, and hosts nothing else on a ring through `a`. -/
def Geo.mayHost (g : Geo) (a cand : Nat) : Bool :=
  !g.lost.any (fun p => p.1 == cand) && !g.lost.any (fun p => p.2 == some cand && p.1 != a && g.ringMates p.1 a)

/-- The host of a lost node (12 R353). -/
def Geo.hostFor (g : Geo) (a : Nat) : Option Nat :=
  match positions g.fab g.box a, (List.range g.fab.dims).find? (fun d => decide (1 < (g.box.getD d []).length)) with
  | some p, some e =>
    let l := (g.box.getD e []).length
    ((List.range (l - 1)).map (fun i => nodeAt g.fab g.box (p.set e ((p.getD e 0 + l - 1 - i) % l)))).find? (g.mayHost a)
  | _, _ => none

/-- LOST or HOST (12 R335): the lost switch, its host, a status. -/
def lostMsg (status c lost host : Nat) : Bytes := rosterMsg 7 status c 0 0 0 lost 0 0 0 host 0

/-! Grisaille mode (12 R360, R361). -/

/-- One context at the entry: the commands that wait for it complete with DEGRADED, its generations fail, LOST names this switch
to the authority and, where the context has neighbours, through its tree, and it returns to FREE (one that drains does not before). -/
def State.grisailleCtx (s : State) (c : Nat) : State :=
  let s := (s.endWaits (WaitsOn.isOpen c) stDegraded []).endWaits (WaitsOn.isReplay c) stDegraded []
  let s := if (s.ctx c).st == .draining then s.modCtx c (fun x => { x with st := .ready }) else s
  let s := s.failAll c stDegraded
  let x := s.ctx c
  let me := s.fab.hereAddr
  let m := lostMsg stDegraded c me (((s.geo x).hostFor me).getD 0)
  let s := if x.st == .ready && !x.replay then s.spread c none m else s
  (s.toAuthority m).freeCtx c

def grisCode : GrisCause → Nat
  | .compute => 1 | .hbmLoss => 2 | .thermal => 3

/-- Iczal enters Grisaille mode (12 R361; 15 R425; 14 R405). -/
def State.enterGrisaille (s : State) (why : GrisCause) : State :=
  if s.dev != .running then s
  else
    let lost := why == .hbmLoss
    let s : State := { s with health := { s.health with cause := grisCode why }, mem := { s.mem with lostHbm := s.mem.lostHbm || lost } }
    let s := s.openCtxs.foldl (fun s c => s.grisailleCtx c) s
    let s : State := { s with coll := { s.coll with accums := [] }, mem := { s.mem with
      powerSt := if lost then [] else [(0, 2), (1, 2), (2, 2), (3, 2)] } }
    let s := if lost then ({ s with diary := { s.diary with busy := none, pendingCause := none } } : State).powerLog else s.startFlush 2
    (s.setDev .grisaille).interruptAll 4

/-! Channels (11 R311, R312). -/

def Mem.serves (m : Mem) (ch : Nat) : Bool := bitAt m.inService ch
def Mem.isSpare (m : Mem) (ch : Nat) : Bool := bitAt m.spares ch

/-- A channel leaves service: HBM_FAIL, EXCLUDE_PENDING, the log MRAM's exclusion record, ALERT bit 4. -/
def State.failChannel (s : State) (ch : Nat) : State :=
  let m := s.mem
  let r := toLE 1 1 ++ zeros 3 ++ toLE 8 s.clock.ftime.toNat
  let s : State := { s with mem := { m with failed := setFld m.failed ch 1 1, inService := setFld m.inService ch 1 0,
                                            spares := setFld m.spares ch 1 0, excludePending := true,
                                            takeover := m.takeover.filter (fun t => t.2.1 != ch),
                                            failTimes := m.failTimes ++ [(s.now, ch)] } }
  (s.mramWrite (0x30000 + 16 * ch) (r ++ toLE 4 (crc32c r))).alertBit 4

/-- The channels of stack `h` that have failed within the last millisecond are all it has (11 R326). -/
def State.stackLost (s : State) (h : Nat) : Bool :=
  (List.range 32).all (fun k => s.mem.failTimes.any (fun p => p.2 == 32 * h + k && decide (s.now ≤ p.1 + Config.msAclk)))

/-- Loss of HBM (11 R311, R326). -/
def State.loseHbm (s : State) : State :=
  ({ s with mem := { s.mem with lostHbm := true } } : State).enterGrisaille .hbmLoss

/-- The lowest-numbered free spare takes over logical channel `k`, or HBM is lost (11 R311). -/
def State.replaceChannel (s : State) (k : Nat) : State :=
  match (List.range 128).find? s.mem.isSpare with
  | some sp => { s with mem := { s.mem with spares := setFld s.mem.spares sp 1 0, takeover := s.mem.takeover ++ [(k, sp, s.now)] } }
  | none => s.loseHbm

/-- The operation has data still to move on logical channel `k` of `n`. -/
def MemOp.uses (o : MemOp) (n k : Nat) : Bool :=
  (o.todo.map (·.1) ++ o.data.map (·.1)).any (fun a => decide (a < Config.scratchBase) && channelOf n (a / 256) == k)

/-- The operations in flight to logical channel `k` are to fail as uncorrected reads of channel `ch` (11 R311). -/
def State.spoilOps (s : State) (k ch : Nat) : State :=
  let n := s.mem.logical.length
  { s with easels := s.easels.map (fun p => (p.1, { p.2 with
    ops := p.2.ops.map (fun o => if o.uses n k then { o with spoilt := some (o.spoilt.getD ch) } else o) })) }

/-- Run-time map-out of a channel in service (11 R311). A free spare that fails is only recorded. -/
def State.mapOut (s : State) (ch : Nat) : State :=
  let k? := match s.mem.takeover.find? (fun t => t.2.1 == ch) with
    | some t => some t.1
    | none => if s.mem.serves ch then some (s.mem.logical.idxOf ch) else none
  let s := s.failChannel ch
  if s.stackLost (ch / 32) then s.loseHbm
  else match k? with
    | some k => (s.spoilOps k ch).replaceChannel k
    | none => s

/-- A flush held in spill slot `i` is marked incomplete (11 R312, 15 R426). -/
def State.spoilFlush (s : State) (i : Nat) : State :=
  let h := s.mem.read (spillAt i) 64
  if leAt h 0 4 = 0x52594944 ∧ leAt h 60 4 = crc32c (h.take 60) then s.putMem (spillAt i) (withCheck (splice (h.take 60) 5 [2])) else s

/-- A capture held becomes INVALID (11 R312, 13 R376). -/
def State.spoilCapture (s : State) (k : Capture) : State :=
  let h := slice (splice (s.mem.read k.base 4096) 5 [3]) 0 4092
  (s.putMem k.base (h ++ toLE 4 (crc32c h))).interrupt k.owner 7

/-- A generation that uses a binding that is lost fails with TILE_CHECK (11 R323). -/
def State.failBound (s : State) : State :=
  s.openCtxs.foldl (fun s c =>
    let x := s.ctx c
    if (x.op == 9 || x.op == 0xA) && (s.binding x.palette).st == 2 then
      x.gens.foldl (fun s y => if y.failed.isSome then s else s.failGen c y.num stTileCheck) s
    else s) s

/-- Every exact image of a generation is discarded: its chunks do not resume from them. -/
def Gen.voidImages (y : Gen) : Gen :=
  { y with chunks := y.chunks.map (fun k => (k.1, if k.2.parked || k.2.parking then { k.2 with blended := [], void := true } else k.2)) }

/-- Exact images are discarded, and the chunks that waited on them are run again (11 R312, 12 R351). -/
def State.rerunParked (s : State) : State :=
  s.openCtxs.foldl (fun s c => (s.ctx c).gens.foldl (fun s y =>
    if y.failed.isSome then s
    else (y.chunks.filter (fun k => k.2.parked || k.2.parking)).foldl (fun s k => s.requestRerun c y.num (k.1 % 2 ^ 32) (k.1 % 2 ^ 32))
      (s.modGen c y.num Gen.voidImages)) s) s

/-- A share of every region is lost with logical channel `k` (11 R312). -/
def State.settleLoss (s : State) (k : Nat) : State :=
  let n := s.mem.logical.length
  let gone := fun (a : Nat) => decide (a < Config.scratchBase) && channelOf n (a / 256) == k
  let m := s.mem.dropLines (fun g => gone (256 * g))
  let s : State := { s with mem := { m with cells := m.cells.filter (fun p => !gone p.1) } }
  let s := s.rerunParked
  let s : State := { s with coll := { s.coll with bindings := s.coll.bindings.map (fun p => (p.1, if p.2.st = 1 then { p.2 with st := 2 } else p.2)) } }
  let s := s.failBound
  let s : State := { s with coll := { s.coll with ctxs := s.coll.ctxs.map (fun p => (p.1, { p.2 with
    grants := p.2.grants.map (fun g => if g.st = 1 then { g with st := 2 } else g) })) } }
  let s := (s.coll.captures.filter (fun k => k.st != 3)).foldl (fun s k => s.spoilCapture k) s
  let s : State := { s with coll := { s.coll with captures := s.coll.captures.map (fun k => { k with st := 3 }) } }
  (List.range 16).foldl (fun s i => s.spoilFlush i) s

/-- A spare has taken over (11 R312; 15 R425). -/
def State.tookOver (s : State) (t : Nat × Nat × Nat) : State :=
  let m := s.mem
  let s : State := { s with mem := { m with takeover := m.takeover.filter (· != t), inService := setFld m.inService t.2.1 1 1,
                                            logical := m.logical.set t.1 t.2.1 } }
  ((s.settleLoss t.1).interruptAll 3).startFlush 3

end Sys2Proof.Machine
end

