-- ==== Sys2Proof/Machine/LinkOps.lean ====
section
/-!
DEFINITION. Link layer operations: flits (09 R243, R244), HELLO (R240-R242), replay (R246), a link going down (R247), and what
becomes of the frames that waited for the link (R247, R260, R261, R264).
-/

namespace Sys2Proof.Machine

/-! Flits. -/

/-- A flit (09 R243): header, 248 bytes of payload, LCRC. -/
def flitOf (hdr : Nat) (payload : Bytes) : Bytes :=
  let b := toLE 4 hdr ++ slice payload 0 248
  b ++ toLE 4 (lcrc32 b)

def flitHdr (b : Bytes) : Nat := leAt b 0 4
def lcrcOk (b : Bytes) : Bool := b.length == 256 && leAt b 252 4 == lcrc32 (b.take 252)
def flitKind (b : Bytes) : Nat := fld (flitHdr b) 17 2
def flitLseq (b : Bytes) : Nat := fld (flitHdr b) 0 12

/-- The DATA flits of a frame from LSEQ `q` on (09 R243). -/
def dataFlits (f : Frame) (q : Nat) : List (Nat × Bytes) :=
  let b := toLE 32 f.hdr.toNat ++ f.body
  let n := ceilDiv b.length 248
  (List.range n).map (fun i =>
    let last := i + 1 == n
    let l := (q + i) % 4096
    let len := (b.drop (248 * i)).length
    (l, flitOf (l + 2 ^ 12 * f.vc + 2 ^ 15 * b2n (i == 0) + 2 ^ 16 * b2n last + 2 ^ 17 * 1 + 2 ^ 19 * (if last then len / 8 else 0) +
      2 ^ 24 * f.leg) (b.drop (248 * i))))

/-- The fields of a LINK flit (09 R244) that its sender chooses. -/
structure LinkInfo where
  hello : Bool := false
  treq : Bool := false
  answer : Option (Nat × Nat) := none

/-- What this side says of itself in HELLO (09 R240). -/
def State.ownAddress (s : State) (x : LPort) : Nat := if x.role == roleEdge then s.edgeAddr x.index else s.fab.hereAddr

/-- The payload of a LINK flit (09 R244). Stamps refer to the lands: a flit passes them `phyTx` after it enters the encoder, and
leaves the decoder `phyRx` after it passed them (09 R248; assumption 59). -/
def State.linkPayload (s : State) (p : Nat) (i : LinkInfo) : Bytes :=
  let x := s.lport p
  let t := s.clock.ftime.toNat
  let trsp := i.answer.isSome
  let (echo, at') := i.answer.getD (0, t)
  let up := x.up
  let tx := t + Config.phyTx p
  toLE 2 (if up && x.rxAny then (x.rxSeq + 4095) % 4096 + 2 ^ 15 else 0) ++
    toLE 2 (match x.rxWant with | some q => if up then q + 2 ^ 15 else 0 | none => 0) ++
    (List.range 16).flatMap (fun c => toLE 2 (tget 0 x.granted c)) ++
    toLE 8 (if i.treq || trsp then tx else 0) ++ toLE 8 echo ++ toLE 4 (if trsp then tx + Config.phyRx p - at' else 0) ++
    toLE 1 (b2n i.treq + 2 * b2n trsp + 4 * b2n s.clock.locked + 8 * b2n i.hello) ++ toLE 1 (if s.clock.locked then s.clock.dist else 255) ++
    (if i.hello then toLE 2 0x0002 ++ toLE 3 (s.ownAddress x) ++ toLE 1 (x.role + 2 ^ 3 * x.dim + 2 ^ 5 * x.dir) ++ toLE 2 x.epoch else [])

/-- The slots of `n` flits on a link, in the units of `busy` (10 R290). -/
def slots (n : Nat) : Nat := 2048 * n

/-- A LINK flit leaves, in a slot of the link (10 R290). -/
def State.sendLink (s : State) (p : Nat) (i : LinkInfo) : State :=
  (s.emit (.flit p (flitOf (2 ^ 17 * 2) (s.linkPayload p i)))).modLPort p (fun x =>
    { x with linkAt := s.now, report := false, busy := x.busy + slots 1 })

/-! HELLO (09 R238, R240, R241; 10 R284). -/

/-- R240 by role. -/
def State.helloRole (s : State) (x : LPort) (h : Hello) : Bool :=
  if x.role == roleEdge then h.endpoint
  else if x.role == roleRing || x.role == roleBulk then
    !h.endpoint && h.address == s.fab.nextAddr x.dim x.dir && h.role == x.role && h.dim == x.dim && h.dir != x.dir
  else if x.role == roleExpress then !h.endpoint && h.address == x.peer.toNat && h.role == roleExpress
  else false

/-- Every EXPRESS port of one INDEX names one LPEER (09 R238). -/
def State.expressOk (s : State) (x : LPort) : Bool :=
  x.role != roleExpress ||
    (match s.fab.portsThat (isExpress x.index) with
     | p :: _ => (s.lport p).peer == x.peer
     | [] => true)

/-- A class whose share breaks 10 R284. -/
def State.smallShare (s : State) (p : Nat) (x : LPort) : Option Nat :=
  if x.role == roleRing || x.role == roleExpress || x.role == roleBulk then
    (List.range 16).find? (fun c => c != 2 && c != 3 && (let k := s.fab.share p c; k != 0 && decide (k < 68)))
  else none

/-- The checks that keep a port in HELLO: for each that fails the rule, the status and the payload to record. -/
def State.helloFaults (s : State) (p : Nat) (h : Hello) : List (Nat × Nat × List Nat) :=
  let x := s.lport p
  (if h.versions &&& 0x0002 == 0 then [(241, stVersion, [])] else []) ++
    (if s.helloRole x h then [] else [(240, stBadField, [])]) ++
    (if s.expressOk x then [] else [(238, stBadField, [])]) ++
    (match s.smallShare p x with
     | some c => [(284, stBadField, [c])]
     | none => [])

/-- A port may leave HELLO: the peer's HELLO has come and every check passes. -/
def State.helloPasses (s : State) (p : Nat) : Bool :=
  match (s.lport p).hello with
  | none => false
  | some h => (s.helloFaults p h).isEmpty

/-- Each failure of a check of HELLO is recorded once per 1,250,000 ACLK (09 R239). -/
def State.noteFault (s : State) (p : Nat) (e : Nat × Nat × List Nat) : State :=
  if (tget? (s.lport p).helloNote e.1).any (fun t => decide (s.now < t + Config.msAclk)) then s
  else (s.modLPort p (fun x => { x with helloNote := tput x.helloNote e.1 s.now })).notePort e.1 0 p e.2.1 e.2.2

def State.noteHello (s : State) (p : Nat) : State :=
  match (s.lport p).hello with
  | some h => (s.helloFaults p h).foldl (fun s e => s.noteFault p e) s
  | none => s

/-! Frames that wait for a link. -/

/-- The hop of a frame that waited at port `p` (09 R257, R260): one that waits for its express trunk goes on waiting for it (R261), and a
circuit message of this switch for the port of its circuit (R268). A ring entry stays one. -/
def State.hopAgain (s : State) (p : Option Nat) (q : Queued) : Hop :=
  let h : Hop := match p with
    | some p => if q.frame.ftype = 5 && q.src.isNone then .held p q.frame false else if (s.lport p).role == roleExpress then expressHop s.fab (s.lport p).index q.frame else hopFrom s.fab q.src true q.frame
    | none => hopFrom s.fab q.src true q.frame
  match h with
  | .out p f e => .out p f (e || (q.entry && (s.lport p).onRing))
  | .held p f e => .held p f (e || (q.entry && (s.lport p).onRing))
  | h => h

/-- A frame that waited is routed again, or what its kind calls for is done (R264, R265, R269). -/
def State.reroute (s : State) (p : Option Nat) (q : Queued) : State :=
  match q.frame.dkind with
  | 2 => (s.noteDev 264 1 0 []).dropCopy q.body
  | 3 => (s.noteDev 265 0 0 []).dropCopy q.body
  | 4 => (s.noteDev 269 0 0 []).dropCopy q.body
  | _ => s.takeHop q.src q.body q.requeued (s.hopAgain p q)

/-- Every frame queued at port `p` is routed again, in order. -/
def State.requeueAll (s : State) (p : Nat) : State :=
  let qs := (List.range 8).flatMap (fun v => (s.lport p).queue v)
  qs.foldl (fun s q => s.reroute (some p) q) (s.modLPort p (fun x => { x with queues := [], deficit := [] }))

/-- The account of a body that this switch sends again (09 R247; 10 R282; assumption 60). -/
def sentAgain (vc : Nat) : Account := if vc = 1 then .none else .inject vc

/-- A frame that the link had accepted and its peer had not acknowledged (09 R247): it is stored again. -/
def State.takeBack (s : State) (p : Nat) (q : Queued) : State :=
  let (s, id) := s.store (sentAgain q.frame.vc) q.frame.flits 1
  s.reroute (if q.frame.ftype = 5 && q.src.isNone then some p else none) { q with body := id, requeued := true }

/-- A logical port may be in use: ENABLE = 1 and a ROLE (09 R239). -/
def State.portOn (s : State) (p : Nat) : Bool := (s.port (p / 8)).enabled && (s.lport p).role != 0

/-- Link `p` goes down (09 R239, R247, R269; 12 R357; 14 R405). -/
def State.goDown (s : State) (p : Nat) : State :=
  let x := s.lport p
  let s := s.setLPort p { x with
    st := .down, since := s.now, hello := none, helloAt := none, ver := 0, rxPart := none, rxWant := none,
    txBuf := [], txFrames := [], credit := [], sent := [], granted := [], events := [], treq := none, answer := none, peerLocked := false,
    peerDist := 255, heard := false, report := false, resendAt := none, ackSeq := none, busy := 0 }
  if x.up then
    let s := s.circuitsDown p
    let s := x.txFrames.foldl (fun s f => s.takeBack p f.2.1) s
    let s := s.requeueAll p
    let s := if x.role == roleEdge then s.addHealth (s.edgeAddr x.index) 16 else s
    s.interruptAll 6
  else s

/-- A replay event at port `p` (09 R247): counted, and the ninth within 25,000 ACLK takes the link down. -/
def State.replayEvent (s : State) (p : Nat) : State :=
  let x := s.lport p
  let ev := (x.events.filter (fun t => decide (s.now < t + 25000))) ++ [s.now]
  let s := s.setLPort p { x with replays := x.replays + 1, events := ev }
  let s := if x.role == roleEdge then s.addHealth (s.edgeAddr x.index) 1 else s
  if ev.length ≥ 9 then s.goDown p else s

/-! The replay buffer (09 R246). -/

/-- Flits that ACK does not cover. -/
def LPort.unacked (x : LPort) : List Sent :=
  match x.ackSeq with
  | some a => match x.txBuf.findIdx? (fun t => t.lseq == a) with
    | some i => x.txBuf.drop (i + 1)
    | none => x.txBuf
  | none => x.txBuf

/-- ACK of LSEQ `a`: whole frames up to it leave the buffer. -/
def LPort.takeAck (x : LPort) (a now : Nat) : LPort :=
  match x.txBuf.findIdx? (fun t => t.lseq == a) with
  | none => x
  | some i =>
    let covered := fun (id : Nat) => (x.txBuf.drop (i + 1)).all (fun t => t.frame != id)
    { x with txBuf := x.txBuf.filter (fun t => !covered t.frame), txFrames := x.txFrames.filter (fun f => !covered f.1), ackSeq := some a,
             ackAt := if x.ackSeq == some a then x.ackAt else now }

/-- A resend from LSEQ `q` (09 R246 step 4, or step 5 where `timeout`); it takes the link ahead of every queue (10 R290). -/
def State.resend (s : State) (p q : Nat) (timeout : Bool) : State :=
  let x := s.lport p
  let l := x.txBuf.dropWhile (fun t => t.lseq != q)
  if l.isEmpty then s
  else
    let s := l.foldl (fun s t => s.emit (.flit p t.flit)) s
    (s.modLPort p (fun x => { x with resendAt := some (q, s.now), ackAt := if timeout then s.now else x.ackAt,
                                     busy := x.busy + slots l.length })).replayEvent p

/-- Replay buffer in flits (09 R246). -/
def Fabric.replayRoom (b : Fabric) (p : Nat) : Nat := 256 * b.lanes p

/-- A frame is committed to the link (09 R245): its flits leave and are kept, credit is consumed, and its body leaves the core. -/
def State.commit (s : State) (p : Nat) (q : Queued) : State :=
  let x := s.lport p
  let ring := x.role == roleRing || x.role == roleBulk || x.role == roleExpress
  let f := if ring then q.frame.put 24 8 (q.frame.hops + 1) else q.frame
  let fl := dataFlits f x.txSeq
  let c := f.cls
  let s := fl.foldl (fun s t => s.emit (.flit p t.2)) s
  let x' := { x with
    sent := tset 0 x.sent c ((tget 0 x.sent c + fl.length) % 2 ^ 16), txSeq := (x.txSeq + fl.length) % 4096,
    txBuf := x.txBuf ++ fl.map (fun t => ({ lseq := t.1, flit := t.2, frame := x.nextFrame } : Sent)),
    txFrames := x.txFrames ++ [(x.nextFrame, q, fl.length)], nextFrame := x.nextFrame + 1,
    ackAt := if x.unacked.isEmpty then s.now else x.ackAt, busy := slots fl.length }
  (s.setLPort p x').dropCopy q.body

end Sys2Proof.Machine
end

