-- ==== Sys2Proof/Machine/Links.lean ====
section
/-!
DEFINITION. The events of logical ports (09 R239-R248; 01 R26-R28) and the passing of an ACLK.
-/

namespace Sys2Proof.Machine

/-- An event of logical port `p` (01 R15: P0 to P127, eight logical ports each). -/
def onPort (s : State) (p : Nat) (c : Bool) (go : State) : Out :=
  onUnit (decide (p < 1024)) (when' (s.fabricUp && s.aclk && s.fab.exists' p && c) s go)

/-! Link states (09 R239). -/

/-- DOWN ends after 1 ms; a port that was disabled meanwhile goes on to DISABLED (assumption 61). -/
def execLinkDownTimer (p : Nat) (s : State) : Out :=
  let x := s.lport p
  onPort s p (x.st == .down && decide (x.since + Config.msAclk ≤ s.now))
    (s.setLPort p { x with st := if s.portOn p then .training else .disabled, since := s.now })

def execTrainingSuccess (p : Nat) (s : State) : Out :=
  let x := s.lport p
  onPort s p (x.st == .training)
    (s.setLPort p { x with st := .hello, since := s.now, hello := none, helloAt := none, helloNote := [], goodAt := s.now })

def execTrainingTimeout (p : Nat) (s : State) : Out :=
  let x := s.lport p
  onPort s p (x.st == .training && decide (x.since + 100 * Config.msAclk ≤ s.now)) (s.setLPort p { x with st := .down, since := s.now })

def execHelloSend (p : Nat) (s : State) : Out :=
  let x := s.lport p
  onPort s p (x.st == .hello && x.helloAt.all (fun t => decide (t + 1024 ≤ s.now)))
    ((s.sendLink p { hello := true }).modLPort p (fun x => { x with helloAt := some s.now }))

/-- The account to which the cells that an account of port `p` holds pass (assumptions 41, 60). -/
def Account.lapsed (p : Nat) : Account → Account
  | .ingress q c => if q = p then sentAgain (c / 2) else .ingress q c
  | .hairline q c => if q = p then .none else .hairline q c
  | a => a

/-- Cells still held from an earlier link epoch count toward no credit of the new one (assumption 41): they pass to the injection
account of their VC. -/
def State.lapse (s : State) (p : Nat) : State :=
  let b := s.fab
  let moved := (b.bodies.map (fun q => (q.2.acct, q.2.cells)) ++ (s.lport p).rxFrames.map (fun f => (f.2.2, f.2.1))).filter
    (fun a => a.1.lapsed p != a.1)
  let injected := moved.foldl (fun t a => match a.1.lapsed p with | .inject v => tset 0 t v (tget 0 t v + a.2) | _ => t) b.injected
  (s.setFab { b with injected, bodies := b.bodies.map (fun q => (q.1, { q.2 with acct := q.2.acct.lapsed p })) }).modLPort p (fun x =>
    { x with rxFrames := x.rxFrames.map (fun f => (f.1, f.2.1, f.2.2.lapsed p)) })

/-- The port itself, and the ports of its trunk that are not UP: their frames were held until the trunk is UP again (09 R261). -/
def State.heldWith (s : State) (p : Nat) : List Nat :=
  let x := s.lport p
  s.fab.portsThat (fun y => (x.role == roleRing && isRing x.dim x.dir y || x.role == roleExpress && isExpress x.index y) && !y.up) ++ [p]

/-- The port enters UP (09 R242, R245). -/
def State.goUp (s : State) (p : Nat) : State :=
  let s := s.lapse p
  let x := s.lport p
  let peer := (x.hello.map (·.epoch)).getD 0
  let s := s.setLPort p { x with
    st := .up, since := s.now, ver := 1, rxVer := 1, heard := false, epoch := (max x.epoch peer + 1) % 2 ^ 16, txSeq := 0, txBuf := [], txFrames := [], ackSeq := none,
    ackAt := s.now, resendAt := none, rxSeq := 0, rxAny := false, rxPart := none, rxWant := none, used := [], sent := [], credit := [],
    granted := (List.range 16).foldl (fun t c => tset 0 t c (s.fab.share p c)) [], events := [], goodAt := s.now, report := true, treq := none,
    answer := none, busy := 0 }
  ((s.heldWith p).foldl (fun s q => s.requeueAll q) s).interruptAll 6

def execLinkUp (p : Nat) (s : State) : Out :=
  onPort s p ((s.lport p).st == .hello && s.helloPasses p) (s.goUp p)

/-! LINK flits (09 R244, R246, R248). -/

def execLinkFlitSend (p : Nat) (s : State) : Out :=
  let x := s.lport p
  onPort s p (x.up && (x.report || x.answer.isSome || decide (x.linkAt + 256 ≤ s.now)))
    ((s.sendLink p { answer := x.answer }).modLPort p (fun x => { x with answer := none }))

/-! Time sources (01 R28, 09 R248). -/

def Fabric.timeRoot (b : Fabric) : Bool := bitAt b.here.toNat 24
def Fabric.timePort (b : Fabric) : Nat := fld b.here.toNat 25 7

/-- Ports that are UP with a locked neighbour, ascending. -/
def State.lockedPorts (s : State) : List Nat := s.fab.portsThat (fun x => x.up && x.peerLocked)

/-- Of a list of ports, the one with the smallest ROOT_DIST, ties by the lowest index. -/
def State.nearest (s : State) (l : List Nat) : Option Nat :=
  match minOf (l.map (fun p => (s.lport p).peerDist)) with
  | none => none
  | some d => l.find? (fun p => (s.lport p).peerDist == d)

/-- The port that time is taken through now: the root's is any with a locked neighbour, the nearest (assumption 42); another
switch's is its time-source port while that is UP, and else the nearest locked neighbour. -/
def State.timeSource (s : State) : Option Nat :=
  if s.fab.timeRoot then s.nearest s.lockedPorts
  else
    let named := s.fab.portsThat (·.up) |>.filter (fun p => p / 8 == s.fab.timePort)
    if named.isEmpty then s.nearest (s.lockedPorts.filter (fun p => (s.lport p).peerDist < s.clock.dist || !s.clock.locked))
    else s.nearest (named.filter (fun p => (s.lport p).peerLocked))

/-- A link to another switch may still come UP for the first time since the reset: one that is on has had its 1 ms of DOWN and its
100 ms of TRAINING no sooner than this (09 R239). -/
def State.linksComing (s : State) : Bool :=
  decide (s.clock.ftime.toNat < 101 * Config.msAclk) &&
    !((s.fab.portsThat (fun x => !x.up && (s.fab.neighbour x).isSome)).filter s.portOn).isEmpty

/-- A time root that has heard every neighbour of an UP port, none of them locked, and whose other links have had their time to train,
free-runs, and its time is the fabric's (01 R28; assumption 42). -/
def State.rootAlone (s : State) : Bool :=
  s.fab.timeRoot && !s.clock.locked && s.lockedPorts.isEmpty && (s.fab.portsThat (fun x => x.up && !x.heard)).isEmpty && !s.linksComing

/-- TREQ goes to the time-source neighbour (01 R27, 09 R248); a root that is alone locks. -/
def execTimeMeasure (p : Nat) (s : State) : Out :=
  let x := s.lport p
  onPort s p (x.up && x.treq.all (fun t => decide (t + 65536 ≤ s.now)) && (s.rootAlone || s.timeSource == some p)) <|
    if s.rootAlone then { s with clock := { s.clock with locked := true, dist := 0 } }
    else (s.sendLink p { treq := true }).modLPort p (fun x => { x with treq := some s.now })

/-- The entry of a gate list in force at fabric time `t` (10 R300). -/
def GateList.entryAt (l : GateList) (t0 t : Nat) : Nat :=
  let ds := (List.range l.len).map (fun i => (tget (0, 0) l.ents i).2)
  let c := ds.sum
  if c = 0 then 0 else go ds 0 ((t - t0) % c)
where
  go : List Nat → Nat → Nat → Nat
    | [], i, _ => i
    | d :: l, i, r => if r < d then i else go l (i + 1) (r - d)

def Port.list (x : Port) : GateList := if x.active then x.listB else x.listA
def Port.inactive (x : Port) : GateList := if x.active then x.listA else x.listB
def Port.refresh (x : Port) (t : Nat) : Port := { x with entry := x.list.entryAt x.t0 t }

/-- The inactive list becomes active at `t0` (10 R303). -/
def Port.switchOver (x : Port) (late : Bool) : Port :=
  { x with active := !x.active, gatePending := false, t0 := x.armedAt.toNat, entry := 0, late := x.late || late }

/-- Gates after the first lock (10 R301): the entry in force is computed anew, and a switch-over that the jump passed takes place. -/
def State.gatesAfterJump (s : State) : State :=
  let t := s.clock.ftime.toNat
  (s.fab.ports.map (·.1)).foldl (fun s n =>
    let x := s.port n
    if x.gatePending && x.armedAt.toNat ≤ t then (s.setPort n ((x.switchOver true).refresh t)).setHot 5 n 0
    else s.setPort n (x.refresh t)) s

/-- An answer of the time source (01 R26, 09 R248): the root reports 0, another switch one more than its source. The first lock sets
the count to the neighbour's time even where that is lower: R26 says both that it is set so and that the count moves forward
(DESIGN CHOICE, assumption 57). -/
def State.takeTime (s : State) (p : Nat) (neighbour dist : Nat) : State :=
  let k := s.clock
  let dist := if s.fab.timeRoot then 0 else min 255 (dist + 1)
  if !k.locked then
    ({ s with clock := { k with ftime := BitVec.ofNat 64 neighbour, locked := true, dist, source := some p, error := 0 } } :
      State).gatesAfterJump
  else { s with clock := { k with error := (neighbour : Int) - (k.ftime.toNat : Int), dist, source := some p } }

/-- TRSP (09 R248 step 3); T4 refers to the lands. -/
def State.takeAnswer (s : State) (p : Nat) (b : Bytes) : State :=
  let t4 := s.clock.ftime.toNat - Config.phyRx p
  let locked := bitAt (leAt b 60 1) 2
  let delay := (t4 - leAt b 48 8 - leAt b 56 4) / 2
  if (s.lport p).treq.isSome && locked && s.timeSource == some p then s.takeTime p (leAt b 40 8 + delay + Config.phyRx p) (leAt b 61 1)
  else s

/-- A HELLO of the peer (09 R240, R242). -/
def State.takeHello (s : State) (p : Nat) (b : Bytes) : State :=
  let r := leAt b 67 1
  let h : Hello := { versions := leAt b 62 2, address := leAt b 64 3, role := r % 8, dim := fld r 3 2, dir := fld r 5 1, endpoint := bitAt r 6,
                     epoch := leAt b 68 2 }
  (s.modLPort p (fun x => { x with hello := some h })).noteHello p

/-- What a good LINK flit tells a port that is UP. -/
def State.takeLink (s : State) (p : Nat) (b : Bytes) : State :=
  let ack := leAt b 4 2
  let rep := leAt b 6 2
  let fl := leAt b 60 1
  let s := s.modLPort p (fun x =>
    let x := if bitAt ack 15 then x.takeAck (ack % 4096) s.now else x
    { x with heard := true, credit := (List.range 16).foldl (fun t c => tset 0 t c (leAt b (8 + 2 * c) 2)) [], peerLocked := bitAt fl 2, peerDist := leAt b 61 1,
             answer := if bitAt fl 0 then some (leAt b 40 8, s.clock.ftime.toNat) else x.answer })
  let s := if bitAt fl 1 then s.takeAnswer p b else s
  let x := s.lport p
  let q := rep % 4096
  if bitAt rep 15 && !x.resendAt.any (fun r => r.1 == q && decide (s.now < r.2 + 1024)) then s.resend p q false else s

def execLinkFlit (p : Nat) (flit : Bytes) (s : State) : Out :=
  let x := s.lport p
  onPort s p (x.st == .up || x.st == .hello) <|
    if !lcrcOk flit then s.setLPort p { x with lcrcErr := x.lcrcErr + 1 }
    else
      let s := s.setLPort p { x with goodAt := s.now }
      if flitKind flit != 2 then s
      else if x.up then s.takeLink p flit
      else if bitAt (leAt flit 60 1) 3 then s.takeHello p flit
      else s

/-! DATA flits (09 R243, R246). -/

/-- A flit that is not the next one, or fails its LCRC: the first request for an expected LSEQ is a replay event. -/
def State.refuseFlit (s : State) (p : Nat) : State :=
  let x := s.lport p
  if x.rxWant == some x.rxSeq then s
  else (s.setLPort p { x with rxWant := some x.rxSeq, report := true }).replayEvent p

/-- The cells that a frame holds of which some flits have arrived. -/
def partCells (b : Bytes) : Nat := ceilDiv b.length 248

/-- A frame whose flits stopped coming is dropped, and its cells are freed. -/
def State.dropPart (s : State) (p : Nat) : State :=
  match (s.lport p).rxPart with
  | none => s
  | some (v, l, b) => (s.modLPort p (fun x => { x with rxPart := none })).freeIngress p (2 * v + l) (partCells b)

/-- The bytes of a whole frame enter the port's list of frames, with the cells they hold. -/
def State.frameWhole (s : State) (p cls n : Nat) (b : Bytes) : State :=
  s.modLPort p (fun x => { x with rxFrames := x.rxFrames ++ [({ hdr := BitVec.ofNat 256 (le (slice b 0 32)), body := b.drop 32 }, n,
                               if cls / 2 = 1 then .hairline p cls else .ingress p cls)] })

/-- A flit's bytes join their frame, of which `b` has arrived, and take a cell from their arrival on (10 R282). A frame for which the
peer holds no credit is discarded (R286). -/
def State.growPart (s : State) (p v l : Nat) (b pay : Bytes) (eof : Bool) : State :=
  let cls := 2 * v + l
  let x := s.lport p
  let n := partCells b
  if s.fab.share p cls ≤ tget 0 x.used cls then (s.notePort 286 0 p 0 [p, cls]).freeIngress p cls n
  else
    let s := s.setLPort p { x with used := tset 0 x.used cls (tget 0 x.used cls + 1), rxPart := if eof then none else some (v, l, b ++ pay) }
    if eof then s.frameWhole p cls (n + 1) (b ++ pay) else s

/-- An accepted flit: SOF begins a frame, EOF ends it. -/
def State.takeFlit (s : State) (p : Nat) (flit : Bytes) : State :=
  let h := flitHdr flit
  let s := s.modLPort p (fun x => { x with rxSeq := (x.rxSeq + 1) % 4096, rxAny := true, rxWant := none, report := true })
  let eof := bitAt h 16
  let pay := slice flit 4 (if eof then 8 * fld h 19 5 else 248)
  if bitAt h 15 then (s.dropPart p).growPart p (fld h 12 3) (fld h 24 1) [] pay eof
  else match (s.lport p).rxPart with
    | none => s
    | some (v, l, b) => (s.modLPort p (fun x => { x with rxPart := none })).growPart p v l b pay eof

def execDataFlit (p : Nat) (flit : Bytes) (s : State) : Out :=
  let x := s.lport p
  onPort s p x.up <|
    if !lcrcOk flit then (s.setLPort p { x with lcrcErr := x.lcrcErr + 1 }).refuseFlit p
    else
      let s := s.setLPort p { x with goodAt := s.now }
      if flitKind flit != 1 then s
      else if flitLseq flit = x.rxSeq then s.takeFlit p flit
      else s.refuseFlit p

def execAckTimeoutResend (p : Nat) (s : State) : Out :=
  let x := s.lport p
  onPort s p (x.up && decide (x.ackAt + 4096 ≤ s.now)) <|
    match x.unacked with
    | [] => s
    | t :: _ => s.resend p t.lseq true

/-- A link goes down (09 R247). -/
def execLinkDown (p : Nat) (why : DownCause) (s : State) : Out :=
  let x := s.lport p
  let due := match why with
    | .replayBudget => decide (9 ≤ (x.events.filter (fun t => decide (s.now < t + 25000))).length)
    | .fecLoss => true
    | .lcrcSilence => decide (x.goodAt + 10000 ≤ s.now)
    | .disabled => !(s.port (p / 8)).enabled
  onUnit (decide (p < 1024)) (when' (s.fabricUp && s.aclk && x.up && due) s (s.goDown p))

/-! One ACLK (01 R26; 14 R406; 15 R421). -/

/-- The messages that are due at the end of an ACLK (14 R406). -/
def Func.due (x : Func) : BitVec 16 := x.intStatus &&& x.intEnable &&& (~~~ x.intStart ||| x.intCleared)

/-- Vector `v` sends its message, or holds it pending under a mask. -/
def State.sendVector (s : State) (f v : Nat) : State :=
  let x := s.func f
  if x.msixMasked || bitAt (tget (BitVec.ofNat 128 (2 ^ 96)) x.msix v).toNat 96 then
    s.setFunc f { x with msixPend := x.msixPend ||| BitVec.ofNat 16 (2 ^ v) }
  else s.emit (.msix f v)

def State.sendDue (s : State) (f : Nat) : State :=
  let x := s.func f
  let d := x.due.toNat
  let s := (List.range 16).foldl (fun s v => if bitAt d v then s.sendVector f v else s) s
  s.modFunc f (fun x => { x with intStart := x.intStatus, intCleared := 0, intEvents := 0 })

/-- The fabric-time counter in one ACLK: it slews in at most one ACLK of every 1,024 (01 R26). -/
def Clock.tick (k : Clock) : Clock :=
  let may := k.error != 0 && k.slewAt.all (fun t => decide (t + 1024 ≤ k.cycle))
  let step := if may then (if k.error > 0 then 2 else 0) else 1
  { k with cycle := k.cycle + 1, ftime := k.ftime + BitVec.ofNat 64 step,
           error := if may then (if k.error > 0 then k.error - 1 else k.error + 1) else k.error,
           slewAt := if may then some k.cycle else k.slewAt }

/-- One ACLK passes. -/
def State.tick (s : State) : State :=
  let s := (List.range 4).foldl (fun s f => if s.enabled f then s.sendDue f else s) s
  let s := (s.easels.map (·.1)).foldl (fun s n => s.settleChecks n) s
  let s := s.tellAll.startAll.truncateAll.copyTwo
  let s : State := { s with hot := [], clock := s.clock.tick, diary := s.diary.writeOne }
  s.logTick.landAll.moveAll

def execFabricTimeTick (s : State) : Out := when' s.aclk s s.tick

end Sys2Proof.Machine
end

