-- ==== Sys2Proof/Machine/Routing.lean ====
section
/-!
DEFINITION. A received frame: its checks, its routing, its copies, and its delivery to this switch (09 R250-R278; 10 R286-R288;
12 R335).
-/

namespace Sys2Proof.Machine

/-! Checks at the bridge (06 R174, R176; 09 R251). -/

/-- A body of `n` bytes whose last four are the CRC-32C of the others. -/
def crcOk (b : Bytes) (n : Nat) : Bool := b.length == n && leAt b (n - 4) 4 == crc32c (b.take (n - 4))

/-- The body without the trailer of its span (09 R277). -/
def Frame.content (f : Frame) : Bytes := if f.spanEnd then f.body.take (f.body.length - 32) else f.body

/-- The check of the body (06 R166, 07 R194, 08 R216, 09 R270, R274, 12 R334, 13 R370). -/
def Frame.bodyOk (f : Frame) : Bool :=
  let b := f.content
  match f.ftype with
  | 0 => tileCheckOk b
  | 1 => crcOk (b.take 64) 64 && (b.length == 64 || crcOk (b.drop 64) 64)
  | 2 => crcOk (b.take 64) 64 && tileCheckOk (b.drop 64)
  | 3 => crcOk b 64
  | 4 => crcOk b 32
  | 5 => crcOk b 32
  | 6 => crcOk b 64
  | _ => true

def Frame.whole (f : Frame) : Bool := f.hcheckOk && 32 * f.length == 32 + f.body.length && f.bodyOk

/-- Why a received frame is discarded: rule, event, status and the health weight of its endpoint. -/
def Frame.discard (f : Frame) (ver : Nat) : Option (Nat × Nat × Nat) :=
  if f.ver > ver then some (241, stVersion, 4)
  else if f.ftype ≥ 8 then some (250, stBadField, 4)
  else if f.dkind ≥ 5 then some (249, stBadField, 4)
  else if f.vc = 1 && f.flits > 9 then some (287, 0, 0)
  else if f.hops = 255 then some (262, 0, 0)
  else none

/-! The endpoint of an edge port, and what is heard of switches (12 R338, R352, R357). -/

/-- A frame of endpoint `e` has arrived. -/
def State.heardEndpoint (s : State) (e : Nat) : State :=
  let h := s.health
  let gap := match tget? h.lastFrame e with
    | some t => decide (h.detectMs * Config.msAclk < 2 * (s.now - t))
    | none => false
  let s : State := { s with health := { h with lastFrame := tput h.lastFrame e s.now } }
  if gap then s.addHealth (s.edgeAddr e) 8 else s

def State.heard (s : State) (p : Nat) (f : Frame) : State :=
  let x := s.lport p
  if !f.hcheckOk then s
  else if f.get 19 1 = 1 then { s with coll := { s.coll with heardSw := tput s.coll.heardSw f.src s.now } }
  else if x.role == roleEdge && f.src == s.edgeAddr x.index then s.heardEndpoint x.index
  else s

/-- The health of the endpoint on edge port `p` (12 R357). -/
def State.blameEdge (s : State) (p w : Nat) : State :=
  let x := s.lport p
  if x.role == roleEdge && w != 0 then s.addHealth (s.edgeAddr x.index) w else s

/-! Copies (09 R264, R265; 10 R288). -/

/-- One copy: its port, its frame, whether it enters a ring, and whether it may be held. -/
structure Copy where
  port : Nat
  frame : Frame
  entry : Bool
  group : Bool

/-- A body stored once, with a queue entry for each copy. -/
def State.putCopies (s : State) (arr : Option Nat) (acct : Account) (cells : Nat) (l : List Copy) : State :=
  if l.isEmpty then s.freeAccount acct cells
  else
    let (s, id) := s.store acct cells l.length
    l.foldl (fun s c => s.enqueue c.port { frame := c.frame, body := id, src := arr, entry := c.entry, group := c.group, since := s.now }) s

/-- Physical ports in a group entry's mask. -/
def maskPorts (g : BitVec 129) : List Nat := (List.range 128).filter (fun n => bitAt g.toNat n)
def groupValid (g : BitVec 129) : Bool := bitAt g.toNat 128

/-- A GROUP frame (09 R264). -/
def State.groupFrame (s : State) (p : Nat) (acct : Account) (cells : Nat) (f : Frame) : State :=
  let g := tget 0 s.fab.groups f.id
  if !groupValid g then (s.noteDev 264 0 0 []).freeAccount acct cells
  else
    let outs := ((maskPorts g).filter (· != p / 8)).map (8 * ·)
    let ok := fun (q : Nat) => (s.lport q).up && (s.lport q).role != roleBulk
    let s := (outs.filter (fun q => !ok q)).foldl (fun s q => s.notePort 264 1 q 0 []) s
    s.putCopies (some p) acct cells ((outs.filter ok).map (fun q =>
      { port := q, frame := f, entry := (s.lport q).role == roleRing, group := true }))

/-- The copies of a LINE frame that go on along its ring (09 R265). -/
def State.lineOn (s : State) (f : Frame) (origin : Bool) : List (Option Copy) :=
  let d := f.get 214 2
  let go := fun (dir count : Nat) =>
    let g := if origin then f.put 13 1 dir else f
    if count = 0 || (!origin && f.hops ≥ count) then []
    else [(member g (s.fab.trunk (isRing d dir))).map (fun q => ({ port := q, frame := g, entry := true, group := true } : Copy))]
  if origin then go 0 (f.get 216 6) ++ go 1 (f.get 208 6)
  else go f.rev (if f.rev = 0 then f.get 216 6 else f.get 208 6)

/-- A LINE frame (09 R265). One whose group entry has VALID = 0 here is copied to no edge port, and still goes on along its ring
(assumption 75). -/
def State.lineFrame (s : State) (p : Nat) (acct : Account) (cells : Nat) (f : Frame) : State :=
  let origin := (s.lport p).role == roleEdge
  let g := tget 0 s.fab.groups f.id
  let edges := if groupValid g then ((maskPorts g).map (8 * ·)).filter (fun q => (s.lport q).role == roleEdge) else []
  let on := s.lineOn f origin
  let s := if groupValid g then s else s.noteDev 265 1 0 []
  let s := if on.any (·.isNone) then s.noteDev 265 0 0 [] else s
  let s := (edges.filter (fun q => !(s.lport q).up)).foldl (fun s q => s.notePort 265 0 q 0 []) s
  s.putCopies (some p) acct cells (on.filterMap id ++ (edges.filter (fun q => (s.lport q).up)).map (fun q =>
    ({ port := q, frame := f, entry := false, group := true } : Copy)))

/-- A CIRCUIT frame (09 R269). -/
def State.circuitFrame (s : State) (p : Nat) (acct : Account) (cells : Nat) (f : Frame) : State :=
  let x := s.lport p
  let drop := (s.noteDev 269 0 0 []).freeAccount acct cells
  match s.circuit? f.id with
  | none => drop
  | some k =>
    let from' := if k.orig then x.role == roleEdge && f.get 19 1 == 0 && f.src == k.source else p == k.inPort
    if k.st != 2 || !from' then drop
    else
      let o := s.lport k.outPort
      s.putCopies (some p) acct cells [{ port := k.outPort, frame := f, entry := o.onRing && !x.continues o.dim o.dir, group := false }]

/-! Delivery to this switch (09 R271-R278). -/

/-- The next SEQ expected on a flow, counting the frames of an open span (09 R278). -/
def FlowRx.next (r : FlowRx) : Nat := (r.seq + r.span.length) % 2 ^ 32

/-- NAK for a SEQ, once per expected value in each RTO (09 R272). -/
def State.nakFlow (s : State) (peer vc seq : Nat) : State :=
  let fl := s.flow peer vc
  match fl.rx with
  | none => s
  | some r =>
    if r.naked.any (fun k => k.1 == seq && decide (s.now < k.2 + s.fab.rto)) then s
    else (s.setFlow { fl with rx := some { r with naked := some (seq, s.now) } }).tackFlow peer vc 1 seq

/-- The participants of a context, as the switches that hold them. -/
def State.partners (s : State) (c : Nat) : List Nat :=
  let x := s.ctx c
  if x.live && !x.replay then let g := s.geo x; g.participants.map g.holder else []

/-- Whether a ROSTER message may come from this sender (12 R335). -/
def State.rosterAllowed (s : State) (src : Nat) (b : Bytes) : Bool :=
  let c := msgCtx b
  let auth := bitAt s.health.auth.toNat 24 && src == fld s.health.auth.toNat 0 24
  let partner := keySw src && (s.partners c).contains (keyAddr src)
  match leAt b 0 1 with
  | 1 => !keySw src && switchOf src == s.fab.hereAddr
  | 2 => auth || partner
  | 4 => auth || partner
  | 6 => partner
  | 7 => partner
  | 8 => auth || partner
  | _ => false

/-- The message type under which a delivered body is handled; none where it is discarded and recorded (07 R194, 08 R216, 12 R335). -/
def State.handled (s : State) (src ftype : Nat) (b : Bytes) : Option Nat :=
  match ftype with
  | 1 => if leAt b 0 1 = 1 then none else some 194
  | 2 => if leAt b 0 1 = 1 then none else some 194
  | 3 => if [0x11, 0x12, 0x13, 0x14].contains (leAt b 0 1) then none else some 216
  | 5 => if [1, 2, 3, 4, 5].contains (leAt b 0 1) then none else some 270
  | 6 => if s.rosterAllowed src b then none else some 335
  | 7 => some 0
  | _ => none

/-- The context that a delivered frame is for: the one its message names, that of the generation its tile belongs to, or that of the
last ENTER before it on its flow (07 R194). -/
def State.frameCtx (s : State) (src vc ftype : Nat) (b : Bytes) (assoc : Option (Nat × Word × Nat)) : Option Nat :=
  if ftype = 0 then
    match assoc with
    | some a => some a.1
    | none => (s.enterBehind src vc s.fab.inbox).map (·.1)
  else if [1, 2, 3, 6].contains ftype then some (msgCtx b)
  else none

/-- A frame for a context wakes the Easels bound to it (04 R133). -/
def State.wakeFor (s : State) (src vc ftype : Nat) (b : Bytes) (assoc : Option (Nat × Word × Nat)) : State :=
  match s.frameCtx src vc ftype b assoc with
  | some c => if (s.ctx c).st == .free then s else s.wakeBound c
  | none => s

/-- One frame is delivered: its cells lie in ejection space until it is consumed (10 R286). -/
def State.deliver (s : State) (p : Nat) (f : Frame) (assoc : Option (Nat × Word × Nat)) : State :=
  let src := f.srcKey
  let cells := f.flits
  let b := f.content
  match s.handled src f.ftype b with
  | some rule =>
    let s := s.freeEject src f.vc cells
    if rule = 0 then s else (s.noteDev rule 0 0 []).blameEdge p 4
  | none =>
    let s := s.setFab { s.fab with inbox := s.fab.inbox ++ [{ src, vc := f.vc, ftype := f.ftype, body := b, cells, port := some p, assoc,
                                                               frame := if f.ftype = 5 then some f else none }] }
    let s := s.wakeFor src f.vc f.ftype b assoc
    match assoc with
    | some a => if f.vc = 1 && f.ftype = 0 && keySw src then s.hairTake a.1 a.2.1 else s
    | none => s

/-- The flow has delivered `k` frames: acknowledgement falls due after 16 (09 R274). -/
def State.countDelivered (s : State) (peer vc k : Nat) : State :=
  let fl := s.flow peer vc
  match fl.rx with
  | none => s
  | some r =>
    let s := s.setFlow { fl with idleAt := s.now, rx := some { r with
      unacked := r.unacked + k, unackedAt := if r.unacked = 0 then s.now else r.unackedAt } }
    let s := s.setFab { s.fab with badFlows := s.fab.badFlows.filter (· != (peer, vc)) }
    if r.unacked + k ≥ 16 then s.ackFlow peer vc else s

/-- A frame in sequence and within its window (09 R272, R277, R278). -/
def State.inOrder (s : State) (p : Nat) (f : Frame) (assoc : Option (Nat × Word × Nat)) : State :=
  let peer := f.srcKey
  let vc := f.vc
  let cells := f.flits
  let fl := s.flow peer vc
  let r := fl.rx.getD {}
  let s := s.setFab { s.fab with ejected := tset 0 s.fab.ejected vc (tget 0 s.fab.ejected vc + cells) }
  if !isPriv f.ftype then
    let r := { r with seq := (r.seq + 1) % 2 ^ 32, inUse := r.inUse + cells, unackedCells := r.unackedCells + cells }
    ((s.setFlow { fl with rx := some r }).deliver p f assoc).countDelivered peer vc 1
  else
    let span := r.span ++ [f]
    let held := { r with span, inUse := r.inUse + cells }
    if !f.spanEnd then s.setFlow { fl with rx := some held }
    else
      let bodies := span.flatMap (·.content)
      let tr := f.body.drop (f.body.length - 32)
      if leAt tr 0 8 == crc64 bodies && leAt tr 8 2 == span.length then
        let s := s.setFlow { fl with rx := some { held with
          span := [], seq := (r.seq + span.length) % 2 ^ 32, unackedCells := r.unackedCells + held.spanCells } }
        (span.foldl (fun s g => s.deliver p g none) s).countDelivered peer vc span.length
      else
        let s := s.setFlow { fl with rx := some { held with span := [], unackedCells := r.unackedCells + held.spanCells } }
        let s := span.foldl (fun s g => s.freeEject peer vc g.flits) s
        (s.tackFlow peer vc 1 r.seq).noteDev 278 0 0 []

/-- Flows that end at this switch on a virtual channel (09 R273). -/
def State.flowsInto (s : State) (vc : Nat) : Nat := (s.fab.flows.filter (fun x => x.vc == vc && x.rx.isSome)).length

/-- A frame with CMARK counts in the flow's next TACK (09 R274, R276), delivered or not. -/
def State.countMark (s : State) (f : Frame) : State :=
  let fl := s.flow f.srcKey f.vc
  match fl.rx with
  | some r => s.setFlow { fl with rx := some { r with echo := r.echo + f.get 12 1 } }
  | none => s

/-- A TACK for this switch waits in ejection space (10 R282); one of a reserved KIND is discarded (09 R274; assumption 75). -/
def State.takeTack (s : State) (p : Nat) (f : Frame) : State :=
  if 4 < leAt f.body 0 1 then s
  else s.setFab { s.fab with
    ejected := tset 0 s.fab.ejected 0 (tget 0 s.fab.ejected 0 + f.flits),
    tacks := s.fab.tacks ++ [{ src := f.srcKey, vc := 0, ftype := 4, body := f.body, cells := f.flits, port := some p, assoc := none }] }

/-- A frame addressed to this switch (09 R271-R273). -/
def State.receive (s : State) (p : Nat) (f : Frame) (assoc : Option (Nat × Word × Nat)) : State :=
  let peer := f.srcKey
  let vc := f.vc
  let w := s.fab.window vc
  let mark := f.get 12 1
  if f.ftype = 4 then s.takeTack p f
  else
    let s := s.countMark f
    let fl := s.flow peer vc
    let r? := match fl.rx with
      | some r => if f.fepoch > r.epoch then some { r with epoch := f.fepoch, seq := 0, span := [], naked := none, unacked := 0, unackedCells := 0 } else some r
      | none => none
    match r? with
    | none =>
      if f.seq != 0 then s.sendTack peer 2 vc f.fepoch 0 0 mark
      else if (fl.tx.isNone && decide (65536 ≤ s.fab.flows.length)) || decide (s.fab.ejectOf vc / max 1 w ≤ s.flowsInto vc) then
        s.sendTack peer 3 vc f.fepoch 0 0 mark
      else (s.setFlow { fl with idleAt := s.now, rx := some { epoch := f.fepoch, grant := w, told := w, echo := mark } }).inOrder p f assoc
    | some r =>
      let s := match fl.rx with
        | some r0 => if f.fepoch > r0.epoch then
            (r0.span.foldl (fun (s : State) (g : Frame) => s.freeEject peer vc g.flits) s).setFlow { fl with rx := some { r with
              inUse := r.inUse - r0.spanCells } } else s
        | none => s
      if f.fepoch < r.epoch then s.ackFlow peer vc
      else
        let d := dist32 r.next f.seq
        if d = 0 then
          if r.inUse + f.flits > r.grant then s.noteDev 273 0 0 [] else s.inOrder p f assoc
        else if d ≥ 2 ^ 31 then s.ackFlow peer vc
        else s.nakFlow peer vc r.next

/-- The tile of a frame: a Hairline frame carries it behind its 64-byte message (07 R208). -/
def Frame.tile (f : Frame) : Bytes := if f.ftype = 2 then f.body.drop 64 else f.body

/-- A tile or message that fails its check at the bridge is dropped with its frame (06 R176; 09 R275). -/
def State.badFrame (s : State) (p : Nat) (f : Frame) : State :=
  let s := s.notePort 176 0 p stTileCheck [p, 0, tTile f.tile, tChunk f.tile]
  let k := (f.srcKey, f.vc)
  let s := if f.hcheckOk && f.dkind == 1 && switchOf f.dest == s.fab.hereAddr && !s.fab.badFlows.contains k then
      s.setFab { s.fab with badFlows := s.fab.badFlows ++ [k] }
    else s
  if f.hcheckOk then s.blameEdge p 8 else s

/-- The hop of a frame that arrives on port `p` (09 R256, R257). A circuit message that this switch is to handle carries the route
fields of its way on, and ends here (R268): CSETUP is for each switch that it reaches. -/
def State.hopOf (s : State) (p : Nat) (f : Frame) : Hop :=
  if (s.lport p).role == roleEdge then inject s.fab (some p) f
  else if f.ftype == 5 && f.dkind == 1 && (switchOf f.dest == s.fab.hereAddr || leAt f.body 0 1 == 1) then .here f
  else nextHop s.fab (some p) f

/-- An uncorrectable error of the packet buffer or of a forwarding table meets a frame (12 R360): it alone is discarded and recorded, and
the transport recovers it. -/
def State.spoiltFrame (s : State) (p cells : Nat) (acct : Account) : State := (s.notePort 360 0 p 0 []).freeAccount acct cells

/-- A whole frame is handled (09 R257, R264-R269). -/
def State.handleFrame (s : State) (p : Nat) (f : Frame) (cells : Nat) (acct : Account) (assoc : Option (Nat × Word × Nat)) : State :=
  let x := s.lport p
  let s := s.heard p f
  if !f.whole then (s.badFrame p f).freeAccount acct cells
  else match f.discard x.rxVer with
    | some (rule, st, w) => ((s.notePort rule 0 p st []).blameEdge p w).freeAccount acct cells
    | none => match f.dkind with
      | 2 => s.groupFrame p acct cells f
      | 3 => s.lineFrame p acct cells f
      | 4 => s.circuitFrame p acct cells f
      | _ => match s.hopOf p f with
        | .here g => (s.freeAccount acct cells).receive p g assoc
        | h =>
          let (s, id) := s.store acct cells 1
          s.takeHop (some p) id false h

def execFrameReceive (p : Nat) (how : Reception) (s : State) : Out :=
  onUnit (decide (p < 1024)) <|
    match (s.lport p).rxFrames with
    | [] => same s
    | (f, n, c) :: rest => when' (s.fabricUp && s.aclk) s
      (let s := s.modLPort p (fun x => { x with rxFrames := rest })
       match how with
       | .spoilt => s.spoiltFrame p n c
       | .sound assoc => s.handleFrame p f n c assoc)

/-- Frames held longer than LINK_HOLD are discarded (09 R261). -/
def execLinkHoldExpiry (p : Nat) (vc : Nat) (s : State) : Out :=
  let x := s.lport p
  let q := x.queue vc
  let old := q.filter (fun e => decide (e.since + s.fab.linkHold * Config.msAclk ≤ s.now))
  onUnit (decide (p < 1024) && decide (vc < 8)) <|
    when' (s.fabricUp && s.aclk && !x.up && !old.isEmpty) s <|
      let left := q.filter (fun e => !decide (e.since + s.fab.linkHold * Config.msAclk ≤ s.now))
      let s := s.setLPort p { x with queues := tset [] x.queues vc left, deficit := if left.isEmpty then tset 0 x.deficit vc 0 else x.deficit }
      old.foldl (fun s e => (s.notePort 261 0 p 0 []).dropCopy e.body) s

end Sys2Proof.Machine
end

