-- ==== Sys2Proof/Machine/Circuits.lean ====
section
/-!
DEFINITION. The circuit messages as they arrive (09 R268-R270). Each command takes the oldest that arrived on its port.
-/

namespace Sys2Proof.Machine

/-- The oldest circuit message that arrived on port `p`, when its OP is `op`: its circuit ID, and what it is. -/
def onCctl (p op : Nat) (s : State) (go : Nat → Arrived → State → State) : Out :=
  onUnit (decide (p < 1024)) <|
    match pick (fun (a : Arrived) => a.ftype == 5 && a.port == some p) s.fab.inbox with
    | none => same s
    | some (a, rest) =>
      when' (s.fabricUp && s.aclk && leAt a.body 0 1 == op) s <|
        go (leAt a.body 2 2 % 4096) a ((s.setFab { s.fab with inbox := rest }).freeEject a.src a.vc a.cells)

def cctlSource (b : Bytes) : Nat := leAt b 4 3
def cctlDest (b : Bytes) : Nat := leAt b 8 3

/-- CSETUP reaches a switch (09 R268 steps 2 and 3). -/
def State.setUpHop (s : State) (p id : Nat) (a : Arrived) : State :=
  let src := cctlSource a.body
  let dst := cctlDest a.body
  let answer := fun (s : State) (op st : Nat) => s.cctlOn p (cctlBody op st id src dst)
  let put := fun (st outP : Nat) (term : Bool) => s.setCircuit id { ent := circuitEnt st false term p outP dst, source := src }
  if (s.circuit? id).isSome then answer s 3 stState
  else if s.dev == .grisaille then answer (s.noteDev 361 0 stDegraded []) 3 stDegraded
  else if switchOf dst = s.fab.hereAddr then
    match s.edgePort dst with
    | some q => answer (put 2 q true) 2 stOk
    | none => answer s 3 stBadField
  else match s.circuitOn p (a.frame.getD { hdr := 0, body := [] }) src dst with
    | some (q, g) => (put 1 q false).cctlOn q (cctlBody 1 stOk id src dst) (some g)
    | none => s.noteDev 261 0 0 []

def execCsetup (p : Nat) (s : State) : Out := onCctl p 1 s fun id a s => s.setUpHop p id a

/-- The entry of a message that comes back from OUT_LPORT (09 R268). -/
def State.fromOut (s : State) (p id : Nat) (go : Circuit → State) : State :=
  match s.circuit? id with
  | some x => if x.outPort = p && !x.term then go x else s
  | none => s

def execCready (p : Nat) (s : State) : Out :=
  onCctl p 2 s fun id a s => s.fromOut p id fun x =>
    if x.st != 1 then s
    else
      let frozen := s.dev == .grisaille
      let s := s.setCircuit id (x.setSt 2)
      if frozen then s
      else if x.orig then s.endWaits (WaitsOn.isCircuit id) stOk [] else s.cctlOn x.inPort a.body

def execCfail (p : Nat) (s : State) : Out :=
  onCctl p 3 s fun id a s => s.fromOut p id fun x =>
    let s := s.freeCircuit id
    if x.orig then s.endWaits (WaitsOn.isCircuit id) (leAt a.body 1 1) [] else s.cctlOn x.inPort a.body

/-- CTEAR frees every entry it passes, in either direction (09 R268). -/
def execCtear (p : Nat) (s : State) : Out :=
  onCctl p 4 s fun id _ s => match s.circuit? id with
    | some x => if x.outPort = p || x.inPort = p then (s.tearCircuit id (some p)).endWaits (WaitsOn.isCircuit id) stState [] else s
    | none => s

def execCbroken (p : Nat) (s : State) : Out :=
  onCctl p 5 s fun id _ s => s.fromOut p id fun _ => s.breakCircuit id

/-- A CIRCUIT command waits for this circuit. -/
def State.circuitAwaited (s : State) (id : Nat) : Bool :=
  (List.range 4).any (fun f => (s.func f).waits.any (fun w => WaitsOn.isCircuit id w.on))

/-- No CREADY and no CFAIL within 12,500,000 ACLK (09 R268), also where OUT_LPORT fell meanwhile. -/
def execCircuitTimeout (id : Nat) (s : State) : Out :=
  match s.circuit? id with
  | none => same s
  | some x =>
    when' (s.fabricUp && s.aclk && x.orig && (x.st == 1 || s.circuitAwaited id) && decide (x.sentAt + 12500000 ≤ s.now)) s
      ((s.tearCircuit id none).endWaits (WaitsOn.isCircuit id) stTimeout [])

end Sys2Proof.Machine
end

