-- ==== Sys2Proof/Machine/Common.lean ====
section
/-!
DEFINITION. The common instructions, opcodes 0x00 to 0x12 (05 R143-R146).
-/

namespace Sys2Proof.Machine

def execNop (n : Nat) (e : EngId) (w : IWord) (s : State) : Out :=
  issue s n e 0x00 w fun s _ => legal w [] true (.go s .seq)

/-! END (04 R114, R125). -/

/-- Whether no further entry of Intake is to come for the chunk it serves: every tile of it that is placed on Easel `n` has entered the
stage and is covered by an entry that Intake has taken. -/
def State.intakeDone (s : State) (n : Nat) (g : Engine) : Bool :=
  let x := s.easel n
  let c := s.ctx g.ctx
  !x.stage.any (fun t => !t.covered && t.ctx == g.ctx && t.gen == g.gen && t.chunk == g.key) &&
    !g.startq.any (fun q => q.ctx == g.ctx && q.gen == g.gen && !q.test && q.chunk == g.chunk && q.pos == g.pos) &&
    match c.gen? g.gen with
    | none => true
    | some y =>
      let geo := s.geo c
      (s.expectedOn c geo y (geo.node g.pos) g.chunk.toNat n).all (fun p => (y.chunk g.key).entered.contains p)

/-- The generation's engines that have reached END for its last chunk on the Easel, with `e` added when this END is such. -/
def State.noteEnd (s : State) (n : Nat) (e : EngId) (g : Engine) : List Serving :=
  let last := g.chunk == g.lastChunk && (e != .intake || s.intakeDone n g)
  (s.easel n).serving.map (fun v =>
    if v.ctx == g.ctx && v.gen == g.gen && last then { v with ended := e :: v.ended.filter (· != e) } else v)

/-- Every engine that serves the generation has ended its last chunk on Easel `n`. Intake serves none of a chunk of which no tile is
expected there (08 R219). -/
def State.servingDone (s : State) (n : Nat) (v : Serving) : Bool :=
  let x := s.ctx v.ctx
  let g := s.geo x
  let idle := fun (y : Gen) => (List.range g.held.length).all (fun i => (s.expectedOn x g y (g.node i) (s.lastChunkOn x y n) n).isEmpty)
  x.engines.all (fun e => v.ended.contains e || (e == .intake && (x.gen? v.gen).any idle))

/-- The engine leaves its study: it goes IDLE, or begins the switch while an entry waits. -/
def Engine.leave (g : Engine) (t : Nat) : Engine :=
  { g with st := if g.startq.isEmpty then .idle else .ended, nextIssue := t + 1 }

/-- The chunk record of an END (12 R345). -/
def State.endChunk (s : State) (e : EngId) (n : Nat) (g : Engine) : State :=
  if g.test then s
  else s.modGen g.ctx g.gen (fun y => if y.failed.isSome then y else
    y.modChunk g.key (fun k => { k with ended := (n, e) :: k.ended.filter (· != (n, e)) }))

/-- A semaphore of the Easel is nonzero, with the signals that have their update cycle by now (04 R105, R114). -/
def State.semLeft (s : State) (n : Nat) : Bool :=
  let x := s.easel n
  x.sems.any (fun p => p.2 != 0) || x.sigs.any (fun g => decide (g.due ≤ s.now) && g.amt != 0)

def execEndStudy (n : Nat) (e : EngId) (w : IWord) (s : State) : Out :=
  issue s n e 0x01 w fun s g => legal w [] true <|
    let sv := if g.test then (s.easel n).serving else s.noteEnd n e g
    let finished := sv.filter (fun v => s.servingDone n v)
    let left := sv.filter (fun v => !s.servingDone n v)
    if !finished.isEmpty && left.isEmpty && s.semLeft n then
      .fault cSemUnbalanced stState
    else
      let s := (s.endChunk e n g).modEasel n (fun x => { x with serving := left, idleSince := s.now })
      .go (s.modEngine n e (fun g => g.leave s.now)) .set

/-! Branches and loops (04 R118-R122). -/

def Engine.cmpVal (g : Engine) : CmpSrc → Word
  | .ctr k => g.c' k
  | .scalar k => g.s' k
  | .imm v => v

/-- The relations of 05 R145. -/
def related (rel : Nat) (a b : Word) : Bool :=
  match rel with
  | 0 => a == b
  | 1 => a != b
  | 2 => a.slt b
  | 3 => !a.slt b
  | 4 => a.ult b
  | _ => !a.ult b

def Engine.compare (g : Engine) (k : Nat) : Bool :=
  related (g.k' k).rel (g.cmpVal (g.k' k).a) (g.cmpVal (g.k' k).b)

def execBr (n : Nat) (e : EngId) (w : IWord) (s : State) : Out :=
  issue s n e 0x02 w fun s g => legal w [(54, 2), (52, 2), (0, 12)] (bCOND w != 3) <|
    let taken := match bCOND w with
      | 0 => true
      | 1 => g.compare (bK w)
      | _ => !g.compare (bK w)
    if !g.inStudy (bADDR w) then .fault cPcRange stBadField
    else .go s (if taken then .branch (bADDR w) else .seq)

def Engine.loopCount (g : Engine) (w : IWord) : Nat :=
  match bCSRC w with
  | 0 => bCIMM w
  | 1 => (g.c' (bCREG w)).toNat
  | _ => (g.s' (bCREG w)).toNat

def execLoop (n : Nat) (e : EngId) (w : IWord) (s : State) : Out :=
  issue s n e 0x03 w fun s g =>
    legal w [(50, 2), (45, 5), (29, 16), (0, 12)] (bCSRC w != 3 && isS (bCREG w) && (bCSRC w != 1 || isC (bCREG w))) <|
      let k := g.loopCount w
      if bADDR w ≤ g.pc || !g.inStudy (bADDR w) then .fault cPcRange stBadField
      else if k = 0 then .go s (.skip (bADDR w + 1))
      else if g.loops.length ≥ 4 then .fault cLoopDepth stBadField
      else .go s (.loop { first := g.pc + 1, last := bADDR w, left := k, idx := 0 })

/-! Semaphores and tokens (04 R110-R117, R131). -/

/-- The engine is held in an instruction issued now. -/
def State.holdIn (s : State) (n : Nat) (e : EngId) (pc : Nat) (k : HoldKind) : State :=
  s.modEngine n e (fun g => { g with st := .hold, hold := some { kind := k, since := s.now, pc } })

def execWait (n : Nat) (e : EngId) (w : IWord) (s : State) : Out :=
  issue s n e 0x04 w fun s g => legal w [(51, 5), (43, 8)] (yAMT w != 0) <|
    .go (s.holdIn n e g.pc (.wait (ySEM w) (yAMT w))) .seq

/-- The Easels a group SIGNAL reaches (04 R131); none where it is ILLEGAL. -/
def State.signalTargets (s : State) (n scope level : Nat) : Option (List Nat) :=
  match s.groupOf n with
  | none => none
  | some g => match g.nest[level]? with
    | none => none
    | some k =>
      let first := g.base + (n - g.base) / 2 ^ k * 2 ^ k
      if scope = 1 then some [first]
      else if n = first then some ((List.range (2 ^ k)).map (first + ·)) else none

/-- A signal is sent to semaphore `k` of Easel `m`. -/
def State.sendSig (s : State) (m : Nat) (x : Sig) : State := s.modEasel m (fun z => { z with sigs := z.sigs ++ [x] })

def execSignal (n : Nat) (e : EngId) (w : IWord) (s : State) : Out :=
  issue s n e 0x05 w fun s g =>
    legal w [(51, 5), (43, 8), (38, 2), (35, 3)] (yAMT w != 0 && ySCOPE w != 3 && (ySCOPE w != 0 || yLEVEL w == 0)) <|
      let sig := fun due : Nat => ({ due, sem := ySEM w, amt := yAMT w, sender := (n, e, g.pc) } : Sig)
      if ySCOPE w = 0 then .go (s.sendSig n (sig (s.now + 1))) .seq
      else match s.signalTargets n (ySCOPE w) (yLEVEL w) with
        | none => illegal
        | some l => .go (l.foldl (fun s m => (s.sendSig m (sig (s.now + 8))).wake m) s) .seq

def execPush (n : Nat) (e : EngId) (w : IWord) (s : State) : Out :=
  issue s n e 0x06 w fun s g => legal w [(40, 3), (30, 4)] (isPair (ySP w)) <|
    match EngId.ofId? (yENG w) with
    | none => illegal
    | some t => if t = e || !s.hasEngine t then illegal
        else .go (s.holdIn n e g.pc (.push t (g.pair (ySP w)))) .seq

def execTake (n : Nat) (e : EngId) (w : IWord) (s : State) : Out :=
  issue s n e 0x07 w fun s g => legal w [(30, 4)] (isPair (ySP w)) <|
    .go (s.holdIn n e g.pc (.take (ySP w))) .seq

/-! Registers. -/

def imm32 (w : IWord) : Word := BitVec.ofNat 32 (iIMM w)

def execCset (n : Nat) (e : EngId) (w : IWord) (s : State) : Out :=
  issue s n e 0x08 w fun s _ => legal w [fldD, immI 32] (isC (wD w)) <|
    .go (s.after n e 1 (.creg (wD w) (imm32 w))) .seq

def execCadd (n : Nat) (e : EngId) (w : IWord) (s : State) : Out :=
  issue s n e 0x09 w fun s g => legal w [fldD, immI 32] (isC (wD w)) <|
    .go (s.after n e 1 (.creg (wD w) (g.c' (wD w) + imm32 w))) .seq

def execCmov (n : Nat) (e : EngId) (w : IWord) (s : State) : Out :=
  issue s n e 0x0A w fun s g => legal w [fldD, fldA] (isC (wD w) && isS (wA w)) <|
    .go (s.after n e 1 (.creg (wD w) (g.s' (wA w)))) .seq

/-- The comparator that KSET's fields give (05 R145); none where a field is unlisted. -/
def cmpOf (w : IWord) : Option Cmp :=
  let m := iMOD w
  let i := fld (iIMM w) 0 5
  let rel := fld m 3 3
  let a := if fld m 0 1 = 0 then (if isC (wA w) then some (CmpSrc.ctr (wA w)) else none)
    else if isS (wA w) then some (CmpSrc.scalar (wA w)) else none
  let b := match fld m 1 2 with
    | 0 => if isC i then some (CmpSrc.ctr i) else none
    | 1 => if isS i then some (CmpSrc.scalar i) else none
    | 2 => some (CmpSrc.imm (BitVec.ofNat 32 (fld (iIMM w) 0 16)))
    | _ => none
  match a, b with
  | some a, some b => if rel ≤ 5 then some { rel, a, b } else none
  | _, _ => none

def execKset (n : Nat) (e : EngId) (w : IWord) (s : State) : Out :=
  issue s n e 0x0B w fun s _ => legal w [fldD, fldA, (40, 6), immI 16] (isK (wD w)) <|
    match cmpOf w with
    | none => illegal
    | some k => .go (s.after n e 1 (.kreg (wD w) k)) .seq

def execSmovi (n : Nat) (e : EngId) (w : IWord) (s : State) : Out :=
  issue s n e 0x0C w fun s _ => legal w [fldD, immI 32] (isS (wD w)) <|
    .go (s.after n e 1 (.sreg (wD w) (imm32 w))) .seq

/-- The operations of SALU (05 R146). -/
def salu (op : Nat) (a b : Word) : Option Word :=
  let k := fld b.toNat 0 5
  match op with
  | 0 => some (a + b)
  | 1 => some (a - b)
  | 2 => some (a &&& b)
  | 3 => some (a ||| b)
  | 4 => some (a ^^^ b)
  | 5 => some (a <<< k)
  | 6 => some (a >>> k)
  | 7 => some (a.sshiftRight k)
  | 8 => some (a * b)
  | 9 => some (if a.slt b then a else b)
  | 10 => some (if a.slt b then b else a)
  | _ => none

def execSalu (n : Nat) (e : EngId) (w : IWord) (s : State) : Out :=
  issue s n e 0x0D w fun s g => legal w [fldD, fldA, fldRB, modR 4] (isS (wD w) && isS (wA w) && isS (rB w)) <|
    match salu (rMOD w) (g.s' (wA w)) (g.s' (rB w)) with
    | none => illegal
    | some v => .go (s.after n e (if rMOD w = 8 then 3 else 1) (.sreg (wD w) v)) .seq

def execSaddi (n : Nat) (e : EngId) (w : IWord) (s : State) : Out :=
  issue s n e 0x0E w fun s g => legal w [fldD, fldA, immI 32] (isS (wD w) && isS (wA w)) <|
    .go (s.after n e 1 (.sreg (wD w) (g.s' (wA w) + imm32 w))) .seq

/-- The system sources (05 R144). -/
def Engine.source (g : Engine) (a : Nat) : Option Word :=
  if a < 8 then some (g.c' a)
  else if a < 12 then some (match g.loops[a - 8]? with | some l => BitVec.ofNat 32 l.idx | none => 0)
  else match a with
    | 12 => some (BitVec.ofNat 32 g.ctx)
    | 13 => some g.gen
    | 14 => some g.chunk
    | 15 => some (g.fstat.setWidth 32)
    | 16 => some (BitVec.ofNat 32 (g.rmode.toNat + 8 * b2n g.flush))
    | _ => none

def execSmov (n : Nat) (e : EngId) (w : IWord) (s : State) : Out :=
  issue s n e 0x0F w fun s g => legal w [fldD, fldA] (isS (wD w)) <|
    match g.source (wA w) with
    | none => illegal
    | some v => .go (s.after n e 1 (.sreg (wD w) v)) .seq

def execMode (n : Nat) (e : EngId) (w : IWord) (s : State) : Out :=
  issue s n e 0x10 w fun s _ => legal w [immI 4] (decide (fld (iIMM w) 0 3 ≤ 5)) <|
    if fld (iIMM w) 0 3 = 5 && s.coll.strict then .fault cInstr stNd
    else .go (s.after n e 1 (.fmode (BitVec.ofNat 3 (iIMM w)) (bitAt (iIMM w) 3))) .seq

def execSeed (n : Nat) (e : EngId) (w : IWord) (s : State) : Out :=
  issue s n e 0x11 w fun s g => legal w [fldA] (isPair (wA w)) <|
    .go (s.after n e 1 (.seed (g.pair (wA w)))) .seq

def execFclr (n : Nat) (e : EngId) (w : IWord) (s : State) : Out :=
  issue s n e 0x12 w fun s _ => legal w [immI 7] true <|
    .go (s.after n e 1 (.clear (BitVec.ofNat 7 (iIMM w)))) .seq

end Sys2Proof.Machine
end

