-- ==== Sys2Proof/Machine/RegRead.lean ====
section
/-!
DEFINITION. What a read of BAR0 returns (14 R385-R392, R404; 01 R29; 02 R44, R64-R66; 04 R135-R137; 07 R207, R213; 09 R279-R281;
10 R304-R306; 11 R321, R325, R329; 12 R363; 13 R380; 15 R423).
-/

namespace Sys2Proof.Machine

/-! Identity (14 R389). -/

def DevSt.code : DevSt → Nat
  | .off => 0 | .aon => 1 | .boot => 2 | .hold => 3 | .running => 4 | .grisaille => 5

/-- Engines present in every Easel, bit e for engine ID e (14 R389). -/
def State.unitBits (s : State) : Nat := ((EngId.all.filter s.hasEngine).map (fun e => 2 ^ e.id)).sum

def State.ident (s : State) : Nat := 0x1024 + 2 ^ 16 * (s.boot.fuses.stepping % 16)
def State.gradeWord (s : State) : Nat := s.boot.fuses.grade % 4 + 2 ^ 8 * s.easelCount + 2 ^ 17 * s.unitBits

def State.identWord (s : State) (o : Nat) : Nat :=
  match o with
  | 0x000 => s.ident
  | 0x004 => s.gradeWord
  | 0x008 => s.boot.fuses.serial.toNat % 2 ^ 32
  | 0x00C => s.boot.fuses.serial.toNat / 2 ^ 32
  | 0x010 => 1024 + 2 ^ 11 * 4 + 2 ^ 14 * s.boot.functions.toNat + 2 ^ 18 * (s.board.bifStrap % 4)
  | 0x014 => 0x0002 + 2 ^ 16 * 1
  | 0x018 => s.boot.fw.toNat
  | _ => 0

/-! Global control (14 R390). -/

/-- Byte `o` to `o + 3` of a string of bytes. -/
def wordAt (b : Bytes) (o : Nat) : Nat := leAt b o 4

/-- The 32 bytes of a binding (11 R321). -/
def Binding.bytes32 (b : Binding) : Bytes :=
  toLE 8 b.base ++ toLE 4 b.rows ++ toLE 1 (b.rowBytes / 32) ++ toLE 1 b.format ++ zeros 2 ++ toLE 4 b.shards ++ toLE 1 b.st ++ zeros 11

/-- EASEL_OWNERk (14 R392). -/
def State.ownerWord (s : State) (k : Nat) : Nat :=
  ((List.range 16).map (fun i => if s.isEasel (16 * k + i) then (s.easel (16 * k + i)).owner * 4 ^ i else 0)).sum

/-- HEALTHe (12 R363). -/
def State.healthWord (s : State) (e : Nat) : Nat :=
  tget 0 s.health.score e + 2 ^ 8 * b2n (s.health.impaired.contains e) + 2 ^ 9 * b2n (s.endpointFenced (s.edgeAddr e))

/-- CAPTURE_STATUS (13 R380). -/
def State.captureWord (s : State) : Nat :=
  let k := s.coll.captures
  let used := k.foldl (fun m c => max m (c.base + (if c.going then 4096 else c.len))) captureBase - captureBase
  (k.filter (fun c => c.st == 1 || c.st == 2)).length % 256 + 2 ^ 8 * b2n s.coll.armed.isSome + 2 ^ 9 * b2n (k.any (·.st == 0)) +
    2 ^ 16 * (ceilDiv used (2 ^ 20) % 2 ^ 16)

/-- MEM_STATUS (11 R329). -/
def Mem.statusWord (m : Mem) : Nat :=
  m.capacity % 2 ^ 9 + 2 ^ 9 * b2n m.kept + 2 ^ 10 * b2n m.excludePending + 2 ^ 11 * popcount 128 m.spares + 2 ^ 14 * b2n m.lostHbm

/-- The counter of a pair of channels (11 R329). -/
def pairCount (t : Tab Word) (j : Nat) : Nat := ((tget 0 t (2 * j)) + (tget 0 t (2 * j + 1))).toNat

def State.faultWord (s : State) (o : Nat) : Nat :=
  let h := s.health
  match o with
  | 0x400 => h.detectMs + 2 ^ 16 * h.silenceMs
  | 0x404 => h.hold
  | 0x408 => h.auth.toNat
  | 0x40C => h.limit + 2 ^ 8 * h.clear
  | 0x410 => h.tokensMax + 2 ^ 4 * h.periodS + 2 ^ 20 * h.tokens
  | 0x414 => h.cause
  | _ => if 0x500 ≤ o ∧ o < 0x600 then s.healthWord ((o - 0x500) / 4) else 0

def State.memWord (s : State) (o : Nat) : Nat :=
  let m := s.mem
  match o with
  | 0x100 => m.layout.toNat
  | 0x104 => m.statusWord
  | 0x108 => m.ueLimit + 2 ^ 8 * b2n m.awake + 2 ^ 16 * m.idle
  | 0x140 => m.scratch.toNat % 2 ^ 32
  | 0x144 => m.scratch.toNat / 2 ^ 32
  | 0x148 => m.slices
  | _ =>
    if 0x110 ≤ o ∧ o < 0x120 then fld m.inService (8 * (o - 0x110)) 32
    else if 0x120 ≤ o ∧ o < 0x130 then fld m.spares (8 * (o - 0x120)) 32
    else if 0x130 ≤ o ∧ o < 0x140 then fld m.failed (8 * (o - 0x130)) 32
    else if 0x200 ≤ o ∧ o < 0x300 then pairCount m.ce ((o - 0x200) / 4)
    else if 0x300 ≤ o ∧ o < 0x400 then pairCount m.ue ((o - 0x300) / 4)
    else 0

/-- The host-function registers (14 R404). The link of a function follows the straps (14 R382). -/
def State.linkOf (s : State) (f : Nat) : Nat :=
  match s.board.bifStrap with
  | 1 => f / 2
  | 2 => f
  | _ => 0

def State.funcWord (s : State) (f o : Nat) : Nat :=
  let x := s.func f
  match o with
  | 0x1000 => f + 2 ^ 2 * s.linkOf f
  | 0x1008 => x.next.toNat % 2 ^ 32
  | 0x100C => (x.nextLatch.map (·.toNat)).getD (x.next.toNat / 2 ^ 32)
  | 0x1010 => b2n x.errSeq + 2 ^ 8 * x.errSlot
  | 0x1020 => x.intStatus.toNat
  | 0x1024 => x.intEnable.toNat
  | 0x1030 => x.aperture.toNat
  | _ => 0

def State.globalWord (s : State) (f o : Nat) : Nat :=
  let b := s.fab
  match o with
  | 0x000 => s.dev.code
  | 0x008 => s.clock.ftime.toNat % 2 ^ 32
  | 0x00C => ((s.func f).timeLatch.map (·.toNat)).getD (s.clock.ftime.toNat / 2 ^ 32)
  | 0x010 => b2n s.clock.locked + 2 ^ 8 * s.clock.dist
  | 0x020 => s.coll.hairMax
  | 0x024 => s.coll.treeMax
  | 0x028 => s.coll.poseLead
  | 0x040 => b.shape.toNat
  | 0x044 => b.widths.toNat
  | 0x048 => b.here.toNat
  | 0x050 => b.rto + 2 ^ 24 * b.maxRetx
  | 0x054 => b.linkHold + 2 ^ 16 * b.flowIdle
  | 0x600 => b2n s.coll.strict
  | 0x604 => s.captureWord
  | _ =>
    if 0x060 ≤ o ∧ o < 0x080 then b.window ((o - 0x060) / 4)
    else if 0x100 ≤ o ∧ o < 0x400 then s.memWord o
    else if 0x400 ≤ o ∧ o < 0x600 then s.faultWord o
    else if 0x800 ≤ o ∧ o < 0x880 then wordAt (tableBytes s.formats) (o - 0x800)
    else if 0x900 ≤ o ∧ o < 0xB00 then wordAt (s.binding ((o - 0x900) / 32)).bytes32 ((o - 0x900) % 32)
    else if 0xC00 ≤ o ∧ o < 0xC40 then s.ownerWord ((o - 0xC00) / 4)
    else if 0x1000 ≤ o then s.funcWord f o
    else 0

/-! The Easel windows (04 R135-R137). -/

/-- The engine state as ENG_STATUS codes it (04 R137). -/
def engCode (x : Easel) (g : Engine) : Nat :=
  if x.stopIsFault && x.stopAt.isSome && g.st != .idle then 5
  else match g.st with
    | .idle => 1 | .run => 2 | .hold => 3 | .ended => 4 | .switch => 4

def engineWord (x : Easel) (g : Engine) (o : Nat) : Nat :=
  match o with
  | 0x000 => engCode x g + 2 ^ 3 * (g.study % 16) + 2 ^ 8 * g.loops.length + 2 ^ 16 * g.startq.length + 2 ^ 24 * g.tokenq.length
  | 0x004 => g.pc % 2 ^ 12
  | 0x008 => g.fault.cause + 2 ^ 8 * g.fault.status + 2 ^ 16 * (g.fault.pc % 2 ^ 12) + 2 ^ 31 * b2n g.fault.valid
  | 0x00C => g.wdog.toNat
  | 0x010 => g.rmode.toNat + 2 ^ 3 * b2n g.flush
  | 0x014 => g.fstat.toNat
  | 0x018 => g.seed.toNat % 2 ^ 32
  | 0x01C => g.seed.toNat / 2 ^ 32
  | 0x020 => g.ctx
  | 0x024 => g.gen.toNat
  | 0x028 => g.chunk.toNat
  | _ =>
    if 0x040 ≤ o ∧ o < 0x060 then (g.c' ((o - 0x040) / 4)).toNat
    else if 0x080 ≤ o ∧ o < 0x0C0 then
      let j := g.studyAt ((o - 0x080) / 4)
      j.base + 2 ^ 16 * j.len + 2 ^ 31 * b2n j.valid
    else 0

def powerCode : Power → Nat
  | .awake => 0 | .doze => 1 | .sleep => 2

def State.easelStatus (s : State) (n : Nat) : Nat :=
  let x := s.easel n
  let g := s.groupOf n
  powerCode x.power + 2 ^ 2 * b2n (!(s.boundTo n).isEmpty) + 2 ^ 3 * b2n x.faulted +
    2 ^ 8 * (g.map (·.log2)).getD 0 + 2 ^ 16 * (g.map (·.base)).getD 0

/-- Register `r` of Easel `n`'s window. -/
def State.easelWord (s : State) (n r : Nat) : Nat :=
  let x := s.easel n
  match r with
  | 0x0000 => n + 2 ^ 16 * s.physical n
  | 0x0004 => b2n x.holdAwake + 2 * b2n x.dozeOnly + 2 ^ 16 * x.idleDelay
  | 0x0008 => s.easelStatus n
  | _ =>
    if 0x0100 ≤ r ∧ r < 0x0180 then tget 0 x.sems ((r - 0x0100) / 4)
    else if 0x0800 ≤ r then match EngId.ofId? ((r - 0x0800) / 0x400) with
      | some e => if s.hasEngine e then engineWord x (x.engine e) ((r - 0x0800) % 0x400) else 0
      | none => 0
    else 0

/-! The context table window (07 R213, 11 R325). -/

def CtxSt.code : CtxSt → Nat
  | .free => 0 | .granting => 1 | .loading => 2 | .ready => 3 | .draining => 4

def grantBytes (g : Grant) : Bytes := toLE 8 g.base ++ toLE 4 g.pages ++ toLE 1 g.st ++ zeros 3

/-- The 256 bytes of a context that is not FREE. -/
def State.ctxBytes (s : State) (c : Nat) : Bytes :=
  let x := s.ctx c
  let status := x.st.code + 2 ^ 3 * b2n (s.coll.accums.any (·.ctx == c)) + 2 ^ 4 * x.inflight + 2 ^ 8 * x.entries
  slice x.tmpl 0 64 ++ toLE 4 status ++ toLE 4 x.gLow.toNat ++ toLE 4 x.lastGen.toNat ++ toLE 4 (x.lastStat + 2 ^ 8 * b2n x.lastValid) ++
    toLE 4 (x.mib + 2 ^ 16 * x.window) ++ zeros 12 ++ (if x.live then slice x.rosterDigest 0 32 else zeros 32) ++
    (List.range 4).flatMap (fun i => grantBytes (x.grants.getD i {})) ++ zeros 64

/-! Ports (09 R280), schedulers and shapers (10 R304-R306), tables (09 R281). -/

/-- LSTATE (09 R239). -/
def LinkSt.code : LinkSt → Nat
  | .disabled => 0 | .down => 1 | .training => 2 | .hello => 3 | .up => 4

def State.portWord (s : State) (n r : Nat) : Nat :=
  let lp := fun (base : Nat) (f : LPort → Nat) =>
    let p := 8 * n + (r - base) / 4
    if s.fab.exists' p then f (s.lport p) else 0
  if r = 0 then (s.port n).cfg.toNat
  else if 0x010 ≤ r ∧ r < 0x030 then lp 0x010 (fun x => x.cfg.toNat)
  else if 0x030 ≤ r ∧ r < 0x050 then lp 0x030 (fun x => x.peer.toNat)
  else if 0x050 ≤ r ∧ r < 0x070 then lp 0x050 (fun x => x.st.code + 2 ^ 3 * (if x.up then x.ver else 0) + 2 ^ 8 * x.epoch)
  else if 0x070 ≤ r ∧ r < 0x090 then lp 0x070 (fun x => x.replays.toNat)
  else if 0x090 ≤ r ∧ r < 0x0B0 then lp 0x090 (fun x => x.lcrcErr.toNat)
  else 0

def gateWord (l : GateList) (o : Nat) : Nat :=
  let e := tget (0, 0) l.ents (o / 8)
  if o % 8 = 0 then e.1 else e.2

def Port.gateCtrl (x : Port) : Nat := b2n x.gateEn + 2 ^ 8 * x.listA.len + 2 ^ 16 * x.listB.len

/-- Shaper credit in whole bytes, rounded toward −∞ (10 R305). -/
def creditBytes (c : Int) : Nat := unsignedOf 32 (c / 64)

def State.schedWord (s : State) (n r : Nat) : Nat :=
  let x := s.port n
  let lp := fun (o : Nat) (f : LPort → Nat → Nat) =>
    let p := 8 * n + o / 32
    if s.fab.exists' p then f (s.lport p) (o / 4 % 8) else 0
  match r with
  | 0x000 => x.sched.toNat
  | 0x004 => x.gateCtrl
  | 0x008 => b2n x.active + 2 * b2n x.gatePending + 2 ^ 2 * b2n x.late + 2 ^ 8 * x.entry
  | 0x010 => x.switchAt.toNat % 2 ^ 32
  | 0x014 => x.switchAt.toNat / 2 ^ 32
  | _ =>
    if 0x040 ≤ r ∧ r < 0x060 then x.quantumOf ((r - 0x040) / 4)
    else if 0x060 ≤ r ∧ r < 0x080 then x.markOf ((r - 0x060) / 4)
    else if 0x080 ≤ r ∧ r < 0x0C0 then
      (if r % 8 = 0 then (tget 0 x.shapeCfg ((r - 0x080) / 8)).toNat else x.burstOf ((r - 0x080) / 8))
    else if 0x0C0 ≤ r ∧ r < 0x100 then x.bufLimitOf ((r - 0x0C0) / 4)
    else if 0x100 ≤ r ∧ r < 0x200 then lp (r - 0x100) (fun y v => depth (y.queue v))
    else if 0x200 ≤ r ∧ r < 0x300 then lp (r - 0x200) (fun y v => creditBytes (tget 0 y.shaper v))
    else if 0x800 ≤ r ∧ r < 0xC00 then gateWord x.listA (r - 0x800)
    else if 0xC00 ≤ r ∧ r < 0x1000 then gateWord x.listB (r - 0xC00)
    else 0

/-- The sum of 10 R285. -/
def Fabric.claimed (b : Fabric) : Nat :=
  ((List.range 128).map (fun n => ((List.range 16).filter (fun c => c != 2 && c != 3)).map (fun c => (b.port n).bufLimitOf c) |>.sum)).sum +
    (((List.range 8).filter (· != 1)).map b.ejectOf).sum + ((List.range 8).map b.injectOf).sum

def State.limitWord (s : State) (o : Nat) : Nat :=
  if o < 0x20 then s.fab.ejectOf (o / 4)
  else if o < 0x40 then s.fab.injectOf ((o - 0x20) / 4)
  else if o = 0x40 then Config.bufferCells - s.fab.claimed
  else 0

def State.tableWord (s : State) (o : Nat) : Nat :=
  let b := s.fab
  if o < 0x80000 then (if o / 4 < b.switches then (tget 0 b.routes (o / 4)).toNat else 0)
  else if o < 0x100000 then
    let g := tget 0 b.groups ((o - 0x80000) / 32)
    fld g.toNat (8 * ((o - 0x80000) % 32)) 32
  else if o < 0x108000 then
    let c := (tget {} b.circuits ((o - 0x100000) / 8)).ent
    fld c.toNat (8 * (o % 8)) 32
  else 0

/-! The Diary block (15 R423). -/

def State.diaryWord (s : State) (f o : Nat) : Nat :=
  let d := s.diary
  match o with
  | 0x00 => d.head.toNat
  | 0x04 => (s.func f).page
  | 0x08 => 2 ^ 16 * d.gapMs
  | 0x0C => d.slot + 2 ^ 4 * b2n d.busy.isSome + 2 ^ 5 * b2n d.pendingCause.isSome
  | 0x10 => d.lost.toNat
  | 0x14 => s.boot.cause + 2 ^ 4 * (if s.boot.cause = 0 then 0 else stVersion)
  | _ =>
    if 0x1_0000 ≤ o ∧ o < 0x2_0000 then
      wordAt (tget [] d.recs (1024 * (s.func f).page + (o - 0x1_0000) / 64)) (o % 64)
    else 0

/-! BAR0 (14 R385, R386). -/

/-- An MSI-X table entry: the vector's mask bit is set at reset (assumption 7). -/
def Func.msixEntry (x : Func) (i : Nat) : BitVec 128 := tget (BitVec.ofNat 128 (2 ^ 96)) x.msix i

/-- The 32-bit word at offset `o`, a multiple of 4, as function `f` reads it. -/
def State.bar0Word (s : State) (f o : Nat) : Nat :=
  let x := s.func f
  if o < 0x8000 then s.identWord o
  else if o < 0x8100 then fld (x.msixEntry ((o - 0x8000) / 16)).toNat (8 * (o % 16)) 32
  else if o = 0x9000 then x.msixPend.toNat
  else if o < 0x1_0000 then 0
  else if o < 0x2_0000 then s.globalWord f (o - 0x1_0000)
  else if o < 0x2_4000 then le ((List.range 4).map (fun k => tget 0 x.slots (o - 0x2_0000 + k)))
  else if o < 0x3_0000 then 0
  else if o < 0x3_8000 then wordAt (x.result ((o - 0x3_0000) / 128)).bytes (o % 128)
  else if o < 0x4_0000 then 0
  else if o < 0x6_0000 then s.diaryWord f (o - 0x4_0000)
  else if o < 0x10_0000 then 0
  else if o < 0x18_0000 then s.portWord ((o - 0x10_0000) / 0x1000) (o % 0x1000)
  else if o < 0x20_0000 then 0
  else if o < 0x30_0000 then s.schedWord ((o - 0x20_0000) / 0x2000) (o % 0x2000)
  else if o < 0x40_0000 then s.limitWord (o - 0x30_0000)
  else if o < 0x80_0000 then
    let n := (o - 0x40_0000) / 0x4000
    if s.isEasel n && (s.easel n).owner == f then s.easelWord n (o % 0x4000) else 0
  else if o < 0x90_0000 then
    let c := (o - 0x80_0000) / 0x100
    let y := s.ctx c
    if y.st != .free && y.owner == f then wordAt (s.ctxBytes c) (o % 0x100) else 0
  else if 0x100_0000 ≤ o ∧ o < 0x110_8000 then s.tableWord (o - 0x100_0000)
  else 0

/-- An aligned part of a slot (14 R387): one byte, two at an even offset, or whole words. -/
def partOk (o len : Nat) : Bool := len == 1 || (len == 2 && o % 2 == 0) || (len != 0 && len % 4 == 0 && o % 4 == 0)

/-- Reads that BAR0 accepts (14 R387). -/
def readOk (o len : Nat) : Bool :=
  decide (o + len ≤ 0x400_0000) &&
    ((len == 4 && o % 4 == 0) || (len == 8 && o % 8 == 0) ||
      (decide (0x3_0000 ≤ o) && decide (o + len ≤ 0x3_8000) && partOk o len && o / 128 == (o + len - 1) / 128))

/-- A read of a low word latches its high word (01 R29, 14 R404); a read of the high word takes the latch. -/
def State.readLatch (s : State) (f o : Nat) : State :=
  match o with
  | 0x1_0008 => s.modFunc f (fun x => { x with timeLatch := some ((s.clock.ftime >>> 32).setWidth 32) })
  | 0x1_000C => s.modFunc f (fun x => { x with timeLatch := none })
  | 0x1_1008 => s.modFunc f (fun x => { x with nextLatch := some ((x.next >>> 32).setWidth 32) })
  | 0x1_100C => s.modFunc f (fun x => { x with nextLatch := none })
  | _ => s

/-- `n` words read from offset `o`, in ascending order. -/
def readWords (f : Nat) : Nat → Nat → State → State × Bytes
  | 0, _, s => (s, [])
  | n + 1, o, s =>
    let w := toLE 4 (s.bar0Word f o)
    let r := readWords f n (o + 4) (s.readLatch f o)
    (r.1, w ++ r.2)

/-- A BAR0 read (14 R387): its bytes, or Completer Abort and a Diary record. -/
def State.bar0Read (s : State) (f o len : Nat) : State :=
  if readOk o len then
    let r := readWords f (ceilDiv len 4) (o - o % 4) s
    r.1.emit (.completion f (some ((r.2.drop (o % 4)).take len)))
  else (s.note 387 0 5 f 0 []).abortRead f

end Sys2Proof.Machine
end

