-- ==== Sys2Proof/Machine/RegWrite.lean ====
section
/-!
DEFINITION. Writes of BAR0 registers (14 R385-R391, R402-R406; 00 R8-R10), by block: global control, ports, schedulers and shapers,
limits, tables. The boot ROM writes the same registers (15 R413).
-/

namespace Sys2Proof.Machine

/-- How a register takes a write: the state after it, where a rule has the write recorded also one that changes nothing else; a write
that is ignored (14 R385); or a refusal (00 R10), which changes nothing for a host and fails an image (15 R413). -/
inductive Wr where
  | set (s : State)
  | ignore
  | refuse

/-- A write by a host, of function `f`. -/
def Wr.host (w : Wr) (s : State) (f : Nat) : State :=
  match w with
  | .set t => t
  | .ignore => s.ignored f 385
  | .refuse => s

/-- `go` when the value lies in its range; else the write is ignored (07 R207, 08 R233, 09 R279, 12 R363). -/
def inRange (c : Bool) (go : State) : Wr := if c then .set go else .ignore

/-! Global control (14 R390). -/

def State.setHealth (s : State) (h : Health) : State := { s with health := h }
def State.setMem (s : State) (m : Mem) : State := { s with mem := m }
def State.setColl (s : State) (x : Coll) : State := { s with coll := x }

/-- RX_WINDOWv (09 R279). -/
def State.writeWindow (s : State) (v x : Nat) : Wr :=
  inRange (decide ((if v = 0 ∨ v = 6 then 283 else 34) ≤ x)) (s.setFab { s.fab with rxWindow := tput s.fab.rxWindow v x })

/-- The fault registers (12 R363). -/
def State.writeFault (s : State) (o v : Nat) : Wr :=
  let h := s.health
  match o with
  | 0x400 => inRange (v / 2 ^ 16 != 0) (s.setHealth { h with detectMs := v % 2 ^ 16, silenceMs := v / 2 ^ 16 })
  | 0x404 => let x := v % 2 ^ 24
    inRange (decide (1250 ≤ x) && decide (x ≤ 1250000)) (s.setHealth { h with hold := x })
  | 0x408 => .set (s.setHealth { h with auth := BitVec.ofNat 25 v })
  | 0x40C => let l := v % 2 ^ 8
    let c := fld v 8 8
    inRange (l != 0 && decide (c ≤ l)) (s.setHealth { h with limit := l, clear := c })
  | 0x410 => let p := fld v 4 16
    inRange (p != 0) (s.setHealth { h with tokensMax := v % 16, periodS := p, tokens := min h.tokens (v % 16) })
  | _ => .ignore

/-- GESSO_MODE (11 R316, R318): a change leaves the scratchpad's bytes undefined (assumption 5). -/
def State.writeGesso (s : State) (hi : Bool) (v : Nat) : State :=
  if !s.openCtxs.isEmpty then s.noteDev 318 0 stState []
  else
    let m := s.mem
    let x := BitVec.ofNat 64 (setFld m.scratch.toNat (if hi then 32 else 0) 32 v)
    if x = m.scratch then s
    else s.setMem { m with scratch := x, lines := [], cells := m.cells.filter (fun p => decide (p.1 < Config.scratchBase)) }

/-- HBM_MAPOUT (11 R311). -/
def State.writeMapout (s : State) (v : Nat) : State :=
  let ch := v % 128
  if !bitAt v 31 then s
  else if s.mem.serves ch || s.mem.isSpare ch || s.mem.takeover.any (fun t => t.2.1 == ch) then s.mapOut ch
  else s.note 311 0 3 ch stState []

/-- DET_CTRL (13 R368). -/
def State.writeStrict (s : State) (v : Nat) : State :=
  let b := bitAt v 0
  if b == s.coll.strict then s
  else if !s.openCtxs.isEmpty then s.noteDev 368 0 stState []
  else s.setColl { s.coll with strict := b }

/-- A register of the shared part of global control, at offset `o` from 0x1_0000; `boot` when the boot ROM writes it. -/
def State.writeGlobal (s : State) (boot : Bool) (o v : Nat) : Wr :=
  let k := s.coll
  let b := s.fab
  let m := s.mem
  match o with
  | 0x020 => let x := v % 2 ^ 9
    inRange (decide (x ≤ 256)) (s.setColl { k with hairMax := x })
  | 0x024 => inRange (decide (k.hairMax ≤ v)) (s.setColl { k with treeMax := v })
  | 0x028 => let x := v % 2 ^ 24
    inRange (x != 0) (s.setColl { k with poseLead := x })
  | 0x040 => if boot then .set (s.setFab { b with shape := BitVec.ofNat 32 (v % 2 ^ 30) }) else .ignore
  | 0x044 => if boot then .set (s.setFab { b with widths := BitVec.ofNat 32 (v % 2 ^ 12) }) else .ignore
  | 0x048 => if boot then .set (s.setFab { b with here := BitVec.ofNat 32 v }) else .ignore
  | 0x050 => let r := v % 2 ^ 24
    let x := fld v 24 4
    inRange (decide (50000 ≤ r) && x != 0) (s.setFab { b with rto := r, maxRetx := x })
  | 0x054 => let l := v % 2 ^ 16
    let x := fld v 16 16
    inRange (l != 0 && x != 0) (s.setFab { b with linkHold := l, flowIdle := x })
  | 0x100 => if boot then .set (s.setMem { m with layout := BitVec.ofNat 32 (v % 2 ^ 25) }) else .ignore
  | 0x108 => .set (s.setMem { m with ueLimit := v % 2 ^ 8, awake := bitAt v 8, idle := fld v 16 16 })
  | 0x10C => .set (if boot then (if bitAt v 31 then s.note 311 0 3 (v % 128) stState [] else s) else s.writeMapout v)
  | 0x140 => .set (s.writeGesso false v)
  | 0x144 => .set (s.writeGesso true v)
  | 0x600 => .set (s.writeStrict v)
  | _ =>
    if 0x060 ≤ o ∧ o < 0x080 then s.writeWindow ((o - 0x060) / 4) (v % 2 ^ 16)
    else if 0x400 ≤ o ∧ o < 0x418 then s.writeFault o v
    else .ignore

/-- INT_STATUS (14 R404, R406; 00 R8). -/
def Func.clearInts (x : Func) (v : BitVec 16) : Func :=
  { x with intStatus := x.intStatus &&& ~~~ (v &&& ~~~ x.intEvents), intCleared := x.intCleared ||| v }

/-- The host-function registers (14 R404). -/
def State.writeFunc (s : State) (f o v : Nat) : Wr :=
  match o with
  | 0x1010 => .set (if bitAt v 0 && !s.isHot 4 f 0 then s.modFunc f (fun x => { x with errSeq := false }) else s)
  | 0x1020 => .set (s.modFunc f (fun x => x.clearInts (BitVec.ofNat 16 v)))
  | 0x1024 => .set (s.modFunc f (fun x => { x with intEnable := BitVec.ofNat 16 v }))
  | 0x1030 => .set (s.modFunc f (fun x => { x with aperture := BitVec.ofNat 12 v }))
  | _ => .ignore

/-! Ports (09 R236, R237, R280). -/

def Port.phy (x : Port) : Nat := fld x.cfg.toNat 3 2

/-- The logical ports of Pn that exist. -/
def State.lportsOf (s : State) (n : Nat) : List Nat := ((List.range 8).map (8 * n + ·)).filter s.fab.exists'

/-- A logical port follows ENABLE and ROLE (09 R239): DISABLED to DOWN; a port that is UP goes down at once (R247), and one that is
on its way up is DISABLED again (assumption 61). -/
def State.followEnable (s : State) (p : Nat) : State :=
  let x := s.lport p
  if s.portOn p then (if x.st == .disabled then s.setLPort p { x with st := .down, since := s.now } else s)
  else if x.up then s.goDown p
  else if x.st == .disabled then s
  else s.setLPort p { x with st := .disabled, since := s.now, hello := none, helloAt := none }

/-- PORT_CFG. -/
def State.writePortCfg (s : State) (n v : Nat) : Wr :=
  let x := s.port n
  let cfg : BitVec 5 := BitVec.ofNat 5 v
  if x.enabled && x.breakout != v % 4 then .set (s.notePort 237 0 (8 * n) stState [])
  else if fld v 3 2 = 3 then .refuse
  else
    let retrain := x.enabled && bitAt v 2 && x.phy != fld v 3 2
    let s := s.setPort n { x with cfg }
    let s := if retrain then ((s.lportsOf n).filter (fun p => (s.lport p).st != .disabled)).foldl (fun s p => s.goDown p) s else s
    .set ((s.lportsOf n).foldl (fun s p => s.followEnable p) s)

/-- LPORT_CFGk. -/
def State.writeLportCfg (s : State) (p v : Nat) : Wr :=
  let x := s.lport p
  let cfg : BitVec 12 := BitVec.ofNat 12 v
  if !s.fab.exists' p then .ignore
  else if (s.port (p / 8)).enabled then .set (if cfg = x.cfg then s else s.notePort 237 0 p stState [])
  else if 5 ≤ v % 8 then .refuse
  else if v % 8 = roleExpress ∧ 4 ≤ fld v 6 6 then .ignore
  else .set (s.setLPort p { x with cfg })

/-- LPEERk. -/
def State.writeLpeer (s : State) (p v : Nat) : Wr :=
  let x := s.lport p
  let peer : BitVec 24 := BitVec.ofNat 24 v
  if !s.fab.exists' p then .ignore
  else if (s.port (p / 8)).enabled then .set (if peer = x.peer then s else s.notePort 237 0 p stState [])
  else .set (s.setLPort p { x with peer })

/-- A register of port `n`'s window. -/
def State.writePort (s : State) (n r v : Nat) : Wr :=
  if r = 0 then s.writePortCfg n v
  else if 0x010 ≤ r ∧ r < 0x030 then s.writeLportCfg (8 * n + (r - 0x010) / 4) v
  else if 0x030 ≤ r ∧ r < 0x050 then s.writeLpeer (8 * n + (r - 0x030) / 4) v
  else .ignore

/-! Schedulers, shapers and gates (10 R283, R285, R294-R305). -/

/-- A change of the service takes effect at the next decision of each logical port (10 R296). -/
def State.restartDrr (s : State) (n : Nat) : State :=
  (List.range 8).foldl (fun s k => s.modLPort (8 * n + k) (fun x => { x with clearDrr := true })) s

/-- SCHED_CFG (10 R294, R305). -/
def State.writeSched (s : State) (n v : Nat) : Wr :=
  let k := fld v 1 3
  let prios := (List.range k).map (fun i => fld v (8 + 3 * i) 3)
  if k = 0 ∨ 4 < k then .refuse
  else if prios.contains 1 || prios.eraseDups.length != k then .refuse
  else .set ((s.setPort n { s.port n with sched := BitVec.ofNat 20 (v - 16 * fld v 4 4) }).restartDrr n)

/-- QUANTUMv. -/
def State.writeQuantum (s : State) (n vc v : Nat) : Wr :=
  let q := v % 2 ^ 9
  inRange (vc != 1 && q != 0 && decide (q ≤ 256))
    ((s.setPort n { s.port n with quantum := tput (s.port n).quantum vc q }).restartDrr n)

/-- The credit of queue `vc` on every logical port after a write (10 R298). -/
def State.resetCredit (s : State) (n vc : Nat) : State :=
  let x := s.port n
  let full := bitAt (tget 0 x.shapeCfg vc).toNat 17
  let c : Int := if full then (x.burstOf vc * 16384 : Nat) else 0
  (List.range 8).foldl (fun s k => s.modLPort (8 * n + k) (fun y => { y with shaper := tset 0 y.shaper vc c, credited := vc :: y.credited })) s

/-- SHAPE_CFGv, or SHAPE_BURSTv when `burst`. -/
def State.writeShape (s : State) (n vc : Nat) (burst : Bool) (v : Nat) : Wr :=
  let x := s.port n
  if vc = 1 then .ignore
  else if burst then
    (if v % 2 ^ 16 = 0 then .refuse else .set ((s.setPort n { x with burst := tput x.burst vc (v % 2 ^ 16) }).resetCredit n vc))
  else .set ((s.setPort n { x with shapeCfg := tput x.shapeCfg vc (BitVec.ofNat 18 v) }).resetCredit n vc)

/-- BUF_LIMITc (10 R283, R285). A table that breaks the sum is judged after the last write. -/
def State.writeBufLimit (s : State) (boot : Bool) (n c v : Nat) : Wr :=
  let x := s.port n
  let b := s.fab
  let k := v % 2 ^ 15
  if c = 2 ∨ c = 3 then .ignore
  else if x.enabled then .set (s.notePort 283 0 (8 * n) stState [])
  else if !boot && decide (Config.bufferCells < b.claimed - x.bufLimitOf c + k) then .set (s.notePort 285 0 (8 * n) stNoSpace [])
  else .set (s.setPort n { x with bufLimit := tput x.bufLimit c k })

/-- LEN of one list, when a write may change it (10 R303). -/
def Port.mayEdit (x : Port) (b : Bool) : Bool := x.active != b && !x.gatePending

/-- ARM (10 R303). -/
def State.armGates (s : State) (n : Nat) : State :=
  let x := s.port n
  let l := x.inactive
  let t := s.clock.ftime.toNat
  if l.len = 0 || (List.range l.len).any (fun i => (tget (0, 0) l.ents i).2 == 0) then s.notePort 303 1 (8 * n) stBadField []
  else
    let x := { x with armedAt := x.switchAt }
    if x.switchAt.toNat ≤ t then
      ((s.setPort n ((x.switchOver true).refresh t)).setHot 5 n 0).notePort 303 0 (8 * n) 0 []
    else s.setPort n { x with gatePending := true }

/-- GATE_CTRL (10 R303, R305). -/
def State.writeGateCtrl (s : State) (n v : Nat) : Wr :=
  let a := fld v 8 8
  let b := fld v 16 8
  if 128 < a ∨ 128 < b then .refuse
  else
    let x := s.port n
    let lost := (a != x.listA.len && !x.mayEdit false) || (b != x.listB.len && !x.mayEdit true)
    let x' := { x with gateEn := bitAt v 0,
                       listA := if x.mayEdit false then { x.listA with len := a } else x.listA,
                       listB := if x.mayEdit true then { x.listB with len := b } else x.listB }
    let s := s.setPort n x'
    let s := if lost then s.notePort 303 2 (8 * n) stState [] else s
    .set (if bitAt v 1 then s.armGates n else s)

/-- One word of a gate list entry. -/
def GateList.writeWord (l : GateList) (o v : Nat) : GateList :=
  let e := tget (0, 0) l.ents (o / 8)
  { l with ents := tset (0, 0) l.ents (o / 8) (if o % 8 = 0 then (v % 2 ^ 8, e.2) else (e.1, v % 2 ^ 24)) }

def State.writeGate (s : State) (n : Nat) (b : Bool) (o v : Nat) : State :=
  let x := s.port n
  if !x.mayEdit b then s.notePort 303 2 (8 * n) stState []
  else s.setPort n (if b then { x with listB := x.listB.writeWord o v } else { x with listA := x.listA.writeWord o v })

/-- A register of port `n`'s scheduler window. -/
def State.writeSchedBlock (s : State) (boot : Bool) (n r v : Nat) : Wr :=
  let x := s.port n
  match r with
  | 0x000 => s.writeSched n v
  | 0x004 => s.writeGateCtrl n v
  | 0x008 => .set (if bitAt v 2 && !s.isHot 5 n 0 then s.setPort n { x with late := false } else s)
  | 0x010 => .set (s.setPort n { x with switchAt := BitVec.ofNat 64 (setFld x.switchAt.toNat 0 32 v) })
  | 0x014 => .set (s.setPort n { x with switchAt := BitVec.ofNat 64 (setFld x.switchAt.toNat 32 32 v) })
  | _ =>
    if 0x040 ≤ r ∧ r < 0x060 then s.writeQuantum n ((r - 0x040) / 4) v
    else if 0x060 ≤ r ∧ r < 0x080 then
      (let vc := (r - 0x060) / 4
       if vc = 1 then .ignore else .set (s.setPort n { x with mark := tput x.mark vc (v % 2 ^ 16) }))
    else if 0x080 ≤ r ∧ r < 0x0C0 then s.writeShape n ((r - 0x080) / 8) (r % 8 == 4) v
    else if 0x0C0 ≤ r ∧ r < 0x100 then s.writeBufLimit boot n ((r - 0x0C0) / 4) v
    else if 0x800 ≤ r ∧ r < 0xC00 then .set (s.writeGate n false (r - 0x800) v)
    else if 0xC00 ≤ r ∧ r < 0x1000 then .set (s.writeGate n true (r - 0xC00) v)
    else .ignore

/-- The limits of 10 R306: written by the boot ROM alone. -/
def State.writeLimit (s : State) (boot : Bool) (o v : Nat) : Wr :=
  let b := s.fab
  if !boot then .ignore
  else if o = 4 then .ignore
  else if o < 0x20 then .set (s.setFab { b with ejectLimit := tput b.ejectLimit (o / 4) (v % 2 ^ 20) })
  else if o < 0x40 then .set (s.setFab { b with injectLimit := tput b.injectLimit ((o - 0x20) / 4) (v % 2 ^ 20) })
  else .ignore

/-! Route, group and circuit tables (09 R254, R255, R263, R281). -/

/-- A route entry is refused (09 R255; 00 R10). -/
def Fabric.routeBad (b : Fabric) (i v : Nat) : Bool :=
  let dirs := (List.range 4).any (fun d => fld v (2 + 2 * d) 2 == 3)
  let via := fld v 12 17
  let isVia := fun (j : Nat) => fld (tget 0 b.routes j).toNat 0 2 == 1
  dirs || (v % 4 == 1 && (decide (b.switches ≤ via) || via == i || isVia via ||
    b.routes.any (fun p => p.1 != i && fld p.2.toNat 0 2 == 1 && fld p.2.toNat 12 17 == i)))

def State.writeRoute (s : State) (i v : Nat) : Wr :=
  let b := s.fab
  if b.switches ≤ i then .ignore
  else if b.routeBad i v then .refuse
  else .set (s.setFab { b with routes := tset 0 b.routes i (BitVec.ofNat 32 (v % 2 ^ 29)) })

/-- A word of a group entry (09 R281): the mask waits for the write of byte 16, which holds VALID. -/
def State.writeGroup (s : State) (o v : Nat) : Wr :=
  let b := s.fab
  let g := o / 32
  let k := o % 32 / 4
  let held := (tget? b.groupHeld g).getD (BitVec.ofNat 128 (tget 0 b.groups g).toNat)
  if k < 4 then .set (s.setFab { b with groupHeld := tput b.groupHeld g (BitVec.ofNat 128 (setFld held.toNat (32 * k) 32 v)) })
  else if k = 4 then
    .set (s.setFab { b with groups := tset 0 b.groups g (BitVec.ofNat 129 (held.toNat + 2 ^ 128 * (v % 2))), groupHeld := tdel b.groupHeld g })
  else .ignore

/-- The table window; in Grisaille mode the tables are frozen (12 R361). -/
def State.writeTable (s : State) (o v : Nat) : Wr :=
  if s.dev == .grisaille then .set (s.noteDev 361 0 stDegraded [])
  else if o < 0x80000 then s.writeRoute (o / 4) v
  else if o < 0x100000 then s.writeGroup (o - 0x80000) v
  else .ignore

/-- The blocks that a write list may name (15 R413), and that PF0 alone writes (14 R385): none where the offset lies outside them. -/
def State.writeShared (s : State) (boot : Bool) (o v : Nat) : Option Wr :=
  if 0x1_0000 ≤ o ∧ o < 0x1_1000 then some (s.writeGlobal boot (o - 0x1_0000) v)
  else if 0x10_0000 ≤ o ∧ o < 0x18_0000 then some (s.writePort ((o - 0x10_0000) / 0x1000) (o % 0x1000) v)
  else if 0x20_0000 ≤ o ∧ o < 0x30_0000 then some (s.writeSchedBlock boot ((o - 0x20_0000) / 0x2000) (o % 0x2000) v)
  else if 0x30_0000 ≤ o ∧ o < 0x40_0000 then some (s.writeLimit boot (o - 0x30_0000) v)
  else if 0x100_0000 ≤ o ∧ o < 0x110_8000 then some (s.writeTable (o - 0x100_0000) v)
  else none

/-! Easel windows (04 R134-R137, 02 R65). -/

/-- EASEL_CTRL. -/
def State.writeEaselCtrl (s : State) (n v : Nat) : State :=
  let s := s.modEasel n (fun x => { x with holdAwake := bitAt v 0, dozeOnly := bitAt v 1, idleDelay := fld v 16 16 })
  if bitAt v 0 then s.wake n else s

/-- A register of an engine's block. -/
def State.writeEngine (s : State) (n : Nat) (e : EngId) (o v : Nat) : Wr :=
  match o with
  | 0x008 => .set <| if bitAt v 31 && !s.isHot 3 (engIdx n e) 0 then s.modEngine n e (fun g => { g with fault := { g.fault with valid := false } }) else s
  | 0x00C => .set (s.modEngine n e (fun g => { g with wdog := BitVec.ofNat 32 v }))
  | 0x014 =>
    let keep := ((List.range 7).filter (fun b => s.isHot 1 (engIdx n e) b)).map (fun b => 2 ^ b)
    let gone : BitVec 7 := BitVec.ofNat 7 v &&& ~~~ BitVec.ofNat 7 keep.sum
    .set (s.modEngine n e (fun g => { g with fstat := g.fstat &&& ~~~ gone }))
  | _ => .ignore

def State.writeEasel (s : State) (n r v : Nat) : Wr :=
  match r with
  | 0x0004 => .set (s.writeEaselCtrl n v)
  | 0x0008 => .set (if bitAt v 3 && !s.isHot 2 n 0 then s.modEasel n (fun x => { x with faulted := false }) else s)
  | _ =>
    if 0x0800 ≤ r then match EngId.ofId? ((r - 0x0800) / 0x400) with
      | some e => if s.hasEngine e then s.writeEngine n e ((r - 0x0800) % 0x400) v else .ignore
      | none => .ignore
    else .ignore

/-! MSI-X (14 R386, R406). -/

/-- A held message is sent once nothing masks it. -/
def State.sendHeld (s : State) (f v : Nat) : State :=
  let x := s.func f
  if bitAt x.msixPend.toNat v && !x.msixMasked && !bitAt (x.msixEntry v).toNat 96 then
    (s.setFunc f { x with msixPend := x.msixPend &&& ~~~ BitVec.ofNat 16 (2 ^ v) }).emit (.msix f v)
  else s

/-- A word of the MSI-X table. -/
def State.writeMsix (s : State) (f o v : Nat) : State :=
  let x := s.func f
  let i := o / 16
  let e := BitVec.ofNat 128 (setFld (x.msixEntry i).toNat (8 * (o % 16)) 32 v)
  (s.setFunc f { x with msix := tput x.msix i e }).sendHeld f i

/-! Result slots (14 R402) and command slots (14 R387, R393-R395). -/

/-- RETIRE; SEAL follows (14 R401). Any other write to a result slot is ignored (R402). -/
def State.retireSlot (s : State) (f i v : Nat) : State :=
  let x := s.func f
  let r := x.result i
  if r.st = 2 ∧ r.gen.toNat = v then s.setFunc f (x.setResult i ({ r with st := 0 } : Result).sealed) else s.ignored f 385

/-- Bytes written to the command slots; a slot whose SEQ changes may raise its error anew. -/
def State.writeSlots (s : State) (f o : Nat) (b : Bytes) : State :=
  let x := s.func f
  let i := o / 64
  let y := { x with slots := putBytes 0 x.slots o b }
  let seq := fun (z : Func) => leAt (z.slotBytes i) 56 8
  s.setFunc f (if seq x = seq y then y else { y with errLast := tdel y.errLast i })

/-! The Diary block (15 R423). -/

/-- A flush of cause HOST; the log MRAM in place of it when HBM is lost (15 R425). Before HBM is up there is none. -/
def State.hostFlush (s : State) : State :=
  if s.mem.lostHbm then s.powerLog
  else if s.dev == .running || s.dev == .grisaille then s.startFlush 1
  else s

/-- DIARY_CTRL. -/
def State.writeDiaryCtrl (s : State) (v : Nat) : State :=
  let s : State := { s with diary := { s.diary with gapMs := fld v 16 16 } }
  if bitAt v 0 then s.hostFlush else s

def State.writeDiaryReg (s : State) (f o v : Nat) : State :=
  match o with
  | 0x04 => s.modFunc f (fun x => { x with page := v % 64 })
  | 0x08 => if f = 0 then s.writeDiaryCtrl v else s.ignored f 385
  | _ => s.ignored f 385

/-! BAR0 (14 R385-R391). -/

/-- Function `f` writes the word `v` at offset `o`, a multiple of 4. -/
def State.writeWord (s : State) (f o v : Nat) : State :=
  if o < 0x8000 then s.ignored f 385
  else if o < 0x8100 then s.writeMsix f (o - 0x8000) v
  else if 0x1_1000 ≤ o ∧ o < 0x2_0000 then (s.writeFunc f (o - 0x1_0000) v).host s f
  else if 0x2_0000 ≤ o ∧ o < 0x2_4000 then s.writeSlots f (o - 0x2_0000) (toLE 4 v)
  else if 0x3_0000 ≤ o ∧ o < 0x3_8000 then (if o % 128 = 0 then s.retireSlot f ((o - 0x3_0000) / 128) v else s.ignored f 385)
  else if 0x4_0000 ≤ o ∧ o < 0x6_0000 then s.writeDiaryReg f (o - 0x4_0000) v
  else if 0x40_0000 ≤ o ∧ o < 0x80_0000 then
    let n := (o - 0x40_0000) / 0x4000
    if !s.isEasel n || (s.easel n).owner != f then s.ignored f 385
    else (s.writeEasel n (o % 0x4000) v).host s f
  else if 0x80_0000 ≤ o ∧ o < 0x90_0000 then s.ignored f 385
  else match s.writeShared false o v with
    | some w => if f = 0 then w.host s f else s.ignored f 385
    | none => s.ignored f 385

/-- Writes that BAR0 accepts (14 R387): words, pairs of words, and aligned parts of one command slot. -/
def writeOk (o len : Nat) : Bool :=
  decide (o + len ≤ 0x400_0000) &&
    ((len == 4 && o % 4 == 0) || (len == 8 && o % 8 == 0) ||
      (decide (0x2_0000 ≤ o) && decide (o + len ≤ 0x2_4000) && partOk o len && o / 64 == (o + len - 1) / 64))

/-- An accepted BAR0 write: bytes of a command slot together, and of registers the low word first. A result slot takes a write of 4
bytes only (14 R402). -/
def State.bar0Write (s : State) (f o : Nat) (b : Bytes) : State :=
  if 0x2_0000 ≤ o ∧ o < 0x2_4000 then s.writeSlots f (o - 0x2_0000) b
  else if b.length = 8 then
    (if 0x3_0000 ≤ o ∧ o < 0x3_8000 then s.ignored f 385 else (s.writeWord f o (leAt b 0 4)).writeWord f (o + 4) (leAt b 4 4))
  else s.writeWord f o (leAt b 0 4)

end Sys2Proof.Machine
end

