-- ==== Sys2Proof/Machine/HostRegs.lean ====
section
/-!
DEFINITION. The rows of BAR0 and BAR2 accesses (14 R385-R391, R402-R406; 11 R313, R318, R326).
-/

namespace Sys2Proof.Machine

/-- An access of function `f`, which a host can reach (14 R382). -/
def onFunc (s : State) (f : Nat) (go : State) : Out := onUnit (decide (f < 4)) (when' (s.aclk && s.presents f) s go)

/-- A write of registers: the command takes of its ACLK come before it (14 R391). -/
def onWrite (s : State) (f : Nat) (go : State → State) : Out := onFunc s f (go s.examineAll)

/-- Function `f` writes the word `v` at offset `o` of BAR0. -/
def onWord (s : State) (f o : Nat) (v : Word) : Out := onWrite s f (fun s => s.writeWord f o v.toNat)

/-! BAR0. -/

def execRegisterWrite (f : Nat) (off : Nat) (data : Bytes) (poisoned : Bool) (s : State) : Out :=
  onWrite s f fun s =>
    if poisoned then s.poisoned f
    else if writeOk off data.length then s.bar0Write f off data
    else s.note 387 0 5 f 0 []

def execRetire (f : Nat) (slot : Nat) (v : Word) (s : State) : Out :=
  onUnit (decide (slot < 256)) (onWord s f (0x3_0000 + 128 * slot) v)

def execFtimeLoRead (f : Nat) (s : State) : Out := onFunc s f (s.bar0Read f 0x1_0008 4)
def execCmdNextLoRead (f : Nat) (s : State) : Out := onFunc s f (s.bar0Read f 0x1_1008 4)
def execBar0AccessRefused (f : Nat) (off : Nat) (len : Nat) (s : State) : Out := onFunc s f (s.bar0Read f off len)

def execHbmMapoutWrite (f : Nat) (v : Word) (s : State) : Out := onWord s f 0x1_010C v
def execDiaryCtrlFlush (f : Nat) (v : Word) (s : State) : Out := onWord s f 0x4_0008 v
def execDetCtrlWrite (f : Nat) (v : Word) (s : State) : Out := onWord s f 0x1_0600 v
def execApertureWrite (f : Nat) (v : Word) (s : State) : Out := onWord s f 0x1_1030 v
def execGessoModeWrite (f : Nat) (hi : Bool) (v : Word) (s : State) : Out :=
  onWord s f (if hi then 0x1_0144 else 0x1_0140) v

/-- Register `r` of the window of physical port `port` in a block of the given base and stride (09 R280, 10 R304). -/
def onPortReg (s : State) (f port base stride r : Nat) (v : Word) : Out :=
  onUnit (decide (port < 128)) (onWord s f (base + stride * port + r) v)

def execGateArm (f : Nat) (port : Nat) (v : Word) (s : State) : Out := onPortReg s f port 0x20_0000 0x2000 0x004 v

def execShapeCfgWrite (f : Nat) (port : Nat) (vc : Nat) (burst : Bool) (v : Word) (s : State) : Out :=
  onUnit (decide (vc < 8)) (onPortReg s f port 0x20_0000 0x2000 (0x080 + 8 * vc + (if burst then 4 else 0)) v)

def execSchedCfgWrite (f : Nat) (port : Nat) (quantum : Option Nat) (v : Word) (s : State) : Out :=
  match quantum with
  | none => onPortReg s f port 0x20_0000 0x2000 0x000 v
  | some vc => onUnit (decide (vc < 8)) (onPortReg s f port 0x20_0000 0x2000 (0x040 + 4 * vc) v)

def execBufLimitWrite (f : Nat) (port : Nat) (cls : Nat) (v : Word) (s : State) : Out :=
  onUnit (decide (cls < 16)) (onPortReg s f port 0x20_0000 0x2000 (0x0C0 + 4 * cls) v)

def execPortCfgWrite (f : Nat) (port : Nat) (reg : PortReg) (v : Word) (s : State) : Out :=
  match reg with
  | .portCfg => onPortReg s f port 0x10_0000 0x1000 0x000 v
  | .lportCfg k => onUnit (decide (k < 8)) (onPortReg s f port 0x10_0000 0x1000 (0x010 + 4 * k) v)
  | .lpeer k => onUnit (decide (k < 8)) (onPortReg s f port 0x10_0000 0x1000 (0x030 + 4 * k) v)

def execRouteEntryWrite (f : Nat) (idx : Nat) (v : Word) (s : State) : Out :=
  onUnit (decide (idx < 131072)) (onWord s f (0x100_0000 + 4 * idx) v)

def execGroupEntryValidWrite (f : Nat) (g : Nat) (v : Word) (s : State) : Out :=
  onUnit (decide (g < 16384)) (onWord s f (0x108_0000 + 32 * g + 16) v)

def execEaselCtrlWrite (f : Nat) (n : Nat) (v : Word) (s : State) : Out :=
  onUnit (decide (n < 256)) (onWord s f (0x40_0000 + 0x4000 * n + 4) v)

/-! MSI-X (14 R406). -/

/-- The mask bit of vector `v` is cleared. -/
def State.unmaskVector (s : State) (f v : Nat) : State :=
  let x := s.func f
  (s.setFunc f { x with msix := tput x.msix v (BitVec.ofNat 128 (setFld (x.msixEntry v).toNat 96 1 0)) }).sendHeld f v

/-- The function mask is cleared: what was held is sent in ascending vector. -/
def State.unmaskFunction (s : State) (f : Nat) : State :=
  (List.range 16).foldl (fun s v => s.sendHeld f v) (s.modFunc f (fun x => { x with msixMasked := false }))

def execMsixUnmask (f : Nat) (vec : Option Nat) (s : State) : Out :=
  match vec with
  | none => onWrite s f (fun s => s.unmaskFunction f)
  | some v => onUnit (decide (v < 16)) (onWrite s f (fun s => s.unmaskVector f v))

/-! BAR2 (14 R388). -/

/-- The ranges that a function other than PF0 may reach: grants of its contexts, VALID or LOST, and local rows of its bindings. -/
def State.apertureRanges (s : State) (f : Nat) : List (Nat × Nat) :=
  ((s.coll.ctxs.map (·.2)).filter (fun x => x.st != .free && x.owner == f)).flatMap (fun x =>
    (x.grants.filter (fun g => g.st != 0)).map (fun g => (g.base, g.pages * 4096))) ++
  ((s.coll.bindings.map (·.2)).filter (fun b => b.st != 0 && b.owner == f)).map (fun b => (b.base, b.bytes))

/-- Whether the access is permitted: each byte of it lies in some range. -/
def State.apertureOk (s : State) (f a len : Nat) : Bool :=
  s.mem.mapped a len && !s.mem.lostHbm && s.dev == .running &&
    (f == 0 || (List.range len).all (fun i => (s.apertureRanges f).any (fun r => decide (r.1 ≤ a + i) && decide (a + i < r.1 + r.2))))

/-- The granules of a range. -/
def granulesOf (a len : Nat) : List Nat := (List.range ((a + len + 255) / 256 - a / 256)).map (a / 256 + ·)

/-- A read through BAR2: its bytes, or Completer Abort where it is refused or uncorrected (11 R326). -/
def State.bar2Read (s : State) (f a len : Nat) (err : MemErr) : State :=
  if !s.apertureOk f a len then s.abortRead f
  else
    let s := (s.memErr err (granulesOf a len)).accessRun false a len
    if memErrBad err then s.abortRead f else s.emit (.completion f (some (s.mem.read a len)))

/-- A write through BAR2. A read half that is uncorrected delivers nothing, and the bytes stay (11 R326, assumption 45). -/
def State.bar2Write (s : State) (f a : Nat) (b : Bytes) (err : MemErr) : State :=
  if !s.apertureOk f a b.length then s.note 388 0 5 f 0 []
  else
    let s := (s.memErr err (granulesOf a b.length)).accessRun true a b.length
    if memErrBad err then s else s.setMem (s.mem.write a b)

def execBar2Access (f : Nat) (off : Nat) (len : Nat) (wr : Option Bytes) (err : MemErr) (poisoned : Bool) (s : State) : Out :=
  let a := (s.func f).aperture.toNat * gib + off
  onUnit (decide (off + len ≤ 2 ^ 36)) <| if s.board.warmSeq || (granulesOf a len).any (fun g => s.mem.waits (256 * g)) then same s else onFunc s f <|
    match wr with
    | none => s.bar2Read f a len err
    | some b => if poisoned then s.poisoned f else s.bar2Write f a b err

end Sys2Proof.Machine
end

