-- ==== Sys2Proof/Machine/Rsa.lean ====
section
/-!
DEFINITION. The signature check of 15 R414: RSASSA-PSS of PKCS #1 v2.2 with SHA-256, MGF1 with SHA-256,
a salt of 32 bytes and trailer 0xBC.
-/

namespace Sys2Proof.Machine

/-- `x` squared `k` times modulo `n`. -/
def sqMod (n : Nat) : Nat → Nat → Nat
  | 0, x => x % n
  | k + 1, x => sqMod n k (x * x % n)

/-- s^65537 mod n. -/
def rsaVp1 (n s : Nat) : Nat := sqMod n 16 s * s % n

/-- `blocks` blocks of MGF1 with SHA-256, from counter `c`. -/
def mgf1 (seed : Bytes) : Nat → Nat → Bytes
  | 0, _ => []
  | b + 1, c => sha256 (seed ++ toBE 4 c) ++ mgf1 seed b (c + 1)

/-- The EMSA-PSS check of an encoded message `em` of `emBits` bits against the message hash `mHash`. -/
def emsaPssOk (mHash em : Bytes) (emBits : Nat) : Bool :=
  let emLen := ceilDiv emBits 8
  let dbLen := emLen - 33
  let maskedDb := em.take dbLen
  let h := slice em dbLen 32
  let top := 8 * emLen - emBits
  let dbRaw := List.zipWith (· ^^^ ·) maskedDb (mgf1 h (ceilDiv dbLen 32) 0)
  let db := match dbRaw with
    | [] => []
    | b :: bs => BitVec.ofNat 8 (b.toNat % 2 ^ (8 - top)) :: bs
  let psLen := emLen - 66
  let salt := slice db (psLen + 1) 32
  emLen ≥ 66 && em.length == emLen && em.getLast? == some 0xBC#8 &&
    (maskedDb.headD 0).toNat < 2 ^ (8 - top) &&
    db.take (psLen + 1) == zeros psLen ++ [0x01#8] &&
    sha256 (zeros 8 ++ mHash ++ salt) == h

/-- RSASSA-PSS verification under (n, 65,537) of a 384-byte signature of a message, of which RFC 8017 takes the hash. -/
def pssVerify (nBytes sigBytes msg : Bytes) : Bool :=
  let n := be nBytes
  let s := be sigBytes
  let modBits := Nat.log2 n + 1
  let emBits := modBits - 1
  let emLen := ceilDiv emBits 8
  let m := rsaVp1 n s
  n > 1 && s < n && m < 2 ^ (8 * emLen) && emsaPssOk (sha256 msg) (toBE emLen m) emBits

end Sys2Proof.Machine
end

