-- ==== Sys2Proof/Machine/Image.lean ====
section
/-!
DEFINITION. The image of the boot NOR: its checks and what it loads (15 R409-R416; 02 R46; 09 R252, R253; 10 R285; 11 R313;
16 R438), IMAGE_WRITE and ATTEST (15 R416-R419).
-/

namespace Sys2Proof.Machine

/-! The image (15 R411, R412). -/

def imgSections (b : Bytes) : Nat := leAt b 6 2
def imgSigned (b : Bytes) : Nat := leAt b 8 4
def imgFw (b : Bytes) : Nat := leAt b 12 4

/-- A directory entry. -/
structure DirEntry where
  type : Nat
  off : Nat
  len : Nat
  crc : Nat
deriving DecidableEq, Repr

def imgDir (b : Bytes) : List DirEntry :=
  (List.range (imgSections b)).map (fun i =>
    { type := leAt b (64 + 16 * i) 2, off := leAt b (68 + 16 * i) 4, len := leAt b (72 + 16 * i) 4, crc := leAt b (76 + 16 * i) 4 })

def DirEntry.bytes (e : DirEntry) (b : Bytes) : Bytes := slice b e.off e.len
/-- The section of a type. -/
def imgSection (b : Bytes) (t : Nat) : Option Bytes := ((imgDir b).find? (fun e => e.type == t)).map (fun e => e.bytes b)

/-- Signed 16-bit number at an offset. -/
def s16At (b : Bytes) (o : Nat) : Int := signed 16 (leAt b o 2)

/-- A THERMAL section as loaded (16 R438). -/
def thermalOf (b : Bytes) : Thermal :=
  { warnDie := s16At b 0, emergDie := s16At b 2, warnHbm := s16At b 4, emergHbm := s16At b 6, pLimit := leAt b 8 2,
    curve := (List.range (leAt b 10 1)).map (fun i => (s16At b (16 + 4 * i), leAt b (18 + 4 * i) 1)) }

/-- Temperatures strictly rise and shares never rise along the curve. -/
def curveOk : List (Int × Nat) → Bool
  | [] => true
  | [_] => true
  | a :: b :: l => decide (a.1 < b.1) && decide (b.2 ≤ a.2) && curveOk (b :: l)

/-- A THERMAL section keeps the limits of 16 R438. -/
def thermalOk (b : Bytes) : Bool :=
  let t := thermalOf b
  let n := leAt b 10 1
  decide (1 ≤ n) && decide (n ≤ 16) && decide (16 + 4 * n ≤ b.length) && decide (t.emergDie ≤ 110 * 256) && decide (t.emergHbm ≤ 105 * 256) &&
    decide (t.pLimit ≤ 23000) && decide (t.warnDie < t.emergDie) && decide (t.warnHbm < t.emergHbm) && curveOk t.curve

/-- The contents of a section have the form that its type needs. -/
def DirEntry.formOk (e : DirEntry) (b : Bytes) : Bool :=
  match e.type with
  | 0x01 => true
  | 0x02 => e.len == 128
  | 0x03 => e.len % 8 == 0
  | 0x04 => thermalOk (e.bytes b)
  | 0x05 => e.len == 32
  | _ => false

/-- The header, the directory and every section keep 15 R411 and R412. -/
def imgFormatOk (b : Bytes) : Bool :=
  let d := imgDir b
  let n := imgSections b
  let k := imgSigned b
  leAt b 4 2 == 1 && decide (1 ≤ n) && decide (n ≤ 32) && k % 64 == 0 && decide (k ≤ 66059264) && decide (k + 1024 ≤ b.length) &&
    d.all (fun e => e.off % 64 == 0 && decide (e.off + e.len ≤ k) && crc32c (e.bytes b) == e.crc && e.formOk b) &&
    (d.map (·.type)).eraseDups.length == n && d.any (·.type == 1) && d.any (·.type == 2) &&
    (List.range n).all (fun i => (List.range i).all (fun j =>
      match d[i]?, d[j]? with
      | some x, some y => x.len == 0 || y.len == 0 || decide (x.off + x.len ≤ y.off) || decide (y.off + y.len ≤ x.off)
      | _, _ => true))

/-- The image digest (15 R409, R414). -/
def imgDigest (b : Bytes) : Bytes := sha256 (b.take (imgSigned b))

/-- The tables digest (15 R413). -/
def tablesDigest (b : Bytes) : Bytes := sha256 (((imgDir b).filter (fun e => e.type != 1)).flatMap (fun e => e.bytes b))

/-! The identity area (15 R410, R417). -/

def identityBase : Nat := 0x3F00000
def State.chainLen (s : State) : Nat := min 16384 (leAt (s.norRead identityBase 4) 0 4)
def State.chain (s : State) : Bytes := s.norRead (identityBase + 4) s.chainLen

/-- The length of the DER value at the front of a byte string. -/
def derLen (b : Bytes) : Nat :=
  let l := leAt b 1 1
  if l < 128 then 2 + l else 2 + (l - 128) + be (slice b 2 (l - 128))

/-- The first certificate of the chain. -/
def State.deviceCert (s : State) : Bytes := s.chain.take (derLen s.chain)

/-- The key block and IDENTITY_HINT pass (15 R412, R414 step 1). -/
def State.keyOk (s : State) (b : Bytes) : Bool :=
  let k := slice b (imgSigned b) 388
  sha256 k == s.boot.fuses.keyHash && be (k.drop 384) == 65537 &&
    (match imgSection b 5 with
     | some h => h == zeros 32 || h == sha256 s.deviceCert
     | none => true)

/-- The signature verifies (15 R414 step 2): the message that is signed is the 32-byte SHA-256 of R409 step 2. -/
def sigOk (b : Bytes) : Bool := pssVerify (slice b (imgSigned b) 384) (slice b (imgSigned b + 512) 384) (imgDigest b)

/-! The format table (02 R46). -/

def rawEntries (b : Bytes) : List Nat := (List.range (b.length / 8)).map (fun i => leAt b (8 * i) 8)

def loadedFormats (b : Bytes) : Tab DWord :=
  (List.range 16).foldl (fun t i => tset 0 t i (BitVec.ofNat 64 (heldEntry (leAt b (8 * i) 8)))) []

/-! Write lists and the checks of what they load (15 R413; 09 R252, R253; 10 R285; 11 R313). -/

/-- RESOURCES.FUNCTIONS; PF0 is always enabled (14 R382). -/
def State.writeFunctions (s : State) (v : Nat) : State :=
  { s with boot := { s.boot with functions := BitVec.ofNat 4 (fld v 14 4) ||| 1 } }

/-- One entry of a write list; none where it fails the image. -/
def State.bootWrite (s : State) (e : Bytes) : Option State :=
  let o := leAt e 0 4 % 2 ^ 26
  let v := leAt e 4 4
  if o % 4 != 0 then none
  else if o = 0x010 then some (s.writeFunctions v)
  else match (if 0x1_1000 ≤ o ∧ o < 0x1_1038 then some (s.writeFunc 0 (o - 0x1_0000) v) else s.writeShared true o v) with
    | some (.set t) => some t
    | some .ignore => some s
    | _ => none

/-- `n` entries, in order. -/
def State.bootWrites : Nat → State → Bytes → Option State
  | 0, s, _ => some s
  | n + 1, s, b => (s.bootWrite (b.take 8)).bind (fun t => t.bootWrites n (b.drop 8))

/-- The shape, the widths and the address keep 09 R252 and R253. -/
def Fabric.shapeOk (b : Fabric) : Bool :=
  let ds := List.range b.dims
  ds.all (fun d => let l := b.ring d; let w := b.widthOf d
    decide (1 ≤ l) && decide (l ≤ 64) && decide (1 ≤ w) && decide (w ≤ 6) && decide (l ≤ 2 ^ w) && decide (b.coord b.hereAddr d < l)) &&
    (List.range 4).all (fun d => decide (d < b.dims) || fld b.shape.toNat (7 * d) 7 == 1) &&
    decide ((ds.map b.widthOf).sum ≤ 18) && decide (b.switches ≤ 131072) && edgeOf b.hereAddr == 0 && b.addrOf (b.coords b.hereAddr) == b.hereAddr

/-- The region sizes lie in the ranges of 11 R313 and SPARES in that of R309. -/
def Mem.sizesOk (m : Mem) : Bool :=
  decide (8 ≤ m.sketchGib) && decide (m.sketchGib ≤ 64) && decide (m.captureGib ≤ 64) && decide (m.sparesWanted ≤ 4)

/-- The mode-register settings of the tables keep to the list of 11 R308: a table that writes nothing sets none (assumption 47). -/
def hbmOptionsOk (b : Bytes) : Bool :=
  ((imgSection b 3).getD []).isEmpty || Config.hbmOptionsOk (BitVec.ofNat 256 (be (tablesDigest b)))

/-- The state with the tables of the image loaded; none where one is refused (15 R409 step 4). -/
def State.loadTables (s : State) (b : Bytes) : Option State :=
  let f := (imgSection b 2).getD []
  let t := loadedFormats f
  if !tableOk factoryFormats (rawEntries f) then none
  else
    let w := (imgSection b 3).getD []
    match State.bootWrites (w.length / 8) { s with formats := t } w with
    | none => none
    | some s => if s.fab.shapeOk && decide (s.fab.claimed ≤ Config.bufferCells) && s.mem.sizesOk && hbmOptionsOk b then some s else none

/-- The cause of 15 R415 for an image; none where it passes steps 2 to 4 of R409. `blank` is the state whose tables it would load. -/
def State.imageFault (s blank : State) (b : Bytes) : Option Nat :=
  if leAt b 0 4 != 0x5A435A49 then some 1
  else if !imgFormatOk b then some 2
  else if !s.keyOk b then some 3
  else if !sigOk b then some 4
  else if (blank.loadTables b).isNone then some 5
  else none

/-! The core's registers after a reset (15 R407, R408). -/

/-- Everything of the core at its reset values: the channel map, the AON domain, the NOR, the log MRAM, the fuse map and the pins are
not of the core. -/
def State.blank (s : State) : State :=
  let z := State.reset
  { z with
    pending := s.pending, freeCtr := s.freeCtr, outs := s.outs, dev := s.dev,
    mem := { z.mem with cells := s.mem.cells.filter (fun p => decide (p.1 < Config.scratchBase)), capacity := s.mem.capacity,
                        inService := s.mem.inService, spares := s.mem.spares, failed := s.mem.failed, logical := s.mem.logical,
                        kept := s.mem.kept, excludePending := s.mem.excludePending },
    boot := { s.boot with cause := 0, fw := 0, functions := 1, imageDigest := [], tablesDigest := [], norJob := none, logJob := none, presented := false },
    board := { s.board with hotSince := [], emergency := false, share := 65536, powerHeld := false, throttleAt := 0, warmSeq := false,
                            warmSpoiled := false } }

/-! IMAGE_WRITE (15 R416). -/

/-- The image area of the NOR is erased. -/
def State.eraseImage (s : State) : State :=
  { s with boot := { s.boot with nor := s.boot.nor.filter (fun p => decide (identityBase ≤ p.1)) } }

/-- The verified image is to be programmed: the NOR is erased and the host memory is read a second time. -/
def State.startNor (s : State) (f haddr len : Nat) (digest : Bytes) : State :=
  let s := s.eraseImage
  ({ s with boot := { s.boot with norJob := some { f, haddr, len, digest } } } : State).readHost f haddr len

def execImageWrite (f : Nat) (s : State) : Out :=
  runCmd s f (· == 0x14) fun t s =>
    let n := leAt t.bytes 8 4
    let a := t.haddr 16
    let b := t.data.getD []
    let bad := n % 64 != 0 || decide (n < 1088) || decide (66060288 < n) || a % 64 != 0
    checked (s.common f t ++ [(bad, stBadField), (t.data.isSome && (s.imageFault s.blank b).isSome, stVersion)])
      (.waits .nor (fun s => s.startNor f a n (imgDigest b)))

/-- The erase, the programming from the second read and the read-back are over. After a failure the NOR holds no image
(assumption 46). -/
def execNorProgramComplete (second : Option Bytes) (readback : Bool) (s : State) : Out :=
  match s.boot.norJob with
  | none => same s
  | some j =>
    when' s.hostWorks s <|
      let s : State := { s with boot := { s.boot with norJob := none } }
      match second with
      | none => s.endWaits WaitsOn.isNor stTimeout []
      | some b =>
        let b := slice b 0 j.len
        let good := readback && s.boot.norAnswers && imgDigest b == j.digest
        (if good then s.norWrite 0 b else s).endWaits WaitsOn.isNor (if good then stOk else stVersion) []

/-! ATTEST (15 R418, R419). -/

/-- XANIM (15 R419). -/
def State.xanimDigest (s : State) : Bytes :=
  sha256 ((List.range s.easelCount).flatMap (fun n => EngId.all.flatMap (fun e => (List.range 16).flatMap (fun j =>
    let y := (s.engine n e).studyAt j
    if s.hasEngine e && y.valid then slice y.digest 0 32 else zeros 32))))

/-- Bytes 0-511 of the report. -/
def State.report512 (s : State) (nonce : Bytes) : Bytes :=
  slice (toLE 4 0x54535441 ++ toLE 1 1 ++ toLE 1 s.dev.code ++ toLE 1 s.boot.cause ++ zeros 1 ++ toLE 8 s.boot.fuses.serial.toNat ++
    toLE 4 s.ident ++ toLE 4 s.gradeWord ++ toLE 8 s.clock.ftime.toNat ++ slice nonce 0 32 ++ slice s.boot.imageDigest 0 32 ++
    slice s.boot.tablesDigest 0 32 ++ sha256 (tableBytes s.formats) ++ s.xanimDigest ++ toLE 4 s.boot.fw.toNat ++ toLE 4 s.chainLen) 0 512

/-- The report with its signature and the chain. -/
def State.attestReport (s : State) (nonce : Bytes) : Bytes :=
  let r := s.report512 nonce
  let sig := Config.signature s.freeCtr (BitVec.ofNat 256 (be (sha256 r)))
  r ++ toBE 384 sig.toNat ++ s.chain

def execAttest (f : Nat) (s : State) : Out :=
  runCmd s f (· == 0x13) fun t s =>
    checked (s.common f t ++ [(t.haddr 8 % 64 != 0, stBadField)])
      (.done ((s.writeHost f (t.haddr 8) (s.attestReport (slice t.bytes 16 32))).draw 1) [])

end Sys2Proof.Machine
end

