-- ==== Sys2Proof/Machine/Intake.lean ====
section
/-!
DEFINITION. The Intake engine (05 R147-R149).
-/

namespace Sys2Proof.Machine

/-- The token of a received tile (05 R147). -/
def recvToken (a tile : Nat) : DWord := BitVec.ofNat 64 (a % 2 ^ 19 + tile * 2 ^ 32)

def execRecv (n : Nat) (w : IWord) (s : State) : Out :=
  issue s n .intake 0x40 w fun s g => legal w (fldD :: fldTray) (isPair (wD w) && isS (wA w)) <|
    let a := g.trayAddr w
    if s.unitBusy n .intake .rx then busyFault
    else match (s.easel n).stage with
      | [] => .fault cInstr stState
      | t :: rest =>
        let b := t.bytes.length
        if !trayOk a b then trayRange
        else
          let s := (s.modEasel n (fun x => { x with stage := rest })).occupy n .intake .rx (ceilDiv b 128)
          let s := s.after n .intake (2 + ceilDiv b 128) (.tray a t.bytes)
          let k := recvToken a (tTile t.bytes)
          .go ((s.after n .intake 1 (.sreg (wD w) (k.setWidth 32))).after n .intake 1 (.sreg (wD w + 1) ((k >>> 32).setWidth 32))) .seq

def execLoad (n : Nat) (w : IWord) (s : State) : Out :=
  issue s n .intake 0x41 w fun s g =>
    legal w (fldD :: fldTB :: fldSEM :: modT 1 :: fldTray) (isS (wD w) && isPair (tB w) && isS (wA w)) <|
      let a := g.trayAddr w
      let len := (g.s' (wD w)).toNat
      let m := (g.pair (tB w)).toNat
      if (s.easel n).outstanding true ≥ 8 then busyFault
      else if !trayOk a len then trayRange
      else if !lenOk len || m % 32 != 0 || !s.inRegions g.ctx m len then badField
      else .go (s.issueOp n g .load (tSEM w) (tMOD w == 1) a len (runPieces m a len) []) .seq

def execLoadCompletion (n id : Nat) (err : MemErr) (s : State) : Out := completeOp s n id .load err

def execGather (n : Nat) (w : IWord) (s : State) : Out :=
  issue s n .intake 0x42 w fun s g =>
    legal w (fldD :: fldTB :: fldSEM :: modT 4 :: fldTray) (isS (wD w) && isS (tB w) && isS (wA w)) <|
      let a := g.trayAddr w
      let k := (g.s' (wD w)).toNat
      let b := s.binding (tMOD w)
      let d := g.sAddr (tB w)
      if (s.easel n).outstanding true ≥ 8 then busyFault
      else if !trayOk a (4 * k) || !trayOk d (k * b.rowBytes) then trayRange
      else
        let idx := (s.easel n).indices a k
        if b.st != 1 || idx.any (fun r => b.rows ≤ r) then badField
        else
          let todo := ((List.range k).zip idx).flatMap (fun p => runPieces (b.rowAddr p.2) (d + p.1 * b.rowBytes) b.rowBytes)
          .go (s.issueOp n g .gather (tSEM w) false d (k * b.rowBytes) todo []) .seq

def execGatherCompletion (n id : Nat) (err : MemErr) (s : State) : Out := completeOp s n id .gather err

end Sys2Proof.Machine
end

