-- ==== Sys2Proof/Machine/Order.lean ====
section
/-!
DEFINITION. The Order engine (05 R155, 04 R129, 02 R63).
-/

namespace Sys2Proof.Machine

/-- A record (05 R155): its 32 bytes. -/
def recKey (f : Fmt) (r : Bytes) : Val := f.value (leAt r 0 8)
def recRank (r : Bytes) : Nat := leAt r 8 4 % 2 ^ 20
def recIndex (r : Bytes) : Nat := leAt r 12 4

/-- The order of records: by key, then rank, then index (04 R129). -/
def recBefore (f : Fmt) (desc : Bool) (a b : Bytes) : Bool :=
  match keyCmp desc (recKey f a) (recKey f b) with
  | .lt => true
  | .gt => false
  | .eq => decide (recRank a < recRank b) || (recRank a == recRank b && decide (recIndex a < recIndex b))

/-- Two sorted runs merged, `k` records at most; of two records that neither order puts first, the first run's stands first.
Runs that are not sorted are merged by their heads (DESIGN CHOICE, assumption 63). -/
def mergeRuns (before : Bytes → Bytes → Bool) : Nat → List Bytes → List Bytes → List Bytes
  | 0, _, _ => []
  | _ + 1, [], ys => ys
  | _ + 1, xs, [] => xs
  | k + 1, x :: xs, y :: ys =>
    if before y x then y :: mergeRuns before k (x :: xs) ys else x :: mergeRuns before k xs (y :: ys)

/-- Records in the Tray. -/
def Easel.records (x : Easel) (a k : Nat) : List Bytes := (List.range k).map (fun i => x.read (a + 32 * i) 32)

/-- The areas of an Order instruction (05 R155): the output is disjoint from every input area, or starts where one input area
starts and every other input area is disjoint from it or inside it. -/
def areasOk (out len : Nat) (ins : List (Nat × Nat)) : Bool :=
  ins.all (fun p => !overlap out len p.1 p.2) ||
    ins.any (fun p => p.1 == out) && ins.all (fun p => p.1 == out || !overlap out len p.1 p.2 ||
      (decide (out ≤ p.1) && decide (p.1 + p.2 ≤ out + len)))

/-- A key format (05 R155): any but a block-scaled one. -/
def State.keyFmt (s : State) (code : Nat) : Option Fmt :=
  match fmtOf s.formats code with
  | some f => if f.block then none else some f
  | none => none

/-- An Order instruction whose counts pass (a count or a k out of range is reported before an area past the Tray: DESIGN CHOICE,
assumption 74): its inputs, its output and how long it takes. -/
def orderOp (s : State) (n : Nat) (lat out outLen : Nat) (ins : List (Nat × Nat)) (res : List Bytes) : Res :=
  if !trayOk out (32 * outLen) || !ins.all (fun p => trayOk p.1 (32 * p.2)) then trayRange
  else if !areasOk out (32 * outLen) (ins.map (fun p => (p.1, 32 * p.2))) then badField
  else .go ((s.occupy n .order .order lat).after n .order lat (.tray out res.flatten)) .seq

/-- 05 R155; of the causes that meet, a bad count comes before an area past the Tray (DESIGN CHOICE, assumption 74). -/
def execSort (n : Nat) (w : IWord) (s : State) : Out :=
  issue s n .order 0x40 w fun s g =>
    legal w (fldD :: fldTB :: fldFMT :: modT 1 :: fldTray) (isS (wD w) && isS (tB w) && isS (wA w)) <|
      match s.keyFmt (tFMT w) with
      | none => illegal
      | some f =>
        let a := g.trayAddr w
        let k := (g.s' (tB w)).toNat
        if s.unitBusy n .order .order then busyFault
        else if k > 8192 then badField
        else orderOp s n (16 + ceilDiv k 8 * ceilLog2 k) (g.sAddr (wD w)) k [(a, k)]
          (insertSort (recBefore f (tMOD w == 1)) ((s.easel n).records a k))

/-- 05 R155; of the causes that meet, a bad count comes before an area past the Tray (DESIGN CHOICE, assumption 74). -/
def execMerge (n : Nat) (w : IWord) (s : State) : Out :=
  issue s n .order 0x41 w fun s g =>
    legal w (fldD :: fldTB :: fldFMT :: modT 1 :: fldTray) (isS (wD w) && isS (tB w) && isS (tB w + 1) && isS (tB w + 2) && isS (wA w)) <|
      match s.keyFmt (tFMT w) with
      | none => illegal
      | some f =>
        let a := g.trayAddr w
        let k := (g.s' (tB w)).toNat
        let k2 := (g.s' (tB w + 1)).toNat
        let b := g.sAddr (tB w + 2)
        if s.unitBusy n .order .order then busyFault
        else if k + k2 > 8192 then badField
        else orderOp s n (8 + ceilDiv (k + k2) 8) (g.sAddr (wD w)) (k + k2) [(a, k), (b, k2)]
          (mergeRuns (recBefore f (tMOD w == 1)) (k + k2) ((s.easel n).records a k) ((s.easel n).records b k2))

/-- 05 R155; of the causes that meet, a bad count comes before an area past the Tray (DESIGN CHOICE, assumption 74). -/
def execTopk (n : Nat) (w : IWord) (s : State) : Out :=
  issue s n .order 0x42 w fun s g =>
    legal w (fldD :: fldTB :: fldFMT :: modT 1 :: fldTray) (isS (wD w) && isS (tB w) && isS (tB w + 1) && isS (wA w)) <|
      match s.keyFmt (tFMT w) with
      | none => illegal
      | some f =>
        let a := g.trayAddr w
        let m := (g.s' (tB w)).toNat
        let k := (g.s' (tB w + 1)).toNat
        if s.unitBusy n .order .order then busyFault
        else if m > 8192 || k = 0 || k > min m 1024 then badField
        else orderOp s n (16 + ceilDiv m 8 * (1 + ceilLog2 k)) (g.sAddr (wD w)) k [(a, m)]
          ((insertSort (recBefore f (tMOD w == 1)) ((s.easel n).records a m)).take k)

end Sys2Proof.Machine
end

