-- ==== Sys2Proof/Machine/Xau.lean ====
section
/-!
DEFINITION. Tile consumption (06 R174, R175) and the exact and scale instructions of the Blend engine (05 R152-R154).
-/

namespace Sys2Proof.Machine

/-- The outcome of the checks at a point of consumption (06 R175). -/
inductive Use where
  | ok (b : Bytes) (t : Tile)
  | check
  | field
  | sparse
deriving DecidableEq, Repr

/-- The checks of 06 R175 on the tile at Tray address `a`, whose header lies in the Tray. `need` is the FMT it must have. -/
def consume (tbl : Tab DWord) (x : Easel) (a : Nat) (need : Option Nat) : Use :=
  let l := tLength (x.read a 32)
  if l < 1 ∨ 257 < l ∨ Config.trayBytes < a + 32 * l then .check
  else
    let b := x.read a (32 * l)
    if !tileCheckOk b then .check
    else match tileFields tbl b with
      | none => .field
      | some f =>
        if need.any (fun c => c != tFormat b) then .field
        else match tileElems f b with
          | none => .sparse
          | some t => .ok b t

/-- A tile that fails at a point of use: what lands in the last cycle of the occupancy. -/
def State.failUse (s : State) (n : Nat) (e : EngId) (g : Engine) (a occ : Nat) (u : Use) : State :=
  let h := (s.easel n).read a 32
  let sv := g.serves
  let l := match u with
    | .check => Landing.checkFail 3 (tTile h) (tChunk h) (tCheck h) sv.1 sv.2 g.key
    | .sparse => .sparseFail (tTile h) (tCheck h) sv.1 sv.2
    | _ => .fieldFault g.pc
  s.after n e (occ - 1) l

/-- Valid scale bytes of a block-scaled tile (02 R40). -/
def scalesOk (f : Fmt) (l : List Nat) : Bool := !f.block || l.all f.scaleOk

/-- The occupancy of XADD (03 R72). -/
def xaddOcc (f : Fmt) : Nat := if f.width = 32 then 32 else if f.width = 16 then 16 else 8

def execXclr (n : Nat) (w : IWord) (s : State) : Out :=
  issue s n .blend 0x60 w fun s _ => legal w [fldD] (isK (wD w)) <|
    if s.unitBusy n .blend .xau then busyFault
    else .go ((s.occupy n .blend .xau 1).after n .blend 1 (.slot (wD w) {})) .seq

def execXadd (n : Nat) (w : IWord) (s : State) : Out :=
  issue s n .blend 0x61 w fun s g => legal w (fldD :: fldFMT :: fldTray) (isK (wD w) && isS (wA w)) <|
    match fmtOf s.formats (tFMT w) with
    | none => illegal
    | some f =>
      let a := g.trayAddr w
      let x := g.slot (wD w)
      if s.unitBusy n .blend .xau then busyFault
      else if !trayOk a 32 then trayRange
      else if f.width = 64 || x.count ≥ 2 ^ 32 then badField
      else
        let k := xaddOcc f
        let s := s.occupy n .blend .xau k
        match consume s.formats (s.easel n) a (some (tFMT w)) with
        | .ok _ t =>
          if !scalesOk f t.scales then .go (s.failUse n .blend g a k .field) .seq
          else
            let vs := elemVals f g.flush t.scales t.elems
            let r := x.intake (tFMT w) f.int (vs.map (·.1)) (orAll (vs.map (·.2)))
            .go ((s.after n .blend k (.slot (wD w) r.1)).raise n .blend k r.2) .seq
        | u => .go (s.failUse n .blend g a k u) .seq

/-- Whether a format code names an integer format. -/
def State.isInt (s : State) (code : Nat) : Bool :=
  match fmtOf s.formats code with
  | some f => f.int
  | none => false

/-- Every addend of the slot was an integer (03 R79). After XLD the image's FORMAT stands for those before it (DESIGN CHOICE, assumption 63). -/
def State.integerSum (s : State) (x : Slot) : Bool := s.isInt x.fmt.toNat && !x.float

def execXrnd (n : Nat) (w : IWord) (s : State) : Out :=
  issue s n .blend 0x62 w fun s g =>
    legal w (fldD :: fldTB :: fldFMT :: modT 2 :: fldTray) (isK (wD w) && isS (tB w) && isS (wA w)) <|
      match fmtOf s.formats (tFMT w) with
      | none => illegal
      | some f =>
        let a := g.trayAddr w
        let x := g.slot (wD w)
        let transit := fld (tMOD w) 0 1 = 1
        let scaled := transit && f.block
        let ca := g.sAddr (tB w + 1)
        let cands := ((s.easel n).read ca 32).map (·.toNat)
        if scaled && !isS (tB w + 2) then illegal
        else if s.unitBusy n .blend .xau then busyFault
        else if !trayOk a (denseSize f) || (scaled && !trayOk ca 32) then trayRange
        else if f.width = 64 then badField
        else if !transit && g.rmode.toNat ≥ 4 && !f.stochastic then badField
        else if scaled && !cands.all f.scaleOk then badField
        else
          let num := (g.s' (tB w)).toNat
          let ints := s.integerSum x && f.int
          let ctl : RoundCtl := if transit then transitCtl g.flush ints
            else { mode := g.rmode.toNat, flush := g.flush, ints, r := g.srOf s.freeCtr (1024 * num) }
          let vals := x.all.map (Lane.val (!transit && g.rdn))
          let r := roundSum f ctl 0 (if scaled then some cands else none) vals
          let promos := if scaled then r.2.2.2 else 0
          let count := if scaled then (g.s' (tB w + 2)).toNat + promos else 0
          let b := denseTile num g.chunk.toNat (tFMT w) f r.1 r.2.1 (b2n (count != 0)) (min count 0xFFFF)
          let sv := g.serves
          let s := if transit then s else s.stochDraw n .blend 1024
          let s := ((s.occupy n .blend .xau 16).after n .blend 20 (.tray a b)).raise n .blend 20 r.2.2.1
          let s := if promos = 0 then s else s.after n .blend 20 (.promos promos sv.1 sv.2 g.key)
          .go (if fld (tMOD w) 1 1 = 1 then s.after n .blend 20 (.slot (wD w) {}) else s) .seq

def execXcnt (n : Nat) (w : IWord) (s : State) : Out :=
  issue s n .blend 0x63 w fun s g => legal w [fldD, fldTB] (isK (wD w) && isS (tB w)) <|
    if s.unitBusy n .blend .xau then busyFault
    else
      let v := BitVec.ofNat 32 (min (g.slot (wD w)).count 0xFFFFFFFF)
      .go ((s.occupy n .blend .xau 1).after n .blend 1 (.sreg (tB w) v)) .seq

def execXst (n : Nat) (w : IWord) (s : State) : Out :=
  issue s n .blend 0x64 w fun s g => legal w (fldD :: fldTray) (isK (wD w) && isS (wA w)) <|
    let a := g.trayAddr w
    if s.unitBusy n .blend .xau then busyFault
    else if !trayOk a Config.imageBytes then trayRange
    else .go ((s.occupy n .blend .xau 193).after n .blend 195 (.tray a (imageOf (g.slot (wD w))))) .seq

def execXld (n : Nat) (w : IWord) (s : State) : Out :=
  issue s n .blend 0x65 w fun s g => legal w (fldD :: fldTray) (isK (wD w) && isS (wA w)) <|
    let a := g.trayAddr w
    if s.unitBusy n .blend .xau then busyFault
    else if !trayOk a Config.imageBytes then trayRange
    else
      let s := s.occupy n .blend .xau 97
      let sv := g.serves
      match slotOfImage ((s.easel n).read a Config.imageBytes) with
      | some x => .go (s.after n .blend 99 (.slot (wD w) x)) .seq
      | none => .go (s.after n .blend 96 (.checkFail 4 0 g.chunk.toNat 0 sv.1 sv.2 g.key)) .seq

/-- The scale byte that 02 R43 gives a block, raised by `up` and capped (05 R152 BSFIT). -/
def fitByte (f : Fmt) (up : Nat) (b : List Val) : Nat :=
  if nanBlock b then 0xFF else (min f.sMax (f.chooseScale b + up) + 127).toNat

/-- BSFIT. Under FLUSH a subnormal is read as zero; the row lists no flag, and none is raised (DESIGN CHOICE, assumption 62). -/
def execBsfit (n : Nat) (w : IWord) (s : State) : Out :=
  issue s n .blend 0x68 w fun s g => legal w (fldTB :: fldFMT :: modT 4 :: fldTray) (isS (tB w) && isS (wA w)) <|
    match fmtOf s.formats (tFMT w) with
    | none => illegal
    | some f =>
      let a := g.trayAddr w
      let d := g.sAddr (tB w)
      if s.unitBusy n .blend .scale then busyFault
      else if !trayOk a 32 || !trayOk d 32 then trayRange
      else if !f.block then badField
      else
        let s := s.occupy n .blend .scale 17
        match consume s.formats (s.easel n) a none with
        | .ok _ t =>
          if !scalesOk t.fmt t.scales then .go (s.failUse n .blend g a 17 .field) .seq
          else
            let vs := (elemVals t.fmt g.flush t.scales t.elems).map (·.1)
            let b := (pieces 32 32 vs).map (fun p => BitVec.ofNat 8 (fitByte f (tMOD w) p))
            .go (s.after n .blend 20 (.tray d b)) .seq
        | u => .go (s.failUse n .blend g a 17 u) .seq

/-- The bytewise maximum (05 R152 BSMAX). -/
def maxBytes (a b : Bytes) : Bytes := a.zipWith (fun x y => if x.toNat ≤ y.toNat then y else x) b

def execBsmax (n : Nat) (w : IWord) (s : State) : Out :=
  issue s n .blend 0x69 w fun s g => legal w (fldTB :: fldFMT :: modT 1 :: fldTray) (isS (tB w) && isS (wA w)) <|
    match fmtOf s.formats (tFMT w) with
    | none => illegal
    | some f =>
      let a := g.trayAddr w
      let d := g.sAddr (tB w)
      let old := (s.easel n).read d 32
      if s.unitBusy n .blend .scale then busyFault
      else if !trayOk a 32 || !trayOk d 32 then trayRange
      else if tMOD w = 1 then
        let src := (s.easel n).read a 32
        if f.block && !(src ++ old).all (fun b => f.scaleOk b.toNat) then badField
        else .go ((s.occupy n .blend .scale 1).after n .blend 2 (.tray d (maxBytes src old))) .seq
      else if !f.block then badField
      else
        let s := s.occupy n .blend .scale 17
        match consume s.formats (s.easel n) a (some (tFMT w)) with
        | .ok _ t =>
          if !scalesOk f (t.scales ++ old.map (·.toNat)) then .go (s.failUse n .blend g a 17 .field) .seq
          else .go (s.after n .blend 20 (.tray d (maxBytes (t.scales.map (BitVec.ofNat 8)) old))) .seq
        | u => .go (s.failUse n .blend g a 17 u) .seq

/-- The header fields of THDR (05 R153). -/
def headerField (h : Bytes) : Nat → Option Nat
  | 0 => some (tTile h)
  | 1 => some (tFormat h)
  | 2 => some (tForm h)
  | 3 => some (tPromo h)
  | 4 => some (if tForm h = fValidx then tCount h else 1024)
  | _ => none

def execThdr (n : Nat) (w : IWord) (s : State) : Out :=
  issue s n .blend 0x6A w fun s g => legal w (fldTB :: modT 3 :: fldTray) (isS (tB w) && isS (wA w)) <|
    let a := g.trayAddr w
    match headerField ((s.easel n).read a 32) (tMOD w) with
    | none => illegal
    | some v =>
      if !trayOk a 32 then trayRange
      else .go (s.after n .blend 2 (.sreg (tB w) (BitVec.ofNat 32 v))) .seq

end Sys2Proof.Machine
end

