-- ==== Sys2Proof/Machine/Mask.lean ====
section
/-!
DEFINITION. The Mask engine (05 R156, R446; 06 R172, R180, R181).
-/

namespace Sys2Proof.Machine

/-- A Mask instruction that makes a tile from a tile (06 R172): latency, and what it writes to the address in S[D]. -/
def reform (s : State) (n : Nat) (g : Engine) (w : IWord) (extra : Nat) (f : Bytes → Tile → Bytes) : Res :=
  let a := g.trayAddr w
  let d := g.sAddr (wD w)
  if s.unitBusy n .mask .mask then busyFault
  else if !trayOk a 32 || !trayOk d 32 then trayRange
  else
    match consume s.formats (s.easel n) a none with
    | .ok b t =>
      let out := f b t
      if !trayOk d out.length then trayRange
      else .go ((s.occupy n .mask .mask 32).after n .mask (32 + extra) (.tray d out)) .seq
    | u => .go ((s.occupy n .mask .mask 32).failUse n .mask g a 32 u) .seq

def execFsel (n : Nat) (w : IWord) (s : State) : Out :=
  issue s n .mask 0x40 w fun s g => legal w (fldD :: fldTray) (isS (wD w) && isS (wA w)) <| reform s n g w 8 smallestForm

def execDense (n : Nat) (w : IWord) (s : State) : Out :=
  issue s n .mask 0x41 w fun s g => legal w (fldD :: fldTray) (isS (wD w) && isS (wA w)) <| reform s n g w 4 asDense

def execCmpct (n : Nat) (w : IWord) (s : State) : Out :=
  issue s n .mask 0x42 w fun s g => legal w (fldD :: fldTB :: fldTray) (isS (wD w) && isS (tB w) && isS (wA w)) <|
    let m := g.sAddr (tB w)
    if !s.unitBusy n .mask .mask && !trayOk m 128 then trayRange
    else reform s n g w 8 (fun b t => compact b t (le ((s.easel n).read m 128)))

/-- A record's key in a relation to the reference key (05 R156 FILT). -/
def keyIn (rel : Nat) (o : Ordering) : Bool :=
  match rel with
  | 0 => o == .eq
  | 1 => o != .eq
  | 2 | 4 => o == .lt
  | _ => o != .lt

/-- 05 R155; of the causes that meet, a bad count comes before an area past the Tray (DESIGN CHOICE, assumption 74). -/
def execFilt (n : Nat) (w : IWord) (s : State) : Out :=
  issue s n .mask 0x43 w fun s g =>
    legal w (fldD :: fldTB :: fldFMT :: modT 3 :: fldTray)
        (isS (wD w) && isS (wD w + 1) && isS (tB w) && isS (tB w + 1) && isS (tB w + 2) && isS (wA w) && decide (tMOD w ≤ 5)) <|
      match s.keyFmt (tFMT w) with
      | none => illegal
      | some f =>
        let a := g.trayAddr w
        let d := g.sAddr (wD w)
        let k := (g.s' (tB w)).toNat
        let ref := f.value (g.pair (tB w + 1)).toNat
        if s.unitBusy n .mask .mask then busyFault
        else if k > 8192 then badField
        else
          let kept := ((s.easel n).records a k).filter (fun r => keyIn (tMOD w) (keyCmp false (recKey f r) ref))
          let occ := ceilDiv k 8
          if !trayOk a (32 * k) || !trayOk d (32 * kept.length) then trayRange
          else
            let s := (s.occupy n .mask .mask occ).after n .mask (occ + 4) (.tray d kept.flatten)
            .go (s.after n .mask (occ + 4) (.sreg (wD w + 1) (BitVec.ofNat 32 kept.length))) .seq

/-- The records of a tile (05 R156 RECS). -/
def tileRecords (t : Tile) (rank index : Nat) : Bytes :=
  ((List.range 1024).zipWith (fun i x => toLE 8 x ++ toLE 4 (rank % 2 ^ 20) ++ toLE 4 (index + i) ++ zeros 16) t.elems).flatten

def execRecs (n : Nat) (w : IWord) (s : State) : Out :=
  issue s n .mask 0x44 w fun s g =>
    legal w (fldD :: fldTB :: fldFMT :: fldTray) (isS (wD w) && isS (tB w) && isS (tB w + 1) && isS (wA w)) <|
      match s.keyFmt (tFMT w) with
      | none => illegal
      | some _ =>
        let a := g.trayAddr w
        let d := g.sAddr (wD w)
        if s.unitBusy n .mask .mask then busyFault
        else if !trayOk a 32 || !trayOk d 32768 then trayRange
        else
          let s := s.occupy n .mask .mask 128
          match consume s.formats (s.easel n) a (some (tFMT w)) with
          | .ok _ t => .go (s.after n .mask 132 (.tray d (tileRecords t (g.s' (tB w)).toNat (g.s' (tB w + 1)).toNat))) .seq
          | u => .go (s.failUse n .mask g a 128 u) .seq

def execTwrap (n : Nat) (w : IWord) (s : State) : Out :=
  issue s n .mask 0x45 w fun s g =>
    legal w (fldD :: fldTB :: fldFMT :: fldTray) (isS (wD w) && isS (tB w) && isS (wA w)) <|
      match fmtOf s.formats (tFMT w) with
      | none => illegal
      | some f =>
        let a := g.trayAddr w
        let d := g.sAddr (wD w)
        let raw := 128 * f.width
        let scales := if f.block then ((s.easel n).read (a + raw) 32).map (·.toNat) else []
        if s.unitBusy n .mask .mask then busyFault
        else if !trayOk a (raw + (if f.block then 32 else 0)) || !trayOk d (denseSize f) then trayRange
        else if !scalesOk f scales then badField
        else
          let elems := unpack f.width 1024 ((s.easel n).read a raw)
          let elems := if f.block then clearNanBlocks scales elems else elems
          let b := denseTile (g.s' (tB w)).toNat g.chunk.toNat (tFMT w) f elems scales 0 0
          .go ((s.occupy n .mask .mask 32).after n .mask 36 (.tray d b)) .seq

end Sys2Proof.Machine
end

