-- ==== Sys2Proof/Machine/MemoryEvents.lean ====
section
/-!
DEFINITION. Events of HBM (11 R311, R312, R326, R328) and of the Diary's flushes (15 R425, R426).
-/

namespace Sys2Proof.Machine

/-- HBM is up (15 R407, 12 R361). -/
def State.hbmUp (s : State) : Bool := s.aclk && s.dev == .running && !s.mem.lostHbm

/-! Channels. -/

/-- Uncorrected reads of a channel within the last second. -/
def Mem.recentUe (m : Mem) (now ch : Nat) : Nat := (m.ueTimes.filter (fun p => p.2 == ch && decide (now < p.1 + 1000 * Config.msAclk))).length

/-- A channel in service, a free spare, or a spare taking over. -/
def Mem.usable (m : Mem) (ch : Nat) : Bool := m.serves ch || m.isSpare ch || m.takeover.any (fun t => t.2.1 == ch)

/-- The causes of 11 R311 and R326 that this event stands for; a host's write is HBM_MAPOUT_WRITE. -/
def State.mapDue (s : State) (ch : Nat) : MapCause → Bool
  | .ueLimit => s.mem.ueLimit != 0 && decide (s.mem.ueLimit ≤ s.mem.recentUe s.now ch)
  | .interfaceFailed => true
  | .stackFailure => true
  | .hostWrite => false

def execRuntimeMapout (ch : Nat) (why : MapCause) (s : State) : Out :=
  onUnit (decide (ch < 128)) (when' (s.hbmUp && s.mem.usable ch && s.mapDue ch why) s (s.mapOut ch))

def execSpareTakeover (s : State) : Out :=
  match s.mem.takeover with
  | [] => same s
  | t :: _ => when' s.hbmUp s (s.tookOver t)

def execBackgroundScrub (err : MemErr) (s : State) : Out :=
  when' (s.hbmUp && !s.board.warmSeq) s (s.memErr err [])

/-! Low power (11 R328). -/

/-- Stack `h` has had no access for `t` ACLK. -/
def State.stackIdle (s : State) (h t : Nat) : Bool := decide (tget 0 s.mem.lastAccess h + t ≤ s.now)

def execHbmPowerDown (h : Nat) (s : State) : Out :=
  onUnit (decide (h < 4)) <|
    when' (s.hbmUp && tget 0 s.mem.powerSt h == 0 && s.stackIdle h 64) s
      { s with mem := { s.mem with powerSt := tset 0 s.mem.powerSt h 1 } }

def execHbmSelfRefreshEntry (h : Nat) (s : State) : Out :=
  onUnit (decide (h < 4)) <|
    when' (s.hbmUp && !s.mem.awake && tget 0 s.mem.powerSt h != 2 && s.stackIdle h (s.mem.idle * 128)) s
      { s with mem := { s.mem with powerSt := tset 0 s.mem.powerSt h 2 } }

/-! Flushes of the Diary. -/

/-- The header of the current flush as it ends: COMPLETE, unless the loss of a channel has marked it INCOMPLETE (11 R312). -/
def State.endHeader (s : State) (cause first count : Nat) : Bytes :=
  let d := s.diary
  let h := s.mem.read (spillAt d.slot) 64
  let good := leAt h 60 4 == crc32c (h.take 60)
  spillHeader (if good && leAt h 5 1 == 2 then 2 else 1) cause d.number first count (leAt h 20 8)

/-- The records that are left are copied and the header is closed; vector DIARY, ALERT bit 2. -/
def State.closeFlush (s : State) (cause head : Nat) : State :=
  let d := s.diary
  let (first, count) := flushRange d.written head
  let hdr := s.endHeader cause first count
  let s := (s.copyRecords first d.copied (count - d.copied)).putMem (spillAt d.slot) hdr
  (({ s with diary := { s.diary with busy := none } } : State).interruptAll 5).alertBit 2

/-- A flush that waited starts (15 R425). -/
def State.nextFlush (s : State) : State :=
  match s.diary.pendingCause with
  | some c => ({ s with diary := { s.diary with pendingCause := none } } : State).startFlush c
  | none => s

/-- A flush for `cause`, or the log MRAM in place of it when HBM is lost. -/
def State.flushFor (s : State) (cause : Nat) : State :=
  if s.mem.lostHbm then s.powerLog
  else if cause = 4 then s.easelFlush
  else s.startFlush cause

def execDiaryFlush (cause : Nat) (s : State) : Out :=
  when' (s.aclk && (s.dev == .running || s.dev == .grisaille) && decide (1 ≤ cause) && decide (cause ≤ 5)) s (s.flushFor cause)

end Sys2Proof.Machine
end

