-- ==== Sys2Proof/Machine/Outlet.lean ====
section
/-!
DEFINITION. The Outlet engine (05 R157), but for the tile's way out of the egress stage (07 R204, `Machine/Deliver.lean`).
-/

namespace Sys2Proof.Machine

def execSend (n : Nat) (w : IWord) (s : State) : Out :=
  issue s n .outlet 0x40 w fun s g => legal w (fldTB :: fldSEM :: fldTray) (isS (tB w) && isS (wA w)) <|
    let a := g.trayAddr w
    let l := tLength ((s.easel n).read a 32)
    let x := s.easel n
    if s.unitBusy n .outlet .tx then busyFault
    else if x.egress.length ≥ 8 then .fault cInstr stState
    else if !trayOk a 32 then trayRange
    else if l < 1 || l > 257 || a + 32 * l > Config.trayBytes then badField
    else
      let t : OutTile := { bytes := x.read a (32 * l), sel := g.s' (tB w), sem := tSEM w, ctx := g.serves.1, gen := g.serves.2,
                           chunk := g.key, test := g.test, pc := g.pc }
      .go ((s.modEasel n (fun x => { x with egress := x.egress ++ [t] })).occupy n .outlet .tx (ceilDiv (32 * l) 128)) .seq

def execStore (n : Nat) (w : IWord) (s : State) : Out :=
  issue s n .outlet 0x41 w fun s g =>
    legal w (fldD :: fldTB :: fldSEM :: fldTray) (isS (wD w) && isPair (tB w) && isS (wA w)) <|
      let a := g.trayAddr w
      let len := (g.s' (wD w)).toNat
      let m := (g.pair (tB w)).toNat
      if (s.easel n).outstanding false ≥ 8 then busyFault
      else if !trayOk a len then trayRange
      else if !lenOk len || m % 32 != 0 || !s.inRegions g.ctx m len then badField
      else
        let data := (runPieces m a len).map (fun p => (p.1, (s.easel n).read p.2 32))
        .go (s.issueOp n g .store (tSEM w) false a len [] data) .seq

def execStoreCompletion (n id : Nat) (s : State) : Out := completeOp s n id .store .clean

def execScatter (n : Nat) (w : IWord) (s : State) : Out :=
  issue s n .outlet 0x42 w fun s g =>
    legal w (fldD :: fldTB :: fldSEM :: modT 4 :: fldTray) (isS (wD w) && isS (tB w) && isS (tB w + 2) && isS (wA w)) <|
      let a := g.trayAddr w
      let k := (g.s' (wD w)).toNat
      let b := s.binding (tMOD w)
      let d := g.sAddr (tB w + 2)
      if (s.easel n).outstanding false ≥ 8 then busyFault
      else if !trayOk a (4 * k) || !trayOk d (k * b.rowBytes) then trayRange
      else
        let x := s.easel n
        let idx := x.indices a k
        if b.st != 1 || idx.any (fun r => b.rows ≤ r) then badField
        else
          let data := ((List.range k).zip idx).flatMap (fun p =>
            (runPieces (b.rowAddr p.2) (d + p.1 * b.rowBytes) b.rowBytes).map (fun q => (q.1, x.read q.2 32)))
          .go (s.issueOp n g .scatter (tSEM w) false a 0 [] data) .seq

def execScatterCompletion (n id : Nat) (err : MemErr) (s : State) : Out := completeOp s n id .scatter err

end Sys2Proof.Machine
end

