-- ==== Sys2Proof/Machine/Recovery.lean ====
section
/-!
DEFINITION. Recovery (12 R333-R342, R349-R354, R357-R361): fencing, rejoining, lost participants, re-runs, detectors, health and
expulsion, entry into Grisaille mode.
-/

namespace Sys2Proof.Machine

/-! Fields of a ROSTER message (12 R334). -/
def rmRank (b : Bytes) : Nat := leAt b 8 4 % 2 ^ 20
def rmEpoch (b : Bytes) : Nat := leAt b 12 4
def rmAddr (b : Bytes) : Nat := leAt b 16 3
def rmFirst (b : Bytes) : Nat := leAt b 20 4
def rmLast (b : Bytes) : Nat := leAt b 24 4
def rmHost (b : Bytes) : Nat := leAt b 28 3

/-- ACK (12 R335, R336): bytes 2-18 of the request, its RTYPE in AUX. -/
def ackMsg (status : Nat) (b : Bytes) : Bytes :=
  withCheck (toLE 1 0x0A ++ toLE 1 status ++ slice b 2 17 ++ zeros 12 ++ toLE 1 (leAt b 0 1) ++ zeros 28)

/-- A request is answered when it came from the authority (12 R336). -/
def State.ackTo (s : State) (src status : Nat) (b : Bytes) : State :=
  if keySw src then s else s.rosterTo src (ackMsg status b)

/-- The sender to which a forwarded message is not sent back (12 R340). -/
def skipOf (src : Nat) : Option Nat := if keySw src then some (keyAddr src) else none

/-! ALIVE (12 R333). -/

def execAlive (src : Nat) (s : State) : Out := onMessage src 6 1 s fun _ s => s

/-! FENCE (12 R339, R340). -/

/-- A message of the authority is noted as applied: a repeat of it changes nothing (12 R336). -/
def State.noteApplied (s : State) (c : Nat) (m : Nat × Nat × Nat × Nat) : State := s.modCtx c (fun x => { x with applied := x.applied ++ [m] })

/-- What answers a FENCE: none when it is to be applied. -/
def State.fenceAnswer (s : State) (c r epoch addr : Nat) : Option Nat :=
  let x := s.ctx c
  let k := x.rank r
  if x.live && x.applied.contains (2, r, epoch, addr) then some stOk
  else if !x.live || decide (x.rosterN ≤ r) || !s.isLocal x r then some stBadField
  else if k.epoch != epoch then some stSequence
  else if !k.live then some stOk
  else none

/-- A participant that is not the rank's home applies a change and passes it on. -/
def State.fenceAway (s : State) (c r epoch : Nat) (skip : Option Nat) : State :=
  let x := s.ctx c
  let k := x.rank r
  (s.setCtx c { x with roster := tput x.roster r { k with live := false, fenced := k.epoch } }).spread c skip (rankMsg 2 0 c r epoch 0)

def execFence (src : Nat) (s : State) : Out :=
  onMessage src 6 2 s fun a s =>
    let c := msgCtx a.body
    let r := rmRank a.body
    let ep := rmEpoch a.body
    s.notLost src c <|
      if keySw src then
        let x := s.ctx c
        if !x.live || decide (x.rosterN ≤ r) || (x.rank r).epoch != ep || !(x.rank r).live then s
        else if s.isLocal x r then s.fenceRank c r (skipOf src)
        else s.fenceAway c r ep (skipOf src)
      else match s.fenceAnswer c r ep (rmAddr a.body) with
        | some st => s.ackTo src st a.body
        | none => ((s.fenceRank c r none).noteApplied c (2, r, ep, rmAddr a.body)).ackTo src stOk a.body

/-! REJOIN (12 R339, R340, R349, R350). -/

/-- Epoch `b` is newer than `a` (12 R337). -/
def newerEpoch (a b : Nat) : Bool := decide (1 ≤ dist32 a b) && decide (dist32 a b < 2 ^ 31)

/-- What answers a REJOIN: none when it is to be applied. -/
def State.rejoinAnswer (s : State) (c r epoch addr : Nat) : Option Nat :=
  let x := s.ctx c
  let k := x.rank r
  if x.live && x.applied.contains (4, r, epoch, addr) then some stOk
  else if !x.live || decide (x.rosterN ≤ r) || !s.isLocal x r then some stBadField
  else if k.joined && k.epoch == epoch && k.endpoint == addr then some stOk
  else lowest [(x.roster.any (fun q => q.1 != r && decide (q.1 < x.rosterN) && q.2.endpoint == addr), stBadField),
    (!newerEpoch k.epoch epoch, stSequence)]

/-- Chunks whose results the rank is owed, or had been sent to its old endpoint (12 R349). -/
def Ctx.owedChunks (x : Ctx) (y : Gen) (r : Nat) : List Nat :=
  ((y.owing.filter (fun p => p.2 == r)).map (·.1) ++ (y.delivered.filter (fun p => p.2 == r)).map (fun p => p.1 >>> x.ctLog2)).eraseDups

def State.rejoinReruns (s : State) (c r : Nat) : State :=
  let x := s.ctx c
  x.gens.foldl (fun s y =>
    if y.failed.isSome then s
    else (x.owedChunks y r).foldl (fun s ch => s.requestRerun c y.num ch ch) s) s

/-- Between the phases of a LOWRANK context the kept result goes to the new endpoint (12 R350). -/
def State.resendKept (s : State) (c addr : Nat) : State :=
  let x := s.ctx c
  match x.kept with
  | some (num, st, tiles) =>
    if st == stOk && num + 1 == x.gLow then
      tiles.foldl (fun s t => (s.accessRun false t.2.1 t.2.2).originate addr x.vc 0 x.tag (s.mem.read t.2.1 t.2.2)) s
    else s
  | none => s

/-- The rank's new epoch and endpoint (12 R339). -/
def State.setRank (s : State) (c r epoch addr : Nat) : State :=
  let x := s.ctx c
  s.setCtx c { x with roster := tput x.roster r { x.rank r with epoch, endpoint := addr, live := true, joined := true } }

/-- A home applies a REJOIN. -/
def State.rejoinHome (s : State) (c r epoch addr : Nat) (skip : Option Nat) : State :=
  let s := s.fenceRank c r none
  let s := s.setRank c r epoch addr
  let h := s.health
  let heard := if switchOf addr == s.fab.hereAddr then tput h.lastFrame (edgeOf addr) s.now else h.lastFrame
  let s : State := { s with health := { h with lastFrame := heard } }
  (((s.spread c skip (rankMsg 4 0 c r epoch addr)).resendKept c addr).rejoinReruns c r)

def execRejoin (src : Nat) (s : State) : Out :=
  onMessage src 6 4 s fun a s =>
    let c := msgCtx a.body
    let r := rmRank a.body
    let ep := rmEpoch a.body
    let addr := rmAddr a.body
    s.notLost src c <|
      if keySw src then
        let x := s.ctx c
        if !x.live || decide (x.rosterN ≤ r) || !newerEpoch (x.rank r).epoch ep then s
        else if s.isLocal x r then s.rejoinHome c r ep addr (skipOf src)
        else ((s.setRank c r ep addr).spread c (skipOf src) (rankMsg 4 0 c r ep addr)).rejoinReruns c r
      else match s.rejoinAnswer c r ep addr with
        | some st => s.ackTo src st a.body
        | none => ((s.rejoinHome c r ep addr none).noteApplied c (4, r, ep, addr)).ackTo src stOk a.body

/-! Lost participants (12 R352-R354). -/

/-- RESEND (12 R335) to the endpoints of the given ranks. -/
def State.resendAsk (s : State) (c : Nat) (num : Word) (ranks : List Nat) (reenter first last : Nat) : State :=
  let x := s.ctx c
  ranks.foldl (fun s r =>
    s.rosterTo (x.rank r).endpoint (rosterMsg 5 0 c num r 0 0 reenter first last 0 0)) s

/-- The last chunk of a generation, 0 where it has none. -/
def State.lastChunk (s : State) (c : Nat) (y : Gen) : Nat := s.chunkCount (s.ctx c) y - 1

/-- This switch takes over the position `a` when switch `gone` is lost (12 R354). -/
def State.takeOver (s : State) (c a gone st : Nat) : State :=
  let x := s.ctx c
  let ranks := x.ranksAt a
  let s := if st = stDegraded then s
    else (ranks.filter (fun r => switchOf (x.rank r).endpoint == gone)).foldl (fun s r => s.fenceRank c r none) s
  let x := s.ctx c
  let s := (ranks.filter x.reachable).foldl (fun s r => s.rosterTo (x.rank r).endpoint (lostMsg st c gone s.fab.hereAddr)) s
  x.gens.foldl (fun s y =>
    if y.failed.isSome then s
    else
      let s := (s.takeAccums c y.num).resendAsk c y.num (ranks.filter x.reachable) 1 0 (s.lastChunk c y)
      (s.requestRerun c y.num 0 (s.lastChunk c y)).pumpSummary c y.num) s

/-- Nodes held here whose parent is a lost node send their SUMMARY again, to its host, which may be this switch (assumption 43). -/
def State.resummarise (s : State) (c : Nat) (moved : List Nat) : State :=
  let g := s.geo (s.ctx c)
  let again := g.held.filter (fun a => (g.parent a).any moved.contains)
  if again.isEmpty then s
  else (s.ctx c).gens.foldl (fun s y =>
    if y.failed.isSome then s
    else (s.modGen c y.num (fun y => { y with summarised := y.summarised.filter (fun a => !again.contains a) })).pumpSummary c y.num) s

/-- A node gets the host `h`. -/
def Ctx.setHost (x : Ctx) (a : Nat) (h : Option Nat) : Ctx :=
  { x with lost := x.lost.filter (fun p => p.1 != a) ++ [(a, h)] }

/-- The positions that a lost switch hosted get hosts of their own. -/
def State.rehost (s : State) (c : Nat) : List Nat → State
  | [] => s
  | a :: l => (s.setCtx c ((s.ctx c).setHost a ((s.geo (s.ctx c)).hostFor a))).rehost c l

/-- Every generation of a context that cannot be hosted fails with STATE at the anchor, which tells the authority (12 R353). -/
def State.unhosted (s : State) (c a : Nat) : State :=
  let x := s.ctx c
  let g := s.geo x
  if g.held.contains g.anchor then
    (x.gens.foldl (fun s y => s.failGen c y.num stState) s).toAuthority (lostMsg stState c a 0)
  else s

/-- Switch `a` is lost for the context; `named` is the host that the authority chose, `rtype` the message passed on. -/
def State.applyLost (s : State) (c a : Nat) (named : Option Nat) (rtype st : Nat) (skip : Option Nat) : State :=
  let x := s.ctx c
  if a = s.fab.hereAddr then (s.failAll c stFenced).freeCtx c
  else
    let mine := (x.lost.filter (fun p => p.2 == some a)).map (·.1)
    let host := match named with
      | some h => some h
      | none => (s.geo x).hostFor a
    let s := (s.setCtx c (({ x with held := x.held.filter (fun h => h.sw != a) } : Ctx).setHost a host)).rehost c mine
    let s := s.freeHolds (x.held.filter (fun h => h.sw == a))
    let msg := lostMsg st c a (host.getD 0)
    let s := s.spread c skip (withCheck (toLE 1 rtype ++ slice msg 1 59))
    let moved := a :: mine
    let lost := (s.ctx c).lost
    let s := if moved.any (fun n => lost.contains (n, none)) then s.unhosted c a else s
    let s := (moved.filter (fun n => lost.contains (n, some s.fab.hereAddr))).foldl (fun s n => s.takeOver c n a st) s
    let s := if (s.ctx c).st == .ready then s.sendChecks c else s
    s.resummarise c moved

/-- Whether a node is a participant of a context that is live here. -/
def State.participant (s : State) (c a : Nat) : Bool := (s.ctx c).live && ((s.geo (s.ctx c)).participants).contains a

def execLost (src : Nat) (s : State) : Out :=
  onMessage src 6 7 s fun a s =>
    let c := msgCtx a.body
    let gone := rmAddr a.body
    s.notLost src c <|
      if !s.participant c gone || (s.ctx c).lost.any (fun p => p.1 == gone) then s
      else s.applyLost c gone none 7 (leAt a.body 1 1) (skipOf src)

/-- What answers a HOST: none when it is to be applied. -/
def State.hostAnswer (s : State) (c gone h : Nat) : Option Nat :=
  if (s.ctx c).live && (s.ctx c).applied.contains (8, gone, h, 0) then some stOk
  else if !s.participant c gone || !s.participant c h || h == gone || !(s.geo (s.ctx c)).mayHost gone h then some stBadField
  else if (s.ctx c).lost.contains (gone, some h) then some stOk
  else none

def execHost (src : Nat) (s : State) : Out :=
  onMessage src 6 8 s fun a s =>
    let c := msgCtx a.body
    let gone := rmAddr a.body
    let h := rmHost a.body
    s.notLost src c <|
      match s.hostAnswer c gone h with
      | some st => s.ackTo src st a.body
      | none => ((s.applyLost c gone (some h) 8 (leAt a.body 1 1) (skipOf src)).noteApplied c (8, gone, h, 0)).ackTo src stOk a.body

def execSwitchSilence (c : Nat) (sw : Nat) (s : State) : Out :=
  let x := s.ctx c
  let g := s.geo x
  let down := !(s.fab.portsThat (fun q => s.fab.neighbour q == some sw && !q.up)).isEmpty
  when' (s.computing && s.participant c sw && sw != s.fab.hereAddr && !x.lost.any (fun p => p.1 == sw) &&
      (down || (g.held.flatMap g.neighbours).contains sw) &&
      decide (tget 0 s.coll.heardSw sw + s.health.silenceMs * Config.msAclk ≤ s.now)) s <|
    let h := (g.hostFor sw).getD 0
    (s.applyLost c sw none 7 stOk none).toAuthority (lostMsg stOk c sw h)

/-! Re-runs (12 R351). -/

/-- An engine of Easel `n` serves a chunk of the range. -/
def Easel.servesRange (x : Easel) (c : Nat) (num : Word) (first last : Nat) : Bool :=
  x.eng.any (fun p => p.2.st != .idle && !p.2.test && p.2.ctx == c && p.2.gen == num &&
    decide (first ≤ p.2.chunk.toNat) && decide (p.2.chunk.toNat ≤ last))

/-- Start entries and tiles of the range leave Easel `n`; a tile in its egress stage goes nowhere. -/
def State.dropRange (s : State) (n c : Nat) (num : Word) (first last : Nat) : State :=
  let e := s.easel n
  let within := fun (k : Nat) => decide (first ≤ k % 2 ^ 32) && decide (k % 2 ^ 32 ≤ last)
  let mine := fun (t : InTile) => t.ctx == c && t.gen == num && within t.chunk
  let eng := e.eng.map (fun p => (p.1, { p.2 with startq := p.2.startq.filter (fun q =>
    !(q.ctx == c && q.gen == num && !q.test && within q.chunk.toNat)) }))
  let out := fun (t : OutTile) => t.ctx == c && t.gen == num && !t.test && within t.chunk
  let s := s.setEasel n { e with eng, stage := e.stage.filter (fun t => !mine t), waiting := e.waiting.filter (fun t => !mine t),
                                 egress := e.egress.map (fun t => if out t then { t with test := true } else t) }
  (e.waiting.filter mine).foldl (fun s t => s.freeEject t.src t.vc t.cells) s

/-- Partials of a chunk of the range that wait in the packet buffer are discarded (12 R351 step 2). -/
def State.dropPartials (s : State) (c : Nat) (num : Word) (within : Nat → Bool) : State :=
  let p := fun (a : Arrived) => a.ftype == 0 && keySw a.src && a.assoc == some (c, num, 0) && within (tTile a.body >>> (s.ctx c).ctLog2)
  (s.fab.inbox.filter p).foldl (fun s a => s.freeEject a.src a.vc a.cells) (s.setFab { s.fab with inbox := s.fab.inbox.filter (fun a => !p a) })

/-- The promotions of the chunks to be run again count no longer, at each position (13 R373). -/
def Gen.dropPromos (y : Gen) (within : Nat → Bool) : Tab PosNote :=
  y.notes.map (fun n => (n.1, { n.2 with promos := n.2.promos -
    ((y.chunks.filter (fun k => k.1 / 2 ^ 32 == n.1 && within (k.1 % 2 ^ 32))).map (·.2.promos)).sum }))

/-- A participant runs the chunks again (12 R351 steps 2-4): a Hairline generation in its accumulators, whose tiles come in ENTERs. -/
def State.applyRerun (s : State) (c : Nat) (num : Word) (first last : Nat) : State :=
  let x := s.ctx c
  match x.gen? num with
  | none => s
  | some y =>
    if y.failed.isSome then s
    else
      let within := fun (k : Nat) => decide (first ≤ k) && decide (k ≤ last)
      let s := (x.bound.filter (fun n => (s.easel n).servesRange c num first last)).foldl (fun s n => s.stopGroup n false) s
      let s := x.bound.foldl (fun s n => s.dropRange n c num first last) s
      let s := (s.dropStaged c num within).dropPartials c num within
      let s := s.modGen c num (fun y => { y with
        chunks := y.chunks.map (fun k => if within (k.1 % 2 ^ 32) then (k.1, { runs := k.2.runs }) else k),
        notes := y.dropPromos within,
        delivered := y.delivered.filter (fun d => !within (d.1 >>> x.ctLog2)),
        owing := y.owing.filter (fun d => !within d.1) })
      (s.clearAccums c num).resendAsk c num ((s.geo x).held.flatMap x.ranksAt) (b2n (y.path == .hairline)) first last

/-- RERUN to the children held elsewhere. -/
def State.rerunDown (s : State) (c : Nat) (body : Bytes) : State :=
  let g := s.geo (s.ctx c)
  ((g.held.flatMap g.children).filter (fun n => g.holder n != s.fab.hereAddr)).foldl (fun s n => s.rosterNode c n body) s

def execRerun (src : Nat) (s : State) : Out :=
  onMessage src 6 6 s fun a s =>
    let c := msgCtx a.body
    let num := msgGen a.body
    s.notLost src c <|
      let x := s.ctx c
      if !x.live then s
      else
        let g := s.geo x
        match g.up with
        | none => s.mergeRerun c num (rmFirst a.body) (rmLast a.body)
        | some p =>
          if keySw src && g.held.any (fun n => (g.parent n).any (fun q => g.holder q == keyAddr src)) then (s.rerunDown c a.body).applyRerun c num (rmFirst a.body) (rmLast a.body)
          else s.rosterNode c p a.body

def execRerunMerge (c : Nat) (g : Word) (s : State) : Out :=
  match s.coll.merges.find? (fun m => m.ctx == c && m.gen == g) with
  | none => same s
  | some m =>
    when' (s.computing && decide (m.since + 1250 ≤ s.now)) s <|
      let s : State := { s with coll := { s.coll with merges := s.coll.merges.filter (fun z => !(z.ctx == c && z.gen == g)) } }
      (s.rerunDown c (rosterMsg 6 0 c g 0 0 0 0 m.first m.last 0 0)).applyRerun c g m.first m.last

/-! The detector (12 R338). -/

/-- The endpoint is attached here and named by a local rank of a READY context. -/
def State.watched (s : State) (ep : Nat) : Bool :=
  switchOf ep == s.fab.hereAddr &&
    s.openCtxs.any (fun c => let x := s.ctx c
      x.st == .ready && x.roster.any (fun q => q.2.endpoint == ep && s.isLocal x q.1))

def execMemberSilent (ep : Nat) (s : State) : Out :=
  let h := s.health
  when' (s.fabricUp && h.detectMs != 0 && s.watched ep &&
      decide (tget 0 h.lastFrame (edgeOf ep) + h.detectMs * Config.msAclk ≤ s.now)) s (s.fenceEndpoint ep)

/-! Health and expulsion (12 R357, R358). -/

/-- 1 s in ACLK. -/
def secAclk : Nat := 1000 * Config.msAclk

def execHealthDecay (s : State) : Out :=
  let h := s.health
  when' (s.fabricUp && decide (h.decayAt + secAclk ≤ s.now)) s <|
    let score := (h.score.map (fun p => (p.1, p.2 - ceilDiv p.2 8))).filter (fun p => p.2 != 0)
    { s with health := { h with score, decayAt := s.now, impaired := h.impaired.filter (fun e => decide (h.clear ≤ tget 0 score e)) } }

/-- The IMPAIRED endpoint that is expelled when a token is free: the highest score, then the lowest index. -/
def Health.nextExpelled (h : Health) : Option Nat :=
  let l := h.impaired.filter (fun e => decide (h.limit ≤ tget 0 h.score e))
  (List.range 64).find? (fun e => l.contains e && l.all (fun i => decide (tget 0 h.score i ≤ tget 0 h.score e)))

def execExpelTokenAdd (s : State) : Out :=
  let h := s.health
  when' (s.fabricUp && decide (h.tokenAt + h.periodS * secAclk ≤ s.now)) s <|
    let s : State := { s with health := { h with tokenAt := s.now, tokens := min h.tokensMax (h.tokens + 1) } }
    match (if s.health.tokens = 0 then none else s.health.nextExpelled) with
    | some e => s.expel e
    | none => s

/-! Grisaille mode (12 R360). -/

def execGrisailleEntry (cause : GrisCause) (s : State) : Out := .next (s.enterGrisaille cause)

end Sys2Proof.Machine
end

