-- ==== Sys2Proof/Machine/Park.lean ====
section
/-!
DEFINITION. Parking in the Sketchbook (12 R343-R346).
-/

namespace Sys2Proof.Machine

def tagPark : Nat := 0xFF
def tagImage : Nat := 0xFE
def tagSkip : Nat := 0xFD

/-- A token of Iczal (04 R115, 12 R344). -/
def ownToken (tag tile : Nat) : DWord := BitVec.ofNat 64 (tag * 2 ^ 24 + tile % 2 ^ 32 * 2 ^ 32)

/-- A generation whose chunks park (12 R342): a reduction operation off the Hairline path. -/
def Ctx.parks (x : Ctx) (y : Gen) : Bool :=
  isSum x.op && y.path != .hairline && (y.path != .direct || x.op == 0xA) && y.failed.isNone && !x.replay

/-- Where the image of tile `t` lies. -/
def Ctx.imageAt (x : Ctx) (area t : Nat) : Nat := area + t % 2 ^ x.ctLog2 * Config.imageBytes

/-- A tile that the chunk expects, whole in the packet buffer and not yet taken: it may stand behind others of its flow. -/
def State.wholeHere (s : State) (c : Nat) (num : Word) (key : Nat) (p : Nat × Nat) : Bool :=
  s.fab.inbox.any (fun a => a.ftype == 0 && tTile a.body == p.1 &&
    (match (if keySw a.src then a.assoc.map (s.transit (keyAddr a.src) a.body) else (s.enterBehind a.src a.vc (s.fab.inbox.takeWhile (· != a))).map (s.contribution a.src a.body)) with
     | some (.place d g k from' _) => d == c && g == num && k == key && from' == p.2
     | _ => false))

/-- Some tile that the position's step expects for the chunk is not whole in the packet buffer (12 R343). -/
def State.missing (s : State) (c : Nat) (y : Gen) (key : Nat) : Bool :=
  let x := s.ctx c
  let g := s.geo x
  (s.expected x g y (g.node (key / 2 ^ 32)) (key % 2 ^ 32)).any (fun p =>
    !(y.chunk key).taken.contains p && !s.wholeHere c y.num key p)

/-- The Easels of the context that have received a tile of the chunk. -/
def Ctx.reached (x : Ctx) (k : Chunk) : List Nat := x.bound.filter (fun n => k.entered.any (fun p => x.easelOf p.1 == n))

def State.aheadOf (s : State) (n : Nat) (e : EngId) (l : List DWord) : State :=
  s.modEngine n e (fun g => { g with ahead := g.ahead ++ l })

/-- The chunk begins to park in its area (12 R345 steps 1 and 2). -/
def State.parkChunk (s : State) (c : Nat) (x : Ctx) (num : Word) (key : Nat) (k : Chunk) : State :=
  let who := (x.reached k).flatMap (fun n => (x.engines.filter (· != .intake)).map (fun e => (n, e)))
  let s := who.foldl (fun s p => s.aheadOf p.1 p.2 [ownToken tagPark (k.area / 64)]) s
  s.modGen c num (fun y => y.modChunk key (fun k => { k with parking := true, parkOf := who, stallAt := none }))

/-- The chunk's park area holds nothing that the context keeps (08 R227; assumption 69). -/
def Ctx.areaFree (x : Ctx) (k : Chunk) : Bool := x.op != 0xE || decide (k.area + x.areaBytes ≤ x.keptBase)

def execChunkStall (c : Nat) (g : Word) (k : Nat) (s : State) : Out :=
  let x := s.ctx c
  match x.gen? g with
  | none => same s
  | some y =>
    let z := y.chunk k
    when' (s.computing && x.parks y && x.areaFree z && !z.done && !z.parking && !z.parked && s.missing c y k &&
        z.stallAt.any (fun t => decide (t + s.health.hold ≤ s.now))) s (s.parkChunk c x g k z)

/-- No operation of the chunk is outstanding on an Easel. -/
def Easel.quietOf (x : Easel) (c : Nat) (num : Word) (key : Nat) : Bool :=
  !x.ops.any (fun o => o.ctx == c && o.gen == num && o.chunk == key)

def execChunkParked (c : Nat) (g : Word) (k : Nat) (s : State) : Out :=
  let x := s.ctx c
  match x.gen? g with
  | none => same s
  | some y =>
    let z := y.chunk k
    when' (s.computing && z.parking && z.parkOf.all (fun p => z.ended.contains p && (s.easel p.1).quietOf c g k)) s
      (s.modGen c g (fun y => y.modChunk k (fun z => { z with parking := false, parked := true })))

/-- The tokens that stand for the contributions already in a tile's image (12 R346). -/
def Ctx.imageTokens (x : Ctx) (area : Nat) (p : Nat × Nat) : List DWord :=
  if p.2 = 0 then [] else ownToken tagImage (x.imageAt area p.1 / 64) :: List.replicate (p.2 - 1) (ownToken tagSkip 0)

/-- The chunk resumes (12 R346): its start entries again, then the image tokens. -/
def State.resumeChunk (s : State) (c : Nat) (x : Ctx) (y : Gen) (key : Nat) (k : Chunk) : State :=
  let g := s.geo x
  let here := fun (n : Nat) => (s.tilesOn x g y (g.node (key / 2 ^ 32)) (key % 2 ^ 32) n).length
  let s := k.parkOf.foldl (fun s p => s.pushStart p.1 p.2 (s.entryOf x c p.1 y key (here p.1) p.2)) s
  let s := k.blended.foldl (fun s p => s.aheadOf (x.easelOf p.1) .blend (x.imageTokens k.area p)) s
  s.modGen c y.num (fun y => y.modChunk key (fun z =>
    { z with parked := false, parkOf := [], ended := z.ended.filter (fun p => p.2 == .intake) }))

def execChunkResume (c : Nat) (g : Word) (k : Nat) (s : State) : Out :=
  let x := s.ctx c
  match x.gen? g with
  | none => same s
  | some y =>
    let z := y.chunk k
    when' (s.computing && z.parked && !z.void && s.pushCycle && !s.missing c y k &&
        z.parkOf.all (fun p => (s.easel p.1).stopAt.isNone && s.startRoom p.1 p.2)) s
      ((s.resumeChunk c x y k z).wakeBound c)

end Sys2Proof.Machine
end

