-- ==== Sys2Proof/Machine/Resets.lean ====
section
/-!
DEFINITION. Resets of the host interface (14 R382, R383), of the core (11 R327; 15 R407, R408), the power sequencer (16 R434),
power failure (15 R428) and the end of a Diary flush (15 R425).
-/

namespace Sys2Proof.Machine

/-! Functions (14 R383). -/

/-- The registers and slots of a function at their reset values (14 R394, R404). Commands taken before go on; their completions are
not reported. -/
def Func.restart (x : Func) : Func :=
  { page := x.page, noted := x.noted, aer := x.aer, taken := x.taken.map (fun t => { t with quiet := true }) }

/-- What function `f` owns is aborted, released or torn down. -/
def State.dropOwned (s : State) (f : Nat) : State :=
  let s := (s.openCtxs.filter (fun c => (s.ctx c).owner == f)).foldl (fun s c => s.abortCtx c) s
  let s := (s.coll.bindings.filter (fun p => p.2.st != 0 && p.2.owner == f)).foldl (fun s p => s.setBinding p.1 { p.2 with st := 0 }) s
  ((s.fab.circuits.filter (fun p => p.2.orig && p.2.owner == f)).map (·.1)).foldl (fun s id => s.tearNow id) s

/-- A Function Level Reset. -/
def State.resetFunc (s : State) (f : Nat) : State :=
  ((s.modFunc f (fun x => { x with waits := [] })).dropOwned f).modFunc f Func.restart

def execFunctionLevelReset (f : Nat) (s : State) : Out :=
  onUnit (decide (f < 4)) (when' (s.aclk && s.presents f) s (s.resetFunc f))

/-- Every function is reset. -/
def State.resetFuncs (s : State) : State := (List.range 4).foldl (fun s f => s.resetFunc f) s

def State.setBoard (s : State) (b : Board) : State := { s with board := b }

def execPerst (s : State) : Out :=
  when' s.board.perst s
    (let s := s.setBoard { s.board with perst := false }
     if s.aclk then s.resetFuncs else s)

def execPerstRise (strap : Nat) (s : State) : Out :=
  when' (!s.board.perst) s
    (let s := s.setBoard { s.board with perst := true, bifStrap := strap % 4 }
     if strap % 4 = 3 && s.aclk then s.noteDev 382 0 0 [] else s)

/-! The core's resets (11 R327, 15 R408). -/

/-- Memory loses what a reset without KEPT loses (11 R327). -/
def Mem.forget (m : Mem) : Mem := { m with cells := [], kept := false }

/-- What HBM keeps over a warm reset with KEPT = 1: every byte outside the Sketchbook (11 R327). -/
def Mem.keep (m : Mem) : Mem :=
  { m with cells := m.cells.filter (fun p => decide (p.1 < m.sketchBase) || decide (m.paletteBase ≤ p.1)), kept := true }

/-- SYS_RST_L is low: the core resets and the device waits in AON (15 R408). -/
def State.coldReset (s : State) : State :=
  let s := ({ s with mem := s.mem.forget } : State).blank
  (s.setBoard { s.board with cold := true }).setDev .aon

def execSysRstLow (s : State) : Out :=
  when' s.board.sysRst s
    (let s := s.setBoard { s.board with sysRst := false }
     if s.dev == .off then s
     else
       let s := s.coldReset
       s.setBoard { s.board with trip := false, clock := true })

/-- The data that STORE and SCATTER have read reaches memory (11 R327 step 1). -/
def State.finishWrites (s : State) : State :=
  let s := s.easels.foldl (fun s p => p.2.ops.foldl (fun s o => o.data.foldl (fun s d => s.writePiece d) s) s) s
  { s with easels := s.easels.map (fun p => (p.1, { p.2 with ops := p.2.ops.map (fun o => { o with data := [] }) })) }

/-- Steps 3 and 4 of 11 R327: each stack enters self-refresh, and the core resets and enters BOOT; after a thermal emergency it waits
in AON (16 R440). A power-fail log in progress is completed first (assumption 54). -/
def State.warmEnd (s : State) : State :=
  let s := s.endLog
  let held := s.dev == .running || s.dev == .grisaille
  let kept := if held then !s.mem.excludePending && !s.board.warmSpoiled else s.mem.kept
  let asleep := s.mem.powerSt
  let s := ({ s with mem := if !kept then s.mem.forget else if held then s.mem.keep else s.mem } : State).blank
  let s : State := { s with mem := { s.mem with powerSt := if held then [(0, 2), (1, 2), (2, 2), (3, 2)] else asleep } }
  s.setDev (if s.board.coolHold then .aon else .boot)

/-- The sequence of 11 R327 begins: the writes in flight complete, and the Diary is flushed (15 R425). Where no HBM works, it ends
at once. PWR_FAIL_L that is low already spoils it as a fall in it does. -/
def State.warmStart (s : State) : State :=
  if s.dev == .hold || s.dev == .boot then s.warmEnd
  else if s.mem.lostHbm then s.powerLog.warmEnd
  else
    let s := s.finishWrites
    (s.setBoard { s.board with warmSeq := true, warmSpoiled := !s.board.pwrFail }).startFlush 5

def execWarmRst (s : State) : Out :=
  when' s.board.warmRst s
    (let s := s.setBoard { s.board with warmRst := false }
     if s.aclk && !s.board.warmSeq then s.warmStart else s)

def execWarmRstRise (s : State) : Out :=
  when' (!s.board.warmRst) s (s.setBoard { s.board with warmRst := true })

/-- A flush ends; in the sequence of a warm reset, the last one lets step 3 follow. -/
def execDiaryFlushComplete (s : State) : Out :=
  match s.diary.busy with
  | none => same s
  | some (cause, head) =>
    when' s.aclk s
      (let s := (s.closeFlush cause head).nextFlush
       if s.board.warmSeq && s.diary.busy.isNone then s.warmEnd else s)

/-! Power (15 R407, R408, R428; 16 R434). -/

/-- VDD_AON is lost: only the fuses, the NOR and the MRAM keep what they hold. -/
def State.powerLost (s : State) : State :=
  let z := State.reset
  let b := s.board
  { z with
    pending := s.pending, freeCtr := s.freeCtr, outs := s.outs, dev := .off,
    boot := { z.boot with fuses := s.boot.fuses, nor := s.boot.nor, mram := s.boot.mram, norAnswers := s.boot.norAnswers, logArmed := s.boot.logArmed,
                          reported := s.boot.reported, bootEntry := s.boot.bootEntry },
    board := { z.board with sysRst := b.sysRst, warmRst := b.warmRst, perst := b.perst, pwrFail := b.pwrFail, bifStrap := b.bifStrap,
                            rails := false, aon := false } }

def execVddAonLoss (s : State) : Out := when' (s.dev != .off) s s.powerLost

def execVddAonGood (addr : Nat) (s : State) : Out :=
  when' (s.dev == .off) s
    ((s.setBoard { s.board with aon := true, smbAddr := addr % 4 }).setDev .aon)

def execRailsInRange (s : State) : Out :=
  when' (s.dev == .aon && !s.board.rails) s (s.setBoard { s.board with rails := true })

def execRailFault (s : State) : Out :=
  when' (s.dev != .off && s.board.rails) s
    (let s := if s.dev == .aon then s else s.coldReset.alertBit 0
     s.setBoard { s.board with rails := false })

def execPwrFail (s : State) : Out :=
  when' s.board.pwrFail s
    (let s := s.setBoard { s.board with pwrFail := false, warmSpoiled := s.board.warmSpoiled || s.board.warmSeq }
     if s.aclk then
       let s := (s.noteDev 428 0 0 []).powerLog
       { s with boot := { s.boot with logArmed := false } }
     else s)

def execPwrFailRise (s : State) : Out :=
  when' (!s.board.pwrFail) s
    (let s := s.setBoard { s.board with pwrFail := true }
     { s with boot := { s.boot with logArmed := true } })

/-! The pins that Iczal drives (15 R431, 16 R440): true is high. -/

def State.alertL (s : State) : Bool := s.boot.alert == 0
def State.critL (s : State) : Bool := !(s.dev == .hold || s.dev == .grisaille || s.board.emergency)
def State.thermtripL (s : State) : Bool := !s.board.trip

end Sys2Proof.Machine
end

