-- ==== Sys2Proof/Machine/Power.lean ====
section
/-!
DEFINITION. BOOT (15 R409, R413-R415, R425-R428; 11 R309, R313), sensors, temperature limits and throttling (16 R438-R440).
-/

namespace Sys2Proof.Machine

/-! Sensors (16 R438): 0 core die, 1-8 Frame dies F0-F7, 9-12 stacks H0-H3. -/

def sensors : Nat := 13
def Board.temp (b : Board) (t : Nat) : Int := tget 0 b.temps t
def isDie (t : Nat) : Bool := decide (t < 9)
def Board.warnAt (b : Board) (t : Nat) : Int := if isDie t then b.limits.warnDie else b.limits.warnHbm
def Board.emergAt (b : Board) (t : Nat) : Int := if isDie t then b.limits.emergDie else b.limits.emergHbm
/-- The fixed trip limits (16 R440). -/
def tripAt (t : Nat) : Int := if isDie t then 120 * 256 else 110 * 256
/-- Every sensor reads below its warning limit (16 R440). -/
def Board.cool (b : Board) : Bool := (List.range sensors).all (fun t => decide (b.temp t < b.warnAt t))

/-! BOOT. -/

/-- The channels in service after a map build (11 R309): those that train and have no exclusion record. -/
def State.trained (s : State) (hbm : Nat) : List Nat := (List.range 128).filter (fun c => bitAt hbm c && !s.excluded c)

def maskOf (l : List Nat) : Nat := (l.map (2 ^ ·)).sum

/-- A map build (11 R309). -/
def State.buildMap (s : State) (hbm : Nat) : State :=
  let l := s.trained hbm
  let n := l.length - s.mem.sparesWanted
  { s with mem := { s.mem with logical := l.take n, inService := maskOf (l.take n), spares := maskOf (l.drop n), capacity := 2 * n,
                               failed := 0, excludePending := false },
           board := { s.board with cold := false } }

/-- HBM cannot hold the regions, or none of a stack's channels has trained (11 R313, 15 R409). -/
def State.hbmShort (s : State) : Bool :=
  decide (s.mem.hbmEnd < s.mem.poolBase) ||
    (List.range 4).any (fun h => fld s.mem.inService (32 * h) 32 + fld s.mem.spares (32 * h) 32 == 0)

/-- The header of spill slot `i` has a good CHECK; its NUMBER (15 R426). -/
def State.spillNumber (s : State) (i : Nat) : Option Nat :=
  let h := s.mem.read (spillAt i) 64
  if leAt h 0 4 == 0x52594944 && leAt h 60 4 == crc32c (h.take 60) then some (leAt h 8 4) else none

/-- The spill slot with the highest NUMBER. -/
def State.newestSpill (s : State) : Option (Nat × Nat) :=
  (List.range 16).foldl (fun (b : Option (Nat × Nat)) i => match b, s.spillNumber i with
    | some (j, m), some n => if m < n then some (i, n) else some (j, m)
    | none, some n => some (i, n)
    | b, none => b) none

/-- Where the flushes go on (15 R426). -/
def State.resumeSpill (s : State) : State :=
  match s.newestSpill with
  | some (i, n) => { s with diary := { s.diary with slot := i, number := n, started := true } }
  | none => s

/-- The captures that the capture region keeps, from `a` on (13 R375, R376). One whose header still reads WRITING was cut short by the
reset, and counts as TRUNCATED (assumption 48). -/
def State.findCaptures (s : State) : Nat → Nat → List Capture
  | 0, _ => []
  | k + 1, a =>
    let b := s.mem.read a 4096
    let st := leAt b 5 1
    if leAt b 0 4 == 0x56524E43 && leAt b 4092 4 == crc32c (b.take 4092) && decide (a < s.mem.sketchBase) then
      let len := min (capEnd b) (s.mem.sketchBase - a)
      { base := a, len, st := if st = 0 then 2 else st, ctx := leAt b 12 2 % 4096, gen := capGen b, first := capFirst b, last := capLast b,
        owner := 0, going := false } ::
        s.findCaptures k (a + len)
    else []

/-- What a reset with KEPT = 1 leaves in HBM is found again. -/
def State.recoverKept (s : State) : State :=
  if s.mem.kept then
    let s := s.resumeSpill
    { s with coll := { s.coll with captures := s.findCaptures s.mem.cells.length captureBase } }
  else s

/-- An MRAM header with a bad MAGIC or CHECK is rewritten with every area cleared (15 R427). -/
def State.checkMram (s : State) : State :=
  let h := s.mramRead 0 64
  if leAt h 0 4 == 0x4D524C51 && leAt h 60 4 == crc32c (h.take 60) then s
  else
    let s : State := { s with boot := { s.boot with mram := [], reported := 0, bootEntry := 0 } }
    (s.mramWrite 0 (mramHeader 0)).noteDev 427 0 0 []

/-- A power-fail log newer than the last one reported (15 R428). -/
def State.reportLog (s : State) : State :=
  match s.newestLog with
  | some (_, n) =>
    if s.boot.reported < n then
      ({ s with boot := { s.boot with reported := n } } : State).noteDev 428 1 0 [n]
    else s
  | none => s

/-- The entry of a failed BOOT in the boot log (15 R427; its fields' places: assumption 40). -/
def State.logBoot (s : State) (cause fw : Nat) : State :=
  let k := s.boot.bootEntry
  let s := s.mramWrite (0x40000 + 64 * k) (toLE 1 cause ++ zeros 3 ++ toLE 8 s.clock.ftime.toNat ++ toLE 4 fw ++ zeros 48)
  { s with boot := { s.boot with bootEntry := (k + 1) % 16 } }

/-- BOOT ends in HOLD (15 R415). -/
def State.bootFails (s : State) (cause fw : Nat) : State :=
  let s := (s.noteDev 415 0 stVersion [cause]).logBoot cause fw
  let s : State := { s with boot := { s.boot with cause, presented := true }, board := { s.board with limits := {} } }
  s.setDev .hold

/-- The image of the NOR: as much of it as its header calls for (15 R410, R411). -/
def State.norImage (s : State) : Bytes :=
  let h := s.norRead 0 64
  if leAt h 0 4 == 0x5A435A49 then s.norRead 0 (min identityBase (imgSigned h + 1024)) else h

/-- The fuse map names a grade, and enables as many Easels as that grade has (01 R19, 15 R415, assumption 3). -/
def Fuses.ok (u : Fuses) : Bool := u.readable && decide (u.grade < 3) && u.enabled.length == Config.gradeEasels u.grade

/-- Step 5 of 15 R409: the stacks leave self-refresh; the map is built where none stands or a channel waits for its exclusion; what HBM
keeps is found. -/
def State.bringUp (s : State) (hbm : Nat) : State :=
  let s : State := { s with mem := { s.mem with powerSt := [] } }
  let build := s.board.cold || s.mem.excludePending
  let s := if build then ({ s with mem := { s.mem with kept := false } } : State).buildMap hbm else s
  s.recoverKept

/-- Steps 5 to 8: the state is RUNNING, or GRISAILLE where HBM cannot hold the regions. -/
def State.bootEnds (s : State) (b : Bytes) (hbm : Nat) : State :=
  let s : State := { s with
    boot := { s.boot with cause := 0, fw := BitVec.ofNat 32 (imgFw b), imageDigest := imgDigest b, tablesDigest := tablesDigest b, presented := true },
    board := { s.board with limits := ((imgSection b 4).map thermalOf).getD {} } }
  let s := (s.bringUp hbm).setDev .running
  if s.hbmShort then s.loseHbm else s

/-- The sequence of 15 R409 in one step. -/
def State.bootUp (s : State) (hbm : Nat) : State :=
  let s := s.checkMram.reportLog
  let b := s.norImage
  if !s.boot.fuses.ok then s.bootFails 6 0
  else if !s.boot.norAnswers then s.bootFails 1 0
  else match s.imageFault s b with
    | some k => s.bootFails k (imgFw b)
    | none => ((s.loadTables b).getD s).bootEnds b hbm

def execBoot (hbm : Nat) (s : State) : Out :=
  let b := s.board
  let fromAon := s.dev == .aon && b.aon && b.rails && b.clock && (!b.coolHold || b.cool)
  let go := (s.dev == .boot && b.warmRst && b.clock) || fromAon
  when' go s ((s.setBoard { b with sysRst := true, coolHold := false }).bootUp hbm)

/-! Temperature limits (16 R440). -/

/-- A sensor's reading, and since when it has been at its emergency limit. -/
def Board.sense (b : Board) (now t : Nat) (x : Int) : Board :=
  { b with temps := tset 0 b.temps t x,
           hotSince := if x < b.emergAt t then tdel b.hotSince t
             else if (tget? b.hotSince t).isSome then b.hotSince else tput b.hotSince t now }

/-- The record of a sensor that has risen to its warning limit (event 0) or fallen below it (event 1): the source of a Frame die's sensor
is the die. -/
def State.noteSensor (s : State) (t ev : Nat) : State :=
  if 1 ≤ t ∧ t ≤ 8 then s.note 440 ev 7 (t - 1) 0 [] else s.noteDev 440 ev 0 []

def execThermalWarning (t : Nat) (x : Int) (s : State) : Out :=
  onUnit (decide (t < sensors)) <|
    let b := s.board
    let w := b.warned.contains t
    let rise := !w && decide (b.warnAt t ≤ x)
    let fall := w && decide (x ≤ b.warnAt t - 512)
    when' (s.aclk && (rise || fall)) s
      (let s := s.setBoard { (b.sense s.now t x) with warned := if rise then b.warned ++ [t] else b.warned.filter (· != t) }
       ((s.interruptAll 9).alertBit 1).noteSensor t (b2n fall))

def execThermalEmergency (t : Nat) (s : State) : Out :=
  onUnit (decide (t < sensors)) <|
    when' (s.aclk && (tget? s.board.hotSince t).any (fun a => decide (a + Config.msAclk ≤ s.now))) s
      ((s.setBoard { s.board with emergency := true, coolHold := true }).enterGrisaille .thermal)

def execThermtrip (t : Nat) (x : Int) (s : State) : Out :=
  onUnit (decide (t < sensors)) <|
    when' (s.dev != .off && decide (tripAt t ≤ x)) s
      (s.setBoard { s.board with temps := tset 0 s.board.temps t x, trip := true, clock := false })

/-! Throttling (16 R439). -/

/-- The hottest die sensor. -/
def Board.hottest (b : Board) : Int := (List.range 9).foldl (fun m t => max m (b.temp t)) (b.temp 0)

/-- The share that the curve allows, in 1/65,536. -/
def Board.curveShare (b : Board) : Nat :=
  match (b.limits.curve.filter (fun p => decide (p.1 ≤ b.hottest))).getLast? with
  | some p => (p.2 + 1) * 256
  | none => 65536

/-- The share for the next millisecond. -/
def Board.throttle (b : Board) : Board :=
  let c := b.curveShare
  let now' := if b.powerHeld then min b.share c else c
  if b.limits.pLimit < b.power then { b with share := now' - now' / 8, powerHeld := true }
  else if b.powerHeld && decide (b.power < b.limits.pLimit) then
    let up := min c (now' + ceilDiv now' 8)
    { b with share := up, powerHeld := decide (up < c) }
  else { b with share := now' }

/-- The 13 readings. -/
def Board.senseAll (b : Board) (now : Nat) (l : List Int) : Board :=
  (List.range sensors).foldl (fun b t => b.sense now t (l.getD t (b.temp t))) b

def execThrottleUpdate (temps : List Int) (power current : Nat) (s : State) : Out :=
  let b := s.board.senseAll s.now temps
  if s.aclk then
    when' (decide (b.throttleAt + Config.msAclk ≤ s.now)) s
      (let b := { b with power, current, throttleAt := s.now, emergency := b.emergency && !b.hotSince.isEmpty }
       s.setBoard b.throttle)
  else when' (s.dev == .aon) s (s.setBoard { s.board with temps := b.temps })

end Sys2Proof.Machine
end

