-- ==== Sys2Proof/Machine/Qos.lean ====
section
/-!
DEFINITION. Egress: eligibility, service modes, shapers and gates (10 R289-R303).
-/

namespace Sys2Proof.Machine

/-! Gates (10 R299-R303). -/

/-- The entry of a list in force `r` ACLK into its cycle: its OPEN bits and where it ends in the cycle. -/
def gateSpan : List (Nat × Nat) → Nat → Nat → Option (Nat × Nat)
  | [], _, _ => none
  | (o, d) :: l, at', r => if r < at' + d then some (o, at' + d) else gateSpan l (at' + d) r

/-- OPEN of the list in force at fabric time `t`, and the time at which it changes, if it does; none while every gate is open. -/
def GateList.spanAt (l : GateList) (t0 t : Nat) : Option (Nat × Nat) :=
  let es := (List.range l.len).map (fun i => tget (0, 0) l.ents i)
  let c := (es.map (·.2)).sum
  if c = 0 then none
  else
    let base := t0 + (t - t0) / c * c
    (gateSpan es 0 (t - base)).map (fun p => (p.1, base + p.2))

/-- Gate `v` stays open from fabric time `t` until the time `stop`, which counts 1/`u` ACLK (10 R302). -/
def gateStays (x : Port) (v u stop : Nat) : Nat → Nat → Bool
  | 0, _ => false
  | k + 1, t =>
    let swapped := x.gatePending && decide (x.armedAt.toNat ≤ t)
    let span := if swapped then x.inactive.spanAt x.armedAt.toNat t else x.list.spanAt x.t0 t
    let openTo : Option (Option Nat) := match span with
      | none => some none
      | some (o, till) => if bitAt o v then some (some till) else none
    match openTo with
    | none => false
    | some till =>
      let till := if x.gatePending && !swapped then some (match till with | some a => min a x.armedAt.toNat | none => x.armedAt.toNat) else till
      match till with
      | none => true
      | some a => if stop ≤ a * u then true else gateStays x v u stop k a

/-- The gate test of a frame of `n` flits on a port of `w` lanes: it lasts `n` × 12.8 / `w` ACLK. -/
def Port.gateOpen (x : Port) (v n w t : Nat) : Bool :=
  v == 1 || !x.gateEn || gateStays x v (10 * w) (t * (10 * w) + 128 * n) 512 t

def execGateEntryBoundary (port : Nat) (s : State) : Out :=
  let x := s.port port
  let t := s.clock.ftime.toNat
  onUnit (decide (port < 128)) <|
    when' (s.fabricUp && s.aclk && x.list.entryAt x.t0 t != x.entry) s (s.setPort port (x.refresh t))

def execGateSwitchOver (port : Nat) (s : State) : Out :=
  let x := s.port port
  onUnit (decide (port < 128)) <|
    when' (s.fabricUp && s.aclk && x.gatePending && decide (x.armedAt.toNat ≤ s.clock.ftime.toNat)) s <|
      s.setPort port ((x.switchOver false).refresh s.clock.ftime.toNat)

/-! Eligibility (10 R291, 09 R245, R259). -/

/-- Credit available for a class (09 R245). -/
def LPort.available (x : LPort) (c : Nat) : Nat := (tget 0 x.credit c + 2 ^ 16 - tget 0 x.sent c) % 2 ^ 16

def Port.shaped (x : Port) (v : Nat) : Bool := v != 1 && bitAt (tget 0 x.shapeCfg v).toNat 16
def Port.rate (x : Port) (v : Nat) : Nat := fld (tget 0 x.shapeCfg v).toNat 0 16

/-- The head of queue `v` of logical port `p` is eligible. -/
def State.eligible (s : State) (p v : Nat) : Bool :=
  let x := s.lport p
  let n := s.port (p / 8)
  match x.queue v with
  | [] => false
  | q :: _ =>
    let k := q.frame.flits
    x.up && decide (k + (if q.entry then (if v = 1 then 9 else 34) else 0) ≤ x.available q.frame.cls) &&
      decide (x.txBuf.length + k ≤ s.fab.replayRoom p) &&
      (v == 1 || ((!n.shaped v || decide (0 ≤ tget 0 x.shaper v)) && n.gateOpen v k (s.fab.lanes p) s.clock.ftime.toNat))

/-! Service (10 R290, R294, R295). -/

/-- Queues of the group in ascending VC, starting after `cur`. -/
def after (cur : Option Nat) (group : List Nat) : List Nat :=
  match cur with
  | none => group
  | some c => group.filter (c < ·) ++ group.filter (· ≤ c)

/-- One round of deficit round robin: the queue chosen, if any, with the deficits. -/
def drrRound (elig : Nat → Bool) (flits quantum : Nat → Nat) : List Nat → Tab Nat → Option Nat × Tab Nat
  | [], d => (none, d)
  | q :: l, d =>
    if elig q then
      let d := tset 0 d q (tget 0 d q + quantum q)
      if flits q ≤ tget 0 d q then (some q, d) else drrRound elig flits quantum l d
    else drrRound elig flits quantum l d

/-- Rounds until one chooses; a round raises every eligible deficit, and no frame has more than 34 flits. -/
def drrGo (elig : Nat → Bool) (flits quantum : Nat → Nat) (l : List Nat) : Nat → Tab Nat → Option Nat × Tab Nat
  | 0, d => (none, d)
  | k + 1, d => match drrRound elig flits quantum l d with
    | (some q, d) => (some q, d)
    | (none, d) => drrGo elig flits quantum l k d

/-- drr_pick of 10 R295: the queue chosen, cur, and the deficits. -/
def drrPick (elig : Nat → Bool) (flits quantum : Nat → Nat) (group : List Nat) (cur : Option Nat) (d : Tab Nat) : Option Nat × Option Nat × Tab Nat :=
  match cur.filter (fun c => group.contains c && elig c && decide (flits c ≤ tget 0 d c)) with
  | some c => (some c, cur, d)
  | none =>
    if group.any elig then
      let r := drrGo elig flits quantum (after cur group) 40 d
      (r.1, r.1.or cur, r.2)
    else (none, cur, d)

/-- The strict queues of a port, in order of priority. -/
def Port.strict (x : Port) : List Nat :=
  if bitAt x.sched.toNat 0 then [] else (List.range (fld x.sched.toNat 1 3)).map (fun i => fld x.sched.toNat (8 + 3 * i) 3)

/-- A decision: the queue chosen and the scheduler's state after it (10 R290, R294). -/
def State.decide' (s : State) (p : Nat) : Option Nat × LPort :=
  let x := s.lport p
  let n := s.port (p / 8)
  let flits := fun (v : Nat) => match x.queue v with | q :: _ => q.frame.flits | [] => 0
  if s.eligible p 1 then (some 1, x)
  else match n.strict.find? (s.eligible p) with
    | some v => (some v, x)
    | none =>
      let group := ([0, 2, 3, 4, 5, 6, 7] : List Nat).filter (fun v => !n.strict.contains v)
      let r := drrPick (s.eligible p) flits n.quantumOf group x.cur x.deficit
      let d := match r.1 with
        | some v => tset 0 r.2.2 v (tget 0 r.2.2 v - flits v)
        | none => r.2.2
      (r.1, { x with cur := r.2.1, deficit := d })

/-- The shapers of a port in one CCLK (10 R297 step 1). A credit that a write has set in this CCLK stands as it was set (R298). -/
def LPort.shape (x : LPort) (n : Port) : LPort :=
  { x with credited := [], shaper := ([0, 2, 3, 4, 5, 6, 7] : List Nat).foldl (fun t v =>
      if n.shaped v && !x.credited.contains v then tset 0 t v (min (tget 0 t v + (n.rate v : Int)) ((n.burstOf v * 16384 : Nat) : Int)) else t) x.shaper }

/-- The frame at the head of queue `v` starts. -/
def State.startFrame (s : State) (p v : Nat) : State :=
  let x := s.lport p
  let n := s.port (p / 8)
  match x.queue v with
  | [] => s
  | q :: rest =>
    let x := { x with queues := tset [] x.queues v rest,
                      deficit := if rest.isEmpty then tset 0 x.deficit v 0 else x.deficit,
                      shaper := if n.shaped v then tset 0 x.shaper v (tget 0 x.shaper v - ((q.frame.flits * 16384 : Nat) : Int)) else x.shaper }
    ((s.setLPort p x).commit p q).drain

/-- One CCLK of a logical port (10 R290, R297): its shapers run also while the port is not UP. -/
def execEgressDecision (p : Nat) (s : State) : Out :=
  onPort s p true <|
    let x := (s.lport p).shape (s.port (p / 8))
    if !x.up then s.setLPort p x
    else
    let x := { x with busy := x.busy - 125 * s.fab.lanes p }
    if x.busy != 0 then s.setLPort p x
    else
      let x := if x.clearDrr then { x with clearDrr := false, deficit := [], cur := none } else x
      let s := s.setLPort p x
      match s.decide' p with
      | (some v, x) => (s.setLPort p x).startFrame p v
      | (none, x) => s.setLPort p x

end Sys2Proof.Machine
end

