-- ==== Sys2Proof/Machine/Smbus.lean ====
section
/-!
DEFINITION. The SMBus target (15 R429-R431). A transfer that Iczal does not acknowledge, or does not answer, gives no bytes.
-/

namespace Sys2Proof.Machine

/-- The target runs in the AON domain: it answers in every state except OFF (15 R429). -/
def onBus (s : State) (go : State) : Out := when' (s.dev != .off) s go

def State.answer (s : State) (b : Bytes) : State := s.emit (.smb (some b))
def State.nack (s : State) : State := s.emit (.smb none)

/-- The 7-bit address (15 R429). -/
def State.smbAddress (s : State) : Nat := 0x58 + s.board.smbAddr

/-- A Block Read of command `code` (15 R429): the byte count, the data, and the PEC over the whole transfer. -/
def State.blockRead (s : State) (code : Nat) (b : Bytes) : State :=
  let body := toLE 1 b.length ++ b
  s.answer (body ++ toLE 1 (pec (toLE 1 (2 * s.smbAddress) ++ toLE 1 code ++ toLE 1 (2 * s.smbAddress + 1) ++ body)))

def execSmbState (s : State) : Out :=
  onBus s (s.blockRead 1 (toLE 1 s.dev.code ++ toLE 1 s.boot.cause ++ toLE 1 s.health.cause ++ toLE 1 (b2n (!s.board.pwrFail) + 2 * b2n s.mem.kept)))

def execSmbIdent (s : State) : Out :=
  onBus s (s.blockRead 2 (toLE 4 s.ident ++ toLE 4 s.gradeWord ++ toLE 8 s.boot.fuses.serial.toNat))

/-- A field that reads 0x8000 in AON (15 R430). -/
def State.sensed (s : State) (x : Int) : Bytes := toLE 2 (if s.dev == .aon then 0x8000 else (x % 65536).toNat)

def execSmbTemp (s : State) : Out :=
  onBus s (s.blockRead 3 ((List.range sensors).flatMap (fun t => s.sensed (s.board.temp t))))

def execSmbPower (s : State) : Out :=
  onBus s (s.blockRead 4 (s.sensed s.board.power ++ s.sensed s.board.current ++ zeros 4))

/-- ALERT bits cleared by a write of 1; one that is set in the cycle of the write stays (15 R431, 00 R8). -/
def State.clearAlert (s : State) (v : Nat) : State :=
  { s with boot := { s.boot with alert := BitVec.ofNat 6 (maskOf ((List.range 6).filter (fun b =>
      bitAt s.boot.alert.toNat b && (!bitAt v b || s.isHot 0 0 b)))) } }

def execSmbAlert (wr : Option (Word × Bool)) (s : State) : Out :=
  onBus s <| match wr with
    | none => s.blockRead 5 (toLE 4 s.boot.alert.toNat)
    | some (_, false) => s.nack
    | some (v, true) => (s.clearAlert v.toNat).answer []

/-- The record that a read of DIARY returns (15 R430). -/
def State.smbRecord (s : State) : Bytes :=
  let seq := (s.boot.smbSeq).getD (s.diary.head - 1).toNat
  let r := tget [] s.diary.recs (seq % 65536)
  if s.dev == .aon || r.isEmpty || leAt r 0 4 != seq then zeros 64 else slice r 0 64

def execSmbDiary (wr : Option (Word × Bool)) (s : State) : Out :=
  onBus s <| match wr with
    | none =>
      let b := s.smbRecord
      ({ s with boot := { s.boot with smbSeq := none } } : State).blockRead 6 b
    | some (_, false) => s.nack
    | some (q, true) => ({ s with boot := { s.boot with smbSeq := some q.toNat } } : State).answer []

/-- The bytes at an address that is no multiple of 64, or past the 2 MiB of the MRAM, are not stated (15 R427, R430): free. -/
def execSmbMramRead (wr : Option (Word × Bool)) (s : State) : Out :=
  onBus s <| match wr with
    | none =>
      let a := s.boot.smbMram
      if a % 64 = 0 ∧ a < 0x200000 then s.blockRead 7 (s.mramRead a 64)
      else
        let k := s.freeCtr
        (s.draw 64).blockRead 7 ((List.range 64).map (fun i => Config.anyByte (k + i)))
    | some (_, false) => s.nack
    | some (a, true) => ({ s with boot := { s.boot with smbMram := a.toNat } } : State).answer []

def execAlertResponse (s : State) : Out :=
  onBus s (if s.alertL then s.nack else s.answer [BitVec.ofNat 8 s.smbAddress])

end Sys2Proof.Machine
end

