-- ==== Sys2Proof/Machine/Transport.lean ====
section
/-!
DEFINITION. The transport of this switch as a source, and its timers (09 R271-R277).
-/

namespace Sys2Proof.Machine

/-! The source (09 R272, R275). -/

/-- Frames of a flow that wait at their source to be sent again, and those of them that a test keeps. -/
def State.keepAgain (s : State) (peer vc : Nat) (p : Frame → Bool) : State :=
  s.setFab { s.fab with outbox := s.fab.outbox.filter (fun o => !(o.dest == peer && o.vc == vc) || o.again.all p) }

/-- A retained frame as it waits to be placed again (10 R286). -/
def Kept.orig (k : Kept) (peer vc : Nat) : Orig :=
  { dest := peer, vc, ftype := k.frame.ftype, body := k.frame.body, bucket := 0, out := k.out, again := some k.frame }

/-- Every outstanding frame is sent again, from the oldest, before any frame of the flow that waits to leave for the first time. -/
def State.resendFlow (s : State) (peer vc : Nat) : State :=
  let fl := s.flow peer vc
  match fl.tx with
  | none => s
  | some t =>
    let s := s.setFlow { fl with idleAt := s.now, tx := some { t with kept := t.kept.map (fun k => { k with at' := s.now, resends := k.resends + 1 }) } }
    let s := s.keepAgain peer vc (fun _ => false)
    (s.setFab { s.fab with outbox := t.kept.map (fun k => k.orig peer vc) ++ s.fab.outbox }).drain

/-- The source side of a flow closes (09 R275); the frames it kept are given up. -/
def State.closeTx (s : State) (peer vc : Nat) : State :=
  let s := s.keepAgain peer vc (fun _ => false)
  let fl := s.flow peer vc
  if fl.rx.isSome then s.setFlow { fl with tx := none }
  else s.setFab { s.fab with flows := s.fab.flows.filter (fun x => !(x.peer == peer && x.vc == vc)) }

/-- A resend, or the give-up after MAX_RETX of them (09 R275). -/
def State.retransmit (s : State) (peer vc : Nat) : State :=
  match (s.flow? peer vc).bind (·.tx) with
  | none => s
  | some t => match t.kept with
    | [] => s
    | k :: _ =>
      if k.resends ≥ s.fab.maxRetx then (s.closeTx peer vc).sendTack peer 4 vc t.epoch k.frame.seq 0 0
      else s.resendFlow peer vc

/-! Acknowledgements received (09 R274). -/

/-- The oldest acknowledgement of `src`, when it is of this KIND: the flow's VC and the body. -/
def onTack (src kind : Nat) (s : State) (go : Nat → Bytes → State → State) : Out :=
  match pick (fun (a : Arrived) => a.src == src) s.fab.tacks with
  | none => same s
  | some (a, rest) =>
    when' (s.fabricUp && s.aclk && leAt a.body 0 1 == kind) s
      (go (leAt a.body 1 1 % 8) a.body ((s.setFab { s.fab with tacks := rest }).freeCells 0 a.cells))

/-- A frame is not before `seq`: an ACK of `seq` does not cover it (09 R272). -/
def notBefore (seq : Nat) (f : Frame) : Bool := let d := dist32 f.seq seq; d = 0 || decide (2 ^ 31 ≤ d)

/-- A TACK of the flow's epoch: the window it grants is in force (09 R273), and what an ACK covers is no longer kept (R272). -/
def State.covered (s : State) (src vc : Nat) (ack : Bool) (b : Bytes) : State :=
  let fl := s.flow src vc
  match fl.tx with
  | none => s
  | some t =>
    if leAt b 2 2 != t.epoch then s
    else
      let left := notBefore (leAt b 4 4)
      let kept := if ack then t.kept.filter (fun k => left k.frame) else t.kept
      let s := s.setFlow { fl with idleAt := s.now, tx := some { t with kept, window := some (leAt b 8 2) } }
      if ack then s.keepAgain src vc left else s

def execTackAck (src : Nat) (s : State) : Out := onTack src 0 s fun vc b s => (s.covered src vc true b).drain

/-- A NAK acknowledges nothing: every outstanding frame is sent again (09 R272, R275). -/
def execTackNak (src : Nat) (s : State) : Out :=
  onTack src 1 s fun vc b s =>
    if ((s.flow src vc).tx.map (·.epoch)) == some (leAt b 2 2) then ((s.covered src vc false b).retransmit src vc).drain else s

/-- RESET: a new epoch, the retained frames numbered again from 0, and sent (09 R272). -/
def renumber (epoch : Nat) : Nat → List Kept → List Kept
  | _, [] => []
  | q, k :: l => { k with frame := ((k.frame.put 128 32 q).put 160 16 epoch).sealed, resends := 0 } :: renumber epoch (q + 1) l

def execTackReset (src : Nat) (s : State) : Out :=
  onTack src 2 s fun vc b s =>
    let fl := s.flow src vc
    match fl.tx with
    | none => s
    | some t =>
      if leAt b 2 2 != t.epoch then s
      else
        let e := (t.epoch + 1) % 2 ^ 16
        (s.setFlow { fl with tx := some { t with epoch := e, seq := t.kept.length, kept := renumber e 0 t.kept, window := none } }).resendFlow src vc

/-- BUSY: the frames stay retained, and RTO sends them again (09 R271, R275). -/
def execTackBusy (src : Nat) (s : State) : Out := onTack src 3 s fun _ _ s => s

/-- Whether a rank's contribution to a generation is not whole here. Under FIRST_K the others' is not waited for (07 R188). -/
def State.rankMissing (s : State) (x : Ctx) (y : Gen) (r : Nat) : Bool :=
  !y.enters.any (fun e => e.rank == r) ||
    (s.amongFirst x y r && y.path != .hairline && (List.range (s.tileCount x y.ref.elements)).any (fun t =>
      s.contributes x y.ref r t && !y.chunks.any (fun k => k.2.taken.contains (t, r))))

/-- The nodes that send results to a rank or copies to node `a` (08 R220-R222; 07 R206). -/
def Ctx.resultFrom (x : Ctx) (g : Geo) (y : Gen) (a : Nat) : List Nat :=
  if spreads x.op then match y.path with
    | .ring => g.neighbours a ++ x.homes
    | _ => if a == g.anchor then (if x.op = 5 then [x.homeOf y.ref.root] else g.feeding a) else (g.parent a).toList
  else match y.path with
    | .ring => g.participants
    | .direct => if atRoot x.op then [x.homeOf y.ref.root] else x.homes
    | _ => [g.anchor]

/-- Whether a generation misses something that switch `sw` sends on `vc`: a summary or the verdict, a partial or a contribution of another
home, a copy or a result. -/
def State.switchMissing (s : State) (c : Nat) (x : Ctx) (y : Gen) (sw vc : Nat) : Bool :=
  let g := s.geo x
  let by' := fun (n : Nat) => g.holder n == sw
  let msgs := (g.held.flatMap g.feeding).any (fun k => by' k && !y.summaries.any (fun m => m.1 == k)) || (y.verdict.isNone && g.up.any by')
  let tiles := (List.range g.held.length).any (fun i =>
    (!s.resultsIn x y i && (x.resultFrom g y (g.node i)).any by') ||
      (if y.path == .hairline then
        (s.accum? c y.num i).any (fun a => hairSums x.op && (g.feeding (g.node i)).any (fun n => by' n && !a.got.contains (nodeKey n)))
      else (List.range (s.chunkCount x y)).any (fun ch =>
        let k := y.chunk (ch + 2 ^ 32 * i)
        !k.done && (s.expected x g y (g.node i) ch).any (fun p => decide (2 ^ 32 ≤ p.2) && by' (p.2 - 2 ^ 32) && !k.taken.contains p))))
  (vc == 0 && msgs) || (vc == x.vcOf y && tiles)

/-- Generations that wait for frames of a flow (09 R275): those that miss a contribution of the endpoint, or what the switch sends on that
VC. -/
def State.waitsFlow (s : State) (c : Nat) (y : Gen) (src vc : Nat) : Bool :=
  let x := s.ctx c
  y.failed.isNone &&
    (if keySw src then s.switchMissing c x y (keyAddr src) vc
     else vc == x.vcOf y && (x.roster.map (·.1)).any (fun r => (x.rank r).endpoint == src && s.isLocal x r && s.rankMissing x y r))

/-- The destination side of a flow closes: what an open span holds is freed. -/
def State.closeRx (s : State) (src vc : Nat) : State :=
  let s := s.setFab { s.fab with badFlows := s.fab.badFlows.filter (· != (src, vc)) }
  match (s.flow src vc).rx with
  | none => s
  | some r =>
    let s := r.span.foldl (fun (s : State) (g : Frame) => s.freeEject src vc g.flits) s
    let fl := s.flow src vc
    if fl.tx.isSome then s.setFlow { fl with rx := none }
    else s.setFab { s.fab with flows := s.fab.flows.filter (fun x => !(x.peer == src && x.vc == vc)) }

/-- GIVEUP: the flow closes, and the generations that wait for it fail (09 R275), also where no frame of the flow has been taken. One
of an earlier epoch than the flow's is out of date. -/
def execTackGiveup (src : Nat) (s : State) : Out :=
  onTack src 4 s fun vc b s =>
    if (s.flow src vc).rx.any (fun r => decide (leAt b 2 2 < r.epoch)) then s
    else
      let st := if s.fab.badFlows.contains (src, vc) then stTileCheck else stTimeout
      let s := s.closeRx src vc
      s.openCtxs.foldl (fun s c => (s.ctx c).gens.foldl (fun s y => if s.waitsFlow c y src vc then s.failGen c y.num st else s) s) s

/-! Timers. -/

def onFlow (s : State) (peer vc : Nat) (c : Flow → Bool) (go : State) : Out :=
  match s.flow? peer vc with
  | none => same s
  | some fl => when' (s.fabricUp && s.aclk && c fl) s go

def execRtoExpiry (peer vc : Nat) (s : State) : Out :=
  onFlow s peer vc (fun fl => match fl.tx.bind (·.kept.head?) with
    | some k => decide (k.at' + s.fab.rto ≤ s.now)
    | none => false) ((s.retransmit peer vc).drain)

/-- An ACK is sent within 2,048 ACLK of a delivery (09 R274). -/
def execAckSendTimer (peer vc : Nat) (s : State) : Out :=
  onFlow s peer vc (fun fl => fl.rx.any (fun r => decide (0 < r.unacked))) (s.ackFlow peer vc)

def execFlowIdleExpiry (peer vc : Nat) (s : State) : Out :=
  onFlow s peer vc (fun fl =>
      fl.tx.all (fun t => t.kept.isEmpty && t.held.isNone) && !s.fab.outbox.any (fun o => o.dest == peer && o.vc == vc) &&
        fl.rx.all (fun r => r.unacked == 0 && r.span.isEmpty && r.inUse == 0) && decide (fl.idleAt + s.fab.flowIdle * Config.msAclk ≤ s.now))
    ((s.setFab { s.fab with flows := s.fab.flows.filter (fun x => !(x.peer == peer && x.vc == vc)) }).drain)

/-- A span ends after at most 1,024 ACLK of idling (09 R277). -/
def execSpanIdleEnd (peer vc : Nat) (s : State) : Out :=
  onFlow s peer vc (fun fl => fl.tx.any (·.held.isSome)) (s.endSpan peer vc)

end Sys2Proof.Machine
end

