-- ==== Sys2Proof/Machine/Dispatch.lean ====
section
/-!
DEFINITION. The dispatch: one arm for each command.
-/

namespace Sys2Proof.Machine

def exec (i : Instr) (s : State) : Host.Outcome State Fault Refusal :=
  match i with
  | .nop n e w => Sys2Proof.Machine.execNop n e w s
  | .endStudy n e w => Sys2Proof.Machine.execEndStudy n e w s
  | .br n e w => Sys2Proof.Machine.execBr n e w s
  | .loop n e w => Sys2Proof.Machine.execLoop n e w s
  | .wait n e w => Sys2Proof.Machine.execWait n e w s
  | .signal n e w => Sys2Proof.Machine.execSignal n e w s
  | .push n e w => Sys2Proof.Machine.execPush n e w s
  | .take n e w => Sys2Proof.Machine.execTake n e w s
  | .cset n e w => Sys2Proof.Machine.execCset n e w s
  | .cadd n e w => Sys2Proof.Machine.execCadd n e w s
  | .cmov n e w => Sys2Proof.Machine.execCmov n e w s
  | .kset n e w => Sys2Proof.Machine.execKset n e w s
  | .smovi n e w => Sys2Proof.Machine.execSmovi n e w s
  | .salu n e w => Sys2Proof.Machine.execSalu n e w s
  | .saddi n e w => Sys2Proof.Machine.execSaddi n e w s
  | .smov n e w => Sys2Proof.Machine.execSmov n e w s
  | .mode n e w => Sys2Proof.Machine.execMode n e w s
  | .seed n e w => Sys2Proof.Machine.execSeed n e w s
  | .fclr n e w => Sys2Proof.Machine.execFclr n e w s
  | .easelReturnIdle n => Sys2Proof.Machine.execEaselReturnIdle n s
  | .semResolve n => Sys2Proof.Machine.execSemResolve n s
  | .tokenQueueResolve n => Sys2Proof.Machine.execTokenQueueResolve n s
  | .waitTimeout n e => Sys2Proof.Machine.execWaitTimeout n e s
  | .studySwitch n e => Sys2Proof.Machine.execStudySwitch n e s
  | .recv n w => Sys2Proof.Machine.execRecv n w s
  | .load n w => Sys2Proof.Machine.execLoad n w s
  | .loadCompletion n id err => Sys2Proof.Machine.execLoadCompletion n id err s
  | .gather n w => Sys2Proof.Machine.execGather n w s
  | .gatherCompletion n id err => Sys2Proof.Machine.execGatherCompletion n id err s
  | .vld n w => Sys2Proof.Machine.execVld n w s
  | .vst n w => Sys2Proof.Machine.execVst n w s
  | .vadd n w => Sys2Proof.Machine.execVadd n w s
  | .vsub n w => Sys2Proof.Machine.execVsub n w s
  | .vmul n w => Sys2Proof.Machine.execVmul n w s
  | .vfma n w => Sys2Proof.Machine.execVfma n w s
  | .vmin n w => Sys2Proof.Machine.execVmin n w s
  | .vmax n w => Sys2Proof.Machine.execVmax n w s
  | .vdiv n w => Sys2Proof.Machine.execVdiv n w s
  | .vsqrt n w => Sys2Proof.Machine.execVsqrt n w s
  | .vcvt n w => Sys2Proof.Machine.execVcvt n w s
  | .viadd n w => Sys2Proof.Machine.execViadd n w s
  | .visub n w => Sys2Proof.Machine.execVisub n w s
  | .xclr n w => Sys2Proof.Machine.execXclr n w s
  | .xadd n w => Sys2Proof.Machine.execXadd n w s
  | .xrnd n w => Sys2Proof.Machine.execXrnd n w s
  | .xcnt n w => Sys2Proof.Machine.execXcnt n w s
  | .xst n w => Sys2Proof.Machine.execXst n w s
  | .xld n w => Sys2Proof.Machine.execXld n w s
  | .bsfit n w => Sys2Proof.Machine.execBsfit n w s
  | .bsmax n w => Sys2Proof.Machine.execBsmax n w s
  | .thdr n w => Sys2Proof.Machine.execThdr n w s
  | .sort n w => Sys2Proof.Machine.execSort n w s
  | .merge n w => Sys2Proof.Machine.execMerge n w s
  | .topk n w => Sys2Proof.Machine.execTopk n w s
  | .fsel n w => Sys2Proof.Machine.execFsel n w s
  | .dense n w => Sys2Proof.Machine.execDense n w s
  | .cmpct n w => Sys2Proof.Machine.execCmpct n w s
  | .filt n w => Sys2Proof.Machine.execFilt n w s
  | .recs n w => Sys2Proof.Machine.execRecs n w s
  | .twrap n w => Sys2Proof.Machine.execTwrap n w s
  | .send n w => Sys2Proof.Machine.execSend n w s
  | .sendCompletion n => Sys2Proof.Machine.execSendCompletion n s
  | .store n w => Sys2Proof.Machine.execStore n w s
  | .storeCompletion n id => Sys2Proof.Machine.execStoreCompletion n id s
  | .scatter n w => Sys2Proof.Machine.execScatter n w s
  | .scatterCompletion n id err => Sys2Proof.Machine.execScatterCompletion n id err s
  | .easelLowPowerEntry n => Sys2Proof.Machine.execEaselLowPowerEntry n s
  | .easelWake n => Sys2Proof.Machine.execEaselWake n s
  | .easelCtrlWrite f n v => Sys2Proof.Machine.execEaselCtrlWrite f n v s
  | .ingressStagePlace n => Sys2Proof.Machine.execIngressStagePlace n s
  | .startEntryPush n => Sys2Proof.Machine.execStartEntryPush n s
  | .openCtx f => Sys2Proof.Machine.execOpenCtx f s
  | .reservationGranted => Sys2Proof.Machine.execReservationGranted s
  | .openWaitExpiry c => Sys2Proof.Machine.execOpenWaitExpiry c s
  | .roster f => Sys2Proof.Machine.execRoster f s
  | .commit f => Sys2Proof.Machine.execCommit f s
  | .close f => Sys2Proof.Machine.execClose f s
  | .abort f => Sys2Proof.Machine.execAbort f s
  | .cmdLoad f => Sys2Proof.Machine.execCmdLoad f s
  | .group f => Sys2Proof.Machine.execGroup f s
  | .start f => Sys2Proof.Machine.execStart f s
  | .bind f => Sys2Proof.Machine.execBind f s
  | .unbind f => Sys2Proof.Machine.execUnbind f s
  | .grant f => Sys2Proof.Machine.execGrant f s
  | .circuit f => Sys2Proof.Machine.execCircuit f s
  | .tear f => Sys2Proof.Machine.execTear f s
  | .capture f => Sys2Proof.Machine.execCapture f s
  | .captureClear f => Sys2Proof.Machine.execCaptureClear f s
  | .replay f => Sys2Proof.Machine.execReplay f s
  | .replayFinish => Sys2Proof.Machine.execReplayFinish s
  | .hbmRetry f => Sys2Proof.Machine.execHbmRetry f s
  | .assign f => Sys2Proof.Machine.execAssign f s
  | .attest f => Sys2Proof.Machine.execAttest f s
  | .imageWrite f => Sys2Proof.Machine.execImageWrite f s
  | .cmdNop f => Sys2Proof.Machine.execCmdNop f s
  | .commandTake f => Sys2Proof.Machine.execCommandTake f s
  | .retire f slot v => Sys2Proof.Machine.execRetire f slot v s
  | .ftimeLoRead f => Sys2Proof.Machine.execFtimeLoRead f s
  | .cmdNextLoRead f => Sys2Proof.Machine.execCmdNextLoRead f s
  | .registerWrite f off data poisoned => Sys2Proof.Machine.execRegisterWrite f off data poisoned s
  | .bar2Access f off len wr err poisoned => Sys2Proof.Machine.execBar2Access f off len wr err poisoned s
  | .hbmMapoutWrite f v => Sys2Proof.Machine.execHbmMapoutWrite f v s
  | .diaryCtrlFlush f v => Sys2Proof.Machine.execDiaryCtrlFlush f v s
  | .gateArm f port v => Sys2Proof.Machine.execGateArm f port v s
  | .shapeCfgWrite f port vc burst v => Sys2Proof.Machine.execShapeCfgWrite f port vc burst v s
  | .schedCfgWrite f port quantum v => Sys2Proof.Machine.execSchedCfgWrite f port quantum v s
  | .bufLimitWrite f port cls v => Sys2Proof.Machine.execBufLimitWrite f port cls v s
  | .routeEntryWrite f idx v => Sys2Proof.Machine.execRouteEntryWrite f idx v s
  | .groupEntryValidWrite f g v => Sys2Proof.Machine.execGroupEntryValidWrite f g v s
  | .portCfgWrite f port reg v => Sys2Proof.Machine.execPortCfgWrite f port reg v s
  | .gessoModeWrite f hi v => Sys2Proof.Machine.execGessoModeWrite f hi v s
  | .detCtrlWrite f v => Sys2Proof.Machine.execDetCtrlWrite f v s
  | .apertureWrite f v => Sys2Proof.Machine.execApertureWrite f v s
  | .enter src vc => Sys2Proof.Machine.execEnter src vc s
  | .enterWaitRelease c => Sys2Proof.Machine.execEnterWaitRelease c s
  | .hairlineEnter src => Sys2Proof.Machine.execHairlineEnter src s
  | .contributionTile src vc => Sys2Proof.Machine.execContributionTile src vc s
  | .genTimeout c g => Sys2Proof.Machine.execGenTimeout c g s
  | .chunkRetire c g k => Sys2Proof.Machine.execChunkRetire c g k s
  | .generationRetire c => Sys2Proof.Machine.execGenerationRetire c s
  | .stageCheck src => Sys2Proof.Machine.execStageCheck src s
  | .checkResendTimer c => Sys2Proof.Machine.execCheckResendTimer c s
  | .summary src => Sys2Proof.Machine.execSummary src s
  | .verdict src => Sys2Proof.Machine.execVerdict src s
  | .fail src => Sys2Proof.Machine.execFail src s
  | .poseRelease c g => Sys2Proof.Machine.execPoseRelease c g s
  | .linkDownTimer p => Sys2Proof.Machine.execLinkDownTimer p s
  | .trainingSuccess p => Sys2Proof.Machine.execTrainingSuccess p s
  | .trainingTimeout p => Sys2Proof.Machine.execTrainingTimeout p s
  | .helloSend p => Sys2Proof.Machine.execHelloSend p s
  | .linkUp p => Sys2Proof.Machine.execLinkUp p s
  | .linkFlitSend p => Sys2Proof.Machine.execLinkFlitSend p s
  | .linkFlit p flit => Sys2Proof.Machine.execLinkFlit p flit s
  | .dataFlit p flit => Sys2Proof.Machine.execDataFlit p flit s
  | .ackTimeoutResend p => Sys2Proof.Machine.execAckTimeoutResend p s
  | .linkDown p why => Sys2Proof.Machine.execLinkDown p why s
  | .timeMeasure p => Sys2Proof.Machine.execTimeMeasure p s
  | .fabricTimeTick => Sys2Proof.Machine.execFabricTimeTick s
  | .frameReceive p how => Sys2Proof.Machine.execFrameReceive p how s
  | .linkHoldExpiry p vc => Sys2Proof.Machine.execLinkHoldExpiry p vc s
  | .egressDecision p => Sys2Proof.Machine.execEgressDecision p s
  | .gateEntryBoundary port => Sys2Proof.Machine.execGateEntryBoundary port s
  | .gateSwitchOver port => Sys2Proof.Machine.execGateSwitchOver port s
  | .csetup p => Sys2Proof.Machine.execCsetup p s
  | .cready p => Sys2Proof.Machine.execCready p s
  | .cfail p => Sys2Proof.Machine.execCfail p s
  | .ctear p => Sys2Proof.Machine.execCtear p s
  | .cbroken p => Sys2Proof.Machine.execCbroken p s
  | .circuitTimeout id => Sys2Proof.Machine.execCircuitTimeout id s
  | .tackAck src => Sys2Proof.Machine.execTackAck src s
  | .tackNak src => Sys2Proof.Machine.execTackNak src s
  | .tackReset src => Sys2Proof.Machine.execTackReset src s
  | .tackBusy src => Sys2Proof.Machine.execTackBusy src s
  | .tackGiveup src => Sys2Proof.Machine.execTackGiveup src s
  | .rtoExpiry peer vc => Sys2Proof.Machine.execRtoExpiry peer vc s
  | .ackSendTimer peer vc => Sys2Proof.Machine.execAckSendTimer peer vc s
  | .flowIdleExpiry peer vc => Sys2Proof.Machine.execFlowIdleExpiry peer vc s
  | .spanIdleEnd peer vc => Sys2Proof.Machine.execSpanIdleEnd peer vc s
  | .alive src => Sys2Proof.Machine.execAlive src s
  | .fence src => Sys2Proof.Machine.execFence src s
  | .rejoin src => Sys2Proof.Machine.execRejoin src s
  | .host src => Sys2Proof.Machine.execHost src s
  | .lost src => Sys2Proof.Machine.execLost src s
  | .rerun src => Sys2Proof.Machine.execRerun src s
  | .rerunMerge c g => Sys2Proof.Machine.execRerunMerge c g s
  | .memberSilent ep => Sys2Proof.Machine.execMemberSilent ep s
  | .switchSilence c sw => Sys2Proof.Machine.execSwitchSilence c sw s
  | .chunkStall c g k => Sys2Proof.Machine.execChunkStall c g k s
  | .chunkParked c g k => Sys2Proof.Machine.execChunkParked c g k s
  | .chunkResume c g k => Sys2Proof.Machine.execChunkResume c g k s
  | .healthDecay => Sys2Proof.Machine.execHealthDecay s
  | .expelTokenAdd => Sys2Proof.Machine.execExpelTokenAdd s
  | .grisailleEntry cause => Sys2Proof.Machine.execGrisailleEntry cause s
  | .runtimeMapout ch why => Sys2Proof.Machine.execRuntimeMapout ch why s
  | .spareTakeover => Sys2Proof.Machine.execSpareTakeover s
  | .backgroundScrub err => Sys2Proof.Machine.execBackgroundScrub err s
  | .hbmPowerDown h => Sys2Proof.Machine.execHbmPowerDown h s
  | .hbmSelfRefreshEntry h => Sys2Proof.Machine.execHbmSelfRefreshEntry h s
  | .diaryFlush cause => Sys2Proof.Machine.execDiaryFlush cause s
  | .diaryFlushComplete => Sys2Proof.Machine.execDiaryFlushComplete s
  | .sysRstLow => Sys2Proof.Machine.execSysRstLow s
  | .boot hbm => Sys2Proof.Machine.execBoot hbm s
  | .warmRst => Sys2Proof.Machine.execWarmRst s
  | .vddAonLoss => Sys2Proof.Machine.execVddAonLoss s
  | .railFault => Sys2Proof.Machine.execRailFault s
  | .pwrFail => Sys2Proof.Machine.execPwrFail s
  | .perst => Sys2Proof.Machine.execPerst s
  | .functionLevelReset f => Sys2Proof.Machine.execFunctionLevelReset f s
  | .thermalWarning sensor t => Sys2Proof.Machine.execThermalWarning sensor t s
  | .thermalEmergency sensor => Sys2Proof.Machine.execThermalEmergency sensor s
  | .thermtrip sensor t => Sys2Proof.Machine.execThermtrip sensor t s
  | .throttleUpdate temps power current => Sys2Proof.Machine.execThrottleUpdate temps power current s
  | .smbState => Sys2Proof.Machine.execSmbState s
  | .smbIdent => Sys2Proof.Machine.execSmbIdent s
  | .smbTemp => Sys2Proof.Machine.execSmbTemp s
  | .smbPower => Sys2Proof.Machine.execSmbPower s
  | .smbAlert wr => Sys2Proof.Machine.execSmbAlert wr s
  | .smbDiary wr => Sys2Proof.Machine.execSmbDiary wr s
  | .smbMramRead wr => Sys2Proof.Machine.execSmbMramRead wr s
  | .alertResponse => Sys2Proof.Machine.execAlertResponse s
  | .vddAonGood addr => Sys2Proof.Machine.execVddAonGood addr s
  | .railsInRange => Sys2Proof.Machine.execRailsInRange s
  | .warmRstRise => Sys2Proof.Machine.execWarmRstRise s
  | .perstRise strap => Sys2Proof.Machine.execPerstRise strap s
  | .pwrFailRise => Sys2Proof.Machine.execPwrFailRise s
  | .hostReadCompletion f data => Sys2Proof.Machine.execHostReadCompletion f data s
  | .norProgramComplete second readback => Sys2Proof.Machine.execNorProgramComplete second readback s
  | .msixUnmask f vec => Sys2Proof.Machine.execMsixUnmask f vec s
  | .bar0AccessRefused f off len => Sys2Proof.Machine.execBar0AccessRefused f off len s

end Sys2Proof.Machine
end

