-- ==== Sys2Proof/Safety.lean ====
section
/-!
DEFINITION. What counts as a safe run: no step of it ends in a fault or a refusal.
-/

namespace Sys2Proof.Machine

/-- The step from `s` neither faults nor refuses. -/
def Safe (s : State) : Prop := ∃ t, step s = .next t

/-- `k` steps from `s` neither fault nor refuse. -/
def SafeFor : Nat → State → Prop
  | 0, _ => True
  | k + 1, s => ∃ t, step s = .next t ∧ SafeFor k t

end Sys2Proof.Machine
end

