-- ==== Sys2Proof/Certificates/Slice0/Obligations.lean ====
section
/-!
DEFINITION. The statements for the provers. A part of a statement is a definition under Sys2Proof.Claims.
-/

namespace Sys2Proof.Claims

open Sys2Proof.Machine

/-- The engine instructions: the Easel, the engine, the opcode, the bits below it and the fields that the row uses (05 R138-R157). -/
structure Row where
  n : Nat
  e : EngId
  op : Nat
  w : IWord
  used : Used
deriving DecidableEq, Repr

/-- The row of an engine instruction, from the encoding tables of 05 R138-R157. -/
def row : Instr → Option Row
  | .nop n e w => some ⟨n, e, 0x00, w, []⟩
  | .endStudy n e w => some ⟨n, e, 0x01, w, []⟩
  | .br n e w => some ⟨n, e, 0x02, w, [(54, 2), (52, 2), (0, 12)]⟩
  | .loop n e w => some ⟨n, e, 0x03, w, [(50, 2), (45, 5), (29, 16), (0, 12)]⟩
  | .wait n e w => some ⟨n, e, 0x04, w, [(51, 5), (43, 8)]⟩
  | .signal n e w => some ⟨n, e, 0x05, w, [(51, 5), (43, 8), (38, 2), (35, 3)]⟩
  | .push n e w => some ⟨n, e, 0x06, w, [(40, 3), (30, 4)]⟩
  | .take n e w => some ⟨n, e, 0x07, w, [(30, 4)]⟩
  | .cset n e w => some ⟨n, e, 0x08, w, [(51, 5), (0, 32)]⟩
  | .cadd n e w => some ⟨n, e, 0x09, w, [(51, 5), (0, 32)]⟩
  | .cmov n e w => some ⟨n, e, 0x0A, w, [(51, 5), (46, 5)]⟩
  | .kset n e w => some ⟨n, e, 0x0B, w, [(51, 5), (46, 5), (40, 6), (0, 16)]⟩
  | .smovi n e w => some ⟨n, e, 0x0C, w, [(51, 5), (0, 32)]⟩
  | .salu n e w => some ⟨n, e, 0x0D, w, [(51, 5), (46, 5), (41, 5), (16, 4)]⟩
  | .saddi n e w => some ⟨n, e, 0x0E, w, [(51, 5), (46, 5), (0, 32)]⟩
  | .smov n e w => some ⟨n, e, 0x0F, w, [(51, 5), (46, 5)]⟩
  | .mode n e w => some ⟨n, e, 0x10, w, [(0, 4)]⟩
  | .seed n e w => some ⟨n, e, 0x11, w, [(46, 5)]⟩
  | .fclr n e w => some ⟨n, e, 0x12, w, [(0, 7)]⟩
  | .recv n w => some ⟨n, .intake, 0x40, w, [(51, 5), (46, 5), (45, 1), (26, 19)]⟩
  | .load n w => some ⟨n, .intake, 0x41, w, [(51, 5), (16, 5), (11, 5), (0, 1), (46, 5), (45, 1), (26, 19)]⟩
  | .gather n w => some ⟨n, .intake, 0x42, w, [(51, 5), (16, 5), (11, 5), (0, 4), (46, 5), (45, 1), (26, 19)]⟩
  | .vld n w => some ⟨n, .blend, 0x40, w, [(51, 5), (21, 5), (46, 5), (45, 1), (26, 19)]⟩
  | .vst n w => some ⟨n, .blend, 0x41, w, [(51, 5), (21, 5), (46, 5), (45, 1), (26, 19)]⟩
  | .vadd n w => some ⟨n, .blend, 0x42, w, [(51, 5), (46, 5), (41, 5), (36, 5), (31, 5), (26, 5)]⟩
  | .vsub n w => some ⟨n, .blend, 0x43, w, [(51, 5), (46, 5), (41, 5), (36, 5), (31, 5), (26, 5)]⟩
  | .vmul n w => some ⟨n, .blend, 0x44, w, [(51, 5), (46, 5), (41, 5), (36, 5), (31, 5), (26, 5)]⟩
  | .vfma n w => some ⟨n, .blend, 0x45, w, [(16, 4), (51, 5), (46, 5), (41, 5), (36, 5), (31, 5), (26, 5)]⟩
  | .vmin n w => some ⟨n, .blend, 0x46, w, [(51, 5), (46, 5), (41, 5), (36, 5), (31, 5), (26, 5)]⟩
  | .vmax n w => some ⟨n, .blend, 0x47, w, [(51, 5), (46, 5), (41, 5), (36, 5), (31, 5), (26, 5)]⟩
  | .vdiv n w => some ⟨n, .blend, 0x48, w, [(51, 5), (46, 5), (41, 5), (36, 5), (31, 5), (26, 5)]⟩
  | .vsqrt n w => some ⟨n, .blend, 0x49, w, [(51, 5), (46, 5), (36, 5), (31, 5), (26, 5)]⟩
  | .vcvt n w => some ⟨n, .blend, 0x4A, w, [(51, 5), (46, 5), (36, 5), (31, 5), (26, 5), (16, 2)]⟩
  | .viadd n w => some ⟨n, .blend, 0x4B, w, [(51, 5), (46, 5), (41, 5), (31, 5), (26, 5), (16, 1)]⟩
  | .visub n w => some ⟨n, .blend, 0x4C, w, [(51, 5), (46, 5), (41, 5), (31, 5), (26, 5), (16, 1)]⟩
  | .xclr n w => some ⟨n, .blend, 0x60, w, [(51, 5)]⟩
  | .xadd n w => some ⟨n, .blend, 0x61, w, [(51, 5), (21, 5), (46, 5), (45, 1), (26, 19)]⟩
  | .xrnd n w => some ⟨n, .blend, 0x62, w, [(51, 5), (16, 5), (21, 5), (0, 2), (46, 5), (45, 1), (26, 19)]⟩
  | .xcnt n w => some ⟨n, .blend, 0x63, w, [(51, 5), (16, 5)]⟩
  | .xst n w => some ⟨n, .blend, 0x64, w, [(51, 5), (46, 5), (45, 1), (26, 19)]⟩
  | .xld n w => some ⟨n, .blend, 0x65, w, [(51, 5), (46, 5), (45, 1), (26, 19)]⟩
  | .bsfit n w => some ⟨n, .blend, 0x68, w, [(16, 5), (21, 5), (0, 4), (46, 5), (45, 1), (26, 19)]⟩
  | .bsmax n w => some ⟨n, .blend, 0x69, w, [(16, 5), (21, 5), (0, 1), (46, 5), (45, 1), (26, 19)]⟩
  | .thdr n w => some ⟨n, .blend, 0x6A, w, [(16, 5), (0, 3), (46, 5), (45, 1), (26, 19)]⟩
  | .sort n w => some ⟨n, .order, 0x40, w, [(51, 5), (16, 5), (21, 5), (0, 1), (46, 5), (45, 1), (26, 19)]⟩
  | .merge n w => some ⟨n, .order, 0x41, w, [(51, 5), (16, 5), (21, 5), (0, 1), (46, 5), (45, 1), (26, 19)]⟩
  | .topk n w => some ⟨n, .order, 0x42, w, [(51, 5), (16, 5), (21, 5), (0, 1), (46, 5), (45, 1), (26, 19)]⟩
  | .fsel n w => some ⟨n, .mask, 0x40, w, [(51, 5), (46, 5), (45, 1), (26, 19)]⟩
  | .dense n w => some ⟨n, .mask, 0x41, w, [(51, 5), (46, 5), (45, 1), (26, 19)]⟩
  | .cmpct n w => some ⟨n, .mask, 0x42, w, [(51, 5), (16, 5), (46, 5), (45, 1), (26, 19)]⟩
  | .filt n w => some ⟨n, .mask, 0x43, w, [(51, 5), (16, 5), (21, 5), (0, 3), (46, 5), (45, 1), (26, 19)]⟩
  | .recs n w => some ⟨n, .mask, 0x44, w, [(51, 5), (16, 5), (21, 5), (46, 5), (45, 1), (26, 19)]⟩
  | .twrap n w => some ⟨n, .mask, 0x45, w, [(51, 5), (16, 5), (21, 5), (46, 5), (45, 1), (26, 19)]⟩
  | .send n w => some ⟨n, .outlet, 0x40, w, [(16, 5), (11, 5), (46, 5), (45, 1), (26, 19)]⟩
  | .store n w => some ⟨n, .outlet, 0x41, w, [(51, 5), (16, 5), (11, 5), (46, 5), (45, 1), (26, 19)]⟩
  | .scatter n w => some ⟨n, .outlet, 0x42, w, [(51, 5), (16, 5), (11, 5), (0, 4), (46, 5), (45, 1), (26, 19)]⟩
  | _ => none

/-- The engine is present and issues in this cycle (04 R106), with its PC in the running study (04 R127). -/
abbrev Ready (s : State) (n : Nat) (e : EngId) : Prop :=
  s.isEasel n = true ∧ s.hasEngine e = true ∧ s.canIssue n e = true ∧ (s.engine n e).inStudy (s.engine n e).pc = true

/-- The engine issues the word with opcode `op` and bits [55:0] `w`, whose bits outside the used fields are zero (05 R138). -/
abbrev Issues (s : State) (n : Nat) (e : EngId) (op : Nat) (w : IWord) (used : Used) : Prop :=
  Ready s n e ∧ tget 0 (s.engine n e).imem (s.engine n e).pc = wordOf op w ∧ reservedOk w used = true

/-- The row's instruction is issued, with a well-formed word. -/
abbrev RowIssues (s : State) (r : Row) : Prop := Issues s r.n r.e r.op r.w r.used

/-- Only the engine changes: it runs, the writes `l` stand behind those on their way, and it goes on as `k` says. -/
def issued (s : State) (n : Nat) (e : EngId) (k : Next) (l : List Pending) : State :=
  s.setEngine n e (({ s.engine n e with st := .run, pend := (s.engine n e).pend ++ l } : Engine).advance s.now k)

/-- The same, in sequence, with functional unit `u` occupied for `t` cycles (04 R108). -/
def issuedOn (s : State) (n : Nat) (e : EngId) (u : UnitId) (t : Nat) (l : List Pending) : State :=
  s.setEngine n e (({ s.engine n e with st := .run, pend := (s.engine n e).pend ++ l,
                                        busy := (u, s.now + t) :: (s.engine n e).busy.filter (fun p => p.1 != u) } : Engine).advance s.now .seq)

/-- Bits [hi:lo] of a word (05 R139). -/
def bits (w : IWord) (hi lo : Nat) : Nat := (w.toNat >>> lo) % 2 ^ (hi + 1 - lo)

/-- A write that lands `l` cycles after its issue (04 R105). -/
def lands (s : State) (l : Nat) (x : Landing) : Pending := { due := s.now + l, what := x, issued := s.now }

/-- The write that brings the flags `f` to FSTAT and to the generation that the engine serves (02 R57), when there are any. -/
def flagLands (s : State) (g : Engine) (l : Nat) (f : BitVec 7) : List Pending :=
  if f = 0 then [] else [lands s l (.flags f g.serves.1 g.serves.2 g.pos)]

/-- A vector result, delivered in format `f` to V[d] after `l` cycles, with its flags (05 R150). Rounding under SR_UNSEEDED draws free
values and marks the generation (13 R370); otherwise only the Blend engine changes. -/
def vecIssued (s : State) (n d l : Nat) (f : Fmt) (r : List Nat × BitVec 7) : State :=
  issued (s.stochDraw n .blend r.1.length) n .blend .seq
    (lands s l (.vreg d (vecOf f r.1)) :: flagLands s (s.engine n .blend) l r.2)

/-- The same for VDIV and VSQRT, whose unit is occupied for `t` cycles (05 R150). -/
def divIssued (s : State) (n t d l : Nat) (f : Fmt) (r : List Nat × BitVec 7) : State :=
  issuedOn (s.stochDraw n .blend r.1.length) n .blend .div t
    (lands s l (.vreg d (vecOf f r.1)) :: flagLands s (s.engine n .blend) l r.2)

/-- A host reaches function `f` (14 R382). -/
abbrev Reaches (s : State) (f : Nat) : Prop := f < 4 ∧ s.aclk = true ∧ s.presents f = true

/-- A host writes registers of function `f` in the state `s₀`: the command takes of this ACLK come first (14 R391), and leave `s`. -/
abbrev Writes (s₀ s : State) (f : Nat) : Prop := Reaches s₀ f ∧ s = s₀.examineAll

/-- The oldest command that function `f` has taken is `t`, of opcode `o`; its host reads are made, no earlier take of another function and
no IMAGE_WRITE of its own stands before it, and it reaches its effect point in this state (14 R394, R396, R399). -/
abbrev AtEffect (s : State) (f o : Nat) (t : Taken) (rest : List Taken) : Prop :=
  f < 4 ∧ s.hostWorks = true ∧ (s.func f).taken = t :: rest ∧ leAt t.bytes 0 1 = o ∧ t.ready = true ∧ t.quiet = false ∧
    s.turnOf f t = true ∧ s.norBusy f = false

/-- None of the rows that hold for every command refuses it (14 R398): RUNNING, no failed read, and PF0 for the commands that are its. -/
abbrev Accepted (s : State) (f o : Nat) (t : Taken) (rest : List Taken) : Prop :=
  AtEffect s f o t rest ∧ s.dev = .running ∧ t.failedRead = false ∧ (o = 0x0F ∨ o = 0x11 ∨ o = 0x12 ∨ o = 0x14 → f = 0)

/-- The command has left the queue of the taken. -/
def took (s : State) (f : Nat) (rest : List Taken) : State := s.modFunc f (fun x => { x with taken := rest })

/-- The command completes: its result slot is DONE with this status and payload (14 R401). -/
def ended (s : State) (f : Nat) (t : Taken) (status : Nat) (payload : Bytes) : State :=
  s.finish f t.slot t.seq (BitVec.ofNat 8 (leAt t.bytes 0 1)) t.irq status payload

/-- The command has had its effect and waits to complete (14 R396). -/
def waiting (s : State) (f : Nat) (t : Taken) (on : WaitsOn) : State :=
  s.modFunc f (fun x => { x with waits := x.waits ++ [{ slot := t.slot, seq := t.seq, opcode := BitVec.ofNat 8 (leAt t.bytes 0 1), irq := t.irq, on }] })

end Sys2Proof.Claims

section

open Sys2Proof Sys2Proof.Machine Sys2Proof.Claims

/-- An engine that the device lacks stops the command; one that does not issue in this cycle changes nothing; a PC outside the running
study and an opcode that the engine's tables do not list are engine faults (04 R106, R127; 05 R138). That a command for an absent engine
stops with absentUnit is the model's choice (assumption 9). -/
def Sys2Proof.Claims.EngineInstructionGuards : Prop :=
  ∀ (i : Instr) (r : Row) (s : State), row i = some r →
    ((s.isEasel r.n && s.hasEngine r.e) = false → exec i s = .fault .absentUnit) ∧
    (s.isEasel r.n = true → s.hasEngine r.e = true → s.canIssue r.n r.e = false → exec i s = .next s) ∧
    (s.isEasel r.n = true → s.hasEngine r.e = true → s.canIssue r.n r.e = true →
      (s.engine r.n r.e).inStudy (s.engine r.n r.e).pc = false →
      exec i s = .next (s.issueFault r.n r.e 3 stBadField (s.engine r.n r.e).pc)) ∧
    (Ready s r.n r.e → opListed r.e ((tget 0 (s.engine r.n r.e).imem (s.engine r.n r.e).pc) >>> 56).toNat = false →
      exec i s = .next (s.issueFault r.n r.e 8 stBadField (s.engine r.n r.e).pc)) ∧
    (Ready s r.n r.e → opListed r.e ((tget 0 (s.engine r.n r.e).imem (s.engine r.n r.e).pc) >>> 56).toNat = true →
      tget 0 (s.engine r.n r.e).imem (s.engine r.n r.e).pc ≠ wordOf r.op r.w → exec i s = .next s)

/-- A reserved bit that is not zero is ILLEGAL with BAD_FIELD, whatever the instruction (05 R138, R139). -/
def Sys2Proof.Claims.ReservedBitsAreIllegal : Prop :=
  ∀ (i : Instr) (r : Row) (s : State), row i = some r → Ready s r.n r.e →
    tget 0 (s.engine r.n r.e).imem (s.engine r.n r.e).pc = wordOf r.op r.w → reservedOk r.w r.used = false →
    exec i s = .next ((s.setEngine r.n r.e { s.engine r.n r.e with st := .run }).issueFault r.n r.e 8 stBadField (s.engine r.n r.e).pc)

/-- NOP, CSET, CADD, CMOV and KSET: what is written, and in which cycle; the rest of the state stays (05 R143, R145; 04 R105). -/
def Sys2Proof.Claims.CounterInstructions : Prop :=
  ∀ (s : State) (n : Nat) (e : EngId) (w : IWord),
    (Issues s n e 0x00 w [] → exec (.nop n e w) s = .next (issued s n e .seq [])) ∧
    (Issues s n e 0x08 w [(51, 5), (0, 32)] → bits w 55 51 < 8 →
      exec (.cset n e w) s = .next (issued s n e .seq [lands s 1 (.creg (bits w 55 51) (BitVec.ofNat 32 (bits w 31 0)))])) ∧
    (Issues s n e 0x09 w [(51, 5), (0, 32)] → bits w 55 51 < 8 →
      exec (.cadd n e w) s = .next (issued s n e .seq
        [lands s 1 (.creg (bits w 55 51) ((s.engine n e).c' (bits w 55 51) + BitVec.ofNat 32 (bits w 31 0)))])) ∧
    (Issues s n e 0x0A w [(51, 5), (46, 5)] → bits w 55 51 < 8 → bits w 50 46 < 16 →
      exec (.cmov n e w) s = .next (issued s n e .seq [lands s 1 (.creg (bits w 55 51) ((s.engine n e).s' (bits w 50 46)))])) ∧
    (∀ k, Issues s n e 0x0B w [(51, 5), (46, 5), (40, 6), (0, 16)] → bits w 55 51 < 4 →
      k.rel = bits w 45 43 → k.rel ≤ 5 →
      (bits w 40 40 = 0 ∧ bits w 50 46 < 8 ∧ k.a = .ctr (bits w 50 46) ∨ bits w 40 40 = 1 ∧ bits w 50 46 < 16 ∧ k.a = .scalar (bits w 50 46)) →
      (bits w 42 41 = 0 ∧ bits w 4 0 < 8 ∧ k.b = .ctr (bits w 4 0) ∨ bits w 42 41 = 1 ∧ bits w 4 0 < 16 ∧ k.b = .scalar (bits w 4 0) ∨
        bits w 42 41 = 2 ∧ k.b = .imm (BitVec.ofNat 32 (bits w 15 0))) →
      exec (.kset n e w) s = .next (issued s n e .seq [lands s 1 (.kreg (bits w 55 51) k)]))

/-- SMOVI, SALU, SADDI and SMOV (05 R143, R144, R146). -/
def Sys2Proof.Claims.ScalarInstructions : Prop :=
  ∀ (s : State) (n : Nat) (e : EngId) (w : IWord),
    (Issues s n e 0x0C w [(51, 5), (0, 32)] → bits w 55 51 < 16 →
      exec (.smovi n e w) s = .next (issued s n e .seq [lands s 1 (.sreg (bits w 55 51) (BitVec.ofNat 32 (bits w 31 0)))])) ∧
    (Issues s n e 0x0E w [(51, 5), (46, 5), (0, 32)] → bits w 55 51 < 16 → bits w 50 46 < 16 →
      exec (.saddi n e w) s = .next (issued s n e .seq
        [lands s 1 (.sreg (bits w 55 51) ((s.engine n e).s' (bits w 50 46) + BitVec.ofNat 32 (bits w 31 0)))])) ∧
    (∀ a b v, Issues s n e 0x0D w [(51, 5), (46, 5), (41, 5), (16, 4)] → bits w 55 51 < 16 → bits w 50 46 < 16 → bits w 45 41 < 16 →
      a = (s.engine n e).s' (bits w 50 46) → b = (s.engine n e).s' (bits w 45 41) →
      (bits w 19 16 = 0 ∧ v = a + b ∨ bits w 19 16 = 1 ∧ v = a - b ∨ bits w 19 16 = 2 ∧ v = a &&& b ∨ bits w 19 16 = 3 ∧ v = a ||| b ∨
        bits w 19 16 = 4 ∧ v = a ^^^ b ∨ bits w 19 16 = 5 ∧ v = a <<< (b.toNat % 32) ∨ bits w 19 16 = 6 ∧ v = a >>> (b.toNat % 32) ∨
        bits w 19 16 = 7 ∧ v = a.sshiftRight (b.toNat % 32) ∨ bits w 19 16 = 8 ∧ v = a * b ∨
        bits w 19 16 = 9 ∧ v = (if a.toInt < b.toInt then a else b) ∨ bits w 19 16 = 10 ∧ v = (if a.toInt < b.toInt then b else a)) →
      exec (.salu n e w) s = .next (issued s n e .seq [lands s (if bits w 19 16 = 8 then 3 else 1) (.sreg (bits w 55 51) v)])) ∧
    (∀ v, Issues s n e 0x0F w [(51, 5), (46, 5)] → bits w 55 51 < 16 →
      (bits w 50 46 < 8 ∧ v = (s.engine n e).c' (bits w 50 46) ∨
        8 ≤ bits w 50 46 ∧ bits w 50 46 < 12 ∧
          v = (match (s.engine n e).loops[bits w 50 46 - 8]? with | some l => BitVec.ofNat 32 l.idx | none => 0) ∨
        bits w 50 46 = 12 ∧ v = BitVec.ofNat 32 (s.engine n e).ctx ∨ bits w 50 46 = 13 ∧ v = (s.engine n e).gen ∨
        bits w 50 46 = 14 ∧ v = (s.engine n e).chunk ∨ bits w 50 46 = 15 ∧ v = (s.engine n e).fstat.setWidth 32 ∨
        bits w 50 46 = 16 ∧ v = BitVec.ofNat 32 ((s.engine n e).rmode.toNat + 8 * b2n (s.engine n e).flush)) →
      exec (.smov n e w) s = .next (issued s n e .seq [lands s 1 (.sreg (bits w 55 51) v)])) ∧
    (Issues s n e 0x0F w [(51, 5), (46, 5)] → bits w 55 51 < 16 → 17 ≤ bits w 50 46 →
      exec (.smov n e w) s = .next ((s.setEngine n e { s.engine n e with st := .run }).issueFault n e 8 stBadField (s.engine n e).pc))

/-- MODE, SEED and FCLR; MODE to SR_UNSEEDED in strict mode is an INSTR fault (05 R143; 13 R368). -/
def Sys2Proof.Claims.ModeInstructions : Prop :=
  ∀ (s : State) (n : Nat) (e : EngId) (w : IWord),
    (Issues s n e 0x10 w [(0, 4)] → bits w 2 0 ≤ 5 → (bits w 2 0 = 5 → s.coll.strict = false) →
      exec (.mode n e w) s = .next (issued s n e .seq [lands s 1 (.fmode (BitVec.ofNat 3 (bits w 2 0)) (w.toNat.testBit 3))])) ∧
    (Issues s n e 0x10 w [(0, 4)] → bits w 2 0 = 5 → s.coll.strict = true →
      exec (.mode n e w) s = .next ((s.setEngine n e { s.engine n e with st := .run }).issueFault n e 9 stNd (s.engine n e).pc)) ∧
    (Issues s n e 0x11 w [(46, 5)] → bits w 50 46 < 16 → bits w 50 46 % 2 = 0 →
      exec (.seed n e w) s = .next (issued s n e .seq
        [lands s 1 (.seed ((s.engine n e).s' (bits w 50 46 + 1) ++ (s.engine n e).s' (bits w 50 46)))])) ∧
    (Issues s n e 0x12 w [(0, 7)] →
      exec (.fclr n e w) s = .next (issued s n e .seq [lands s 1 (.clear (BitVec.ofNat 7 (bits w 6 0)))]))

/-- BR and LOOP (04 R118-R122; 05 R143): the next PC, the loop stack, and when the engine issues next. That a
branch at the last instruction of a loop skips its loop-end processing is read from the rules by inference (assumption 12). -/
def Sys2Proof.Claims.BranchesAndLoops : Prop :=
  ∀ (s : State) (n : Nat) (e : EngId) (w : IWord),
    (Issues s n e 0x02 w [(54, 2), (52, 2), (0, 12)] → bits w 53 52 ≠ 3 → (s.engine n e).inStudy (bits w 11 0) = true →
      exec (.br n e w) s = .next (issued s n e
        (if bits w 53 52 = 0 ∨ bits w 53 52 = 1 ∧ (s.engine n e).compare (bits w 55 54) = true ∨
            bits w 53 52 = 2 ∧ (s.engine n e).compare (bits w 55 54) = false then .branch (bits w 11 0) else .seq) [])) ∧
    (Issues s n e 0x02 w [(54, 2), (52, 2), (0, 12)] → bits w 53 52 ≠ 3 → (s.engine n e).inStudy (bits w 11 0) = false →
      exec (.br n e w) s = .next ((s.setEngine n e { s.engine n e with st := .run }).issueFault n e 3 stBadField (s.engine n e).pc)) ∧
    (∀ k, Issues s n e 0x03 w [(50, 2), (45, 5), (29, 16), (0, 12)] → bits w 49 45 < 16 →
      (bits w 51 50 = 0 ∧ k = bits w 44 29 ∨ bits w 51 50 = 1 ∧ bits w 49 45 < 8 ∧ k = ((s.engine n e).c' (bits w 49 45)).toNat ∨
        bits w 51 50 = 2 ∧ k = ((s.engine n e).s' (bits w 49 45)).toNat) →
      (s.engine n e).pc < bits w 11 0 → (s.engine n e).inStudy (bits w 11 0) = true →
      (k = 0 → exec (.loop n e w) s = .next (issued s n e (.skip (bits w 11 0 + 1)) [])) ∧
      (0 < k → (s.engine n e).loops.length < 4 → exec (.loop n e w) s = .next (issued s n e
        (.loop { first := (s.engine n e).pc + 1, last := bits w 11 0, left := k, idx := 0 }) [])) ∧
      (0 < k → 4 ≤ (s.engine n e).loops.length → exec (.loop n e w) s =
        .next ((s.setEngine n e { s.engine n e with st := .run }).issueFault n e 2 stBadField (s.engine n e).pc)))

/-- VLD and VST (05 R150, R151): the 256 bytes of a V register, or the 192 bytes of a 6-bit format. -/
def Sys2Proof.Claims.VectorLoadsAndStores : Prop :=
  ∀ (s : State) (n : Nat) (w : IWord) (f : Fmt) (g : Engine) (a : Nat), g = s.engine n .blend → s.vfmt (bits w 25 21) = some f →
    bits w 50 46 < 16 → a = g.trayAddr w → trayOk a (if f.width = 6 then 192 else 256) = true →
    (Issues s n .blend 0x40 w [(51, 5), (21, 5), (46, 5), (45, 1), (26, 19)] →
      exec (.vld n w) s = .next (issued s n .blend .seq [lands s 3 (.vreg (bits w 55 51)
        (if f.width = 6 then vecOf f (unpack 6 256 ((s.easel n).read a 192)) else BitVec.ofNat 2048 (le ((s.easel n).read a 256))))])) ∧
    (Issues s n .blend 0x41 w [(51, 5), (21, 5), (46, 5), (45, 1), (26, 19)] →
      exec (.vst n w) s = .next (issued s n .blend .seq [lands s 2 (.tray a
        (if f.width = 6 then pack 6 (lanesOf f (g.v' (bits w 55 51))) else toLE 256 (g.v' (bits w 55 51)).toNat))]))

/-- VADD, VSUB, VMUL, VFMA, VDIV and VSQRT (05 R150, R151): both sources in FA, one rounding into FD of the same width, the latencies and
the occupancy of DIV. A stochastic mode needs a target that R50 allows (02 R50). -/
def Obligations.VectorArithmetic : Prop :=
  ∀ (s : State) (n : Nat) (w : IWord) (fa fd : Fmt) (g : Engine) (x : Nat), g = s.engine n .blend →
    s.vfmt (bits w 35 31) = some fa → s.vfmt (bits w 30 26) = some fd → fa.width = fd.width →
    (4 ≤ g.rmode.toNat → fd.stochastic = true) → x = (g.s' (bits w 40 36)).toNat →
    (Issues s n .blend 0x42 w [(51, 5), (46, 5), (41, 5), (36, 5), (31, 5), (26, 5)] → bits w 40 36 < 16 →
      exec (.vadd n w) s = .next (vecIssued s n (bits w 55 51) (if fa.width = 64 then 6 else 4) fd
        (g.deliver fd false s.freeCtr x (zip2 g fa w (addVal (g.rmode == 3)))))) ∧
    (Issues s n .blend 0x43 w [(51, 5), (46, 5), (41, 5), (36, 5), (31, 5), (26, 5)] → bits w 40 36 < 16 →
      exec (.vsub n w) s = .next (vecIssued s n (bits w 55 51) (if fa.width = 64 then 6 else 4) fd
        (g.deliver fd false s.freeCtr x (zip2 g fa w (fun a b => addVal (g.rmode == 3) a (negVal b)))))) ∧
    (Issues s n .blend 0x44 w [(51, 5), (46, 5), (41, 5), (36, 5), (31, 5), (26, 5)] → bits w 40 36 < 16 →
      exec (.vmul n w) s = .next (vecIssued s n (bits w 55 51) (if fa.width = 64 then 6 else 4) fd
        (g.deliver fd false s.freeCtr x (zip2 g fa w mulVal)))) ∧
    (Issues s n .blend 0x45 w [(16, 4), (51, 5), (46, 5), (41, 5), (36, 5), (31, 5), (26, 5)] →
      exec (.vfma n w) s = .next (vecIssued s n (bits w 55 51) (if fa.width = 64 then 8 else 5) fd
        (g.deliver fd false s.freeCtr (g.s' (bits w 19 16)).toNat
          (((lanesOf fa (g.v' (bits w 50 46))).zip
            ((lanesOf fa (g.v' (bits w 45 41))).zip (lanesOf fa (g.v' (bits w 40 36))))).map (fun y =>
              let p := fa.operand g.flush y.1
              let q := fa.operand g.flush y.2.1
              let r := fa.operand g.flush y.2.2
              let z := fmaVal (g.rmode == 3) (Config.fmaNanInvalid y.1 y.2.1 y.2.2) p.1 q.1 r.1
              (z.1, z.2 ||| p.2 ||| q.2 ||| r.2)))))) ∧
    (Issues s n .blend 0x48 w [(51, 5), (46, 5), (41, 5), (36, 5), (31, 5), (26, 5)] → bits w 40 36 < 16 →
      s.unitBusy n .blend .div = false →
      exec (.vdiv n w) s = .next (divIssued s n (if fa.width = 64 then 16 else 8) (bits w 55 51) (if fa.width = 64 then 40 else 24) fd
        (g.deliver fd false s.freeCtr x (zip2 g fa w divVal)))) ∧
    (Issues s n .blend 0x49 w [(51, 5), (46, 5), (36, 5), (31, 5), (26, 5)] → bits w 40 36 < 16 → s.unitBusy n .blend .div = false →
      exec (.vsqrt n w) s = .next (divIssued s n (if fa.width = 64 then 16 else 8) (bits w 55 51) (if fa.width = 64 then 40 else 24) fd
        (g.deliver fd false s.freeCtr x ((g.operands fa (g.v' (bits w 50 46))).map (fun a => ((sqrtVal a.1).1, (sqrtVal a.1).2 ||| a.2))))))

/-- VMIN and VMAX (05 R150, R151): with FD = FA nothing rounds; otherwise the chosen value is converted into FD. -/
def Sys2Proof.Claims.VectorMinimaAndMaxima : Prop :=
  ∀ (s : State) (n : Nat) (w : IWord) (fa fd : Fmt) (g : Engine) (mx : Bool), g = s.engine n .blend →
    s.vfmt (bits w 35 31) = some fa → s.vfmt (bits w 30 26) = some fd → fa.width = fd.width → bits w 40 36 < 16 →
    Issues s n .blend (if mx then 0x47 else 0x46) w [(51, 5), (46, 5), (41, 5), (36, 5), (31, 5), (26, 5)] →
    let chosen := zip2 g fa w (fun a b =>
      (match (minMax mx a b).1 with | none => Val.nan false | some true => a | some false => b, (minMax mx a b).2))
    let run := exec (if mx then .vmax n w else .vmin n w) s
    (bits w 35 31 = bits w 30 26 →
      run = .next (issued s n .blend .seq
        (let r := ({ g with rmode := 0, flush := false } : Engine).deliver fd (fa.int && fd.int) s.freeCtr (g.s' (bits w 40 36)).toNat chosen
         lands s 2 (.vreg (bits w 55 51) (vecOf fd r.1)) :: flagLands s g 2 r.2))) ∧
    (bits w 35 31 ≠ bits w 30 26 → (4 ≤ g.rmode.toNat → fd.stochastic = true) →
      run = .next (vecIssued s n (bits w 55 51) 2 fd
        (g.deliver fd (fa.int && fd.int) s.freeCtr (g.s' (bits w 40 36)).toNat chosen)))

/-- VCVT (05 R150, R151): a part of V[A] widens into V[D], or V[A] narrows into a part of V[D], whose rest stays. -/
def Sys2Proof.Claims.VectorConversion : Prop :=
  ∀ (s : State) (n : Nat) (w : IWord) (fa fd : Fmt) (g : Engine) (p : Nat), g = s.engine n .blend →
    s.vfmt (bits w 35 31) = some fa → s.vfmt (bits w 30 26) = some fd → bits w 40 36 < 16 → p = bits w 17 16 →
    p < max (fa.lanes / fd.lanes) (fd.lanes / fa.lanes) → (4 ≤ g.rmode.toNat → fd.stochastic = true) →
    Issues s n .blend 0x4A w [(51, 5), (46, 5), (36, 5), (31, 5), (26, 5), (16, 2)] →
    let src := g.operands fa (g.v' (bits w 50 46))
    let old := rawLanes fd (g.v' (bits w 55 51))
    let r := g.deliver fd (fa.int && fd.int) s.freeCtr (g.s' (bits w 40 36)).toNat
      (if fd.lanes < fa.lanes then (src.drop (fd.lanes * p)).take fd.lanes else src)
    exec (.vcvt n w) s = .next (issued (s.stochDraw n .blend r.1.length) n .blend .seq
      (lands s 3 (.vreg (bits w 55 51) (vecOf fd (if fa.lanes < fd.lanes then
        old.take (fa.lanes * p) ++ r.1 ++ old.drop (fa.lanes * (p + 1)) else r.1))) :: flagLands s g 3 r.2))

/-- VIADD and VISUB (05 R150, R151): lanes wrap modulo 2^W, or saturate and set SATURATED. -/
def Sys2Proof.Claims.VectorIntegers : Prop :=
  ∀ (s : State) (n : Nat) (w : IWord) (f : Fmt) (g : Engine) (sub : Bool), g = s.engine n .blend →
    s.vfmt (bits w 35 31) = some f → bits w 30 26 = bits w 35 31 → f.int = true →
    Issues s n .blend (if sub then 0x4C else 0x4B) w [(51, 5), (46, 5), (41, 5), (31, 5), (26, 5), (16, 1)] →
    let a := (lanesOf f (g.v' (bits w 50 46))).map (signed f.width)
    let b := (lanesOf f (g.v' (bits w 45 41))).map (signed f.width)
    let z := List.zipWith (fun x y => if sub then x - y else x + y) a b
    let lim : Int := (2 ^ (f.width - 1) : Nat)
    let run := exec (if sub then .visub n w else .viadd n w) s
    (bits w 16 16 = 0 →
      run = .next (issued s n .blend .seq [lands s 2 (.vreg (bits w 55 51) (vecOf f (z.map (unsignedOf f.width))))])) ∧
    (bits w 16 16 = 1 →
      run = .next (issued s n .blend .seq
        (lands s 2 (.vreg (bits w 55 51) (vecOf f (z.map (fun x => unsignedOf f.width (max (-lim) (min (lim - 1) x)))))) ::
          flagLands s g 2 (if z.any (fun x => decide (x < -lim) || decide (lim - 1 < x)) then 0x40 else 0))))

/-- XCLR, XCNT, XST and XLD on tile slot D (05 R152; 03 R69, R75). That an image which fails its check is charged to tile 0 and
to ENG_CHUNK is the model's choice (assumption 14). -/
def Sys2Proof.Claims.ExactSlots : Prop :=
  ∀ (s : State) (n : Nat) (w : IWord) (g : Engine) (d a : Nat), g = s.engine n .blend → d = bits w 55 51 → d < 4 →
    s.unitBusy n .blend .xau = false → a = g.trayAddr w →
    (Issues s n .blend 0x60 w [(51, 5)] → exec (.xclr n w) s = .next (issuedOn s n .blend .xau 1 [lands s 1 (.slot d {})])) ∧
    (Issues s n .blend 0x63 w [(51, 5), (16, 5)] → bits w 20 16 < 16 →
      exec (.xcnt n w) s = .next (issuedOn s n .blend .xau 1
        [lands s 1 (.sreg (bits w 20 16) (BitVec.ofNat 32 (min (g.slot d).count 0xFFFFFFFF)))])) ∧
    (Issues s n .blend 0x64 w [(51, 5), (46, 5), (45, 1), (26, 19)] → bits w 50 46 < 16 → trayOk a Config.imageBytes = true →
      exec (.xst n w) s = .next (issuedOn s n .blend .xau 193 [lands s 195 (.tray a (imageOf (g.slot d)))])) ∧
    (Issues s n .blend 0x65 w [(51, 5), (46, 5), (45, 1), (26, 19)] → bits w 50 46 < 16 → trayOk a Config.imageBytes = true →
      (∀ x, slotOfImage ((s.easel n).read a Config.imageBytes) = some x →
        exec (.xld n w) s = .next (issuedOn s n .blend .xau 97 [lands s 99 (.slot d x)])) ∧
      (slotOfImage ((s.easel n).read a Config.imageBytes) = none →
        exec (.xld n w) s = .next (issuedOn s n .blend .xau 97
          [lands s 96 (.checkFail 4 0 g.chunk.toNat 0 g.serves.1 g.serves.2 g.key)])))

/-- XADD (05 R152; 03 R68, R72): the 1,024 elements of a tile that passes its checks enter the slot exactly, in 32, 16 or 8 cycles by
the width of FMT; binary64, a full count and another format are INSTR with BAD_FIELD. -/
def Sys2Proof.Claims.ExactAddition : Prop :=
  ∀ (s : State) (n : Nat) (w : IWord) (g : Engine) (d a k : Nat) (f : Fmt), g = s.engine n .blend → d = bits w 55 51 → d < 4 →
    a = g.trayAddr w → bits w 50 46 < 16 → fmtOf s.formats (bits w 25 21) = some f →
    k = (if f.width = 32 then 32 else if f.width = 16 then 16 else 8) →
    Issues s n .blend 0x61 w [(51, 5), (21, 5), (46, 5), (45, 1), (26, 19)] → s.unitBusy n .blend .xau = false → trayOk a 32 = true →
    ((f.width = 64 ∨ 2 ^ 32 ≤ (g.slot d).count) →
      exec (.xadd n w) s = .next ((s.setEngine n .blend { g with st := .run }).issueFault n .blend 9 stBadField g.pc)) ∧
    (∀ b t, f.width ≠ 64 → (g.slot d).count < 2 ^ 32 →
      consume s.formats (s.easel n) a (some (bits w 25 21)) = .ok b t → scalesOk f t.scales = true →
      let vs := elemVals f g.flush t.scales t.elems
      let r := (g.slot d).intake (bits w 25 21) f.int (vs.map (·.1)) (orAll (vs.map (·.2)))
      exec (.xadd n w) s = .next (issuedOn s n .blend .xau k (lands s k (.slot d r.1) :: flagLands s g k r.2))) ∧
    (f.width ≠ 64 → (g.slot d).count < 2 ^ 32 → consume s.formats (s.easel n) a (some (bits w 25 21)) = .field →
      exec (.xadd n w) s = .next (issuedOn s n .blend .xau k [lands s (k - 1) (.fieldFault g.pc)]))

/-- XRND as an output rounding (MOD[0] = 0; 05 R154): the slot is rounded once under FMODE into a complete tile numbered S[B], with no
promotion; MOD[1] = 1 clears the slot in the same cycle. Which sums are of integers is the model's choice where 03 R79 leaves it
open (assumption 63). -/
def Sys2Proof.Claims.ExactRounding : Prop :=
  ∀ (s : State) (n : Nat) (w : IWord) (g : Engine) (d a num : Nat) (f : Fmt), g = s.engine n .blend → d = bits w 55 51 → d < 4 →
    a = g.trayAddr w → bits w 50 46 < 16 → bits w 20 16 < 16 → num = (g.s' (bits w 20 16)).toNat →
    fmtOf s.formats (bits w 25 21) = some f → f.width ≠ 64 → bits w 0 0 = 0 → (4 ≤ g.rmode.toNat → f.stochastic = true) →
    Issues s n .blend 0x62 w [(51, 5), (16, 5), (21, 5), (0, 2), (46, 5), (45, 1), (26, 19)] → s.unitBusy n .blend .xau = false →
    trayOk a (denseSize f) = true →
    let r := roundSum f { mode := g.rmode.toNat, flush := g.flush, ints := s.integerSum (g.slot d) && f.int,
                          r := g.srOf s.freeCtr (1024 * num) } 0 none ((g.slot d).all.map (Lane.val (g.rmode == 3)))
    exec (.xrnd n w) s = .next (issuedOn (s.stochDraw n .blend 1024) n .blend .xau 16
      (lands s 20 (.tray a (denseTile num g.chunk.toNat (bits w 25 21) f r.1 r.2.1 0 0)) :: flagLands s g 20 r.2.2.1 ++
        (if bits w 1 1 = 1 then [lands s 20 (.slot d {})] else [])))

/-- XRND as a transit rounding (MOD[0] = 1; 05 R154): RNE whatever RMODE holds; into a block-scaled format under the candidate scales at
S[B+1], with the promotion count S[B+2] plus the blocks promoted. Which blocks count as promoted and which sums are of integers are the model's
choice where the rules leave it open (assumption 63). -/
def Sys2Proof.Claims.TransitRounding : Prop :=
  ∀ (s : State) (n : Nat) (w : IWord) (g : Engine) (d a num b : Nat) (f : Fmt), g = s.engine n .blend → d = bits w 55 51 → d < 4 →
    a = g.trayAddr w → bits w 50 46 < 16 → b = bits w 20 16 → b < 16 → num = (g.s' b).toNat →
    fmtOf s.formats (bits w 25 21) = some f → f.width ≠ 64 → bits w 0 0 = 1 →
    Issues s n .blend 0x62 w [(51, 5), (16, 5), (21, 5), (0, 2), (46, 5), (45, 1), (26, 19)] → s.unitBusy n .blend .xau = false →
    trayOk a (denseSize f) = true →
    let x := g.slot d
    let cands := ((s.easel n).read (g.sAddr (b + 1)) 32).map (·.toNat)
    let r := roundSum f (transitCtl g.flush (s.integerSum x && f.int)) 0 (if f.block then some cands else none)
      (x.all.map (Lane.val false))
    (f.block = false → exec (.xrnd n w) s = .next (issuedOn s n .blend .xau 16
      (lands s 20 (.tray a (denseTile num g.chunk.toNat (bits w 25 21) f r.1 r.2.1 0 0)) :: flagLands s g 20 r.2.2.1 ++
        (if bits w 1 1 = 1 then [lands s 20 (.slot d {})] else [])))) ∧
    (f.block = true → b + 2 < 16 → trayOk (g.sAddr (b + 1)) 32 = true → (∀ c ∈ cands, f.scaleOk c = true) →
      let count := (g.s' (b + 2)).toNat + r.2.2.2
      exec (.xrnd n w) s = .next (issuedOn s n .blend .xau 16
        (lands s 20 (.tray a (denseTile num g.chunk.toNat (bits w 25 21) f r.1 r.2.1 (if count = 0 then 0 else 1) (min count 0xFFFF))) ::
          flagLands s g 20 r.2.2.1 ++
          (if r.2.2.2 = 0 then [] else [lands s 20 (.promos r.2.2.2 g.serves.1 g.serves.2 g.key)]) ++
          (if bits w 1 1 = 1 then [lands s 20 (.slot d {})] else []))))

/-- BSFIT, BSMAX and THDR (05 R152, R153; 02 R40, R43). That BSFIT under FLUSH raises no flag is the model's choice (assumption 62). -/
def Sys2Proof.Claims.ScaleInstructions : Prop :=
  ∀ (s : State) (n : Nat) (w : IWord) (g : Engine) (a d : Nat), g = s.engine n .blend → a = g.trayAddr w → bits w 50 46 < 16 →
    bits w 20 16 < 16 → d = g.sAddr (bits w 20 16) → trayOk a 32 = true →
    (∀ f b t, Issues s n .blend 0x68 w [(16, 5), (21, 5), (0, 4), (46, 5), (45, 1), (26, 19)] → s.unitBusy n .blend .scale = false →
      trayOk d 32 = true → fmtOf s.formats (bits w 25 21) = some f → f.block = true →
      consume s.formats (s.easel n) a none = .ok b t → scalesOk t.fmt t.scales = true →
      exec (.bsfit n w) s = .next (issuedOn s n .blend .scale 17 [lands s 20 (.tray d
        ((pieces 32 32 ((elemVals t.fmt g.flush t.scales t.elems).map (·.1))).map (fun p =>
          BitVec.ofNat 8 (if nanBlock p then 0xFF else (min f.sMax (f.chooseScale p + (bits w 3 0 : Nat)) + 127).toNat))))])) ∧
    (∀ f, Issues s n .blend 0x69 w [(16, 5), (21, 5), (0, 1), (46, 5), (45, 1), (26, 19)] → s.unitBusy n .blend .scale = false →
      trayOk d 32 = true → fmtOf s.formats (bits w 25 21) = some f →
      (bits w 0 0 = 1 → (f.block = true → ∀ c ∈ (s.easel n).read a 32 ++ (s.easel n).read d 32, f.scaleOk c.toNat = true) →
        exec (.bsmax n w) s = .next (issuedOn s n .blend .scale 1 [lands s 2 (.tray d
          (maxBytes ((s.easel n).read a 32) ((s.easel n).read d 32)))])) ∧
      (∀ b t, bits w 0 0 = 0 → f.block = true → consume s.formats (s.easel n) a (some (bits w 25 21)) = .ok b t →
        scalesOk f (t.scales ++ ((s.easel n).read d 32).map (·.toNat)) = true →
        exec (.bsmax n w) s = .next (issuedOn s n .blend .scale 17 [lands s 20 (.tray d
          (maxBytes (t.scales.map (BitVec.ofNat 8)) ((s.easel n).read d 32)))]))) ∧
    (∀ v, Issues s n .blend 0x6A w [(16, 5), (0, 3), (46, 5), (45, 1), (26, 19)] →
      (let h := (s.easel n).read a 32
       bits w 2 0 = 0 ∧ v = tTile h ∨ bits w 2 0 = 1 ∧ v = tFormat h ∨ bits w 2 0 = 2 ∧ v = tForm h ∨ bits w 2 0 = 3 ∧ v = tPromo h ∨
        bits w 2 0 = 4 ∧ v = (if tForm h = fValidx then tCount h else 1024)) →
      exec (.thdr n w) s = .next (issued s n .blend .seq [lands s 2 (.sreg (bits w 20 16) (BitVec.ofNat 32 v))]))

/-- SORT, MERGE and TOPK (05 R155; 02 R63; 04 R129): latency and occupancy from the counts, the records in key order.
What MERGE makes of runs that are not sorted is the model's choice (assumption 63). -/
def Obligations.OrderInstructions : Prop :=
  ∀ (s : State) (n : Nat) (w : IWord) (g : Engine) (a b out : Nat) (f : Fmt) (k k2 : Nat), g = s.engine n .order → a = g.trayAddr w →
    bits w 50 46 < 16 → b = bits w 20 16 → b < 16 → bits w 55 51 < 16 → out = g.sAddr (bits w 55 51) →
    s.keyFmt (bits w 25 21) = some f → k = (g.s' b).toNat → s.unitBusy n .order .order = false → trayOk a (32 * k) = true →
    let before := recBefore f (bits w 0 0 == 1)
    (Issues s n .order 0x40 w [(51, 5), (16, 5), (21, 5), (0, 1), (46, 5), (45, 1), (26, 19)] → k ≤ 8192 → trayOk out (32 * k) = true →
      areasOk out (32 * k) [(a, 32 * k)] = true →
      exec (.sort n w) s = .next (issuedOn s n .order .order (16 + ceilDiv k 8 * ceilLog2 k)
        [lands s (16 + ceilDiv k 8 * ceilLog2 k) (.tray out (insertSort before ((s.easel n).records a k)).flatten)])) ∧
    (Issues s n .order 0x41 w [(51, 5), (16, 5), (21, 5), (0, 1), (46, 5), (45, 1), (26, 19)] → b + 2 < 16 → k2 = (g.s' (b + 1)).toNat →
      k + k2 ≤ 8192 → trayOk (g.sAddr (b + 2)) (32 * k2) = true → trayOk out (32 * (k + k2)) = true →
      areasOk out (32 * (k + k2)) [(a, 32 * k), (g.sAddr (b + 2), 32 * k2)] = true →
      exec (.merge n w) s = .next (issuedOn s n .order .order (8 + ceilDiv (k + k2) 8)
        [lands s (8 + ceilDiv (k + k2) 8) (.tray out
          (mergeRuns before (k + k2) ((s.easel n).records a k) ((s.easel n).records (g.sAddr (b + 2)) k2)).flatten)])) ∧
    (Issues s n .order 0x42 w [(51, 5), (16, 5), (21, 5), (0, 1), (46, 5), (45, 1), (26, 19)] → b + 1 < 16 → k2 = (g.s' (b + 1)).toNat →
      k ≤ 8192 → 0 < k2 → k2 ≤ k → k2 ≤ 1024 → trayOk out (32 * k2) = true → areasOk out (32 * k2) [(a, 32 * k)] = true →
      exec (.topk n w) s = .next (issuedOn s n .order .order (16 + ceilDiv k 8 * (1 + ceilLog2 k2))
        [lands s (16 + ceilDiv k 8 * (1 + ceilLog2 k2)) (.tray out
          ((insertSort before ((s.easel n).records a k)).take k2).flatten)]))

/-- FSEL, DENSE and CMPCT on a tile that passes its checks, and a tile that fails its check (05 R156; 06 R172, R175, R177). -/
def Sys2Proof.Claims.MaskForms : Prop :=
  ∀ (s : State) (n : Nat) (w : IWord) (g : Engine) (a d : Nat), g = s.engine n .mask → a = g.trayAddr w → bits w 50 46 < 16 →
    bits w 55 51 < 16 → d = g.sAddr (bits w 55 51) → s.unitBusy n .mask .mask = false → trayOk a 32 = true → trayOk d 32 = true →
    (∀ b t, consume s.formats (s.easel n) a none = .ok b t →
      (Issues s n .mask 0x40 w [(51, 5), (46, 5), (45, 1), (26, 19)] → trayOk d (smallestForm b t).length = true →
        exec (.fsel n w) s = .next (issuedOn s n .mask .mask 32 [lands s 40 (.tray d (smallestForm b t))])) ∧
      (Issues s n .mask 0x41 w [(51, 5), (46, 5), (45, 1), (26, 19)] → trayOk d (asDense b t).length = true →
        exec (.dense n w) s = .next (issuedOn s n .mask .mask 32 [lands s 36 (.tray d (asDense b t))])) ∧
      (∀ m, Issues s n .mask 0x42 w [(51, 5), (16, 5), (46, 5), (45, 1), (26, 19)] → bits w 20 16 < 16 → m = g.sAddr (bits w 20 16) →
        trayOk m 128 = true → trayOk d (compact b t (le ((s.easel n).read m 128))).length = true →
        exec (.cmpct n w) s = .next (issuedOn s n .mask .mask 32 [lands s 40 (.tray d (compact b t (le ((s.easel n).read m 128))))]))) ∧
    (Issues s n .mask 0x40 w [(51, 5), (46, 5), (45, 1), (26, 19)] → consume s.formats (s.easel n) a none = .check →
      let h := (s.easel n).read a 32
      exec (.fsel n w) s = .next (issuedOn s n .mask .mask 32
        [lands s 31 (.checkFail 3 (tTile h) (tChunk h) (tCheck h) g.serves.1 g.serves.2 g.key)]))

/-- FILT, RECS and TWRAP (05 R156, R446). -/
def Sys2Proof.Claims.MaskRecords : Prop :=
  ∀ (s : State) (n : Nat) (w : IWord) (g : Engine) (a d b : Nat), g = s.engine n .mask → a = g.trayAddr w → bits w 50 46 < 16 →
    bits w 55 51 < 16 → d = g.sAddr (bits w 55 51) → b = bits w 20 16 → b < 16 → s.unitBusy n .mask .mask = false →
    (∀ f k kept, Issues s n .mask 0x43 w [(51, 5), (16, 5), (21, 5), (0, 3), (46, 5), (45, 1), (26, 19)] → s.keyFmt (bits w 25 21) = some f →
      b + 2 < 16 → bits w 55 51 + 1 < 16 → bits w 2 0 ≤ 5 → k = (g.s' b).toNat → k ≤ 8192 → trayOk a (32 * k) = true →
      kept = ((s.easel n).records a k).filter (fun r => keyIn (bits w 2 0) (keyCmp false (recKey f r) (f.value (g.pair (b + 1)).toNat))) →
      trayOk d (32 * kept.length) = true →
      exec (.filt n w) s = .next (issuedOn s n .mask .mask (ceilDiv k 8)
        [lands s (ceilDiv k 8 + 4) (.tray d kept.flatten),
         lands s (ceilDiv k 8 + 4) (.sreg (bits w 55 51 + 1) (BitVec.ofNat 32 kept.length))])) ∧
    (∀ f x t, Issues s n .mask 0x44 w [(51, 5), (16, 5), (21, 5), (46, 5), (45, 1), (26, 19)] → s.keyFmt (bits w 25 21) = some f →
      b + 1 < 16 → trayOk a 32 = true → trayOk d 32768 = true →
      consume s.formats (s.easel n) a (some (bits w 25 21)) = .ok x t →
      exec (.recs n w) s = .next (issuedOn s n .mask .mask 128
        [lands s 132 (.tray d (tileRecords t (g.s' b).toNat (g.s' (b + 1)).toNat))])) ∧
    (∀ f, Issues s n .mask 0x45 w [(51, 5), (16, 5), (21, 5), (46, 5), (45, 1), (26, 19)] → fmtOf s.formats (bits w 25 21) = some f →
      trayOk a (128 * f.width + (if f.block then 32 else 0)) = true → trayOk d (denseSize f) = true →
      let scales := if f.block then ((s.easel n).read (a + 128 * f.width) 32).map (·.toNat) else []
      let elems := unpack f.width 1024 ((s.easel n).read a (128 * f.width))
      scalesOk f scales = true →
      exec (.twrap n w) s = .next (issuedOn s n .mask .mask 32 [lands s 36 (.tray d
        (denseTile (g.s' b).toNat g.chunk.toNat (bits w 25 21) f (if f.block then clearNanBlocks scales elems else elems) scales 0 0))]))

/-- WAIT, TAKE and PUSH hold the engine from their issue on (04 R106, R112, R116; 05 R143): nothing else changes. That
the PC goes on at the issue is read from the rules by inference (assumption 13). -/
def Sys2Proof.Claims.HoldingInstructions : Prop :=
  ∀ (s : State) (n : Nat) (e : EngId) (w : IWord) (g : Engine), g = s.engine n e →
    let held := fun (k : HoldKind) =>
      s.setEngine n e (({ g with st := .hold, hold := some { kind := k, since := s.now, pc := g.pc } } : Engine).advance s.now .seq)
    (Issues s n e 0x04 w [(51, 5), (43, 8)] → bits w 50 43 ≠ 0 →
      exec (.wait n e w) s = .next (held (.wait (bits w 55 51) (bits w 50 43)))) ∧
    (Issues s n e 0x07 w [(30, 4)] → bits w 33 30 % 2 = 0 → exec (.take n e w) s = .next (held (.take (bits w 33 30)))) ∧
    (∀ t : EngId, Issues s n e 0x06 w [(40, 3), (30, 4)] → bits w 33 30 % 2 = 0 → bits w 42 40 = t.id → t ≠ e → s.hasEngine t = true →
      exec (.push n e w) s = .next (held (.push t (g.s' (bits w 33 30 + 1) ++ g.s' (bits w 33 30)))))

/-- SIGNAL (05 R143; 04 R110, R131): to a semaphore of the Easel in 1 cycle, to the Easels that its group scope reaches in 8, which it
wakes. -/
def Sys2Proof.Claims.SignalInstruction : Prop :=
  ∀ (s : State) (n : Nat) (e : EngId) (w : IWord) (g : Engine), g = s.engine n e →
    Issues s n e 0x05 w [(51, 5), (43, 8), (38, 2), (35, 3)] → bits w 50 43 ≠ 0 →
    (bits w 39 38 = 0 → bits w 37 35 = 0 →
      exec (.signal n e w) s = .next ((issued s n e .seq []).sendSig n
        { due := s.now + 1, sem := bits w 55 51, amt := bits w 50 43, sender := (n, e, g.pc) })) ∧
    (∀ l, bits w 39 38 = 1 ∨ bits w 39 38 = 2 → s.signalTargets n (bits w 39 38) (bits w 37 35) = some l →
      exec (.signal n e w) s = .next ((l.foldl (fun u m => (u.sendSig m
        { due := s.now + 8, sem := bits w 55 51, amt := bits w 50 43, sender := (n, e, g.pc) }).wake m)
          (s.setEngine n e { g with st := .run })).setEngine n e (({ g with st := .run } : Engine).advance s.now .seq)))

/-- END (04 R114, R125): the engine leaves its study; the last END of the generations served on an Easel whose semaphores are not all
zero is SEM_UNBALANCED. That signals which land in that cycle count is the model's choice (assumption 28). -/
def Sys2Proof.Claims.EndOfStudy : Prop :=
  ∀ (s : State) (n : Nat) (e : EngId) (w : IWord) (g : Engine), g = s.engine n e → Issues s n e 0x01 w [] →
    let sv := if g.test then (s.easel n).serving else s.noteEnd n e g
    let left := sv.filter (fun v => !s.servingDone n v)
    let unbalanced := left = [] ∧ (∃ v ∈ sv, s.servingDone n v = true) ∧ s.semLeft n = true
    (unbalanced → exec (.endStudy n e w) s = .next ((s.setEngine n e { g with st := .run }).issueFault n e 7 stState g.pc)) ∧
    (¬unbalanced → ∃ t, exec (.endStudy n e w) s = .next t ∧
      t.engine n e = { g with st := if g.startq.isEmpty then .idle else .ended, nextIssue := s.now + 1 } ∧
      (t.easel n).serving = left ∧ (t.easel n).idleSince = s.now ∧ (∀ d, d ≠ e → t.engine n d = s.engine n d) ∧
      (∀ m, m ≠ n → t.easel m = s.easel m) ∧ (g.test = true → t.coll = s.coll) ∧ t.mem = s.mem ∧ t.fab = s.fab ∧ t.clock = s.clock)

/-- RECV (05 R147; 04 R115): the oldest tile of the stage goes to the Tray, and its token to S[D] and S[D+1]; an empty stage is INSTR
with STATE. -/
def Sys2Proof.Claims.Receive : Prop :=
  ∀ (s : State) (n : Nat) (w : IWord) (g : Engine) (a : Nat), g = s.engine n .intake → a = g.trayAddr w → bits w 50 46 < 16 →
    bits w 55 51 < 16 → bits w 55 51 % 2 = 0 → s.unitBusy n .intake .rx = false →
    Issues s n .intake 0x40 w [(51, 5), (46, 5), (45, 1), (26, 19)] →
    ((s.easel n).stage = [] →
      exec (.recv n w) s = .next ((s.setEngine n .intake { g with st := .run }).issueFault n .intake 9 stState g.pc)) ∧
    (∀ t rest, (s.easel n).stage = t :: rest → trayOk a t.bytes.length = true →
      let k := ceilDiv t.bytes.length 128
      exec (.recv n w) s = .next (issuedOn (s.modEasel n (fun x => { x with stage := rest })) n .intake .rx k
        [lands s (2 + k) (.tray a t.bytes), lands s 1 (.sreg (bits w 55 51) (BitVec.ofNat 32 (a % 2 ^ 19))),
         lands s 1 (.sreg (bits w 55 51 + 1) (BitVec.ofNat 32 (tTile t.bytes)))]))

/-- SEND (05 R157): the tile at the Tray address is copied into the egress stage; a full stage and a bad LENGTH are INSTR. -/
def Sys2Proof.Claims.SendTile : Prop :=
  ∀ (s : State) (n : Nat) (w : IWord) (g : Engine) (a l : Nat), g = s.engine n .outlet → a = g.trayAddr w → bits w 50 46 < 16 →
    bits w 20 16 < 16 → s.unitBusy n .outlet .tx = false → l = tLength ((s.easel n).read a 32) →
    Issues s n .outlet 0x40 w [(16, 5), (11, 5), (46, 5), (45, 1), (26, 19)] →
    (8 ≤ (s.easel n).egress.length →
      exec (.send n w) s = .next ((s.setEngine n .outlet { g with st := .run }).issueFault n .outlet 9 stState g.pc)) ∧
    ((s.easel n).egress.length < 8 → trayOk a 32 = true → l = 0 ∨ 257 < l ∨ Config.trayBytes < a + 32 * l →
      exec (.send n w) s = .next ((s.setEngine n .outlet { g with st := .run }).issueFault n .outlet 9 stBadField g.pc)) ∧
    ((s.easel n).egress.length < 8 → trayOk a 32 = true → 1 ≤ l → l ≤ 257 → a + 32 * l ≤ Config.trayBytes →
      exec (.send n w) s = .next (issuedOn (s.modEasel n (fun x => { x with egress := x.egress ++
        [{ bytes := (s.easel n).read a (32 * l), sel := g.s' (bits w 20 16), sem := bits w 15 11, ctx := g.serves.1, gen := g.serves.2,
           chunk := g.key, test := g.test, pc := g.pc }] })) n .outlet .tx (ceilDiv (32 * l) 128) []))

/-- LOAD, GATHER, STORE and SCATTER (05 R147, R149, R157): an operation is outstanding from its issue; a ninth is UNIT_BUSY. STORE and
SCATTER read their bytes at issue. That a row of another shard is the local row of the same number is the model's choice (assumption 71). -/
def Sys2Proof.Claims.MemoryInstructions : Prop :=
  ∀ (s : State) (n : Nat) (w : IWord) (g : Engine) (a b len k : Nat), a = g.trayAddr w → bits w 50 46 < 16 →
    b = bits w 20 16 → bits w 55 51 < 16 → len = (g.s' (bits w 55 51)).toNat → k = bits w 15 11 →
    (g = s.engine n .intake → (s.easel n).outstanding true < 8 → b < 16 →
      (∀ m, Issues s n .intake 0x41 w [(51, 5), (16, 5), (11, 5), (0, 1), (46, 5), (45, 1), (26, 19)] → b % 2 = 0 →
        trayOk a len = true → lenOk len = true → m = (g.pair b).toNat → m % 32 = 0 → s.inRegions g.ctx m len = true →
        exec (.load n w) s = .next (issued (s.issueOp n g .load k (bits w 0 0 == 1) a len (runPieces m a len) []) n .intake .seq [])) ∧
      (∀ q d idx, Issues s n .intake 0x42 w [(51, 5), (16, 5), (11, 5), (0, 4), (46, 5), (45, 1), (26, 19)] →
        q = s.binding (bits w 3 0) → d = g.sAddr b → trayOk a (4 * len) = true → trayOk d (len * q.rowBytes) = true →
        idx = (s.easel n).indices a len → q.st = 1 → (∀ r ∈ idx, r < q.rows) →
        exec (.gather n w) s = .next (issued (s.issueOp n g .gather k false d (len * q.rowBytes)
          (((List.range len).zip idx).flatMap (fun p => runPieces (q.rowAddr p.2) (d + p.1 * q.rowBytes) q.rowBytes)) []) n .intake .seq []))) ∧
    (g = s.engine n .intake → 8 ≤ (s.easel n).outstanding true → b < 16 → b % 2 = 0 →
      Issues s n .intake 0x41 w [(51, 5), (16, 5), (11, 5), (0, 1), (46, 5), (45, 1), (26, 19)] →
      exec (.load n w) s = .next ((s.setEngine n .intake { g with st := .run }).issueFault n .intake 1 stState g.pc)) ∧
    (g = s.engine n .outlet → (s.easel n).outstanding false < 8 →
      (∀ m, Issues s n .outlet 0x41 w [(51, 5), (16, 5), (11, 5), (46, 5), (45, 1), (26, 19)] → b < 16 → b % 2 = 0 →
        trayOk a len = true → lenOk len = true → m = (g.pair b).toNat → m % 32 = 0 → s.inRegions g.ctx m len = true →
        exec (.store n w) s = .next (issued (s.issueOp n g .store k false a len []
          ((runPieces m a len).map (fun p => (p.1, (s.easel n).read p.2 32)))) n .outlet .seq [])) ∧
      (∀ q d idx, Issues s n .outlet 0x42 w [(51, 5), (16, 5), (11, 5), (0, 4), (46, 5), (45, 1), (26, 19)] → b + 2 < 16 →
        q = s.binding (bits w 3 0) → d = g.sAddr (b + 2) → trayOk a (4 * len) = true → trayOk d (len * q.rowBytes) = true →
        idx = (s.easel n).indices a len → q.st = 1 → (∀ r ∈ idx, r < q.rows) →
        exec (.scatter n w) s = .next (issued (s.issueOp n g .scatter k false a 0 []
          (((List.range len).zip idx).flatMap (fun p => (runPieces (q.rowAddr p.2) (d + p.1 * q.rowBytes) q.rowBytes).map
            (fun r => (r.1, (s.easel n).read r.2 32))))) n .outlet .seq [])))

/-- The completions of LOAD, GATHER, STORE and SCATTER (05 R142, R149): the last pieces move, the operation is no longer outstanding,
and its completion acts as a SIGNAL of amount 1 in this cycle. A LOAD that verifies its tiles fails at the first bad one, and an operation
whose data has an uncorrected error fails too: either is a failed check (06 R175, R177; 11 R326), after which the area has free bytes and
no completion is signalled. -/
def Sys2Proof.Claims.MemoryCompletions : Prop :=
  ∀ (s : State) (n id : Nat) (o : MemOp), s.isEasel n = true → s.computing = true → s.board.warmSeq = false → s.mem.takeover = [] →
    o.id = id → o.issued < s.now → o.spoilt = none →
    let left := s.modEasel n (fun x => { x with ops := x.ops.filter (fun z => z.id != id) })
    let signal := fun (u : State) => u.modEasel n (fun x =>
      { x with sigs := x.sigs ++ [{ due := s.now, sem := o.sem, amt := 1, sender := (n, o.eng, o.pc) }] })
    (∀ g : Bool, o.kind = (if g then .gather else .load) → o.check = false → o.data = [] → (∀ w ∈ (s.easel n).wrote, w.at' ≠ s.now) →
      (s.easel n).ops.find? (fun p => p.id == id && p.kind == o.kind) = some o →
      ∃ wrote, exec (if g then .gatherCompletion n id .clean else .loadCompletion n id .clean) s = .next (signal
        (left.modEasel n (fun x => { x with wrote, tray := o.todo.foldl (fun t p => putBytes 0 t p.2 (s.mem.read p.1 32)) x.tray })))) ∧
    (∀ g : Bool, o.kind = (if g then .scatter else .store) → o.check = false → o.todo = [] →
      (s.easel n).ops.find? (fun p => p.id == id && p.kind == o.kind) = some o →
      exec (if g then .scatterCompletion n id .clean else .storeCompletion n id) s = .next (signal
        { left with mem := o.data.foldl (fun m p => m.write p.1 p.2) s.mem })) ∧
    (o.kind = .load → o.check = true → o.data = [] → (∀ w ∈ (s.easel n).wrote, w.at' ≠ s.now) →
      (s.easel n).ops.find? (fun p => p.id == id && p.kind == .load) = some o →
      ∃ wrote, let u := left.modEasel n (fun x => { x with wrote, tray := o.todo.foldl (fun t p => putBytes 0 t p.2 (s.mem.read p.1 32)) x.tray })
        exec (.loadCompletion n id .clean) s = .next (match badTile 2048 (o.keep s.mem o.todo).area with
          | none => signal u
          | some (t, c, k) => (u.spoil n o.tray o.len).checkFail n 2 t c k o.ctx o.gen o.chunk)) ∧
    (∀ (g : Bool) ch, o.kind = (if g then .gather else .load) → o.eng = .intake → o.data = [] → (∀ w ∈ (s.easel n).wrote, w.at' ≠ s.now) →
      (s.easel n).ops.find? (fun p => p.id == id && p.kind == o.kind) = some o →
      ∃ wrote, let u := left.modEasel n (fun x => { x with wrote, tray := o.todo.foldl (fun t p => putBytes 0 t p.2 (s.mem.read p.1 32)) x.tray })
        let area := (u.easel n).read o.tray o.len
        exec (if g then .gatherCompletion n id (.uncorrected ch) else .loadCompletion n id (.uncorrected ch)) s =
          .next (((({ u with mem := u.mem.countUe s.now ch } : State).note 326 0 3 ch 0 [ch]).spoil n o.tray o.len).checkFail n 2
            (tTile area) (tChunk area) (tCheck area) o.ctx o.gen o.chunk)) ∧
    (∀ ch, o.kind = .scatter → o.eng = .outlet → o.todo = [] →
      (s.easel n).ops.find? (fun p => p.id == id && p.kind == .scatter) = some o →
      ∃ t c k, exec (.scatterCompletion n id (.uncorrected ch)) s =
        .next ((({ left with mem := s.mem.countUe s.now ch } : State).note 326 0 3 ch 0 [ch]).checkFail n 2 t c k o.ctx o.gen o.chunk))

/-- The writes of an engine land in their update cycle and no earlier, those of one cycle in issue order, whatever the order in which they
were issued with those of other cycles (04 R105, R107; 02 R57): S, C, K and V registers, exact slots, the Tray, the rounding mode, the
seed, the study's base and an empty loop stack, and FSTAT, in which what clears comes before what sets. What is not due stays on its way,
and no other engine changes, but that the start entries of a generation that fails by it are gone (07 R200). -/
def Obligations.WritesLandInOrder : Prop :=
  ∀ (s : State) (n : Nat) (e : EngId),
    let g := s.engine n e
    let due := g.pend.filter (fun p => decide (p.due ≤ s.now))
    let t := s.landEngine n e
    let h := t.engine n e
    h.pend = g.pend.filter (fun p => decide (s.now < p.due)) ∧
    h.s = due.foldl (fun r p => match p.what with | .sreg k v => tset 0 r k v | _ => r) g.s ∧
    h.c = due.foldl (fun r p => match p.what with | .creg k v => tset 0 r k v | _ => r) g.c ∧
    h.k = due.foldl (fun r p => match p.what with | .kreg k v => tset {} r k v | _ => r) g.k ∧
    h.v = due.foldl (fun r p => match p.what with | .vreg k v => tset 0 r k v | _ => r) g.v ∧
    h.slots = due.foldl (fun r p => match p.what with | .slot k v => tset {} r k v | _ => r) g.slots ∧
    (t.easel n).tray = due.foldl (fun r p => match p.what with | .tray a b => putBytes 0 r a b | _ => r) (s.easel n).tray ∧
    (h.rmode, h.flush) = due.foldl (fun r p => match p.what with | .fmode m f => (m, f) | _ => r) (g.rmode, g.flush) ∧
    h.seed = due.foldl (fun r p => match p.what with | .seed v => v | _ => r) g.seed ∧
    h.pc = due.foldl (fun r p => match p.what with | .study b => b | _ => r) g.pc ∧
    h.loops = due.foldl (fun r p => match p.what with | .noLoops => [] | _ => r) g.loops ∧
    h.fstat = due.foldl (fun r p => match p.what with | .flags f _ _ _ => r ||| f | _ => r)
      (due.foldl (fun r p => match p.what with | .clear f => r &&& ~~~f | _ => r) g.fstat) ∧
    h.st = g.st ∧ h.hold = g.hold ∧ h.tokenq = g.tokenq ∧
    (∀ m d, m ≠ n ∨ d ≠ e → { t.engine m d with startq := (s.engine m d).startq } = s.engine m d)

/-- SEM_RESOLVE (04 R112): the signals due are added to their semaphores; then a WAIT that its semaphore satisfies subtracts its amount
and the engine issues from the next cycle. -/
def Sys2Proof.Claims.SemaphoresResolve : Prop :=
  ∀ (s : State) (n : Nat), s.isEasel n = true → s.computing = true → (s.easel n).power = .awake → (s.easel n).stopAt = none →
    let amounts := fun (k : Nat) => (((s.easel n).sigs.filter (fun g => g.sem == k && decide (g.due ≤ s.now))).map (·.amt)).sum
    ((∀ e, ∀ h, (s.engine n e).hold = some h → h.kind.isWait = false) → tcanon 0 (s.easel n).sems = true →
      (∀ k, k < 32 → tget 0 (s.easel n).sems k + amounts k ≤ 65535) →
      ∃ t, exec (.semResolve n) s = .next t ∧ (∀ k, k < 32 → tget 0 (t.easel n).sems k = tget 0 (s.easel n).sems k + amounts k) ∧
        (t.easel n).sigs = (s.easel n).sigs.filter (fun g => !(decide (g.sem < 32) && decide (g.due ≤ s.now))) ∧
        (∀ e, t.engine n e = s.engine n e) ∧ (∀ m, m ≠ n → t.easel m = s.easel m)) ∧
    (∀ e k a h, (s.easel n).sigs = [] → (s.engine n e).hold = some h → h.kind = .wait k a → a ≤ tget 0 (s.easel n).sems k →
      (∀ d, d ≠ e → ∀ z, (s.engine n d).hold = some z → z.kind.isWait = false) →
      exec (.semResolve n) s = .next ((s.modEasel n (fun x => { x with sems := tset 0 x.sems k (tget 0 x.sems k - a) })).setEngine n e
        { s.engine n e with st := .run, hold := none, nextIssue := max (s.engine n e).nextIssue (s.now + 1) }))

/-- TOKEN_QUEUE_RESOLVE (04 R116): a push lands in the cycle after its issue while the queue had room at the start of the cycle, and the
pushing engine goes on; a TAKE takes the oldest token into its pair, one cycle later. -/
def Sys2Proof.Claims.TokenQueuesResolve : Prop :=
  ∀ (s : State) (n : Nat) (p q : EngId), p ≠ q → s.isEasel n = true → s.computing = true → (s.easel n).power = .awake →
    (s.easel n).stopAt = none → (∀ e, (s.engine n e).ahead = []) → (∀ e, e ≠ p → e ≠ q → (s.engine n e).hold = none) →
    (∀ h tok, (s.engine n p).hold = some h → h.kind = .push q tok → h.since < s.now → (s.engine n q).hold = none →
      (s.engine n q).tokenCycle ≠ s.now → (s.engine n q).tokenq.length < 16 →
      ∃ t, exec (.tokenQueueResolve n) s = .next t ∧ (t.engine n q).tokenq = (s.engine n q).tokenq ++ [tok] ∧
        (t.engine n p).hold = none ∧ (t.engine n p).st = .run ∧ (t.engine n p).nextIssue = max (s.engine n p).nextIssue s.now ∧
        (∀ e, (t.engine n e).s = (s.engine n e).s ∧ (t.engine n e).pend = (s.engine n e).pend) ∧ (∀ m, m ≠ n → t.easel m = s.easel m)) ∧
    (∀ h tok, (s.engine n p).hold = some h → h.kind = .push q tok → h.since < s.now → (s.engine n q).hold = none →
      (s.engine n q).tokenCycle ≠ s.now → 16 ≤ (s.engine n q).tokenq.length →
      ∃ t, exec (.tokenQueueResolve n) s = .next t ∧ (t.engine n q).tokenq = (s.engine n q).tokenq ∧ (t.engine n p).hold = some h) ∧
    (∀ h sp tok rest, (s.engine n q).hold = some h → h.kind = .take sp → (s.engine n p).hold = none → (s.engine n q).tokenq = tok :: rest →
      ∃ t, exec (.tokenQueueResolve n) s = .next t ∧ (t.engine n q).tokenq = rest ∧ (t.engine n q).hold = none ∧
        (t.engine n q).nextIssue = max (s.engine n q).nextIssue (s.now + 1) ∧
        (t.engine n q).pend = (s.engine n q).pend ++ [lands s 1 (.sreg sp (tok.setWidth 32)), lands s 1 (.sreg (sp + 1) ((tok >>> 32).setWidth 32))])

/-- WAIT_TIMEOUT (04 R113, R117, R127): an engine held for longer than ENG_WDOG allows faults with WAIT_TIMEOUT and TIMEOUT at the PC of
the instruction that holds it; a WAIT at its limit, a TAKE or PUSH beyond it. -/
def Obligations.WaitTimeouts : Prop :=
  ∀ (s : State) (n : Nat) (e : EngId) (h : Hold), s.isEasel n = true → s.hasEngine e = true → (s.engine n e).hold = some h →
    (s.computing = true → (s.engine n e).wdog ≠ 0 →
      h.since + (s.engine n e).wdog.toNat + (if h.kind.isWait then 0 else 1) ≤ s.now → (s.easel n).stopAt = none →
      exec (.waitTimeout n e) s = .next ((s.setEngine n e { s.engine n e with hold := none, st := .run }).issueFault n e 5 stTimeout h.pc)) ∧
    (s.now < h.since + (s.engine n e).wdog.toNat + (if h.kind.isWait then 0 else 1) ∨ (s.engine n e).wdog = 0 →
      exec (.waitTimeout n e) s = .next s)

/-- STUDY_SWITCH (04 R124, R125, R137; 13 R366): the engine takes its oldest start entry; the PC goes to the study's base in one cycle, the loop
stack is emptied in the next, in which the entry's words land in C0 to C3 and S13 to S15, and for a generation that it has not served
yet the template's FMODE and seed follow. -/
def Sys2Proof.Claims.StudySwitches : Prop :=
  ∀ (s : State) (n : Nat) (e : EngId) (g : Engine) (q : StartEntry) (rest : List StartEntry) (c0 : Nat), s.isEasel n = true →
    s.hasEngine e = true → g = s.engine n e → g.startq = q :: rest → c0 = max g.nextIssue q.arrived → 1 ≤ c0 → c0 ≤ s.now →
    s.computing = true → s.aclk = true → (s.easel n).power = .awake → g.st = .idle ∨ g.st = .ended → (s.easel n).stopAt = none →
    ∃ t, exec (.studySwitch n e) s = .next t ∧ (t.engine n e).startq = rest ∧ (t.engine n e).st = .switch ∧
      (t.engine n e).pc = g.pc ∧ (t.engine n e).loops = g.loops ∧ (t.engine n e).study = q.study ∧
      (t.engine n e).ctx = q.ctx ∧ (t.engine n e).gen = q.gen ∧ (t.engine n e).chunk = q.chunk ∧ (t.engine n e).nextIssue = c0 + 8 ∧
      (t.engine n e).s = g.s ∧ (t.engine n e).c = g.c ∧ (t.engine n e).v = g.v ∧ (t.engine n e).slots = g.slots ∧
      (∀ d, d ≠ e → t.engine n d = s.engine n d) ∧ (∀ m, m ≠ n → t.easel m = s.easel m) ∧ (t.easel n).tray = (s.easel n).tray ∧
      (let at' := fun (k : Nat) (x : Landing) => ({ due := c0 + k, what := x, issued := s.now } : Pending)
       let words : List Pending := [at' 1 (.study (g.studyAt q.study).base), at' 2 .noLoops,
          at' 2 (.creg 0 q.a0), at' 2 (.creg 1 q.a1), at' 2 (.creg 2 q.a2), at' 2 (.creg 3 q.a3), at' 2 (.sreg 13 q.chunk),
          at' 2 (.sreg 14 (BitVec.ofNat 32 (match s.groupOf n with | some z => 2 ^ z.log2 | none => 1))),
          at' 2 (.sreg 15 (BitVec.ofNat 32 (match s.groupOf n with | some z => n - z.base | none => 0)))]
       (q.test = true → (t.engine n e).pend = g.pend ++ words ++ [at' 3 (.fmode 0 false), at' 3 (.seed 0)]) ∧
       (q.test = false → g.served = some (q.ctx, q.gen) → (t.engine n e).pend = g.pend ++ words) ∧
       (q.test = false → g.served ≠ some (q.ctx, q.gen) → (t.engine n e).pend = g.pend ++ words ++
          [at' 3 (.fmode (BitVec.ofNat 3 (s.ctx q.ctx).rmode) (s.ctx q.ctx).flushBit),
           at' 3 (.seed (BitVec.ofNat 64 (s.ctx q.ctx).seedField))]))

/-- EASEL_RETURN_IDLE (04 R127): once all that was issued has landed, the queues, loop stacks and semaphores are empty and the engines
idle, and what waited at the ingress port is gone, its buffer cells freed; Tray, IMEM, study tables and the other registers stay. -/
def Sys2Proof.Claims.ReturnToIdle : Prop :=
  ∀ (s : State) (n k : Nat), s.isEasel n = true → s.computing = true → (s.easel n).stopAt = some k → k < s.now → s.settled n = true →
    s.incomplete n = [] →
    exec (.easelReturnIdle n) s = .next ((s.easel n).waiting.foldl (fun u t => u.freeEject t.src t.vc t.cells) (s.setEasel n { s.easel n with
      eng := (s.easel n).eng.map (fun p => (p.1, { p.2 with st := .idle, startq := [], tokenq := [], ahead := [], loops := [], hold := none,
                                                            nextIssue := s.now })),
      sems := [], sigs := [], stage := [], waiting := [], serving := [], stopAt := none, stopIsFault := false, idleSince := s.now }))

/-- EASEL_LOW_POWER_ENTRY and EASEL_WAKE (04 R132, R133, R136): an Easel that rests for its delay enters DOZE or SLEEP, with a wake ahead
if a signal is still on its way to it. That the idle time counts anew from the wake is the model's choice (assumption 64). -/
def Sys2Proof.Claims.EaselPower : Prop :=
  ∀ (s : State) (n : Nat), s.isEasel n = true → s.computing = true →
    ((s.easel n).power = .awake → (s.easel n).holdAwake = false → (s.easel n).stopAt = none → (s.easel n).resting = true →
      (s.easel n).idleSince + 64 * max 1 (s.easel n).idleDelay ≤ s.now →
      ∃ k, exec (.easelLowPowerEntry n) s =
          .next (s.setEasel n { s.easel n with power := if (s.easel n).dozeOnly then .doze else .sleep, wakeBy := k }) ∧
        ((s.easel n).sigs = [] → k = none) ∧
        (∀ g, (s.easel n).sigs = [g] → k = some (max g.due s.now + if (s.easel n).dozeOnly then 8 else 304))) ∧
    ((s.easel n).holdAwake = true → exec (.easelLowPowerEntry n) s = .next s) ∧
    (∀ k, (s.easel n).wakeBy = some k → exec (.easelWake n) s = .next (s.setEasel n { s.easel n with
      power := .awake, wakeBy := none, idleSince := s.now,
      eng := (s.easel n).eng.map (fun p => (p.1, { p.2 with nextIssue := max p.2.nextIssue s.now })) }))

/-- INGRESS_STAGE_PLACE (05 R148) completes on every Easel that the device has, and START_ENTRY_PUSH (04 R124; 07 R203) too. The first
waiting tile that may enter goes to the end of a stage with room, in an AWAKE Easel that is not stopped, and its buffer cells are free; with
no such tile, or no room, nothing changes. Intake's start entry covers the uncovered tiles of the lowest chunk of one generation and counts
them in A1; the entry of another engine counts the chunk's tiles on the Easel. -/
def Obligations.StageAndStartEntries : Prop :=
  ∀ (s : State) (n : Nat), s.isEasel n = true →
    let awake := s.computing = true ∧ (s.easel n).power = .awake ∧ (s.easel n).stopAt = none
    let noRing := ∀ d ∈ s.boundTo n, ∀ z ∈ (s.ctx d).gens, z.path ≠ .ring
    (∃ u, exec (.ingressStagePlace n) s = .next u ∧ u.mem = s.mem ∧ u.clock = s.clock ∧ u.dev = s.dev ∧ u.formats = s.formats ∧
      (∀ e, u.engine n e = s.engine n e) ∧ (∀ m, m ≠ n → u.easel m = s.easel m)) ∧
    (∃ u, exec (.startEntryPush n) s = .next u ∧ u.mem = s.mem ∧ u.clock = s.clock ∧ u.dev = s.dev ∧ u.fab = s.fab ∧ u.formats = s.formats) ∧
    (∀ l1 t l2, awake → (s.easel n).waiting = l1 ++ t :: l2 → (∀ u ∈ l1, s.mayEnter n u = false) → s.mayEnter n t = true →
      (s.easel n).stage.length < 8 → tcanon 0 s.fab.ejected = true →
      ∃ u, exec (.ingressStagePlace n) s = .next u ∧ (u.easel n).stage = (s.easel n).stage ++ [t] ∧ (u.easel n).waiting = l1 ++ l2 ∧
        (∀ e, u.engine n e = s.engine n e) ∧ tget 0 u.fab.ejected t.vc = tget 0 s.fab.ejected t.vc - t.cells ∧ u.mem = s.mem ∧
        (∀ m, m ≠ n → u.easel m = s.easel m)) ∧
    ((∀ t ∈ (s.easel n).waiting, s.mayEnter n t = false) ∨ 8 ≤ (s.easel n).stage.length ∨ ¬awake → exec (.ingressStagePlace n) s = .next s) ∧
    (s.pushCycle = false ∨ ¬awake → exec (.startEntryPush n) s = .next s) ∧
    (∀ t0 c y k cov, awake → s.pushCycle = true → s.owedChunks n = [] → noRing → (s.easel n).stage.find? (fun t => !t.covered) = some t0 →
      c = s.ctx t0.ctx → c.gen? t0.gen = some y → y.failed = none → EngId.intake ∈ c.engines → (s.engine n .intake).startq = [] →
      cov = (fun (t : InTile) => !t.covered && t.ctx == t0.ctx && t.gen == t0.gen && t.chunk == k) → (∃ t ∈ (s.easel n).stage, cov t = true) →
      (let order := fun (k : Nat) => k % 2 ^ 32 * 2 ^ 32 + k / 2 ^ 32
       ∀ t ∈ (s.easel n).stage, t.covered = false → t.ctx = t0.ctx → t.gen = t0.gen → t.chunk = k ∨ order k < order t.chunk) →
      ∃ u q, exec (.startEntryPush n) s = .next u ∧ (u.engine n .intake).startq = [q] ∧
        q.a1 = BitVec.ofNat 32 ((s.easel n).stage.filter cov).length ∧ q.ctx = t0.ctx ∧ q.gen = t0.gen ∧
        q.chunk = BitVec.ofNat 32 (k % 2 ^ 32) ∧ q.study = c.studyOf .intake ∧ q.arrived = s.now ∧ q.test = false ∧
        (u.easel n).stage = (s.easel n).stage.map (fun t => if cov t then { t with covered := true } else t) ∧
        (∀ d, d ≠ .intake → u.engine n d = s.engine n d)) ∧
    (∀ at' c g k e y, awake → s.pushCycle = true → s.owedChunks n = [(at', c, g, k)] → noRing → (∀ t ∈ (s.easel n).stage, t.covered = true) →
      (s.ctx c).gen? g = some y → y.failed = none → (s.ctx c).engines.filter (· != .intake) = [e] → (n, e) ∉ (y.chunk k).pushed →
      (s.engine n e).startq.length < 16 →
      ∃ u q, exec (.startEntryPush n) s = .next u ∧ (u.engine n e).startq = (s.engine n e).startq ++ [q] ∧
        q.a1 = BitVec.ofNat 32 (s.tilesOn (s.ctx c) (s.geo (s.ctx c)) y ((s.geo (s.ctx c)).node (k / 2 ^ 32)) (k % 2 ^ 32) n).length ∧
        q.ctx = c ∧ q.gen = y.num ∧ q.chunk = BitVec.ofNat 32 (k % 2 ^ 32) ∧ q.study = (s.ctx c).studyOf e ∧ q.arrived = s.now ∧
        q.test = false ∧ (∀ d, d ≠ e → u.engine n d = s.engine n d) ∧ (u.easel n).stage = (s.easel n).stage)

/-- PORT_CFG_WRITE on PORT_CFG, LPORT_CFGk and LPEERk by PF0 (09 R236, R237, R280): settings are taken while the port is disabled; a
change of breakout, or of an enabled port's LPORT_CFGk or LPEERk, is recorded with STATE and ignored. The
status and the index of these records are the model's choice (assumptions 39 and 76). -/
def Sys2Proof.Claims.PortConfiguration : Prop :=
  ∀ (s₀ s : State) (n k : Nat) (v : Word), Writes s₀ s 0 → n < 128 → k < 8 →
    let p := 8 * n + k
    ((s.port n).enabled = false → v.toNat / 8 % 4 ≠ 3 →
      ∃ t, exec (.portCfgWrite 0 n .portCfg v) s₀ = .next t ∧ (t.port n).cfg = BitVec.ofNat 5 v.toNat ∧ (∀ m, m ≠ n → t.port m = s.port m) ∧
        ((∀ j, j < 8 → (s.lport (8 * n + j)).up = false) → t.diary = s.diary)) ∧
    ((s.port n).enabled = true → (s.port n).breakout ≠ v.toNat % 4 →
      exec (.portCfgWrite 0 n .portCfg v) s₀ = .next (s.notePort 237 0 (8 * n) stState [])) ∧
    (v.toNat / 8 % 4 = 3 → (s.port n).enabled = false ∨ (s.port n).breakout = v.toNat % 4 →
      exec (.portCfgWrite 0 n .portCfg v) s₀ = .next s) ∧
    (s.fab.exists' p = true → v.toNat % 8 < 5 → (v.toNat % 8 = roleExpress → v.toNat / 64 % 64 < 4) → (s.port n).enabled = false →
      exec (.portCfgWrite 0 n (.lportCfg k) v) s₀ = .next (s.setLPort p { s.lport p with cfg := BitVec.ofNat 12 v.toNat })) ∧
    (s.fab.exists' p = true → (s.port n).enabled = true → BitVec.ofNat 12 v.toNat ≠ (s.lport p).cfg →
      exec (.portCfgWrite 0 n (.lportCfg k) v) s₀ = .next (s.notePort 237 0 p stState [])) ∧
    (s.fab.exists' p = true → 5 ≤ v.toNat % 8 → (s.port n).enabled = false → exec (.portCfgWrite 0 n (.lportCfg k) v) s₀ = .next s) ∧
    (s.fab.exists' p = false → exec (.portCfgWrite 0 n (.lportCfg k) v) s₀ = .next (s.ignored 0 385)) ∧
    (s.fab.exists' p = true → (s.port n).enabled = true → BitVec.ofNat 24 v.toNat ≠ (s.lport p).peer →
      exec (.portCfgWrite 0 n (.lpeer k) v) s₀ = .next (s.notePort 237 0 p stState [])) ∧
    (s.fab.exists' p = true → (s.port n).enabled = false →
      exec (.portCfgWrite 0 n (.lpeer k) v) s₀ = .next (s.setLPort p { s.lport p with peer := BitVec.ofNat 24 v.toNat }))

/-- The scheduler, shaper, gate and buffer-limit registers of a port, written by PF0 (10 R283, R285, R294, R298, R303, R305): the field
written, and what a write outside its rule does. The statuses and indices of the records of R283, R285 and R303 are the model's choice
(assumptions 39 and 76). -/
def Sys2Proof.Claims.SchedulerRegisters : Prop :=
  ∀ (s₀ s : State) (n vc : Nat) (v : Word), Writes s₀ s 0 → n < 128 → vc < 8 →
    (∀ k prios, k = v.toNat / 2 % 8 → 1 ≤ k → k ≤ 4 → prios = (List.range k).map (fun i => v.toNat / 2 ^ (8 + 3 * i) % 8) → 1 ∉ prios →
      prios.Nodup → ∃ t, exec (.schedCfgWrite 0 n none v) s₀ = .next t ∧
        (t.port n).sched = BitVec.ofNat 20 (v.toNat - 16 * (v.toNat / 16 % 16)) ∧ (∀ m, m ≠ n → t.port m = s.port m)) ∧
    (v.toNat / 2 % 8 = 0 ∨ 4 < v.toNat / 2 % 8 → exec (.schedCfgWrite 0 n none v) s₀ = .next s) ∧
    (vc ≠ 1 → 1 ≤ v.toNat % 512 → v.toNat % 512 ≤ 256 → ∃ t, exec (.schedCfgWrite 0 n (some vc) v) s₀ = .next t ∧
      tget? (t.port n).quantum vc = some (v.toNat % 512) ∧ (∀ m, m ≠ n → t.port m = s.port m)) ∧
    (vc ≠ 1 → ∃ t, exec (.shapeCfgWrite 0 n vc false v) s₀ = .next t ∧ tget? (t.port n).shapeCfg vc = some (BitVec.ofNat 18 v.toNat) ∧
      (∀ m, m ≠ n → t.port m = s.port m) ∧
      (v.toNat.testBit 17 = false → (∀ j, j < 8 → tcanon 0 (s.lport (8 * n + j)).shaper = true) → ∀ j, j < 8 → tget 0 (t.lport (8 * n + j)).shaper vc = 0)) ∧
    (vc ≠ 1 → v.toNat % 65536 ≠ 0 → ∃ t, exec (.shapeCfgWrite 0 n vc true v) s₀ = .next t ∧
      tget? (t.port n).burst vc = some (v.toNat % 65536) ∧ (∀ m, m ≠ n → t.port m = s.port m)) ∧
    (∀ c, c < 16 → c ≠ 2 → c ≠ 3 → (s.port n).enabled = false →
      s.fab.claimed - (s.port n).bufLimitOf c + v.toNat % 2 ^ 15 ≤ Config.bufferCells →
      exec (.bufLimitWrite 0 n c v) s₀ = .next (s.setPort n { s.port n with bufLimit := tput (s.port n).bufLimit c (v.toNat % 2 ^ 15) })) ∧
    (∀ c, c < 16 → c ≠ 2 → c ≠ 3 → (s.port n).enabled = true →
      exec (.bufLimitWrite 0 n c v) s₀ = .next (s.notePort 283 0 (8 * n) stState [])) ∧
    (∀ c, c < 16 → c ≠ 2 → c ≠ 3 → (s.port n).enabled = false →
      Config.bufferCells < s.fab.claimed - (s.port n).bufLimitOf c + v.toNat % 2 ^ 15 →
      exec (.bufLimitWrite 0 n c v) s₀ = .next (s.notePort 285 0 (8 * n) stNoSpace [])) ∧
    (v.toNat / 256 % 256 ≤ 128 → v.toNat / 65536 % 256 ≤ 128 → v.toNat.testBit 1 = false → (s.port n).gatePending = false →
      (s.port n).active = false → v.toNat / 256 % 256 = (s.port n).listA.len →
      exec (.gateArm 0 n v) s₀ = .next (s.setPort n { s.port n with
        gateEn := v.toNat.testBit 0, listB := { (s.port n).listB with len := v.toNat / 65536 % 256 } })) ∧
    (∀ x : Port, x = { s.port n with gateEn := v.toNat.testBit 0, listA := { (s.port n).listA with len := v.toNat / 256 % 256 },
                                     listB := { (s.port n).listB with len := v.toNat / 65536 % 256 } } →
      v.toNat / 256 % 256 ≤ 128 → v.toNat / 65536 % 256 ≤ 128 →
      ((s.port n).active = false ∨ (s.port n).gatePending = true → v.toNat / 256 % 256 = (s.port n).listA.len) →
      ((s.port n).active = true ∨ (s.port n).gatePending = true → v.toNat / 65536 % 256 = (s.port n).listB.len) →
      let list := if x.active then x.listA else x.listB
      let runs := 0 < list.len ∧ ∀ i, i < list.len → (tget (0, 0) list.ents i).2 ≠ 0
      (v.toNat.testBit 1 = false → exec (.gateArm 0 n v) s₀ = .next (s.setPort n x)) ∧
      (v.toNat.testBit 1 = true → runs → s.clock.ftime.toNat < x.switchAt.toNat →
        exec (.gateArm 0 n v) s₀ = .next (s.setPort n { x with armedAt := x.switchAt, gatePending := true })) ∧
      (v.toNat.testBit 1 = true → runs → x.switchAt.toNat ≤ s.clock.ftime.toNat →
        ∃ t, exec (.gateArm 0 n v) s₀ = .next t ∧ (t.port n).active = !x.active ∧ (t.port n).gatePending = false ∧ (t.port n).late = true ∧
          (t.port n).t0 = x.switchAt.toNat ∧ (t.port n).gateEn = x.gateEn ∧ (∀ m, m ≠ n → t.port m = s.port m) ∧ t.mem = s.mem) ∧
      (v.toNat.testBit 1 = true → ¬runs →
        exec (.gateArm 0 n v) s₀ = .next ((s.setPort n x).notePort 303 1 (8 * n) stBadField []))) ∧
    (128 < v.toNat / 256 % 256 ∨ 128 < v.toNat / 65536 % 256 → exec (.gateArm 0 n v) s₀ = .next s)

/-- The route and group tables (09 R255, R263, R281; 12 R361): an entry within the fabric and outside the refused forms is taken; the
mask of a group waits for the word that holds VALID; in Grisaille mode the tables are frozen. -/
def Sys2Proof.Claims.RouteAndGroupTables : Prop :=
  ∀ (s₀ s : State) (i g : Nat) (v : Word), Writes s₀ s 0 → i < 131072 → g < 16384 →
    (s.dev = .grisaille → exec (.routeEntryWrite 0 i v) s₀ = .next (s.noteDev 361 0 stDegraded []) ∧
      exec (.groupEntryValidWrite 0 g v) s₀ = .next (s.noteDev 361 0 stDegraded [])) ∧
    (s.dev ≠ .grisaille → i < s.fab.switches → s.fab.routeBad i v.toNat = false →
      exec (.routeEntryWrite 0 i v) s₀ = .next (s.setFab { s.fab with routes := tset 0 s.fab.routes i (BitVec.ofNat 32 (v.toNat % 2 ^ 29)) })) ∧
    (s.dev ≠ .grisaille → s.fab.routeBad i v.toNat = true → exec (.routeEntryWrite 0 i v) s₀ = .next s) ∧
    (∀ mask, s.dev ≠ .grisaille → tget? s.fab.groupHeld g = some mask →
      exec (.groupEntryValidWrite 0 g v) s₀ = .next (s.setFab { s.fab with
        groups := tset 0 s.fab.groups g (BitVec.ofNat 129 (mask.toNat + 2 ^ 128 * (v.toNat % 2))), groupHeld := tdel s.fab.groupHeld g }))

/-- HBM_MAPOUT, DIARY_CTRL, GESSO_MODE, DET_CTRL, APERTURE and EASEL_CTRL (11 R311, R316, R318; 15 R425; 13 R368; 14 R388, R404; 04 R134,
R136). What memory and the cache hold after a change of GESSO_MODE, and the indices of the records, are the model's choice (assumptions 5, 6
and 39). -/
def Sys2Proof.Claims.ControlRegisters : Prop :=
  ∀ (s₀ s : State) (f n : Nat) (v : Word), Writes s₀ s f →
    (f = 0 → v.toNat.testBit 31 = true → s.mem.serves (v.toNat % 128) = true →
      exec (.hbmMapoutWrite f v) s₀ = .next (s.mapOut (v.toNat % 128))) ∧
    (f = 0 → v.toNat.testBit 31 = true → s.mem.serves (v.toNat % 128) = false → s.mem.isSpare (v.toNat % 128) = false → s.mem.takeover = [] →
      exec (.hbmMapoutWrite f v) s₀ = .next (s.note 311 0 3 (v.toNat % 128) stState [])) ∧
    (f = 0 → v.toNat.testBit 0 = true → s.mem.lostHbm = false → s.dev = .running ∨ s.dev = .grisaille →
      exec (.diaryCtrlFlush f v) s₀ = .next (State.startFlush { s with diary := { s.diary with gapMs := v.toNat / 65536 } } 1)) ∧
    (f = 0 → s.openCtxs ≠ [] → ∀ hi, exec (.gessoModeWrite f hi v) s₀ = .next (s.noteDev 318 0 stState [])) ∧
    (f = 0 → s.openCtxs = [] → s.mem.scratch = 0 → v ≠ 0 → exec (.gessoModeWrite f false v) s₀ = .next (s.setMem
      { s.mem with scratch := v.setWidth 64, lines := [], cells := s.mem.cells.filter (fun p => decide (p.1 < Config.scratchBase)) })) ∧
    (f = 0 → v.toNat.testBit 0 ≠ s.coll.strict → s.openCtxs = [] →
      exec (.detCtrlWrite f v) s₀ = .next (s.setColl { s.coll with strict := v.toNat.testBit 0 })) ∧
    (f = 0 → v.toNat.testBit 0 ≠ s.coll.strict → s.openCtxs ≠ [] → exec (.detCtrlWrite f v) s₀ = .next (s.noteDev 368 0 stState [])) ∧
    (exec (.apertureWrite f v) s₀ = .next (s.modFunc f (fun x => { x with aperture := BitVec.ofNat 12 v.toNat }))) ∧
    (n < 256 → s.isEasel n = true → (s.easel n).owner = f →
      let u := s.modEasel n (fun x =>
        { x with holdAwake := v.toNat.testBit 0, dozeOnly := v.toNat.testBit 1, idleDelay := v.toNat / 65536 })
      exec (.easelCtrlWrite f n v) s₀ = .next (if v.toNat.testBit 0 then u.wake n else u)) ∧
    (n < 256 → s.isEasel n = true → (s.easel n).owner ≠ f → exec (.easelCtrlWrite f n v) s₀ = .next (s.ignored f 385))

/-- Writes through BAR0 and the completions of its reads (14 R385, R387, R391, R402-R404; 01 R29). The bits that a
poisoned write and an abort set in Advanced Error Reporting are the family's (assumption 77). -/
def Sys2Proof.Claims.Bar0Accesses : Prop :=
  ∀ (s₀ s : State) (f : Nat), Writes s₀ s f →
    (∀ off data, exec (.registerWrite f off data true) s₀ = .next (s.poisoned f)) ∧
    (∀ off data, writeOk off data.length = false → exec (.registerWrite f off data false) s₀ = .next (s.note 387 0 5 f 0 [])) ∧
    (∀ v : Word, exec (.registerWrite f 0x1_1024 (toLE 4 v.toNat) false) s₀ =
      .next (s.modFunc f (fun x => { x with intEnable := v.setWidth 16 }))) ∧
    (∀ off data, 0x2_0000 ≤ off → off + data.length ≤ 0x2_4000 →
      data.length = 1 ∨ data.length = 2 ∧ off % 2 = 0 ∨ data.length ≠ 0 ∧ data.length % 4 = 0 ∧ off % 4 = 0 →
      off / 64 = (off + data.length - 1) / 64 → ∃ t, exec (.registerWrite f off data false) s₀ = .next t ∧
        (t.func f).slots = putBytes 0 (s.func f).slots (off - 0x2_0000) data ∧ (∀ g, g ≠ f → t.func g = s.func g) ∧ t.mem = s.mem) ∧
    (∀ slot v, slot < 256 → ((s.func f).result slot).st = 2 → ((s.func f).result slot).gen = v →
      ∃ t, exec (.retire f slot v) s₀ = .next t ∧ ((t.func f).result slot).st = 0 ∧
        (∀ i, i ≠ slot → (t.func f).result i = (s.func f).result i) ∧ (∀ g, g ≠ f → t.func g = s.func g)) ∧
    (∀ slot v, slot < 256 → ((s.func f).result slot).st ≠ 2 ∨ ((s.func f).result slot).gen ≠ v →
      exec (.retire f slot v) s₀ = .next (s.ignored f 385)) ∧
    (exec (.ftimeLoRead f) s₀ = .next ((s₀.modFunc f (fun x =>
      { x with timeLatch := some ((s₀.clock.ftime >>> 32).setWidth 32) })).emit
        (.completion f (some (toLE 4 (s₀.clock.ftime.toNat % 2 ^ 32)))))) ∧
    (exec (.cmdNextLoRead f) s₀ = .next ((s₀.modFunc f (fun x =>
      { x with nextLatch := some (((s₀.func f).next >>> 32).setWidth 32) })).emit
        (.completion f (some (toLE 4 ((s₀.func f).next.toNat % 2 ^ 32)))))) ∧
    (∀ off len, readOk off len = false → exec (.bar0AccessRefused f off len) s₀ = .next ((s₀.note 387 0 5 f 0 []).abortRead f))

/-- MSIX_UNMASK (14 R386, R406): clearing a vector's mask sends the message held for it; clearing the function mask sends what the
vectors' own masks let through. -/
def Sys2Proof.Claims.MsixUnmasking : Prop :=
  ∀ (s₀ s : State) (f v : Nat), Writes s₀ s f → v < 16 →
    (∃ t, exec (.msixUnmask f (some v)) s₀ = .next t ∧ (bitAt ((t.func f).msixEntry v).toNat 96 = false) ∧
      (bitAt (s.func f).msixPend.toNat v = true → (s.func f).msixMasked = false →
        t.outs = s.outs ++ [.msix f v] ∧ bitAt (t.func f).msixPend.toNat v = false) ∧
      (bitAt (s.func f).msixPend.toNat v = false → t.outs = s.outs)) ∧
    (∃ t, exec (.msixUnmask f none) s₀ = .next t ∧ (t.func f).msixMasked = false ∧ (t.func f).msix = (s.func f).msix ∧
      ((s.func f).msixPend = 0 → t.outs = s.outs))

/-- BAR2_ACCESS (14 R388; 11 R326): a read of memory that the function may reach returns its bytes, a write replaces them; a read it may
not make ends with Completer Abort, a write is recorded and dropped. -/
def Obligations.ApertureAccesses : Prop :=
  ∀ (s : State) (f off : Nat), Reaches s f → s.board.warmSeq = false → s.mem.takeover = [] →
    let a := (s.func f).aperture.toNat * 2 ^ 30 + off
    (∀ len, off + len ≤ 2 ^ 36 → s.apertureOk f a len = true →
      ∃ t, exec (.bar2Access f off len none .clean false) s = .next t ∧ t.outs = s.outs ++ [.completion f (some (s.mem.read a len))] ∧
        t.mem.cells = s.mem.cells ∧ t.funcs = s.funcs) ∧
    (∀ len, off + len ≤ 2 ^ 36 → s.apertureOk f a len = false →
      exec (.bar2Access f off len none .clean false) s = .next (s.abortRead f)) ∧
    (∀ b, off + b.length ≤ 2 ^ 36 → s.apertureOk f a b.length = true →
      ∃ t, exec (.bar2Access f off b.length (some b) .clean false) s = .next t ∧ t.mem.cells = (s.mem.write a b).cells ∧
        t.outs = s.outs ∧ t.funcs = s.funcs) ∧
    (∀ b, off + b.length ≤ 2 ^ 36 → s.apertureOk f a b.length = false →
      exec (.bar2Access f off b.length (some b) .clean false) s = .next (s.note 388 0 5 f 0 []))

/-- COMMAND_TAKE on a slot whose SEQ is nonzero and neither the expected one nor the slot's previous one (14 R395): CMD_ERR.SEQUENCE is
set, the slot index and the status SEQUENCE are recorded, and the bit of vector CMD_ERR is set; nothing is taken. The same SEQ is recorded
once. -/
def Obligations.SequenceErrors : Prop :=
  ∀ (s : State) (f i : Nat) (q : DWord), f < 4 → s.hostWorks = true → s.enabled f = true → i = (s.func f).next.toNat % 256 →
    q.toNat = leAt ((s.func f).slotBytes i) 56 8 → q ≠ (s.func f).next → q ≠ 0 → q ≠ (s.func f).next - 256 →
    (tget? (s.func f).errLast i ≠ some q →
      ∃ t, exec (.commandTake f) s = .next t ∧ (t.func f).errSeq = true ∧ (t.func f).errSlot = i ∧ tget? (t.func f).errLast i = some q ∧
        (s.diary.queue.length < 64 → ∃ e ∈ t.diary.queue, e.rule = 395 ∧ e.status = stSequence ∧ e.payload = [i]) ∧
        (t.func f).intStatus = (s.func f).intStatus ||| 2 ∧ (t.func f).next = (s.func f).next ∧ (t.func f).taken = (s.func f).taken ∧
        (t.func f).results = (s.func f).results ∧ (t.func f).slots = (s.func f).slots ∧ t.outs = s.outs) ∧
    (tget? (s.func f).errLast i = some q → exec (.commandTake f) s = .next s)

/-- COMMAND_TAKE and HOST_READ_COMPLETION (14 R394, R399): a slot with the expected SEQ and a free result slot is taken, the result slot is
PENDING and CMD_NEXT counts on; the host memory that the command reads is asked for in requests of at most the function's Max Read Request
Size; a slot with SEQ zero or its previous one is left alone; a host read's bytes go to the command that waits for them. -/
def Sys2Proof.Claims.CommandTaking : Prop :=
  ∀ (s : State) (f i : Nat) (b : Bytes), f < 4 → s.hostWorks = true → s.enabled f = true → i = (s.func f).next.toNat % 256 →
    b = (s.func f).slotBytes i →
    (leAt b 56 8 = (s.func f).next.toNat → ((s.func f).result i).st = 0 →
      ∃ t k, exec (.commandTake f) s = .next t ∧ (t.func f).taken = (s.func f).taken ++ [k] ∧ k.slot = i ∧ k.seq = (s.func f).next ∧
        k.bytes = b.take 56 ∧ (t.func f).next = (s.func f).next + 1 ∧ ((t.func f).result i).st = 1 ∧
        ((t.func f).result i).gen = ((s.func f).result i).gen ∧ ((t.func f).result i).payload = ((s.func f).result i).payload ∧
        (∀ j, j ≠ i → (t.func f).result j = (s.func f).result j) ∧
        (∀ a n, wantsOf b = some (a, n) →
          t.outs = s.outs ++ (splitRun (s.func f).maxRead n a n).map (fun p => .hostRead f p.1 p.2)) ∧
        (wantsOf b = none → t.outs = s.outs)) ∧
    (leAt b 56 8 = (s.func f).next.toNat → ((s.func f).result i).st ≠ 0 → exec (.commandTake f) s = .next s) ∧
    (∀ q : DWord, q.toNat = leAt b 56 8 → q ≠ (s.func f).next → q = 0 ∨ q = (s.func f).next - 256 → exec (.commandTake f) s = .next s) ∧
    (∀ (d : Option Bytes) (l1 : List Taken) (k : Taken) (l2 : List Taken), (s.func f).taken = l1 ++ k :: l2 → (∀ x ∈ l1, x.ready = true) → k.ready = false →
      exec (.hostReadCompletion f d) s = .next (took s f (l1 ++ { k with got := some d } :: l2)))

/-- CMD_NOP (14 R397, R398, R401) completes in every state of the device in which the command processor works: the command leaves the queue of
the taken, its result slot is DONE with OK and no payload, with IRQ the function's CMD_DONE bit is set, and nothing else of the device
changes. With no command taken, while the oldest is of another opcode, while a take of another function stands before it (R396) and while an
IMAGE_WRITE of the function has not completed, nothing happens. -/
def Sys2Proof.Claims.CommandNop : Prop :=
  ∀ (s : State) (f : Nat), f < 4 →
    (∀ t rest, AtEffect s f 0 t rest → t.failedRead = false →
      ∃ u, exec (.cmdNop f) s = .next u ∧ (u.func f).taken = rest ∧ ((u.func f).result t.slot).st = 2 ∧ ((u.func f).result t.slot).status = stOk ∧
        ((u.func f).result t.slot).payload = [] ∧ ((u.func f).result t.slot).opcode = 0 ∧
        ((u.func f).result t.slot).gen = t.seq.setWidth 32 ∧ (∀ i, i ≠ t.slot → (u.func f).result i = (s.func f).result i) ∧
        (u.func f).intStatus = (if t.irq then (s.func f).intStatus ||| 1 else (s.func f).intStatus) ∧ (∀ g, g ≠ f → u.func g = s.func g) ∧
        u.mem = s.mem ∧ u.coll = s.coll ∧ u.fab = s.fab ∧ u.easels = s.easels ∧ u.dev = s.dev ∧ u.diary = s.diary ∧ u.outs = s.outs) ∧
    ((s.func f).taken = [] → exec (.cmdNop f) s = .next s) ∧
    (∀ t rest, (s.func f).taken = t :: rest → 0 < leAt t.bytes 0 1 ∧ leAt t.bytes 0 1 ≤ 0x14 ∨ s.turnOf f t = false ∨ s.norBusy f = true →
      exec (.cmdNop f) s = .next s)

/-- CMD_NOP completes with OK; a reserved opcode is BAD_FIELD; a command whose host read failed is TIMEOUT; a compute command in HOLD is
STATE and in Grisaille DEGRADED (14 R397-R399; 12 R361): no other effect. -/
def Sys2Proof.Claims.CommandRefusals : Prop :=
  ∀ (s : State) (f o : Nat) (t : Taken) (rest : List Taken),
    (Accepted s f 0 t rest → exec (.cmdNop f) s = .next (ended (took s f rest) f t stOk [])) ∧
    (AtEffect s f o t rest → 0x14 < o → s.dev = .running → t.failedRead = false →
      exec (.cmdNop f) s = .next (ended (took s f rest) f t stBadField [])) ∧
    (AtEffect s f 0x13 t rest → s.dev = .running → t.failedRead = true → leAt t.bytes 8 8 % 64 = 0 →
      exec (.attest f) s = .next (ended (took s f rest) f t stTimeout [])) ∧
    (AtEffect s f 3 t rest → s.dev = .hold → exec (.commit f) s = .next (ended (took s f rest) f t stState [])) ∧
    (AtEffect s f 0xB t rest → s.dev = .grisaille → t.failedRead = false → foreign (s.ctx t.ctx) f = false → (s.ctx t.ctx).replay = false →
      (s.ctx t.ctx).st = .loading → leAt t.bytes 16 4 = 0 → exec (.grant f) s = .next (ended (took s f rest) f t stDegraded []))

/-- What a completion writes (14 R401, R405): the result slot is DONE with the command's sequence, opcode, status and payload, and with
IRQ the function's CMD_DONE bit is set. -/
def Sys2Proof.Claims.CommandCompletions : Prop :=
  ∀ (s : State) (f slot : Nat) (seq : DWord) (op : Byte) (irq : Bool) (st : Nat) (p : Bytes),
    let t := s.finish f slot seq op irq st p
    let r := (t.func f).result slot
    r.st = 2 ∧ r.status = st ∧ r.payload = p ∧ r.opcode = op ∧ r.gen = seq.setWidth 32 ∧
      (t.func f).intStatus = (if irq then (s.func f).intStatus ||| 1 else (s.func f).intStatus) ∧
      (∀ i, i ≠ slot → (t.func f).result i = (s.func f).result i) ∧ (∀ g, g ≠ f → t.func g = s.func g) ∧ t.mem = s.mem ∧ t.coll = s.coll

/-- OPEN, RESERVATION_GRANTED, OPEN_WAIT_EXPIRY, CLOSE and ABORT (07 R186, R191, R192). -/
def Obligations.ContextLife : Prop :=
  ∀ (s : State) (f : Nat) (t : Taken) (rest : List Taken) (c : Nat), c = leAt t.bytes 2 2 % 4096 →
    (∀ d x, Accepted s f 1 t rest → leAt t.bytes 8 8 % 64 = 0 → t.got = some (some d) → (s.ctx c).st = .free →
      x = { tmpl := d, owner := f, strictAtOpen := s.coll.strict } → lowest ((took s f rest).openChecks f c x) = none →
      exec (.openCtx f) s = .next (((waiting (took s f rest) f t (.openOf c)).takeCtx c t.at' x).wakeRange x.base (2 ^ x.log2)) ∧
        ((waiting (took s f rest) f t (.openOf c)).takeCtx c t.at' x).ctx c = { x with st := .granting }) ∧
    (Accepted s f 4 t rest → (s.ctx c).st ≠ .free → (s.ctx c).owner = f → (s.ctx c).st ≠ .draining →
      exec (.close f) s = .next (if (s.ctx c).st = .ready ∧ (s.ctx c).gens ≠ []
        then (waiting (took s f rest) f t (.freeOf c)).setCtx c { s.ctx c with st := .draining }
        else (waiting (took s f rest) f t (.freeOf c)).freeCtx c)) ∧
    (Accepted s f 5 t rest → (s.ctx c).st ≠ .free → (s.ctx c).owner = f →
      exec (.abort f) s = .next (((waiting (took s f rest) f t (.freeOf c)).failAll c stState).freeCtx c)) ∧
    (∀ o l a, s.coll.opens = o :: l → s.grantAt (s.ctx o.ctx) = some a → s.aclk = true → s.dev = .running → (s.ctx o.ctx).replay = false →
      ∃ u, exec .reservationGranted s = .next u ∧ u.coll.opens = l ∧ u.ctx o.ctx = { s.ctx o.ctx with
        st := .loading, mib := (s.ctx o.ctx).reserveMib, window := (s.ctx o.ctx).chunkWindow, sketchBase := a }) ∧
    (∀ o, s.coll.opens.find? (fun o => o.ctx == c) = some o → s.aclk = true → 0 < o.limit → o.accepted + o.limit * Config.msAclk ≤ s.now →
      ∃ u, exec (.openWaitExpiry c) s = .next u ∧ (u.ctx c).st = .free ∧ (∀ p ∈ u.coll.opens, p.ctx ≠ c)) ∧
    (∀ o, s.coll.opens.find? (fun o => o.ctx == c) = some o → 0 < o.limit → s.now < o.accepted + o.limit * Config.msAclk →
      exec (.openWaitExpiry c) s = .next s)

/-- ROSTER and COMMIT (07 R189, R193): the entries of ranks first to first + n - 1, and nothing else of the roster; a commit checks the
whole and latches what holds for every generation. -/
def Obligations.RosterAndCommit : Prop :=
  ∀ (s : State) (f : Nat) (t : Taken) (rest : List Taken) (c first n : Nat), c = leAt t.bytes 2 2 % 4096 → (s.ctx c).owner = f →
    (s.ctx c).st = .loading → (s.ctx c).replay = false → first = leAt t.bytes 4 4 % 2 ^ 20 → n = leAt t.bytes 8 4 →
    (∀ d, Accepted s f 2 t rest → leAt t.bytes 16 8 % 64 = 0 → 1 ≤ n → n ≤ 2 ^ 20 → first + n ≤ (s.ctx c).rosterN → t.got = some (some d) →
      ∃ x, exec (.roster f) s = .next (ended ((took s f rest).setCtx c x) f t stOk []) ∧ x.st = .loading ∧ x.tmpl = (s.ctx c).tmpl ∧
        (∀ i, i < n → (x.rank (first + i)).endpoint = leAt d (8 * i) 3 ∧ (x.rank (first + i)).epoch = leAt d (8 * i + 4) 4 ∧ first + i ∈ x.written) ∧
        (∀ r, r < first ∨ first + n ≤ r → x.rank r = (s.ctx c).rank r)) ∧
    (Accepted s f 2 t rest → leAt t.bytes 16 8 % 64 = 0 → 1 ≤ n → n ≤ 2 ^ 20 → (s.ctx c).rosterN < first + n →
      exec (.roster f) s = .next (ended (took s f rest) f t stBadField [])) ∧
    (Accepted s f 3 t rest → (took s f rest).commitBad (s.ctx c) = false →
      let x := (took s f rest).ready (s.ctx c)
      exec (.commit f) s = .next (ended (((took s f rest).setCtx c x).sendChecks c) f t stOk x.rosterDigest) ∧ x.st = .ready ∧ x.gLow = 0) ∧
    (Accepted s f 3 t rest → (took s f rest).commitBad (s.ctx c) = true →
      exec (.commit f) s = .next (ended (took s f rest) f t stBadField []))

/-- LOAD, GROUP, START and ASSIGN (05 R161, R162; 01 R21-R24; 14 R384, R448; 04 R124, R133; 16 R439). That ASSIGN looks at no previous owner and
that START waits for a start queue with room are the model's choice (assumption 22). -/
def Obligations.EaselCommands : Prop :=
  ∀ (s : State) (f : Nat) (t : Taken) (rest : List Taken) (base log2 : Nat), base = leAt t.bytes 4 1 → log2 = leAt t.bytes 5 1 % 16 →
    (∀ img, Accepted s f 6 t rest → leAt t.bytes 16 8 % 64 = 0 → 64 ≤ leAt t.bytes 8 4 → leAt t.bytes 8 4 ≤ 1048576 →
      t.got = some (some img) → base + 2 ^ log2 ≤ s.easelCount → s.foreignEasel f base (2 ^ log2) = false →
      lowest ((took s f rest).loadChecks img base log2) = none →
      exec (.cmdLoad f) s = .next (ended (((took s f rest).loadImage img base log2).wakeRange base (2 ^ log2)) f t stOk (sha256 img))) ∧
    (Accepted s f 7 t rest → lowest ((took s f rest).groupChecks f base log2 (leAt t.bytes 8 4)) = none →
      ∃ u, exec (.group f) s = .next u ∧ u.mem = s.mem ∧ u.fab = s.fab ∧
        (log2 = 0 → u.coll.groups = s.coll.groups.filter (fun g => g.base != base)) ∧
        (log2 ≠ 0 → u.groupOf base = some { base, log2, nest := if leAt t.bytes 8 4 = 0 then [log2] else nestOf (leAt t.bytes 8 4) })) ∧
    (∀ e j, Accepted s f 8 t rest → s.isEasel base = true → (s.easel base).owner = f → s.boundTo base = [] →
      EngId.ofId? (leAt t.bytes 5 1 % 8) = some e → s.hasEngine e = true → (s.engine base e).st = .idle → (s.easel base).stopAt = none →
      j = leAt t.bytes 6 1 % 16 → ((s.engine base e).studyAt j).valid = true →
      (s.pushCycle = false ∨ 16 ≤ (s.engine base e).startq.length → exec (.start f) s = .next s) ∧
      (let word := fun (o : Nat) => BitVec.ofNat 32 (leAt t.bytes o 4)
       let q : StartEntry := { study := j, ctx := 0, gen := 0, chunk := word 8, a0 := word 12, a1 := word 16, a2 := word 20, a3 := word 24,
                               arrived := s.now, test := true }
       s.pushCycle = true → (s.engine base e).startq.length < 16 →
       exec (.start f) s = .next (ended ((took s f rest).pushStart base e q) f t stOk []))) ∧
    (∀ n g, Accepted s f 0x12 t rest → n = leAt t.bytes 5 2 → g = leAt t.bytes 7 1 % 4 → 1 ≤ n → n ≤ 256 → s.enabled g = true →
      base + n ≤ s.easelCount → (∀ k, base ≤ k → k < base + n → s.groupOf k = none ∧ s.boundTo k = []) →
      ∃ u, exec (.assign f) s = .next u ∧ (∀ k, base ≤ k → k < base + n → (u.easel k).owner = g) ∧
        (∀ k, k < base ∨ base + n ≤ k → u.easel k = s.easel k) ∧ u.mem = s.mem)

/-- BIND, UNBIND, GRANT, HBM_RETRY, CIRCUIT and TEAR (11 R311, R321-R325; 09 R268). That TEAR at a switch which is not the origin is any
function's, and that it ends a waiting CIRCUIT with STATE, are the model's choice (assumptions 30 and 31). -/
def Obligations.BindingsGrantsCircuits : Prop :=
  ∀ (s : State) (f : Nat) (t : Taken) (rest : List Taken) (k c id : Nat), k = leAt t.bytes 4 1 % 16 → c = leAt t.bytes 2 2 % 4096 →
    id = leAt t.bytes 4 2 →
    (∀ b, b = { raw := slice t.bytes 8 32, st := 1, owner := f } → Accepted s f 9 t rest → (s.binding k).st = 0 ∨ (s.binding k).owner = f →
      s.bindingNamed k = false → s.bindingBad k b = false →
      exec (.bind f) s = .next (ended ((took s f rest).setBinding k b) f t stOk [])) ∧
    (Accepted s f 0xA t rest → (s.binding k).st ≠ 0 → (s.binding k).owner = f →
      exec (.unbind f) s = .next (ended ((took s f rest).setBinding k { s.binding k with st := 0 }) f t stOk [])) ∧
    (Accepted s f 0xA t rest → (s.binding k).st = 0 → exec (.unbind f) s = .next (ended (took s f rest) f t stState [])) ∧
    (∀ a n i, a = leAt t.bytes 8 8 → n = leAt t.bytes 16 4 → i = leAt t.bytes 4 1 % 4 → Accepted s f 0xB t rest → (s.ctx c).owner = f →
      (s.ctx c).replay = false → (s.ctx c).st = .loading ∨ (s.ctx c).st = .ready ∧ (s.ctx c).inflight = 0 → 0 < n → a % 4096 = 0 → s.mem.grantable a (n * 4096) = true →
      (∀ g ∈ s.othersGrants f, meets (a, n * 4096) g = false) →
      ∃ x, exec (.grant f) s = .next (ended ((took s f rest).setCtx c x) f t stOk []) ∧ x.grants[i]? = some { base := a, pages := n, st := 1 } ∧
        (∀ j, j < 4 → j ≠ i → x.grants[j]? = some ((s.ctx c).grants.getD j {})) ∧ x.st = (s.ctx c).st) ∧
    (Accepted s f 0x11 t rest → s.excluded (leAt t.bytes 4 1 % 128) = true →
      exec (.hbmRetry f) s = .next (ended ((took s f rest).mramWrite (exclusionAt (leAt t.bytes 4 1 % 128)) (zeros 16)) f t stOk [])) ∧
    (∀ src dst, src = leAt t.bytes 8 3 → dst = leAt t.bytes 12 3 → Accepted s f 0xC t rest → id < 4096 → (s.edgePort src).isSome = true →
      s.circuit? id = none → exec (.circuit f) s = .next ((waiting (took s f rest) f t (.circuit id)).setUpCircuit f id src dst)) ∧
    (∀ z, Accepted s f 0xD t rest → id < 4096 → s.circuit? id = some z → (z.orig = true → z.owner = f) →
      exec (.tear f) s = .next (ended ((took s f rest).tearNow id) f t stOk []))

/-- CAPTURE, CAPTURE_CLEAR, REPLAY and REPLAY_FINISH (13 R374-R379). -/
def Obligations.CapturesAndReplays : Prop :=
  ∀ (s : State) (f : Nat) (t : Taken) (rest : List Taken) (c : Nat), c = leAt t.bytes 2 2 % 4096 →
    (∀ g first last, g = BitVec.ofNat 32 (leAt t.bytes 4 4) → first = leAt t.bytes 8 4 → last = leAt t.bytes 12 4 → Accepted s f 0xE t rest →
      (s.ctx c).owner = f → (s.ctx c).st = .ready → dist32 (s.ctx c).gLow.toNat g.toNat < 2 ^ 31 → first ≤ last → s.mem.captureGib ≠ 0 →
      (∀ k ∈ s.coll.captures, k.st = 1) →
      exec (.capture f) s = .next (ended (State.setColl (took s f rest) { s.coll with armed := some { ctx := c, gen := g, first, last, owner := f } }) f t stOk [])) ∧
    (s.board.warmSeq = false → Accepted s f 0xF t rest → s.coll.armed = none → (∀ k ∈ s.coll.captures, k.st ≠ 0) →
      exec (.captureClear f) s = .next (ended (took s f rest).clearCaptures f t stOk []) ∧ (took s f rest).clearCaptures.coll.captures = []) ∧
    (∀ base log2 a out b u x, base = leAt t.bytes 4 1 → log2 = leAt t.bytes 5 1 % 16 → a = leAt t.bytes 8 8 → out = leAt t.bytes 16 8 →
      s.board.warmSeq = false → Accepted s f 0x10 t rest → b = (took s f rest).readCapture a → u = (took s f rest).accessRun false a b.length →
      x = u.replayCtx f base b → foreign (u.ctx c) f = false → u.mem.mapped a 4096 = true → u.mem.mapped out 32 = true →
      lowest (u.replayRange f c base log2 ++ u.captureChecks f base log2 b x) = none →
      exec (.replay f) s = .next (((State.setColl (waiting u f t (.replay c)) { u.coll with
        replays := u.coll.replays ++ [{ ctx := c, out, shuffle := (leAt t.bytes 5 1).testBit 4, captured := b }] }).takeCtx c t.at' x).wakeRange base (2 ^ log2))) ∧
    (s.board.warmSeq = true → exec (.captureClear f) s = .next s ∧ exec (.replay f) s = .next s) ∧
    (∀ r y, s.replayEnded = some (r, y) → s.computing = true → s.board.warmSeq = false → exec .replayFinish s = .next (s.finishReplay r y)) ∧
    (s.replayEnded = none ∨ s.board.warmSeq = true → exec .replayFinish s = .next s)

/-- ATTEST, IMAGE_WRITE and NOR_PROGRAM_COMPLETE (15 R410, R416-R419): the report goes to the host address; a verified image erases the
image area alone and is programmed from a second read: OK where the digest of that read and of the read-back is the verified one, VERSION
where it is not or the NOR does not answer, TIMEOUT where the second read fails. That the NOR holds no image after a failure is the model's
choice (assumption 46). -/
def Obligations.AttestationAndImages : Prop :=
  ∀ (s : State) (f : Nat) (t : Taken) (rest : List Taken) (a n : Nat),
    (a = leAt t.bytes 8 8 → Accepted s f 0x13 t rest → a % 64 = 0 →
      exec (.attest f) s = .next (ended (((took s f rest).writeHost f a ((took s f rest).attestReport (slice t.bytes 16 32))).draw 1)
        f t stOk [])) ∧
    (∀ b, a = leAt t.bytes 16 8 → n = leAt t.bytes 8 4 → Accepted s f 0x14 t rest → n % 64 = 0 → 1088 ≤ n → n ≤ 66060288 → a % 64 = 0 →
      t.got = some (some b) → (took s f rest).imageFault (took s f rest).blank b = none →
      ∃ u, exec (.imageWrite f) s = .next u ∧ u.boot.norJob = some { f, haddr := a, len := n, digest := imgDigest b } ∧
        (∀ k, k < identityBase → tget (0xFF : Byte) u.boot.nor k = 0xFF) ∧
        (∀ k, identityBase ≤ k → tget (0xFF : Byte) u.boot.nor k = tget (0xFF : Byte) s.boot.nor k) ∧
        u.outs = s.outs ++ (splitRun (s.func f).maxRead n a n).map (fun p => .hostRead f p.1 p.2)) ∧
    (∀ b, a = leAt t.bytes 16 8 → n = leAt t.bytes 8 4 → Accepted s f 0x14 t rest → n % 64 = 0 → 1088 ≤ n → n ≤ 66060288 → a % 64 = 0 →
      t.got = some (some b) → (took s f rest).imageFault (took s f rest).blank b ≠ none →
      exec (.imageWrite f) s = .next (ended (took s f rest) f t stVersion [])) ∧
    (∀ j, s.boot.norJob = some j → s.hostWorks = true →
      let status := fun (u : State) (st : Nat) => ∀ g < 4, ∀ w ∈ (s.func g).waits, w.on = .nor → ((u.func g).result w.slot).status = st
      (∀ b, s.boot.norAnswers = true → imgDigest (slice b 0 j.len) = j.digest →
        ∃ u, exec (.norProgramComplete (some b) true) s = .next u ∧ u.boot.norJob = none ∧
          u.boot.nor = putBytes (0xFF : Byte) s.boot.nor 0 (slice b 0 j.len) ∧ status u stOk) ∧
      (∀ b good, imgDigest (slice b 0 j.len) ≠ j.digest ∨ good = false ∨ s.boot.norAnswers = false →
        ∃ u, exec (.norProgramComplete (some b) good) s = .next u ∧ u.boot.norJob = none ∧ u.boot.nor = s.boot.nor ∧ status u stVersion) ∧
      (∀ good, ∃ u, exec (.norProgramComplete none good) s = .next u ∧ u.boot.norJob = none ∧ u.boot.nor = s.boot.nor ∧
        status u stTimeout)) ∧
    (s.boot.norJob = none → exec (.norProgramComplete none false) s = .next s)

/-- The oldest frame of a flow is of this frame type and message type, and the fabric takes it (10 R286). -/
abbrev Sys2Proof.Claims.Message (s : State) (src vc ftype mtype : Nat) (a : Arrived) : Prop :=
  s.fabricUp = true ∧ s.front src vc = some a ∧ a.ftype = ftype ∧ leAt a.body 0 1 = mtype

/-- SEND_COMPLETION (05 R157; 07 R204; 13 R377): the oldest tile of the egress stage leaves and its completion signal lands; it goes
where its selector says, or waits; a bad selector fails the generation, a test tile and one of a failed generation go nowhere;
that a test tile does is read from the rules by inference (assumption 15). -/
def Obligations.SendCompletions : Prop :=
  ∀ (s : State) (n : Nat) (t : OutTile) (rest : List OutTile), s.isEasel n = true → s.computing = true → (s.easel n).egress = t :: rest →
    let left := (s.modEasel n (fun x => { x with egress := rest })).modEasel n (fun x =>
      { x with sigs := x.sigs ++ [{ due := s.now, sem := t.sem, amt := 1, sender := (n, .outlet, t.pc) }] })
    let x := s.ctx t.ctx
    let num := tTile t.bytes
    let ch := num / 2 ^ x.ctLog2
    (t.test = true → exec (.sendCompletion n) s = .next left) ∧
    (x.gen? t.gen = none → exec (.sendCompletion n) s = .next left) ∧
    (∀ y, x.gen? t.gen = some y → y.failed.isSome = true → exec (.sendCompletion n) s = .next left) ∧
    (∀ y, t.test = false → x.gen? t.gen = some y → y.failed = none →
      let a := (s.geo x).node (t.chunk / 2 ^ 32)
      (s.movesOf x y a ch num t.sel = none → exec (.sendCompletion n) s = .next (left.failGen t.ctx t.gen stBadField)) ∧
      (∀ r, x.replay = false → t.sel.toNat = 8 * r → r < x.rosterN → r < 2 ^ 20 → s.clearFor (x.vcOf y) (s.peersOf x y ch (.rank r)) (s.bodiesOf x y ch [.rank r]) t.bytes = true →
        exec (.sendCompletion n) s = .next (((left.noteSent t.ctx t.gen a t.chunk t.bytes [.rank r]).toRanks t.ctx t.gen (t.chunk / 2 ^ 32) num t.bytes [r]).startStages
          t.ctx t.gen)) ∧
      (∀ l, x.replay = false → s.movesOf x y a ch num t.sel = some l → s.clearFor (x.vcOf y) (l.flatMap (s.peersOf x y ch)) (s.bodiesOf x y ch l) t.bytes = true →
        exec (.sendCompletion n) s = .next ((left.noteSent t.ctx t.gen a t.chunk t.bytes l).leaveFor t.ctx t.gen t.chunk ch num t.bytes l)) ∧
      (∀ l, x.replay = false → s.movesOf x y a ch num t.sel = some l → s.clearFor (x.vcOf y) (l.flatMap (s.peersOf x y ch)) (s.bodiesOf x y ch l) t.bytes = false →
        exec (.sendCompletion n) s = .next s) ∧
      (∀ l, x.replay = true → s.movesOf x y a ch num t.sel = some l →
        exec (.sendCompletion n) s = .next (left.keepSent t.ctx t.gen a t.chunk t.bytes l)))

/-- ENTER and HAIRLINE_ENTER (07 R194-R196, R205, R447): the cells are freed, the ENTER_ACK names the lowest status that applies, and an
ENTER in order is accepted; one whose generation lies 8 or more above G_low waits, and what is behind it on its flow waits too. A repeat
is answered OK, and the tile of a repeated Hairline ENTER is offered to the unit again (12 R348). -/
def Sys2Proof.Claims.EnterMessages : Prop :=
  ∀ (s : State) (src vc : Nat) (hair : Bool) (a : Arrived), s.fabricUp = true → s.front src vc = some a → s.flowWaits src vc = false →
    (hair = false → a.ftype = 1 ∧ leAt a.body 0 1 = 1 ∧ a.body.length = 64) →
    (hair = true → vc = 1 ∧ a.ftype = 2 ∧ 64 < a.body.length ∧ s.hairBlocked src a.body = false) →
    let b := slice a.body 0 64
    let c := msgCtx a.body
    let num := msgGen a.body
    let x := s.ctx c
    let e := enteredOf src b
    let u := s.consume a
    let run := exec (if hair then .hairlineEnter src else .enter src vc) s
    let inOrder := x.st = .ready ∧ enterReserved b = false ∧ e.rank < x.rosterN ∧ s.isLocal x e.rank = true
    let current := e.epoch = (x.rank e.rank).epoch ∧ (x.rank e.rank).live = true
    let ahead := dist32 x.gLow.toNat num.toNat
    (x.st ≠ .ready ∧ x.st ≠ .draining → run = .next ((u.enterAck src vc b stState).setEnter src vc none)) ∧
    (x.st = .ready ∧ (enterReserved b = true ∨ x.rosterN ≤ e.rank) → run = .next (((u.enterAck src vc b stBadField).setEnter src vc none).addHealth src 4)) ∧
    (inOrder ∧ ¬current → run = .next (((u.enterAck src vc b stFenced).setEnter src vc none).fencedFrame c e.rank num src e.epoch)) ∧
    (inOrder ∧ current ∧ 2 ^ 31 ≤ ahead → run = .next (((u.enterAck src vc b stSequence).setEnter src vc none).addHealth src 4)) ∧
    (inOrder ∧ current ∧ x.gen? num = none ∧ 8 ≤ ahead ∧ ahead < 2 ^ 31 → run = .next ((s.popFront src vc).modCtx c (fun x =>
      { x with waits := x.waits ++ [{ src, vc, body := a.body, cells := a.cells }] }))) ∧
    (inOrder ∧ current ∧ x.gen? num = none ∧ ahead < 8 → run = .next
      ((((u.enterAck src vc b stOk).setEnter src vc (some (c, num, e.rank))).accept c num e
        (if hair then some (a.body.drop 64) else none)).wakeBound c)) ∧
    (∀ y old, inOrder ∧ current ∧ ahead < 8 → x.gen? num = some y → y.enters.find? (fun o => o.rank == e.rank) = some old → old.raw = e.raw →
      let v := (u.enterAck src vc b stOk).setEnter src vc (some (c, num, e.rank))
      run = .next (if hair then ((v.hairAdd c num e.rank (a.body.drop 64)).hairPump c num).hairTake c num else v))

/-- ENTER_WAIT_RELEASE (07 R205): the first ENTER that no longer waits for G_low is settled as if it arrived now. -/
def Sys2Proof.Claims.WaitingEnters : Prop :=
  ∀ (s : State) (c : Nat), s.fabricUp = true →
    (∀ l1 w l2, (s.ctx c).waits = l1 ++ w :: l2 → (∀ v ∈ l1, s.judge v.src (slice v.body 0 64) = .hold) →
      s.judge w.src (slice w.body 0 64) ≠ .hold → w.body.length ≤ 64 →
      exec (.enterWaitRelease c) s =
        .next (((s.setCtx c { s.ctx c with waits := l1 ++ l2 }).freeEject w.src w.vc w.cells).settleEnter w.src w.vc w.body)) ∧
    ((∀ v ∈ (s.ctx c).waits, s.judge v.src (slice v.body 0 64) = .hold) → exec (.enterWaitRelease c) s = .next s)

/-- CONTRIBUTION_TILE (05 R148; 07 R194, R205; 12 R341, R348): a tile with no ENTER is recorded and dropped; one of a superseded epoch is
fenced; one that is not the sender's fails the generation; a tile placed waits for the stage of its Easel, and its chunk has an entry. -/
def Obligations.ContributionTiles : Prop :=
  ∀ (s : State) (src vc : Nat) (a : Arrived), s.fabricUp = true → s.front src vc = some a → a.ftype = 0 → s.flowWaits src vc = false →
    keySw src = false →
    ((∀ fl r en, s.flow? src vc = some fl → fl.rx = some r → r.enter ≠ some (some en)) →
      exec (.contributionTile src vc) s = .next ((s.consume a).noteDev 194 0 0 [])) ∧
    (∀ fl rx c num r, s.flow? src vc = some fl → fl.rx = some rx → rx.enter = some (some (c, num, r)) → (s.ctx c).st = .ready →
      let x := s.ctx c
      let t := tTile a.body
      ((x.rank r).endpoint ≠ src → exec (.contributionTile src vc) s = .next ((s.consume a).fencedFrame c r num src (x.rank r).fencedEpoch)) ∧
      (∀ y, (x.rank r).endpoint = src → (x.rank r).live = true → x.gen? num = some y → y.failed = none → x.op ≠ 0 →
        (tChunk a.body ≠ t / 2 ^ x.ctLog2 ∨ s.contributes x y.ref r t = false) →
        exec (.contributionTile src vc) s = .next (((s.consume a).addHealth src 4).failGen c num stBadField)) ∧
      (∀ key from' inp, s.tileAs a = .place c num key from' inp → s.entryRoom c num key = true → (∃ y, x.gen? num = some y) →
        ∃ u, exec (.contributionTile src vc) s = .next u ∧ u.fab.inbox = (s.popFront src vc).fab.inbox ∧
          (u.easel (x.easelOf t)).waiting = (s.easel (x.easelOf t)).waiting ++
            [{ bytes := a.body, ctx := c, gen := num, chunk := key, from', src := a.src, vc := a.vc, cells := a.cells }] ∧
          (∀ y z, x.gen? num = some y → (u.ctx c).gen? num = some z →
            (z.chunk key).entry = true ∧ (z.chunk key).taken = (y.chunk key).taken ++ [(t, from')])) ∧
      (∀ key from' inp, s.tileAs a = .place c num key from' inp → s.entryRoom c num key = false →
        exec (.contributionTile src vc) s = .next s))

/-- GEN_TIMEOUT, CHUNK_RETIRE and GENERATION_RETIRE (07 R201, R205, R212): a generation that is not complete at its limit fails with
TIMEOUT; a chunk that is over gives back its entry; the generation at G_low retires once it may, and G_low passes it. -/
def Obligations.TimeoutsAndRetirement : Prop :=
  ∀ (s : State) (c : Nat) (y : Gen), s.computing = true → (s.ctx c).st = .ready →
    (∀ g, (s.ctx c).gen? g = some y → y.failed = none → y.enters ≠ [] → y.t0 + (s.ctx c).genTimeout * Config.msAclk ≤ s.now →
      exec (.genTimeout c g) s = .next (s.failGen c g stTimeout)) ∧
    (∀ g, (s.ctx c).gen? g = some y → s.now < y.t0 + (s.ctx c).genTimeout * Config.msAclk → exec (.genTimeout c g) s = .next s) ∧
    (∀ g k, (s.ctx c).gen? g = some y → y.failed = none → (y.chunk k).entry = true → (y.chunk k).parking = false → (y.chunk k).parked = false →
      s.chunkOver (s.ctx c) c y k = true →
      exec (.chunkRetire c g k) s = .next (s.modGen c g (fun y => y.modChunk k (fun z => { z with entry := false, done := true })))) ∧
    ((s.ctx c).gen? (s.ctx c).gLow = some y → s.mayRetire c y = true →
      ∃ u, exec (.generationRetire c) s = .next u ∧ (u.ctx c).gLow = y.num + 1 ∧ (u.ctx c).gens = (s.ctx c).gens.filter (fun z => z.num != y.num) ∧
        (u.ctx c).lastGen = y.num ∧ (u.ctx c).lastStat = y.failed.getD stOk ∧ (u.ctx c).lastValid = true ∧ (u.ctx c).st = .ready) ∧
    ((s.ctx c).gen? (s.ctx c).gLow = some y → y.failed = none → y.verdict = none → exec (.generationRetire c) s = .next s)

/-- STAGE_CHECK and CHECK_RESEND_TIMER (08 R217): a neighbour whose digest agrees is confirmed and what waited for it leaves; one that
disagrees is recorded with BAD_FIELD; CHECKs go again once per ms. -/
def Sys2Proof.Claims.StageChecks : Prop :=
  ∀ (s : State) (src c : Nat),
    (∀ a, Message s src 0 3 0x11 a → c = msgCtx a.body → (s.ctx c).st = .ready → (s.ctx c).lost = [] →
      let u := s.consume a
      let x := { s.ctx c with checked := keyAddr src :: (s.ctx c).checked.filter (· != keyAddr src) }
      (slice a.body 16 32 = slice (s.ctx c).fabricDigest 0 32 →
        exec (.stageCheck src) s = .next ((u.setCtx c { x with confirmed := keyAddr src :: x.confirmed.filter (· != keyAddr src) }).releaseHeld c (keyAddr src))) ∧
      (slice a.body 16 32 ≠ slice (s.ctx c).fabricDigest 0 32 →
        exec (.stageCheck src) s = .next ((u.setCtx c { x with disagreed := true }).noteCtx 217 0 c stBadField [keyAddr src]))) ∧
    (s.fabricUp = true → (s.ctx c).st = .ready → (s.ctx c).checkSent + Config.msAclk ≤ s.now → (∃ h ∈ s.neighbourSw c, h ∉ (s.ctx c).checked) →
      exec (.checkResendTimer c) s = .next (s.sendChecks c)) ∧
    (s.now < (s.ctx c).checkSent + Config.msAclk ∨ (∀ h ∈ s.neighbourSw c, h ∈ (s.ctx c).checked) →
      exec (.checkResendTimer c) s = .next s)

/-- SUMMARY, VERDICT, FAIL and POSE_RELEASE (08 R223-R225, R231), for a generation that this switch knows: a child's summary is kept once and
what is due goes up; a verdict goes down the tree and is applied; a failure goes up the tree, and the anchor answers it with a verdict (with
the lowest fields it knows, the model's choice, assumption 68); at
its release time a Pose generation starts every engine of its Easels. -/
def Sys2Proof.Claims.StageMessages : Prop :=
  ∀ (s : State) (src c : Nat) (num : Word) (a : Arrived) (y : Gen), (s.ctx c).st = .ready → (s.ctx c).lost = [] →
    (s.ctx c).gen? num = some y → y.enters ≠ [] →
    let u := s.consume a
    let f := msgFields a.body
    let st := leAt a.body 1 1
    let dis := bitAt (leAt a.body 14 1) 0
    let g := s.geo (s.ctx c)
    let told := ∃ m ∈ y.summaries, g.holder m.1 = keyAddr src ∧ m.2.1 = f ∧ m.2.2 = dis
    (∀ k, Message s src 0 3 0x12 a → c = msgCtx a.body → num = msgGen a.body → ¬told →
      (g.held.flatMap g.feeding).find? (fun k => g.holder k == keyAddr src && !y.summaries.any (fun m => m.1 == k)) = some k →
      exec (.summary src) s = .next ((u.modGen c num (fun y => { y with summaries := y.summaries ++ [(k, f, dis)] })).pumpSummary c num)) ∧
    (Message s src 0 3 0x12 a → c = msgCtx a.body → num = msgGen a.body → told → exec (.summary src) s = .next u) ∧
    (Message s src 0 3 0x13 a → c = msgCtx a.body → num = msgGen a.body → y.verdict ≠ some (st, f) →
      exec (.verdict src) s = .next (((u.downTree c a.body).takeVerdict c num st f (leAt a.body 28 8)).wakeBound c)) ∧
    (Message s src 0 3 0x13 a → c = msgCtx a.body → num = msgGen a.body → y.verdict = some (st, f) → exec (.verdict src) s = .next u) ∧
    (Message s src 0 3 0x14 a → c = msgCtx a.body → num = msgGen a.body → g.held.contains g.anchor = true →
      (∀ v, y.verdict = some v → v.1 = stOk ∨ st < v.1) → exec (.fail src) s = .next (u.sendVerdict c num st y.known)) ∧
    (∀ p, Message s src 0 3 0x14 a → c = msgCtx a.body → num = msgGen a.body → g.held.contains g.anchor = false → g.up = some p →
      exec (.fail src) s = .next (u.toNode c p 0 3 a.body)) ∧
    (∀ r, s.computing = true → y.posed = false → y.failed = none → y.release = some r → r ≤ s.clock.ftime.toNat →
      (∀ n ∈ (s.ctx c).bound, (s.easel n).stopAt = none ∧ ∀ e ∈ (s.ctx c).engines, s.startRoom n e = true) →
      exec (.poseRelease c num) s = .next (((s.ctx c).bound.foldl (fun s' n => (s.ctx c).engines.foldl (fun s' e => s'.pushStart n e
        { study := (s.ctx c).studyOf e, ctx := c, gen := num, chunk := 0, a0 := 0, a1 := 0, a2 := 0, a3 := 0, arrived := s.now, test := false })
        s') s).modGen c num (fun y => { y with posed := true }))) ∧
    (∀ r, y.release = some r → s.clock.ftime.toNat < r → exec (.poseRelease c num) s = .next s)

/-- Logical port `p` exists, and the fabric side and ACLK run (09 R235; 12 R361). -/
abbrev Sys2Proof.Claims.PortRuns (s : State) (p : Nat) : Prop := p < 1024 ∧ s.fabricUp = true ∧ s.aclk = true ∧ s.fab.exists' p = true

/-- The link states (09 R239, R242, R247): DOWN for 1,250,000 ACLK, TRAINING until it succeeds or for 100 ms, HELLO every 1,024 ACLK until every
check passes, UP with a new link epoch until it goes down; nothing else of the port enters, and the other ports stay. That
a port switched off while DOWN is DISABLED after its 1 ms is the model's choice (assumption 61). -/
def Obligations.LinkStates : Prop :=
  ∀ (s : State) (p : Nat), PortRuns s p →
    let x := s.lport p
    (x.st = .down → x.since + 1250000 ≤ s.now → s.portOn p = true →
      exec (.linkDownTimer p) s = .next (s.setLPort p { x with st := .training, since := s.now })) ∧
    (x.st = .down → x.since + 1250000 ≤ s.now → s.portOn p = false →
      exec (.linkDownTimer p) s = .next (s.setLPort p { x with st := .disabled, since := s.now })) ∧
    (x.st = .down → s.now < x.since + 1250000 → exec (.linkDownTimer p) s = .next s) ∧
    (x.st = .training → exec (.trainingSuccess p) s = .next (s.setLPort p { x with
      st := .hello, since := s.now, hello := none, helloAt := none, helloNote := [], goodAt := s.now })) ∧
    (x.st = .training → x.since + 125000000 ≤ s.now →
      exec (.trainingTimeout p) s = .next (s.setLPort p { x with st := .down, since := s.now })) ∧
    (x.st = .hello → (∀ t, x.helloAt = some t → t + 1024 ≤ s.now) →
      ∃ u b, exec (.helloSend p) s = .next u ∧ u.outs = s.outs ++ [.flit p b] ∧ b.length = 256 ∧ lcrcOk b = true ∧ flitKind b = 2 ∧
        (leAt b 60 1).testBit 3 = true ∧ (u.lport p).helloAt = some s.now ∧ (∀ q, q ≠ p → u.lport q = s.lport q)) ∧
    (x.st = .hello → s.helloPasses p = false → exec (.linkUp p) s = .next s) ∧
    (∀ h, x.st = .hello → x.hello = some h → s.helloFaults p h = [] →
      ∃ u v, exec (.linkUp p) s = .next u ∧ u = ((v.heldWith p).foldl (fun w q => w.requeueAll q) v).interruptAll 6 ∧
        (∀ w, w = v ∨ w = u → (w.lport p).st = .up ∧ (w.lport p).epoch = (max x.epoch h.epoch + 1) % 65536 ∧
          (w.lport p).txSeq = 0 ∧ (w.lport p).rxSeq = 0 ∧ (w.lport p).txBuf = [] ∧ (w.lport p).credit = [] ∧
          (∀ q, q ≠ p → (w.lport q).st = (s.lport q).st)) ∧
        (v.lport p).queues = x.queues ∧ (∀ q, q ≠ p → v.lport q = s.lport q)) ∧
    (∀ why : DownCause, x.st = .up →
      (why = .replayBudget ∧ 9 ≤ (x.events.filter (fun t => decide (s.now < t + 25000))).length ∨ why = .fecLoss ∨
        why = .lcrcSilence ∧ x.goodAt + 10000 ≤ s.now ∨ why = .disabled ∧ (s.port (p / 8)).enabled = false) →
      exec (.linkDown p why) s = .next (s.goDown p)) ∧
    (x.st ≠ .up → ∀ why : DownCause, exec (.linkDown p why) s = .next s)

/-- LINK flits (09 R243, R244, R246, R248; 01 R28): a report, an answer and the 256th ACLK send one; a flit that fails its LCRC is counted and has
no other effect; a good one brings the peer's credit and its acknowledgement. That a time root alone locks itself is
the model's choice (assumption 42); the PHY's latencies in the time stamps are free values (assumption 59). -/
def Sys2Proof.Claims.LinkFlits : Prop :=
  ∀ (s : State) (p : Nat), PortRuns s p → (s.lport p).st = .up →
    let x := s.lport p
    (x.report = true ∨ x.answer ≠ none ∨ x.linkAt + 256 ≤ s.now →
      ∃ u b, exec (.linkFlitSend p) s = .next u ∧ u.outs = s.outs ++ [.flit p b] ∧ b.length = 256 ∧ lcrcOk b = true ∧ flitKind b = 2 ∧
        (x.rxAny = true → leAt b 4 2 = (x.rxSeq + 4095) % 4096 + 32768) ∧
        u.lport p = { x with answer := none, linkAt := s.now, report := false, busy := x.busy + 2048 } ∧ (∀ q, q ≠ p → u.lport q = s.lport q)) ∧
    (x.report = false → x.answer = none → s.now < x.linkAt + 256 → exec (.linkFlitSend p) s = .next s) ∧
    (∀ flit, lcrcOk flit = false → exec (.linkFlit p flit) s = .next (s.setLPort p { x with lcrcErr := x.lcrcErr + 1 })) ∧
    (∀ flit, lcrcOk flit = true → flitKind flit = 2 → (leAt flit 6 2).testBit 15 = false → (leAt flit 60 1).testBit 1 = false →
      ∃ u, exec (.linkFlit p flit) s = .next u ∧ (∀ c, c < 16 → tget 0 (u.lport p).credit c = leAt flit (8 + 2 * c) 2) ∧
        (u.lport p).goodAt = s.now ∧ (u.lport p).peerLocked = (leAt flit 60 1).testBit 2 ∧ (u.lport p).peerDist = leAt flit 61 1 ∧
        (u.lport p).txBuf = (if (leAt flit 4 2).testBit 15 then x.takeAck (leAt flit 4 2 % 4096) s.now else x).txBuf ∧
        u.outs = s.outs ∧ (∀ q, q ≠ p → u.lport q = s.lport q)) ∧
    ((∀ t, x.treq = some t → t + 65536 ≤ s.now) → s.rootAlone = false → s.timeSource = some p →
      ∃ u b, exec (.timeMeasure p) s = .next u ∧ u.outs = s.outs ++ [.flit p b] ∧ (leAt b 60 1).testBit 0 = true ∧
        leAt b 40 8 = (s.clock.ftime.toNat + Config.phyTx p) % 2 ^ 64 ∧ (u.lport p).treq = some s.now ∧ u.clock = s.clock) ∧
    ((∀ t, x.treq = some t → t + 65536 ≤ s.now) → s.rootAlone = true →
      exec (.timeMeasure p) s = .next { s with clock := { s.clock with locked := true, dist := 0 } }) ∧
    (s.rootAlone = false → s.timeSource ≠ some p → exec (.timeMeasure p) s = .next s) ∧
    (∀ t, x.treq = some t → s.now < t + 65536 → exec (.timeMeasure p) s = .next s)

/-- DATA flits (09 R243, R246, R247; 10 R282, R286): the next flit in sequence is taken; it takes an ingress cell of its port and class from then
on, its frame is whole at EOF, and a frame that meets no credit is discarded and gives back its cells; another flit asks for a replay, and
the ninth replay event within 25,000 ACLK takes the link down; flits not acknowledged for 4,096 ACLK are sent again. -/
def Sys2Proof.Claims.DataFlits : Prop :=
  ∀ (s : State) (p : Nat), PortRuns s p → (s.lport p).st = .up →
    let x := s.lport p
    (∀ flit, lcrcOk flit = true → flitKind flit = 1 → flitLseq flit = x.rxSeq →
      ∃ u, exec (.dataFlit p flit) s = .next u ∧ (u.lport p).rxSeq = (x.rxSeq + 1) % 4096 ∧ (u.lport p).report = true ∧
        (u.lport p).rxWant = none ∧ (∀ q, q ≠ p → u.lport q = s.lport q)) ∧
    (∀ flit v l y c pay, lcrcOk flit = true → flitKind flit = 1 → flitLseq flit = x.rxSeq → (flitHdr flit).testBit 15 = true →
      v = flitHdr flit / 4096 % 8 → l = flitHdr flit / 2 ^ 24 % 2 → c = 2 * v + l → y = (s.dropPart p).lport p → tcanon 0 y.used = true →
      pay = slice flit 4 (if (flitHdr flit).testBit 16 then 8 * (flitHdr flit / 2 ^ 19 % 32) else 248) →
      ∃ u, exec (.dataFlit p flit) s = .next u ∧
        (tget 0 y.used c < s.fab.share p c → tget 0 (u.lport p).used c = tget 0 y.used c + 1 ∧
          ((flitHdr flit).testBit 16 = false → (u.lport p).rxPart = some (v, l, pay) ∧ (u.lport p).rxFrames = x.rxFrames) ∧
          ((flitHdr flit).testBit 16 = true → (u.lport p).rxPart = none ∧ (u.lport p).rxFrames = x.rxFrames ++
            [({ hdr := BitVec.ofNat 256 (le (slice pay 0 32)), body := pay.drop 32 }, 1, if v = 1 then .hairline p c else .ingress p c)])) ∧
        (s.fab.share p c ≤ tget 0 y.used c → (u.lport p).rxPart = none ∧ (u.lport p).rxFrames = x.rxFrames ∧
          tget 0 (u.lport p).used c = tget 0 y.used c)) ∧
    (∀ flit v l b c pay, lcrcOk flit = true → flitKind flit = 1 → flitLseq flit = x.rxSeq → (flitHdr flit).testBit 15 = false →
      x.rxPart = some (v, l, b) → c = 2 * v + l → l < 2 → tcanon 0 x.used = true →
      pay = slice flit 4 (if (flitHdr flit).testBit 16 then 8 * (flitHdr flit / 2 ^ 19 % 32) else 248) →
      ∃ u, exec (.dataFlit p flit) s = .next u ∧
        (tget 0 x.used c < s.fab.share p c → tget 0 (u.lport p).used c = tget 0 x.used c + 1 ∧
          ((flitHdr flit).testBit 16 = false → (u.lport p).rxPart = some (v, l, b ++ pay) ∧ (u.lport p).rxFrames = x.rxFrames) ∧
          ((flitHdr flit).testBit 16 = true → (u.lport p).rxPart = none ∧ (u.lport p).rxFrames = x.rxFrames ++
            [({ hdr := BitVec.ofNat 256 (le (slice (b ++ pay) 0 32)), body := (b ++ pay).drop 32 }, partCells b + 1,
              if v = 1 then .hairline p c else .ingress p c)])) ∧
        (s.fab.share p c ≤ tget 0 x.used c → (u.lport p).rxPart = none ∧ (u.lport p).rxFrames = x.rxFrames ∧
          tget 0 (u.lport p).used c = tget 0 x.used c - partCells b)) ∧
    (∀ flit, lcrcOk flit = true → flitKind flit = 1 → flitLseq flit = x.rxSeq → (flitHdr flit).testBit 15 = false → x.rxPart = none →
      ∃ u, exec (.dataFlit p flit) s = .next u ∧ (u.lport p).rxPart = none ∧ (u.lport p).rxFrames = x.rxFrames ∧
        (u.lport p).used = x.used) ∧
    (∀ flit, lcrcOk flit = true → flitKind flit = 1 → flitLseq flit ≠ x.rxSeq → x.rxWant = some x.rxSeq →
      exec (.dataFlit p flit) s = .next (s.setLPort p { x with goodAt := s.now })) ∧
    (∀ flit, lcrcOk flit = false → x.rxWant ≠ some x.rxSeq → x.role ≠ roleEdge →
      (x.events.filter (fun t => decide (s.now < t + 25000))).length < 8 →
      ∃ u, exec (.dataFlit p flit) s = .next u ∧ (u.lport p).st = .up ∧ (u.lport p).rxSeq = x.rxSeq ∧ (u.lport p).rxWant = some x.rxSeq ∧
        (u.lport p).report = true ∧ (u.lport p).lcrcErr = x.lcrcErr + 1 ∧ (u.lport p).replays = x.replays + 1) ∧
    (∀ t rest, x.unacked = t :: rest → x.ackAt + 4096 ≤ s.now → x.role ≠ roleEdge →
      (x.events.filter (fun t => decide (s.now < t + 25000))).length < 8 → t ∈ x.txBuf →
      ∃ u, exec (.ackTimeoutResend p) s = .next u ∧
        u.outs = s.outs ++ (x.txBuf.dropWhile (fun z => z.lseq != t.lseq)).map (fun z => .flit p z.flit) ∧
        (u.lport p).txBuf = x.txBuf ∧ (u.lport p).ackAt = s.now) ∧
    (s.now < x.ackAt + 4096 → exec (.ackTimeoutResend p) s = .next s)

/-- FABRIC_TIME_TICK (01 R26; 14 R406; 15 R421): the cycle counts on; fabric time goes on by one, or slews by one within 1,024 ACLK towards its
source; every interrupt that fires now is sent or held. -/
def Obligations.AclkTick : Prop :=
  ∀ (s : State), s.aclk = true →
    ∃ u, exec .fabricTimeTick s = .next u ∧ u.clock.cycle = s.clock.cycle + 1 ∧
      (s.clock.error = 0 ∨ (∃ t, s.clock.slewAt = some t ∧ s.clock.cycle < t + 1024) →
        u.clock.ftime = s.clock.ftime + 1 ∧ u.clock.error = s.clock.error) ∧
      (0 < s.clock.error → s.clock.slewAt = none →
        u.clock.ftime = s.clock.ftime + 2 ∧ u.clock.error = s.clock.error - 1 ∧ u.clock.slewAt = some s.clock.cycle) ∧
      (s.clock.error < 0 → s.clock.slewAt = none →
        u.clock.ftime = s.clock.ftime ∧ u.clock.error = s.clock.error + 1 ∧ u.clock.slewAt = some s.clock.cycle) ∧
      (∀ f v, f < 4 → v < 16 → s.enabled f = true → (s.func f).due = BitVec.ofNat 16 (2 ^ v) → (∀ g, g < 4 → g ≠ f → (s.func g).due = 0) →
        (s.func f).msixMasked = false → ((s.func f).msixEntry v).toNat.testBit 96 = false → u.outs = s.outs ++ [.msix f v]) ∧
      ((∀ g, g < 4 → (s.func g).due = 0) → u.outs = s.outs)

/-- FRAME_RECEIVE and LINK_HOLD_EXPIRY (09 R257, R261, R264, R271; 06 R176; 12 R360): the oldest whole frame is handled; a frame to another switch is
stored and takes its next hop; one whose check fails is dropped, and so is, with a record, one that meets an uncorrectable error of the
packet buffer or of a table; one held longer than LINK_HOLD is recorded and dropped. -/
def Obligations.FramesReceived : Prop :=
  ∀ (s : State) (p : Nat), p < 1024 →
    ((s.lport p).rxFrames = [] → ∀ how, exec (.frameReceive p how) s = .next s) ∧
    (∀ f n c rest assoc, s.fabricUp = true → s.aclk = true → (s.lport p).rxFrames = (f, n, c) :: rest →
      let u := (s.setLPort p { s.lport p with rxFrames := rest }).heard p f
      let x := s.lport p
      let passes := f.whole = true ∧ f.discard x.rxVer = none ∧ f.dkind < 2
      (exec (.frameReceive p .spoilt) s =
        .next (((s.setLPort p { s.lport p with rxFrames := rest }).notePort 360 0 p 0 []).freeAccount c n)) ∧
      (f.whole = false → exec (.frameReceive p (.sound assoc)) s = .next ((u.badFrame p f).freeAccount c n)) ∧
      (∀ rule st w, f.whole = true → f.discard x.rxVer = some (rule, st, w) → exec (.frameReceive p (.sound assoc)) s =
        .next (((u.notePort rule 0 p st []).blameEdge p w).freeAccount c n)) ∧
      (∀ h, passes → (h = if x.role = roleEdge then inject u.fab (some p) f
          else if f.ftype = 5 ∧ f.dkind = 1 ∧ (switchOf f.dest = s.fab.hereAddr ∨ leAt f.body 0 1 = 1) then .here f else nextHop u.fab (some p) f) →
        (∀ g, h = .here g → exec (.frameReceive p (.sound assoc)) s = .next ((u.freeAccount c n).receive p g assoc)) ∧
        ((∀ g, h ≠ .here g) → exec (.frameReceive p (.sound assoc)) s =
          .next ((u.store c n 1).1.takeHop (some p) (u.store c n 1).2 false h)))) ∧
    (∀ vc q, vc < 8 → s.fabricUp = true → s.aclk = true → (s.lport p).st ≠ .up → (s.lport p).queue vc = [q] →
      (q.since + s.fab.linkHold * 1250000 ≤ s.now → ∃ u, exec (.linkHoldExpiry p vc) s = .next u ∧ (u.lport p).queue vc = [] ∧
        (∀ v, v ≠ vc → (u.lport p).queue v = (s.lport p).queue v)) ∧
      (s.now < q.since + s.fab.linkHold * 1250000 → exec (.linkHoldExpiry p vc) s = .next s))

/-- EGRESS_DECISION (10 R290, R291, R294-R297; 09 R245): in every CCLK the shapers run; while a frame takes its time on the link none starts; then
VC1 goes first, then the strict queues in order, then deficit round robin; a queue whose head is not eligible is passed over. -/
def Sys2Proof.Claims.EgressDecisions : Prop :=
  ∀ (s : State) (p : Nat), PortRuns s p →
    let x := s.lport p
    let shaped := x.shape (s.port (p / 8))
    (x.st ≠ .up → exec (.egressDecision p) s = .next (s.setLPort p shaped)) ∧
    (x.st = .up → 125 * s.fab.lanes p < x.busy →
      exec (.egressDecision p) s = .next (s.setLPort p { shaped with busy := x.busy - 125 * s.fab.lanes p })) ∧
    (x.st = .up → x.busy = 0 → x.clearDrr = false →
      let u := s.setLPort p shaped
      (u.eligible p 1 = true → exec (.egressDecision p) s = .next (u.startFrame p 1)) ∧
      (∀ l1 v l2, u.eligible p 1 = false → (s.port (p / 8)).strict = l1 ++ v :: l2 → (∀ z ∈ l1, u.eligible p z = false) →
        u.eligible p v = true → exec (.egressDecision p) s = .next (u.startFrame p v)) ∧
      ((∀ v, v < 8 → u.eligible p v = false) → exec (.egressDecision p) s = .next u) ∧
      (∀ v q rest, (s.port (p / 8)).sched = 1 → v < 8 → v ≠ 1 → shaped.queue v = q :: rest → (∀ z, z < 8 → u.eligible p z = (z == v)) →
        x.cur = none → x.deficit = [] → q.frame.flits ≤ (s.port (p / 8)).quantumOf v →
        ∃ t, exec (.egressDecision p) s = .next t ∧ (t.lport p).cur = some v ∧
          tget 0 (t.lport p).deficit v = (if rest = [] then 0 else (s.port (p / 8)).quantumOf v - q.frame.flits))) ∧
    (∀ v q rest, (shaped).queue v = q :: rest → v ≠ 1 → (s.port (p / 8)).shaped v = true → tget 0 shaped.shaper v < 0 →
      (s.setLPort p shaped).eligible p v = false)

/-- GATE_ENTRY_BOUNDARY and GATE_SWITCH_OVER (10 R299, R300, R303): the entry in force follows fabric time; an armed list takes over at its
time. -/
def Sys2Proof.Claims.Gates : Prop :=
  ∀ (s : State) (n : Nat), n < 128 → s.fabricUp = true → s.aclk = true →
    let x := s.port n
    let t := s.clock.ftime.toNat
    (x.list.entryAt x.t0 t ≠ x.entry → exec (.gateEntryBoundary n) s = .next (s.setPort n { x with entry := x.list.entryAt x.t0 t })) ∧
    (x.list.entryAt x.t0 t = x.entry → exec (.gateEntryBoundary n) s = .next s) ∧
    (x.gatePending = true → x.armedAt.toNat ≤ t → exec (.gateSwitchOver n) s = .next (s.setPort n { x with
      active := !x.active, gatePending := false, t0 := x.armedAt.toNat, late := x.late,
      entry := (if x.active then x.listA else x.listB).entryAt x.armedAt.toNat t })) ∧
    (x.gatePending = false ∨ t < x.armedAt.toNat → exec (.gateSwitchOver n) s = .next s)

/-- The oldest circuit message of port `p` is `a`, of this OP; `rest` is what arrived besides (09 R270). -/
abbrev Sys2Proof.Claims.CircuitMessage (s : State) (p op : Nat) (a : Arrived) (l1 l2 : List Arrived) : Prop :=
  p < 1024 ∧ s.fabricUp = true ∧ s.aclk = true ∧ s.fab.inbox = l1 ++ a :: l2 ∧
    (∀ z ∈ l1, z.ftype ≠ 5 ∨ z.port ≠ some p) ∧ a.ftype = 5 ∧ a.port = some p ∧ leAt a.body 0 1 = op

/-- The message has been consumed (10 R286). -/
def Sys2Proof.Claims.consumed (s : State) (a : Arrived) (l1 l2 : List Arrived) : State :=
  State.freeEject (s.setFab { s.fab with inbox := l1 ++ l2 }) a.src a.vc a.cells

/-- The circuit table's entry `id` is `z` (09 R267). -/
def Sys2Proof.Claims.withCircuit (s : State) (id : Nat) (z : Circuit) : State :=
  s.setFab { s.fab with circuits := tput s.fab.circuits id z }

/-- CSETUP, CREADY, CFAIL, CTEAR, CBROKEN and CIRCUIT_TIMEOUT (09 R267-R270; 12 R361): the entry's state, the message that goes on, and the command
that waits for the circuit. The model's choices are that circuit messages go from switch to switch (assumption 30), that CTEAR ends a
waiting CIRCUIT with STATE (assumption 31), and what the frozen table does in Grisaille mode (assumption 37). -/
def Obligations.CircuitMessages : Prop :=
  ∀ (s : State) (p id : Nat) (a : Arrived) (l1 l2 : List Arrived), id = leAt a.body 2 2 % 4096 →
    let u := consumed s a l1 l2
    let src := leAt a.body 4 3
    let dst := leAt a.body 8 3
    (CircuitMessage s p 1 a l1 l2 → s.circuit? id ≠ none → exec (.csetup p) s = .next (u.cctlOn p (cctlBody 3 stState id src dst))) ∧
    (CircuitMessage s p 1 a l1 l2 → s.circuit? id = none → s.dev = .grisaille →
      exec (.csetup p) s = .next ((u.noteDev 361 0 stDegraded []).cctlOn p (cctlBody 3 stDegraded id src dst))) ∧
    (∀ q, CircuitMessage s p 1 a l1 l2 → s.circuit? id = none → s.dev = .running → switchOf dst = s.fab.hereAddr → s.edgePort dst = some q →
      exec (.csetup p) s = .next ((withCircuit u id { ent := circuitEnt 2 false true p q dst, source := src }).cctlOn p (cctlBody 2 stOk id src dst))) ∧
    (∀ q, CircuitMessage s p 1 a l1 l2 → s.circuit? id = none → s.dev = .running → switchOf dst ≠ s.fab.hereAddr → ∀ came g, a.frame = some came →
      u.circuitOn p came src dst = some (q, g) → exec (.csetup p) s =
        .next ((withCircuit u id { ent := circuitEnt 1 false false p q dst, source := src }).cctlOn q (cctlBody 1 stOk id src dst) (some g))) ∧
    (∀ x, s.circuit? id = some x → x.outPort = p → x.term = false →
      let up := withCircuit u id { x with ent := BitVec.ofNat 64 (setFld x.ent.toNat 0 2 2) }
      let gone := u.setFab { u.fab with circuits := tdel u.fab.circuits id }
      (CircuitMessage s p 2 a l1 l2 → x.st = 1 → s.dev = .running →
        exec (.cready p) s = .next (if x.orig then up.endWaits (WaitsOn.isCircuit id) stOk [] else up.cctlOn x.inPort a.body)) ∧
      (CircuitMessage s p 2 a l1 l2 → x.st ≠ 1 → exec (.cready p) s = .next u) ∧
      (CircuitMessage s p 3 a l1 l2 → s.dev = .running → exec (.cfail p) s =
        .next (if x.orig then gone.endWaits (WaitsOn.isCircuit id) (leAt a.body 1 1) [] else gone.cctlOn x.inPort a.body)) ∧
      (CircuitMessage s p 4 a l1 l2 → s.dev = .running → exec (.ctear p) s =
        .next ((if x.orig ∨ x.inPort = p then gone else gone.cctlOn x.inPort (cctlBody 4 stOk id x.source x.dest)).endWaits
          (WaitsOn.isCircuit id) stState [])) ∧
      (CircuitMessage s p 5 a l1 l2 → s.dev = .running →
        let broken := withCircuit u id { x with ent := BitVec.ofNat 64 (setFld x.ent.toNat 0 2 3) }
        exec (.cbroken p) s = .next (if x.orig then broken.interrupt x.owner 2
          else broken.cctlOn x.inPort (cctlBody 5 stOk id x.source x.dest)))) ∧
    (∀ op x, op ∈ [2, 3, 5] → CircuitMessage s p op a l1 l2 → s.circuit? id = some x → x.outPort ≠ p →
      exec (if op = 2 then .cready p else if op = 3 then .cfail p else .cbroken p) s = .next u) ∧
    (∀ x, s.circuit? id = some x → s.fabricUp = true → s.aclk = true →
      (x.orig = true → x.st = 1 ∨ s.circuitAwaited id = true → x.sentAt + 12500000 ≤ s.now →
        exec (.circuitTimeout id) s = .next ((s.tearCircuit id none).endWaits (WaitsOn.isCircuit id) stTimeout [])) ∧
      (s.now < x.sentAt + 12500000 → exec (.circuitTimeout id) s = .next s))

/-- The oldest acknowledgement of `src` is `a`, of this KIND (09 R272). -/
abbrev Sys2Proof.Claims.Acknowledged (s : State) (src kind : Nat) (a : Arrived) (l1 l2 : List Arrived) : Prop :=
  s.fabricUp = true ∧ s.aclk = true ∧ s.fab.tacks = l1 ++ a :: l2 ∧ (∀ z ∈ l1, z.src ≠ src) ∧ a.src = src ∧ leAt a.body 0 1 = kind

/-- TACK_ACK, TACK_NAK, TACK_RESET, TACK_BUSY and TACK_GIVEUP (09 R271-R275): what an ACK covers is no longer kept, the window is the
granted one; a NAK sends all that is kept again; a RESET numbers it again from 0 in a new epoch; BUSY leaves it all for RTO; GIVEUP closes
the flow. The TACK's cells are freed. That a NAK counts toward MAX_RETX and that BUSY keeps the frames for RTO are the model's choice
(assumption 36). -/
def Obligations.Acknowledgements : Prop :=
  ∀ (s : State) (src vc : Nat) (a : Arrived) (l1 l2 : List Arrived), vc = leAt a.body 1 1 % 8 →
    let u := State.freeCells (s.setFab { s.fab with tacks := l1 ++ l2 }) 0 a.cells
    (∀ fl t seq, Acknowledged s src 0 a l1 l2 → s.flow? src vc = some fl → fl.tx = some t → leAt a.body 2 2 = t.epoch → seq = leAt a.body 4 4 →
      let left := fun (f : Frame) => let d := dist32 f.seq seq; d = 0 || decide (2 ^ 31 ≤ d)
      exec (.tackAck src) s = .next (State.drain (State.keepAgain (u.setFlow { fl with idleAt := s.now, tx := some { t with
        kept := t.kept.filter (fun k => left k.frame), window := some (leAt a.body 8 2) } }) src vc left))) ∧
    (∀ fl t, Acknowledged s src 1 a l1 l2 → s.flow? src vc = some fl → fl.tx = some t → leAt a.body 2 2 = t.epoch →
      let told := u.setFlow { fl with idleAt := s.now, tx := some { t with window := some (leAt a.body 8 2) } }
      (t.kept = [] → exec (.tackNak src) s = .next (State.drain told)) ∧
      (∀ k rest, t.kept = k :: rest → k.resends < s.fab.maxRetx → exec (.tackNak src) s = .next (State.drain (told.resendFlow src vc))) ∧
      (∀ k rest, t.kept = k :: rest → s.fab.maxRetx ≤ k.resends →
        exec (.tackNak src) s = .next (State.drain ((told.closeTx src vc).sendTack src 4 vc t.epoch k.frame.seq 0 0)))) ∧
    (∀ fl t, Acknowledged s src 1 a l1 l2 → s.flow? src vc = some fl → fl.tx = some t → leAt a.body 2 2 ≠ t.epoch →
      exec (.tackNak src) s = .next u) ∧
    (∀ fl t, Acknowledged s src 2 a l1 l2 → s.flow? src vc = some fl → fl.tx = some t → leAt a.body 2 2 = t.epoch →
      exec (.tackReset src) s = .next (State.resendFlow (u.setFlow { fl with tx := some { t with
        epoch := (t.epoch + 1) % 65536, seq := t.kept.length, kept := renumber ((t.epoch + 1) % 65536) 0 t.kept, window := none } }) src vc)) ∧
    (Acknowledged s src 3 a l1 l2 → exec (.tackBusy src) s = .next u) ∧
    (∀ fl r, Acknowledged s src 4 a l1 l2 → s.flow? src vc = some fl → fl.rx = some r → r.span = [] → r.epoch ≤ leAt a.body 2 2 → fl.tx = none →
      s.openCtxs = [] → exec (.tackGiveup src) s =
        .next (u.setFab { u.fab with badFlows := u.fab.badFlows.filter (· != (src, vc)),
                                     flows := u.fab.flows.filter (fun x => !(x.peer == src && x.vc == vc)) })) ∧
    (∀ fl r, Acknowledged s src 4 a l1 l2 → s.flow? src vc = some fl → fl.rx = some r → leAt a.body 2 2 < r.epoch →
      exec (.tackGiveup src) s = .next u)

/-- RTO_EXPIRY, ACK_SEND_TIMER, FLOW_IDLE_EXPIRY and SPAN_IDLE_END (09 R272, R274-R277). -/
def Obligations.TransportTimers : Prop :=
  ∀ (s : State) (peer vc : Nat) (fl : Flow), s.fabricUp = true → s.aclk = true → s.flow? peer vc = some fl →
    (∀ t k rest, fl.tx = some t → t.kept = k :: rest → k.at' + s.fab.rto ≤ s.now → k.resends < s.fab.maxRetx →
      exec (.rtoExpiry peer vc) s = .next (s.resendFlow peer vc).drain) ∧
    (∀ t k rest, fl.tx = some t → t.kept = k :: rest → k.at' + s.fab.rto ≤ s.now → s.fab.maxRetx ≤ k.resends →
      exec (.rtoExpiry peer vc) s = .next ((s.closeTx peer vc).sendTack peer 4 vc t.epoch k.frame.seq 0 0).drain) ∧
    (∀ t k rest, fl.tx = some t → t.kept = k :: rest → s.now < k.at' + s.fab.rto → exec (.rtoExpiry peer vc) s = .next s) ∧
    (∀ r, fl.rx = some r → 0 < r.unacked → exec (.ackSendTimer peer vc) s = .next (s.ackFlow peer vc)) ∧
    (∀ r, fl.rx = some r → r.unacked = 0 → exec (.ackSendTimer peer vc) s = .next s) ∧
    ((∀ t, fl.tx = some t → t.kept = [] ∧ t.held = none) → (∀ o ∈ s.fab.outbox, o.dest ≠ peer ∨ o.vc ≠ vc) →
      (∀ r, fl.rx = some r → r.unacked = 0 ∧ r.span = [] ∧ r.inUse = 0) → fl.idleAt + s.fab.flowIdle * 1250000 ≤ s.now →
      exec (.flowIdleExpiry peer vc) s =
        .next (State.drain (s.setFab { s.fab with flows := s.fab.flows.filter (fun x => !(x.peer == peer && x.vc == vc)) }))) ∧
    (s.now < fl.idleAt + s.fab.flowIdle * 1250000 → exec (.flowIdleExpiry peer vc) s = .next s) ∧
    (∀ t, fl.tx = some t → t.held ≠ none → exec (.spanIdleEnd peer vc) s = .next (s.endSpan peer vc)) ∧
    (∀ t, fl.tx = some t → t.held = none → exec (.spanIdleEnd peer vc) s = .next s)

/-- ALIVE, FENCE and REJOIN (12 R333, R336, R339, R349): what the authority asks of the home of a rank is answered with the lowest status that
applies; a message applied before, a fence that is in force, and a REJOIN to the epoch and endpoint that the rank has, are answered OK with
no change. -/
def Obligations.FenceAndRejoin : Prop :=
  ∀ (s : State) (src : Nat) (a : Arrived) (c r : Nat), c = leAt a.body 2 2 % 4096 → r = leAt a.body 8 4 % 2 ^ 20 → keySw src = false →
    (s.ctx c).st = .ready →
    let u := s.consume a
    let k := (s.ctx c).rank r
    let ep := leAt a.body 12 4
    let addr := leAt a.body 16 3
    let here := r < (s.ctx c).rosterN ∧ s.isLocal (s.ctx c) r = true
    let answer := fun (t : State) (st : Nat) => t.rosterTo src (ackMsg st a.body)
    let isFence := Message s src 0 6 2 a
    let isRejoin := Message s src 0 6 4 a
    (Message s src 0 6 1 a → exec (.alive src) s = .next u) ∧
    (isFence → (2, r, ep, addr) ∈ (s.ctx c).applied → exec (.fence src) s = .next (answer u stOk)) ∧
    (isFence → (2, r, ep, addr) ∉ (s.ctx c).applied →
      (¬here → exec (.fence src) s = .next (answer u stBadField)) ∧
      (here → k.epoch ≠ ep → exec (.fence src) s = .next (answer u stSequence)) ∧
      (here → k.epoch = ep → k.live = false → exec (.fence src) s = .next (answer u stOk)) ∧
      (here → k.epoch = ep → k.live = true →
        exec (.fence src) s = .next (answer ((u.fenceRank c r none).noteApplied c (2, r, ep, addr)) stOk))) ∧
    (isRejoin → (4, r, ep, addr) ∈ (s.ctx c).applied → exec (.rejoin src) s = .next (answer u stOk)) ∧
    (isRejoin → (4, r, ep, addr) ∉ (s.ctx c).applied →
      (¬here → exec (.rejoin src) s = .next (answer u stBadField)) ∧
      (here → k.joined = true → k.epoch = ep → k.endpoint = addr → exec (.rejoin src) s = .next (answer u stOk)) ∧
      (here → (k.joined = false ∨ k.epoch ≠ ep ∨ k.endpoint ≠ addr) →
        (∃ q ∈ (s.ctx c).roster, q.1 ≠ r ∧ q.1 < (s.ctx c).rosterN ∧ q.2.endpoint = addr) →
        exec (.rejoin src) s = .next (answer u stBadField)) ∧
      (here → (k.joined = false ∨ k.epoch ≠ ep ∨ k.endpoint ≠ addr) →
        (∀ q ∈ (s.ctx c).roster, q.1 = r ∨ (s.ctx c).rosterN ≤ q.1 ∨ q.2.endpoint ≠ addr) →
        (newerEpoch k.epoch ep = false → exec (.rejoin src) s = .next (answer u stSequence)) ∧
        (newerEpoch k.epoch ep = true →
          exec (.rejoin src) s = .next (answer ((u.rejoinHome c r ep addr none).noteApplied c (4, r, ep, addr)) stOk))))

/-- LOST, HOST, RERUN, RERUN_MERGE and SWITCH_SILENCE (12 R351-R354): a participant that is lost is taken over once; a HOST is checked and answered;
a re-run is merged for 1,250 ACLK at the anchor and goes down the tree; silence of a neighbour for SILENCE is its loss. -/
def Obligations.LostParticipants : Prop :=
  ∀ (s : State) (src : Nat) (a : Arrived) (c : Nat), c = leAt a.body 2 2 % 4096 → (s.ctx c).st = .ready → (s.ctx c).lost = [] →
    let u := s.consume a
    let gone := leAt a.body 16 3
    let g := s.geo (s.ctx c)
    let num := BitVec.ofNat 32 (leAt a.body 4 4)
    let first := leAt a.body 20 4
    let last := leAt a.body 24 4
    (Message s src 0 6 7 a → s.participant c gone = true →
      exec (.lost src) s = .next (u.applyLost c gone none 7 (leAt a.body 1 1) (skipOf src))) ∧
    (Message s src 0 6 7 a → s.participant c gone = false → exec (.lost src) s = .next u) ∧
    (Message s src 0 6 8 a → keySw src = false → (8, gone, rmHost a.body, 0) ∉ (s.ctx c).applied →
      (s.participant c gone = false ∨ s.participant c (rmHost a.body) = false ∨ rmHost a.body = gone) → exec (.host src) s = .next (u.rosterTo src (ackMsg stBadField a.body))) ∧
    (Message s src 0 6 8 a → keySw src = false → s.participant c gone = true → s.participant c (rmHost a.body) = true → rmHost a.body ≠ gone →
      g.mayHost gone (rmHost a.body) = true → (8, gone, rmHost a.body, 0) ∉ (s.ctx c).applied → exec (.host src) s =
        .next (((u.applyLost c gone (some (rmHost a.body)) 8 (leAt a.body 1 1) none).noteApplied c (8, gone, rmHost a.body, 0)).rosterTo src
          (ackMsg stOk a.body))) ∧
    (Message s src 0 6 8 a → keySw src = false → (8, gone, rmHost a.body, 0) ∈ (s.ctx c).applied →
      exec (.host src) s = .next (u.rosterTo src (ackMsg stOk a.body))) ∧
    (Message s src 0 6 6 a → g.up = none → exec (.rerun src) s = .next (u.mergeRerun c num first last)) ∧
    (∀ p, Message s src 0 6 6 a → g.up = some p →
      let above := keySw src = true ∧ ∃ n ∈ g.held, ∃ q, g.parent n = some q ∧ g.holder q = keyAddr src
      (above → exec (.rerun src) s = .next ((u.rerunDown c a.body).applyRerun c num first last)) ∧
      (¬above → exec (.rerun src) s = .next (u.rosterNode c p a.body))) ∧
    (∀ w m, s.coll.merges.find? (fun m => m.ctx == c && m.gen == w) = some m → s.computing = true →
      (m.since + 1250 ≤ s.now → exec (.rerunMerge c w) s = .next (State.applyRerun (State.rerunDown
        (s.setColl { s.coll with merges := s.coll.merges.filter (fun z => !(z.ctx == c && z.gen == w)) }) c
          (rosterMsg 6 0 c w 0 0 0 0 m.first m.last 0 0)) c w m.first m.last)) ∧
      (s.now < m.since + 1250 → exec (.rerunMerge c w) s = .next s)) ∧
    (∀ sw, s.computing = true → s.participant c sw = true → sw ≠ s.fab.hereAddr → (g.held.flatMap g.neighbours).contains sw = true →
      (tget 0 s.coll.heardSw sw + s.health.silenceMs * 1250000 ≤ s.now → exec (.switchSilence c sw) s =
        .next ((s.applyLost c sw none 7 stOk none).toAuthority (lostMsg stOk c sw ((g.hostFor sw).getD 0)))) ∧
      (s.now < tget 0 s.coll.heardSw sw + s.health.silenceMs * 1250000 → exec (.switchSilence c sw) s = .next s))

/-- MEMBER_SILENT, HEALTH_DECAY, EXPEL_TOKEN_ADD and GRISAILLE_ENTRY (12 R338, R357, R358, R360, R361): each second a score falls by an eighth,
rounded up; a token is added per period up to its bound, and an endpoint that waits for one is expelled. On entry to Grisaille mode the stacks
enter self-refresh, but for the one that the flush that begins then writes to. -/
def Obligations.Detectors : Prop :=
  ∀ (s : State), s.fabricUp = true →
    let h := s.health
    (∀ ep, h.detectMs ≠ 0 → s.watched ep = true →
      (tget 0 h.lastFrame (edgeOf ep) + h.detectMs * 1250000 ≤ s.now → exec (.memberSilent ep) s = .next (s.fenceEndpoint ep)) ∧
      (s.now < tget 0 h.lastFrame (edgeOf ep) + h.detectMs * 1250000 → exec (.memberSilent ep) s = .next s)) ∧
    (∀ ep, h.detectMs = 0 ∨ s.watched ep = false → exec (.memberSilent ep) s = .next s) ∧
    (h.decayAt + 1250000000 ≤ s.now → tcanon 0 h.score = true → ∃ u, exec .healthDecay s = .next u ∧ u.health.decayAt = s.now ∧
      (∀ e, tget 0 u.health.score e = tget 0 h.score e - (tget 0 h.score e + 7) / 8) ∧
      (∀ e, e ∈ u.health.impaired ↔ e ∈ h.impaired ∧ h.clear ≤ tget 0 u.health.score e) ∧
      u.fab = s.fab ∧ u.coll = s.coll ∧ u.mem = s.mem ∧ u.diary = s.diary) ∧
    (s.now < h.decayAt + 1250000000 → exec .healthDecay s = .next s) ∧
    (h.tokenAt + h.periodS * 1250000000 ≤ s.now →
      let full : State := { s with health := { h with tokenAt := s.now, tokens := min h.tokensMax (h.tokens + 1) } }
      (h.impaired = [] ∨ h.tokensMax = 0 → exec .expelTokenAdd s = .next full) ∧
      (∀ e, e < 64 → h.impaired = [e] → h.limit ≤ tget 0 h.score e → 0 < h.tokensMax → exec .expelTokenAdd s = .next (full.expel e))) ∧
    (s.now < h.tokenAt + h.periodS * 1250000000 → exec .expelTokenAdd s = .next s) ∧
    (∀ why, s.dev = .running → s.openCtxs = [] → s.diary.busy = none → ∃ u, exec (.grisailleEntry why) s = .next u ∧ u.dev = .grisaille ∧
      u.health.cause = (match why with | .compute => 1 | .hbmLoss => 2 | .thermal => 3) ∧ u.coll.accums = [] ∧
      (∀ f, f < 4 → s.enabled f = true → (u.func f).intStatus.getLsbD 4 = true) ∧
      (why = .hbmLoss → u.mem.lostHbm = true ∧ u.diary.busy = none) ∧
      (why ≠ .hbmLoss → u.diary.busy = some (2, s.diary.head.toNat) ∧ (s.mem.cached (spillAt ((s.diary.slot + 1) % 16)) = false →
        ∀ k, k < 4 → k ≠ s.mem.channelAt (spillAt ((s.diary.slot + 1) % 16)) / 32 → tget 0 u.mem.powerSt k = 2)) ∧
      u.boot.alert.getLsbD 0 = true ∧ u.fab = s.fab) ∧
    (∀ why, s.dev = .grisaille → exec (.grisailleEntry why) s = .next s)

/-- CHUNK_STALL, CHUNK_PARKED and CHUNK_RESUME (12 R343-R346; 16 R439): a chunk that misses a tile for HOLD begins to park in a park area of its own; it
is parked when the studies that hold its partials have ended; when nothing is missing its start entries are pushed again, in a cycle that the
share of R439 gives, unless its images are lost. That a chunk does not park whose area reaches into what phase two keeps (08 R227) is the
model's choice (assumption 69). -/
def Obligations.Parking : Prop :=
  ∀ (s : State) (c : Nat) (g : Word) (k : Nat) (x : Ctx) (y : Gen) (z : Chunk), s.computing = true → x = s.ctx c → x.gen? g = some y →
    z = y.chunk k →
    (∀ t, x.parks y = true → x.areaFree z = true → z.done = false → z.parking = false → z.parked = false → s.missing c y k = true →
      z.stallAt = some t → t + s.health.hold ≤ s.now → exec (.chunkStall c g k) s = .next (s.parkChunk c x g k z)) ∧
    (x.areaFree z = false → exec (.chunkStall c g k) s = .next s) ∧
    (∀ t, z.stallAt = some t → s.now < t + s.health.hold → exec (.chunkStall c g k) s = .next s) ∧
    (z.parking = true → (∀ p ∈ z.parkOf, p ∈ z.ended ∧ (s.easel p.1).quietOf c g k = true) →
      exec (.chunkParked c g k) s = .next (s.modGen c g (fun y => y.modChunk k (fun z => { z with parking := false, parked := true })))) ∧
    (z.parking = false → exec (.chunkParked c g k) s = .next s) ∧
    (z.parked = true → z.void = false → s.missing c y k = false → s.pushCycle = true →
      (∀ p ∈ z.parkOf, (s.easel p.1).stopAt = none ∧ s.startRoom p.1 p.2 = true) →
      exec (.chunkResume c g k) s = .next ((s.resumeChunk c x y k z).wakeBound c)) ∧
    (z.parked = false ∨ z.void = true ∨ s.missing c y k = true ∨ s.pushCycle = false → exec (.chunkResume c g k) s = .next s)

/-- RUNTIME_MAPOUT, SPARE_TAKEOVER, BACKGROUND_SCRUB, HBM_POWER_DOWN and HBM_SELF_REFRESH_ENTRY (11 R311, R312, R326, R328): a channel leaves service,
the lowest free spare takes over; errors are counted by channel; an idle stack powers down and refreshes itself. -/
def Obligations.MemoryChannels : Prop :=
  ∀ (s : State), s.hbmUp = true →
    let m := s.mem
    (∀ ch sp k, ch < 128 → m.serves ch = true → m.isSpare ch = false → (∀ t ∈ m.takeover, t.2.1 ≠ ch) →
      (∀ j, j < sp → m.isSpare j = false) → sp < 128 → m.isSpare sp = true →
      k < 128 → k ≠ ch → k / 32 = ch / 32 → (∀ p ∈ m.failTimes, p.2 ≠ k) →
      ∃ u, exec (.runtimeMapout ch .interfaceFailed) s = .next u ∧ u.mem.serves ch = false ∧ u.mem.failed.testBit ch = true ∧
        u.mem.isSpare sp = false ∧ u.mem.takeover = m.takeover ++ [(m.logical.idxOf ch, sp, s.now)] ∧ u.mem.excludePending = true ∧
        u.mem.cells = m.cells ∧ u.dev = .running ∧ u.boot.alert.getLsbD 4 = true ∧ (∀ j, j ≠ ch → u.mem.serves j = m.serves j)) ∧
    (∀ ch, ch < 128 → m.serves ch = true → m.ueLimit = 0 ∨ m.recentUe s.now ch < m.ueLimit → exec (.runtimeMapout ch .ueLimit) s = .next s) ∧
    (∀ t rest, m.takeover = t :: rest → exec .spareTakeover s = .next (s.tookOver t)) ∧
    (m.takeover = [] → exec .spareTakeover s = .next s) ∧
    (∀ ch, s.board.warmSeq = false →
      (exec (.backgroundScrub .clean) s = .next s) ∧
      (exec (.backgroundScrub (.corrected ch)) s = .next (s.setMem { m with ce := tset 0 m.ce ch (tget 0 m.ce ch + 1) })) ∧
      (exec (.backgroundScrub (.uncorrected ch)) s = .next ((s.setMem { m with
        ue := tset 0 m.ue ch (tget 0 m.ue ch + 1), ueTimes := m.ueTimes ++ [(s.now, ch)] }).note 326 0 3 ch 0 [ch]))) ∧
    (∀ h, h < 4 → tget 0 m.powerSt h = 0 → tget 0 m.lastAccess h + 64 ≤ s.now →
      exec (.hbmPowerDown h) s = .next (s.setMem { m with powerSt := tset 0 m.powerSt h 1 })) ∧
    (∀ h, h < 4 → s.now < tget 0 m.lastAccess h + 64 → exec (.hbmPowerDown h) s = .next s) ∧
    (∀ h, h < 4 → m.awake = false → tget 0 m.powerSt h ≠ 2 → tget 0 m.lastAccess h + m.idle * 128 ≤ s.now →
      exec (.hbmSelfRefreshEntry h) s = .next (s.setMem { m with powerSt := tset 0 m.powerSt h 2 })) ∧
    (∀ h, h < 4 → m.awake = true → exec (.hbmSelfRefreshEntry h) s = .next s)

/-- DIARY_FLUSH and DIARY_FLUSH_COMPLETE (15 R425, R426): a flush takes the next spill slot and number and its header says WRITING; a second one
waits; each ACLK copies the next two records, the oldest first; as it ends the rest of the records up to the HEAD it began with are copied, and
the header says COMPLETE, unless the loss of a channel has marked it INCOMPLETE (11 R312), with the time at which the flush began. -/
def Obligations.DiaryFlushes : Prop :=
  ∀ (s : State), s.aclk = true → s.dev = .running ∨ s.dev = .grisaille →
    let d := s.diary
    (∀ cause, cause = 1 ∨ cause = 2 ∨ cause = 3 ∨ cause = 5 → s.mem.lostHbm = false →
      (d.busy = none → ∃ u, exec (.diaryFlush cause) s = .next u ∧ u.diary.busy = some (cause, d.head.toNat) ∧ u.diary.slot = (d.slot + 1) % 16 ∧
        u.diary.number = (if d.started then d.number + 1 else d.number) ∧ u.diary.recs = d.recs ∧ u.diary.head = d.head ∧
        u.mem.cells = (s.mem.write ((d.slot + 1) % 16 * 0x400000) (spillHeader 0 cause u.diary.number (flushRange d.written d.head.toNat).1
          (flushRange d.written d.head.toNat).2 s.clock.ftime.toNat)).cells) ∧
      (d.busy ≠ none → d.pendingCause = none →
        exec (.diaryFlush cause) s = .next { s with diary := { d with pendingCause := some cause } })) ∧
    (∀ cause, cause = 0 ∨ 5 < cause → exec (.diaryFlush cause) s = .next s) ∧
    (∀ t, s.mem.lostHbm = false → d.lastEasel = some t → s.now < t + d.gapMs * 1250000 → exec (.diaryFlush 4) s = .next s) ∧
    (d.busy = none → exec .diaryFlushComplete s = .next s) ∧
    (∀ cause h, d.busy = some (cause, h) → s.mem.lostHbm = false →
      let r := flushRange d.written h
      let n := min 2 (r.2 - d.copied)
      ∃ u, exec .fabricTimeTick s = .next u ∧ u.diary.copied = d.copied + n ∧ u.diary.busy = d.busy ∧
        (Memory.wf s.mem.cells = true → (∀ m, ∀ o ∈ (s.easel m).ops, o.data = []) → ∀ i b, i < n → b < 64 →
          (u.mem.read (d.slot * 0x400000 + 64 + 64 * (d.copied + i)) 64).getD b 0 =
            (tget [] d.recs ((r.1 + (d.copied + i)) % 65536)).getD b 0)) ∧
    (∀ cause h, d.busy = some (cause, h) → d.pendingCause = none → s.board.warmSeq = false → Memory.wf s.mem.cells = true →
      let r := flushRange d.written h
      let was := s.mem.read (d.slot * 0x400000) 64
      ∃ u, exec .diaryFlushComplete s = .next u ∧ u.diary = { d with busy := none, copied := d.copied + (r.2 - d.copied) } ∧
        u.mem.read (d.slot * 0x400000) 64 = spillHeader (if leAt was 5 1 = 2 ∧ leAt was 60 4 = crc32c (was.take 60) then 2 else 1) cause d.number
          r.1 r.2 (leAt was 20 8) ∧
        (∀ i b, d.copied ≤ i → i < r.2 → b < 64 → r.2 < 65536 → (u.mem.read (d.slot * 0x400000 + 64 + 64 * i) 64).getD b 0 =
          (tget [] d.recs ((r.1 + i) % 65536)).getD b 0) ∧
        (∀ f, f < 4 → s.enabled f = true → (u.func f).intStatus.getLsbD 5 = true) ∧ u.boot.alert.getLsbD 2 = true ∧ u.fab = s.fab)

/-- SYS_RST_L_LOW, VDD_AON_LOSS, VDD_AON_GOOD, RAILS_IN_RANGE and RAIL_FAULT (15 R408; 16 R434): the core is at its reset values and HBM is forgotten;
the fuses, the NOR and the log MRAM stay; the device waits in AON, or is OFF. The reset values that the spec does not give, what forgotten
memory reads as, and ALERT bit 0 at the change from OFF to AON are the model's choice (assumptions 3, 4, 5, 56). -/
def Obligations.ColdResets : Prop :=
  ∀ (s : State),
    let core := fun (u : State) => u.easels = [] ∧ u.coll = {} ∧ u.health = {} ∧ u.funcs = [] ∧ u.diary = {} ∧ u.clock = {} ∧
      u.formats = factoryFormats ∧ u.fab = State.reset.fab ∧ u.mem.cells = [] ∧ u.mem.kept = false ∧
      u.boot.fuses = s.boot.fuses ∧ u.boot.nor = s.boot.nor ∧ u.boot.mram = s.boot.mram ∧ u.outs = s.outs
    (s.board.sysRst = true → s.dev ≠ .off → ∃ u, exec .sysRstLow s = .next u ∧ core u ∧ u.dev = .aon ∧ u.board.sysRst = false ∧
      u.board.cold = true ∧ u.board.trip = false ∧ u.boot.presented = false) ∧
    (s.board.sysRst = false → exec .sysRstLow s = .next s) ∧
    (s.dev ≠ .off → ∃ u, exec .vddAonLoss s = .next u ∧ core u ∧ u.dev = .off ∧ u.board.aon = false ∧ u.board.rails = false) ∧
    (∀ a, s.dev = .off → ∃ u, exec (.vddAonGood a) s = .next u ∧ u.dev = .aon ∧ u.board = { s.board with aon := true, smbAddr := a % 4 } ∧
      u.boot.alert.getLsbD 0 = true) ∧
    (∀ a, s.dev ≠ .off → exec (.vddAonGood a) s = .next s) ∧
    (s.dev = .aon → s.board.rails = false → exec .railsInRange s = .next { s with board := { s.board with rails := true } }) ∧
    (s.dev ≠ .aon → exec .railsInRange s = .next s) ∧
    (s.dev ≠ .off → s.dev ≠ .aon → s.board.rails = true → ∃ u, exec .railFault s = .next u ∧ core u ∧ u.dev = .aon ∧ u.board.rails = false) ∧
    (s.dev = .aon → s.board.rails = true → exec .railFault s = .next { s with board := { s.board with rails := false } })

/-- WARM_RST_L, its end, and its rise (11 R327; 15 R408): from RUNNING the bytes of the writes in flight land in memory, in issue order in each Easel, and a
flush of cause WARM begins; its last flush ends the sequence in BOOT with the stacks in self-refresh and the core at its reset values; from
HOLD or BOOT the core resets at once and KEPT stays (the model's choice, assumption 48); with KEPT = 1 every byte outside the Sketchbook and
the spill slot stays. With KEPT = 0 memory reads as it does where nothing was written (the model's choice, assumption 5). -/
def Obligations.WarmResets : Prop :=
  ∀ (s : State),
    (s.board.warmRst = true → s.aclk = true → s.dev = .running → s.board.warmSeq = false → s.mem.lostHbm = false → s.diary.busy = none →
      ∃ u, exec .warmRst s = .next u ∧ u.board.warmSeq = true ∧ u.board.warmRst = false ∧ u.dev = .running ∧
        u.diary.busy = some (5, s.diary.head.toNat) ∧ (∀ p ∈ u.easels, ∀ o ∈ p.2.ops, o.data = []) ∧ u.coll = s.coll ∧ u.fab = s.fab ∧
        (let done := s.easels.foldl (fun m p => p.2.ops.foldl (fun m o => o.data.foldl (fun m d => m.write d.1 d.2) m) m) s.mem
         let r := flushRange s.diary.written s.diary.head.toNat
         u.mem.cells = (done.write (spillAt ((s.diary.slot + 1) % 16))
           (spillHeader 0 5 u.diary.number r.1 r.2 s.clock.ftime.toNat)).cells)) ∧
    (s.board.warmRst = true → s.aclk = true → s.dev = .hold ∨ s.dev = .boot → s.board.warmSeq = false →
      s.board.coolHold = false →
      ∃ u, exec .warmRst s = .next u ∧ u.dev = .boot ∧ u.easels = [] ∧ u.coll = {} ∧ u.clock = {} ∧ u.funcs = [] ∧
        u.formats = factoryFormats ∧ u.mem.kept = s.mem.kept) ∧
    (s.board.warmRst = false → exec .warmRst s = .next s) ∧
    (∀ h, s.diary.busy = some (5, h) → s.diary.pendingCause = none → s.aclk = true → s.board.warmSeq = true → s.dev = .running →
      s.board.coolHold = false →
      ∃ u, exec .diaryFlushComplete s = .next u ∧ u.dev = .boot ∧ u.easels = [] ∧ u.coll = {} ∧ u.health = {} ∧ u.funcs = [] ∧
        u.clock = {} ∧ u.formats = factoryFormats ∧ u.boot.nor = s.boot.nor ∧ u.boot.fuses = s.boot.fuses ∧ u.board.warmSeq = false ∧
        u.mem.kept = (!s.mem.excludePending && !s.board.warmSpoiled) ∧ (∀ k, k < 4 → tget 0 u.mem.powerSt k = 2) ∧
        (u.mem.kept = false → u.mem.cells = []) ∧
        (u.mem.kept = true → Memory.wf s.mem.cells = true → ∀ a, a < s.mem.sketchBase ∨ s.mem.paletteBase ≤ a → a < Config.scratchBase →
          a < s.diary.slot * 0x400000 ∨ (s.diary.slot + 1) * 0x400000 ≤ a → tget 0 u.mem.cells a = tget 0 s.mem.cells a)) ∧
    (s.board.warmRst = false → exec .warmRstRise s = .next { s with board := { s.board with warmRst := true } }) ∧
    (s.board.warmRst = true → exec .warmRstRise s = .next s)

/-- BOOT (15 R409, R415): it runs from BOOT or, once all rails and the reset allow, from AON. A bad fuse map or image ends it in HOLD with its
cause, and so does a NOR that does not answer; otherwise it ends RUNNING with the image's version and tables, or in Grisaille mode where HBM
cannot hold its regions. That a fuse map which enables another number of Easels than its grade has is a bad one, and that BOOT is one step,
are the model's choice (assumptions 3 and 47). -/
def Sys2Proof.Claims.BootSequence : Prop :=
  ∀ (s : State) (hbm : Nat), s.dev = .boot → s.board.warmRst = true → s.board.clock = true →
    let u := (State.setBoard s { s.board with sysRst := true, coolHold := false }).checkMram.reportLog
    let img := s.norImage
    (s.boot.fuses.readable = false ∨ 3 ≤ s.boot.fuses.grade ∨ s.boot.fuses.enabled.length ≠ Config.gradeEasels s.boot.fuses.grade →
      ∃ t, exec (.boot hbm) s = .next t ∧ t.dev = .hold ∧ t.boot.cause = 6 ∧ t.boot.presented = true ∧ t.easels = s.easels ∧ t.formats = s.formats) ∧
    (s.boot.fuses.readable = true → s.boot.fuses.grade < 3 → s.boot.fuses.enabled.length = Config.gradeEasels s.boot.fuses.grade →
        s.boot.norAnswers = false →
      ∃ t, exec (.boot hbm) s = .next t ∧ t.dev = .hold ∧ t.boot.cause = 1 ∧ t.boot.presented = true ∧ t.easels = s.easels ∧ t.formats = s.formats) ∧
    (∀ k, s.boot.fuses.readable = true → s.boot.fuses.grade < 3 → s.boot.norAnswers = true →
        s.boot.fuses.enabled.length = Config.gradeEasels s.boot.fuses.grade → u.imageFault u img = some k →
      ∃ t, exec (.boot hbm) s = .next t ∧ t.dev = .hold ∧ t.boot.cause = k ∧ t.boot.presented = true ∧ t.easels = s.easels ∧ t.formats = s.formats) ∧
    (∀ v, s.boot.fuses.readable = true → s.boot.fuses.grade < 3 → s.boot.norAnswers = true →
        s.boot.fuses.enabled.length = Config.gradeEasels s.boot.fuses.grade → u.imageFault u img = none → u.loadTables img = some v →
      exec (.boot hbm) s = .next (v.bootEnds img hbm) ∧ (v.bootEnds img hbm).boot.cause = 0 ∧
        (v.bootEnds img hbm).boot.fw = BitVec.ofNat 32 (imgFw img) ∧ (v.bootEnds img hbm).boot.presented = true ∧
        (v.bootEnds img hbm).boot.imageDigest = imgDigest img ∧
        ((v.bootEnds img hbm).dev = .running ∨ (v.bootEnds img hbm).dev = .grisaille ∧ (v.bootEnds img hbm).mem.lostHbm = true))

/-- BOOT does not run in another state of the device, while WARM_RST_L holds it, or while a trip has stopped the clocks (15 R407, R408; 16 R440). -/
def Sys2Proof.Claims.BootOnlyFromBoot : Prop :=
  ∀ (s : State) (hbm : Nat), s.dev = .off ∨ s.dev = .hold ∨ s.dev = .running ∨ s.dev = .grisaille ∨ s.dev = .boot ∧ (s.board.warmRst = false ∨ s.board.clock = false) ∨
      s.dev = .aon ∧ (s.board.aon = false ∨ s.board.rails = false ∨ s.board.clock = false) →
    exec (.boot hbm) s = .next s

/-- The power-fail log (15 R427, R428, R431; 16 R437): a fall of PWR_FAIL_L while armed begins one, the first since the fall, behind the events
recorded before it; in the MRAM it is the newest 512 records of the Diary, or as many as exist, oldest first, behind a header that numbers it
one above the newest log, in the place of the other log; the header is written behind the records, then the MRAM header, then ALERT bit 3 is
set. That it is written 64 bytes at a time at the 400 MB/s of R428's example, with a header first cleared, that a log under way is completed
when another begins, and the places of the MRAM header's fields, are the model's choice (assumptions 40 and 54). -/
def Sys2Proof.Claims.PowerFailLog : Prop :=
  ∀ (s : State),
    (s.board.pwrFail = true → s.aclk = true → s.boot.logArmed = true → s.boot.logJob = none → s.diary.queue.length < 64 →
      ∃ u, exec .pwrFail s = .next u ∧ u.boot.logJob = some { wait := s.diary.queue.length + 1, since := s.now } ∧ u.board.pwrFail = false ∧
        u.boot.logArmed = false ∧ u.boot.mram = s.boot.mram ∧ u.mem = s.mem ∧ u.fab = s.fab ∧ u.coll = s.coll ∧ u.dev = s.dev) ∧
    (s.board.pwrFail = true → s.aclk = true → s.boot.logArmed = false → ∃ u, exec .pwrFail s = .next u ∧ u.board.pwrFail = false ∧
      u.boot.mram = s.boot.mram ∧ u.boot.logJob = s.boot.logJob) ∧
    (∀ j, s.boot.logJob = some j → s.aclk = true → j.todo = none →
      ∃ u, exec .fabricTimeTick s = .next u ∧ u.boot.mram = s.boot.mram ∧ u.boot.logJob = some (if j.wait ≤ 1 then
        { j with since := s.now + 1, todo := some u.logPlan } else { j with wait := j.wait - 1 })) ∧
    (∀ j a b rest, s.boot.logJob = some j → s.aclk = true → j.todo = some ((a, b) :: rest) → (s.now + 1 - j.since) % 200 = 0 →
      ∃ u, exec .fabricTimeTick s = .next u ∧ u.boot.mram = (s.mramWrite a b).boot.mram ∧
        (rest ≠ [] → u.boot.logJob = some { j with todo := some rest }) ∧
        (rest = [] → u.boot.logJob = none ∧ u.boot.alert.getLsbD 3 = true)) ∧
    (let n := min 512 s.diary.recs.length
     let first := (s.diary.head.toNat + 2 ^ 32 - n) % 2 ^ 32
     ∃ k number, (match s.newestLog with | some (i, m) => k + i = 1 ∧ number = m + 1 | none => k = 0 ∧ number = 1) ∧ s.logPlan.length = n + 3 ∧
       (∀ i, i < n → ∃ b, s.logPlan[i + 1]? = some (0x10000 + 0x10000 * k + 64 * (i + 1), b) ∧ b.length = 64 ∧
         ∀ z, z < 64 → b.getD z 0 = (tget [] s.diary.recs ((first + i) % 65536)).getD z 0) ∧
       (∃ b, s.logPlan[n + 1]? = some (0x10000 + 0x10000 * k, b) ∧ b.length = 64 ∧ leAt b 8 4 = number % 2 ^ 32 ∧ leAt b 12 4 = first ∧
         leAt b 16 4 = n ∧ leAt b 60 4 = crc32c (b.take 60)) ∧
       s.logPlan[n + 2]? = some (0, mramHeader number))

/-- PERST, PWR_FAIL_L's rise and FUNCTION_LEVEL_RESET (15 R428; 14 R382, R383): the log is armed again by the rise; a reset function has its
registers, slots and results at their reset values, of which the MSI-X table's are the family's (assumption 7). -/
def Sys2Proof.Claims.HostResets : Prop :=
  ∀ (s : State),
    let fresh := fun (x : Func) => x.slots = [] ∧ x.results = [] ∧ x.next = 1 ∧ x.intEnable = 0 ∧ x.aperture = 0 ∧ x.msix = [] ∧
      x.msixMasked = true ∧ x.msixPend = 0 ∧ x.waits = [] ∧ (∀ t ∈ x.taken, t.quiet = true)
    (s.board.pwrFail = false → exec .pwrFail s = .next s ∧
      exec .pwrFailRise s = .next { s with board := { s.board with pwrFail := true }, boot := { s.boot with logArmed := true } }) ∧
    (s.board.pwrFail = true → exec .pwrFailRise s = .next s) ∧
    (s.board.perst = true → s.aclk = true → ∃ u, exec .perst s = .next u ∧ u.board.perst = false ∧ ∀ f, f < 4 → fresh (u.func f)) ∧
    (s.board.perst = false → exec .perst s = .next s) ∧
    (∀ strap, s.board.perst = false → strap < 3 →
      exec (.perstRise strap) s = .next { s with board := { s.board with perst := true, bifStrap := strap } }) ∧
    (∀ strap, s.board.perst = true → exec (.perstRise strap) s = .next s) ∧
    (∀ f, Reaches s f → ∃ u, exec (.functionLevelReset f) s = .next u ∧ fresh (u.func f) ∧ (u.func f).intStatus = 0 ∧
      (∀ c, (s.ctx c).owner = f → (u.ctx c).st = .free)) ∧
    (∀ f, f < 4 → s.presents f = false → exec (.functionLevelReset f) s = .next s)

/-- THERMAL_WARNING, THERMAL_EMERGENCY, THERMTRIP and THROTTLE_UPDATE (16 R438-R440). -/
def Obligations.Thermal : Prop :=
  ∀ (s : State) (t : Nat) (x : Int), t < 13 →
    let b := s.board
    ((if t < 9 then 30720 else 28160) ≤ x → s.dev ≠ .off → exec (.thermtrip t x) s =
      .next { s with board := { b with temps := tset 0 b.temps t x, trip := true, clock := false } }) ∧
    (x < (if t < 9 then 30720 else 28160) → exec (.thermtrip t x) s = .next s) ∧
    (s.aclk = true →
    (t ∉ b.warned → b.warnAt t ≤ x → ∃ u, exec (.thermalWarning t x) s = .next u ∧ u.board.warned = b.warned ++ [t] ∧
      u.boot.alert.getLsbD 1 = true ∧ (∀ f, f < 4 → s.enabled f = true → (u.func f).intStatus.getLsbD 9 = true)) ∧
    (t ∈ b.warned → x ≤ b.warnAt t - 512 → ∃ u, exec (.thermalWarning t x) s = .next u ∧ t ∉ u.board.warned ∧ u.boot.alert.getLsbD 1 = true) ∧
    (t ∉ b.warned → x < b.warnAt t → exec (.thermalWarning t x) s = .next s) ∧
    (∀ a, tget? b.hotSince t = some a → a + 1250000 ≤ s.now → exec (.thermalEmergency t) s =
      .next (State.enterGrisaille { s with board := { b with emergency := true, coolHold := true } } .thermal)) ∧
    (tget? b.hotSince t = none → exec (.thermalEmergency t) s = .next s) ∧
    (∀ power current, b.throttleAt + 1250000 ≤ s.now → power ≤ b.limits.pLimit → b.powerHeld = false →
      ∃ u, exec (.throttleUpdate [] power current) s = .next u ∧ u.board.power = power ∧ u.board.current = current ∧
        u.board.throttleAt = s.now ∧ u.board.share = (b.senseAll s.now []).curveShare ∧ u.board.powerHeld = false ∧ u.mem = s.mem ∧ u.coll = s.coll) ∧
    (∀ power current k, b.throttleAt + 1250000 ≤ s.now → b.limits.pLimit < power →
      k = (if b.powerHeld then min b.share (b.senseAll s.now []).curveShare else (b.senseAll s.now []).curveShare) →
      ∃ u, exec (.throttleUpdate [] power current) s = .next u ∧ u.board.share = k - k / 8 ∧ u.board.powerHeld = true) ∧
    (∀ power current c k, b.throttleAt + 1250000 ≤ s.now → power < b.limits.pLimit → b.powerHeld = true →
      c = (b.senseAll s.now []).curveShare → k = min b.share c →
      ∃ u, exec (.throttleUpdate [] power current) s = .next u ∧ u.board.share = min c (k + (k + 7) / 8) ∧
        u.board.powerHeld = decide (min c (k + (k + 7) / 8) < c)) ∧
    (∀ power current, s.now < b.throttleAt + 1250000 → exec (.throttleUpdate [] power current) s = .next s))

/-- The SMBus target (15 R429-R431): what each Block Read returns, its count, its data and its PEC, and that it changes nothing else; ALERT bits are
cleared by a write of 1, but one set in the cycle of the write stays; in OFF nothing answers. The PEC's polynomial, the alert response byte,
the bytes of an unaligned MRAM_READ and that a NACK gives no bytes are the model's choice (assumption 50). -/
def Sys2Proof.Claims.SmbusReads : Prop :=
  ∀ (s : State), s.dev ≠ .off →
    let replied := fun (t : State) (b : Bytes) => { t with outs := t.outs ++ [.smb (some b)] }
    let address := 0x58 + s.board.smbAddr
    let framed := fun (code : Nat) (b : Bytes) => toLE 1 b.length ++ b ++ toLE 1 (pec (toLE 1 (2 * address) ++ toLE 1 code ++
      toLE 1 (2 * address + 1) ++ toLE 1 b.length ++ b))
    let block := fun (t : State) (code : Nat) (b : Bytes) => replied t (framed code b)
    let quiet : State := { s with outs := s.outs ++ [.smb none] }
    (exec .smbState s = .next (block s 1 [BitVec.ofNat 8 s.dev.code, BitVec.ofNat 8 s.boot.cause, BitVec.ofNat 8 s.health.cause,
      BitVec.ofNat 8 ((if s.board.pwrFail then 0 else 1) + if s.mem.kept then 2 else 0)])) ∧
    (exec .smbIdent s = .next (block s 2 (toLE 4 s.ident ++ toLE 4 s.gradeWord ++ toLE 8 s.boot.fuses.serial.toNat))) ∧
    (s.dev ≠ .aon → ∃ b, exec .smbTemp s = .next (block s 3 b) ∧ b.length = 26 ∧
      ∀ t, t < 13 → leAt b (2 * t) 2 = (s.board.temp t % 65536).toNat) ∧
    (s.dev = .aon → ∃ b, exec .smbTemp s = .next (block s 3 b) ∧ b.length = 26 ∧ ∀ t, t < 13 → leAt b (2 * t) 2 = 0x8000) ∧
    (s.dev ≠ .aon → exec .smbPower s =
      .next (block s 4 (toLE 2 (s.board.power % 65536) ++ toLE 2 (s.board.current % 65536) ++ zeros 4))) ∧
    (exec (.smbAlert none) s = .next (block s 5 (toLE 4 s.boot.alert.toNat))) ∧
    (∀ v, ∃ u, exec (.smbAlert (some (v, true))) s = .next u ∧ u.outs = s.outs ++ [.smb (some [])] ∧
      (∀ k, k < 6 → u.boot.alert.getLsbD k = (s.boot.alert.getLsbD k && (!v.getLsbD k || s.isHot 0 0 k))) ∧
      u = { s with outs := u.outs, boot := { s.boot with alert := u.boot.alert } }) ∧
    (∀ v, exec (.smbAlert (some (v, false))) s = .next quiet ∧ exec (.smbDiary (some (v, false))) s = .next quiet ∧
      exec (.smbMramRead (some (v, false))) s = .next quiet) ∧
    (∀ q, exec (.smbDiary (some (q, true))) s = .next (replied { s with boot := { s.boot with smbSeq := some q.toNat } } [])) ∧
    (∀ q r, s.boot.smbSeq = some q → s.dev ≠ .aon → r = tget [] s.diary.recs (q % 65536) → r.length = 64 → leAt r 0 4 = q →
      exec (.smbDiary none) s = .next (block { s with boot := { s.boot with smbSeq := none } } 6 r)) ∧
    (∀ q, s.boot.smbSeq = some q → s.dev = .aon ∨ leAt (tget [] s.diary.recs (q % 65536)) 0 4 ≠ q →
      exec (.smbDiary none) s = .next (block { s with boot := { s.boot with smbSeq := none } } 6 (zeros 64))) ∧
    (∀ a, exec (.smbMramRead (some (a, true))) s = .next (replied { s with boot := { s.boot with smbMram := a.toNat } } [])) ∧
    (s.boot.smbMram % 64 = 0 → s.boot.smbMram < 0x200000 → exec (.smbMramRead none) s = .next (block s 7 (s.mramRead s.boot.smbMram 64))) ∧
    (s.boot.smbMram % 64 ≠ 0 ∨ 0x200000 ≤ s.boot.smbMram → ∃ b, exec (.smbMramRead none) s =
      .next (block { s with freeCtr := s.freeCtr + 64 } 7 b) ∧ b.length = 64) ∧
    (s.boot.alert ≠ 0 → exec .alertResponse s = .next (replied s [BitVec.ofNat 8 (0x58 + s.board.smbAddr)])) ∧
    (s.boot.alert = 0 → exec .alertResponse s = .next quiet)

/-- Nothing answers on the SMBus in OFF (15 R429). -/
def Sys2Proof.Claims.SmbusOff : Prop :=
  ∀ (s : State) (i : Instr), s.dev = .off → i ∈ [.smbState, .smbIdent, .smbTemp, .smbPower, .smbAlert none, .smbDiary none, .smbMramRead none,
    .alertResponse] → exec i s = .next s

/-- One step takes the command at the front of the queue, with the rest of the queue left waiting; on an empty queue the block idles, which is
the model's choice (assumption 1). -/
def Obligations.StepTakesTheFront : Prop :=
  (∀ (c : Instr) (rest : List Instr) (s : State), step { s with pending := c :: rest } = exec c { s with pending := rest }) ∧
  (∀ s : State, s.pending = [] → step s = .next s)

/-- The memories are in canonical form (11 R313; 15 R410, R427), and an image being programmed fits the image area (15 R410, R416). -/
abbrev Sys2Proof.Claims.Canonical (s : State) : Prop :=
  Memory.wf s.mem.cells = true ∧ tcanon (0 : Byte) s.boot.mram = true ∧ tcanon (0xFF : Byte) s.boot.nor = true ∧
    ∀ j, s.boot.norJob = some j → j.len ≤ 0x3F0_0000

/-- What holds right after reset: the values that the register tables give (02 R44, R54; 04 R104, R113; 09 R254, R263; 11 R316; 12 R357, R363; 13 R368;
14 R392, R394, R404; 15 R421), and the invariant of the memories. The empty queue, the values that the spec does not give, and
what memory that nothing has written reads as are the model's choice (assumptions 1, 3, 5). -/
def Obligations.ResetValues : Prop :=
  let s := State.reset
  s.dev = .boot ∧ s.pending = [] ∧ s.outs = [] ∧ Canonical s ∧
    (∀ n, (s.easel n).tray = [] ∧ (s.easel n).sems = [] ∧ (s.easel n).power = .awake) ∧
    (∀ n e, (s.engine n e).wdog = 1048576 ∧ (s.engine n e).flush = false ∧ (s.engine n e).rmode = 0 ∧ (s.engine n e).st = .idle) ∧
    ((List.range 16).map (fun i => (tget 0 s.formats i).toNat) =
      [0x17F781001, 0x07340801, 0x10F250801, 0x03230601, 0x01120401, 0x11000000001, 0x31000000001, 0x41000000001, 0, 0, 0, 0, 0, 0, 0, 0]) ∧
    s.fab.routes = [] ∧ s.fab.groups = [] ∧ s.fab.circuits = [] ∧ (∀ c, (s.ctx c).st = .free) ∧ s.coll.strict = false ∧
    (∀ e, tget 0 s.health.score e = 0) ∧ s.health.detectMs = 50 ∧ s.mem.scratch = 0 ∧ s.mem.cells = [] ∧
    (∀ f, (s.func f).next = 1 ∧ (s.func f).intStatus = 0 ∧ (s.func f).intEnable = 0 ∧ (s.func f).slots = [] ∧
      ∀ i, ((s.func f).result i).st = 0) ∧
    s.diary.head = 0 ∧ s.diary.recs = [] ∧ s.clock.ftime = 0 ∧ s.clock.locked = false

/-- Every step keeps the memories canonical and the image job within its area; it only appends to what has been sent outside, takes one command off
the queue and leaves the others in their order. -/
def Obligations.EveryStepKeepsTheMemories : Prop :=
  ∀ (s t : State), step s = .next t →
    (Canonical s → Canonical t) ∧ (∃ l, t.outs = s.outs ++ l) ∧ t.pending = s.pending.drop 1 ∧ s.freeCtr ≤ t.freeCtr

/-- No step writes the identity area of the NOR or the fuse map; the rest of the NOR changes only by IMAGE_WRITE and its programming (15 R410). -/
def Obligations.IdentityAreaIsNeverWritten : Prop :=
  ∀ (s t : State) (c : Instr) (rest : List Instr), Canonical s → s.pending = c :: rest → step s = .next t →
    t.boot.fuses = s.boot.fuses ∧ (∀ a, 0x3F0_0000 ≤ a → tget (0xFF : Byte) t.boot.nor a = tget (0xFF : Byte) s.boot.nor a) ∧
    ((∀ f, c ≠ .imageWrite f) → (∀ b ok, c ≠ .norProgramComplete b ok) → t.boot.nor = s.boot.nor)

/-- Grisaille mode is left only by a cold or warm reset (12 R362): SYS_RST_L, the loss of a rail or of VDD_AON, WARM_RST_L, and the flush that ends the
sequence of a warm reset. After a thermal emergency the device waits in AON, and BOOT does nothing there while a sensor is at its warning limit. -/
def Obligations.GrisailleIsLeftByResetOnly : Prop :=
  (∀ (s t : State) (c : Instr) (rest : List Instr), s.dev = .grisaille → s.pending = c :: rest → step s = .next t → t.dev ≠ .grisaille →
    c = .sysRstLow ∨ c = .railFault ∨ c = .vddAonLoss ∨ c = .warmRst ∨ c = .diaryFlushComplete) ∧
  (∀ (s t : State), s.dev = .grisaille → s.board.coolHold = true → exec .warmRst s = .next t ∨ exec .diaryFlushComplete s = .next t →
    t.dev = .grisaille ∨ t.dev = .aon ∧ t.board.coolHold = true) ∧
  (∀ (s : State) (hbm : Nat), s.dev = .aon → s.board.coolHold = true → s.board.cool = false → exec (.boot hbm) s = .next s)

/-- The states of the device (15 R407, R408; 12 R360-R362; 16 R434): by which commands each is entered, and from where. -/
def Obligations.DeviceStates : Prop :=
  ∀ (s t : State) (c : Instr) (rest : List Instr), s.pending = c :: rest → step s = .next t → t.dev ≠ s.dev →
    (t.dev = .off → c = .vddAonLoss) ∧
    (s.dev = .off → t.dev = .aon ∧ ∃ a, c = .vddAonGood a) ∧
    (t.dev = .hold ∨ t.dev = .running → (∃ h, c = .boot h) ∧ (s.dev = .boot ∨ s.dev = .aon)) ∧
    (t.dev = .grisaille → s.dev = .running ∨ (∃ h, c = .boot h)) ∧
    (t.dev = .boot → c = .warmRst ∨ c = .diaryFlushComplete) ∧
    (s.dev = .running → t.dev = .grisaille ∨ t.dev = .aon ∨ t.dev = .off ∨ t.dev = .boot)

/-- The commands of the host's slots (14 R397). -/
def Sys2Proof.Claims.hostCommand : Instr → Bool
  | .cmdNop _ | .openCtx _ | .roster _ | .commit _ | .close _ | .abort _ | .cmdLoad _ | .group _ | .start _ | .bind _ | .unbind _ | .grant _
  | .circuit _ | .tear _ | .capture _ | .captureClear _ | .replay _ | .hbmRetry _ | .assign _ | .attest _ | .imageWrite _ => true
  | _ => false

/-- The transfers of the SMBus (15 R430). -/
def Sys2Proof.Claims.smbusTransfer : Instr → Bool
  | .smbState | .smbIdent | .smbTemp | .smbPower | .smbAlert _ | .smbDiary _ | .smbMramRead _ | .alertResponse => true
  | _ => false

/-- The circuit messages and the circuit timeout (09 R268-R270). -/
def Sys2Proof.Claims.circuitEvent : Instr → Bool
  | .csetup _ | .cready _ | .cfail _ | .ctear _ | .cbroken _ | .circuitTimeout _ => true
  | _ => false

/-- The acknowledgements and timers of the transport (09 R271-R277). -/
def Sys2Proof.Claims.transportEvent : Instr → Bool
  | .tackAck _ | .tackNak _ | .tackReset _ | .tackBusy _ | .tackGiveup _ | .rtoExpiry _ _ | .ackSendTimer _ _ | .flowIdleExpiry _ _
  | .spanIdleEnd _ _ => true
  | _ => false

/-- The resets of the core (15 R408), the flush that may end a warm reset among them. -/
def Sys2Proof.Claims.coreReset : Instr → Bool
  | .sysRstLow | .warmRst | .diaryFlushComplete | .vddAonLoss | .railFault => true
  | _ => false

/-- What a command leaves alone, for every state in which it answers a next one: engine instructions, host commands, the SMBus, circuits, the
transport, parking and gates each change only their own components of the state; fabric time changes only by its tick, time answers and resets; the
tables that BOOT loads change only by BOOT and resets. -/
def Obligations.ComponentFrames : Prop :=
  ∀ (s t : State) (c : Instr), exec c s = .next t →
    ((row c).isSome = true → t.dev = s.dev ∧ t.clock = s.clock ∧ t.health = s.health ∧ t.funcs = s.funcs ∧ t.boot = s.boot ∧ t.board = s.board ∧
      t.outs = s.outs ∧ t.formats = s.formats) ∧
    (hostCommand c = true → t.dev = s.dev ∧ t.clock = s.clock ∧ t.health = s.health ∧ t.board = s.board ∧ t.formats = s.formats) ∧
    (smbusTransfer c = true → t = { s with boot := t.boot, outs := t.outs, freeCtr := t.freeCtr }) ∧
    (circuitEvent c = true → t.dev = s.dev ∧ t.clock = s.clock ∧ t.easels = s.easels ∧ t.coll = s.coll ∧ t.mem = s.mem ∧ t.health = s.health ∧
      t.boot = s.boot ∧ t.board = s.board ∧ t.outs = s.outs) ∧
    (transportEvent c = true → t.dev = s.dev ∧ t.clock = s.clock ∧ t.mem = s.mem ∧ t.health = s.health ∧ t.funcs = s.funcs ∧ t.boot = s.boot ∧
      t.board = s.board ∧ t.outs = s.outs) ∧
    (∀ x g k, c = .chunkStall x g k ∨ c = .chunkParked x g k ∨ c = .chunkResume x g k →
      t = { s with easels := t.easels, coll := t.coll, freeCtr := t.freeCtr, hot := t.hot }) ∧
    (∀ n, c = .gateEntryBoundary n ∨ c = .gateSwitchOver n → t = { s with fab := t.fab }) ∧
    (coreReset c = false → c ≠ .fabricTimeTick → (∀ p, c ≠ .timeMeasure p) → (∀ p b, c ≠ .linkFlit p b) → t.clock = s.clock) ∧
    (coreReset c = false → (∀ h, c ≠ .boot h) → t.formats = s.formats ∧ t.boot.functions = s.boot.functions ∧
      t.boot.imageDigest = s.boot.imageDigest ∧ t.boot.tablesDigest = s.boot.tablesDigest ∧ t.boot.fw = s.boot.fw)

/-- When an engine instruction runs at all, and what stops it before its meaning (04 R106, R127; 05 R138, R139). -/
def Obligations.EngineCommandGuards : Prop := Sys2Proof.Claims.EngineInstructionGuards ∧ Sys2Proof.Claims.ReservedBitsAreIllegal

/-- The counter, scalar, mode and branch instructions of every engine (04 R105, R118-R122; 05 R143-R146). -/
def Obligations.ControlCommands : Prop := Sys2Proof.Claims.CounterInstructions ∧ Sys2Proof.Claims.ScalarInstructions ∧ Sys2Proof.Claims.ModeInstructions ∧ Sys2Proof.Claims.BranchesAndLoops

/-- The other vector instructions: loads, stores, minima, maxima, conversion, integer sums (05 R150, R151). -/
def Obligations.OtherVectorCommands : Prop := Sys2Proof.Claims.VectorLoadsAndStores ∧ Sys2Proof.Claims.VectorMinimaAndMaxima ∧ Sys2Proof.Claims.VectorConversion ∧ Sys2Proof.Claims.VectorIntegers

/-- The exact slots and XADD (03 R67-R76; 05 R152). -/
def Obligations.ExactSlotsAndAddition : Prop := Sys2Proof.Claims.ExactSlots ∧ Sys2Proof.Claims.ExactAddition

/-- XRND in both forms, and the scale instructions (02 R40, R43; 03 R77, R96; 05 R152-R154). -/
def Obligations.RoundingAndScales : Prop := Sys2Proof.Claims.ExactRounding ∧ Sys2Proof.Claims.TransitRounding ∧ Sys2Proof.Claims.ScaleInstructions

/-- The instructions of the Mask engine (05 R156; 06 R172, R175, R177). -/
def Obligations.MaskInstructions : Prop := Sys2Proof.Claims.MaskForms ∧ Sys2Proof.Claims.MaskRecords

/-- The instructions that hold an engine, SIGNAL and END (04 R106, R110-R116, R125, R131; 05 R143). -/
def Obligations.HoldingSignalAndEnd : Prop := Sys2Proof.Claims.HoldingInstructions ∧ Sys2Proof.Claims.SignalInstruction ∧ Sys2Proof.Claims.EndOfStudy

/-- RECV and SEND (04 R115; 05 R147, R157). -/
def Obligations.ReceiveAndSend : Prop := Sys2Proof.Claims.Receive ∧ Sys2Proof.Claims.SendTile

/-- The memory instructions, and their completions (05 R142, R147, R149, R157). -/
def Obligations.MemoryOperations : Prop := Sys2Proof.Claims.MemoryInstructions ∧ Sys2Proof.Claims.MemoryCompletions

/-- SEM_RESOLVE and TOKEN_QUEUE_RESOLVE (04 R112, R116). -/
def Obligations.SemaphoresAndTokens : Prop := Sys2Proof.Claims.SemaphoresResolve ∧ Sys2Proof.Claims.TokenQueuesResolve

/-- STUDY_SWITCH, EASEL_RETURN_IDLE and the power states of an Easel (04 R124-R137). -/
def Obligations.EngineAndEaselStates : Prop := Sys2Proof.Claims.StudySwitches ∧ Sys2Proof.Claims.ReturnToIdle ∧ Sys2Proof.Claims.EaselPower

/-- The registers of a port, the arming of its gate list among them (09 R236, R237, R280; 10 R283-R305). -/
def Obligations.PortAndSchedulerRegisters : Prop := Sys2Proof.Claims.PortConfiguration ∧ Sys2Proof.Claims.SchedulerRegisters

/-- The route and group tables and the control registers (09 R255, R263, R281; 11 R311-R318; 13 R368; 14 R388; 15 R425). -/
def Obligations.TableAndControlRegisters : Prop := Sys2Proof.Claims.RouteAndGroupTables ∧ Sys2Proof.Claims.ControlRegisters

/-- BAR0 and MSI-X (14 R385-R406). -/
def Obligations.Bar0AndMsix : Prop := Sys2Proof.Claims.Bar0Accesses ∧ Sys2Proof.Claims.MsixUnmasking

/-- What refuses a host command, that NOP completes with OK, and what a completion writes (14 R397-R405). -/
def Obligations.RefusalsAndCompletions : Prop :=
  Sys2Proof.Claims.CommandTaking ∧ Sys2Proof.Claims.CommandRefusals ∧ Sys2Proof.Claims.CommandNop ∧ Sys2Proof.Claims.CommandCompletions

/-- ENTER, HAIRLINE_ENTER and ENTER_WAIT_RELEASE (07 R194-R196, R205, R447). -/
def Obligations.EntersAndWaits : Prop := Sys2Proof.Claims.EnterMessages ∧ Sys2Proof.Claims.WaitingEnters

/-- The messages between the switches of a context (08 R217, R223-R225, R231). -/
def Obligations.StageTraffic : Prop := Sys2Proof.Claims.StageChecks ∧ Sys2Proof.Claims.StageMessages

/-- LINK flits, time measurement, data flits and their resend (09 R243-R248). -/
def Obligations.LinkAndDataFlits : Prop := Sys2Proof.Claims.LinkFlits ∧ Sys2Proof.Claims.DataFlits

/-- Egress decisions and gates (10 R289-R302). -/
def Obligations.EgressAndGates : Prop := Sys2Proof.Claims.EgressDecisions ∧ Sys2Proof.Claims.Gates

/-- BOOT, where it runs and where it does nothing (15 R407-R415). -/
def Obligations.Boot : Prop := Sys2Proof.Claims.BootSequence ∧ Sys2Proof.Claims.BootOnlyFromBoot

/-- PWR_FAIL_L and its log, PERST and FUNCTION_LEVEL_RESET (15 R427, R428; 14 R382, R383). -/
def Obligations.PowerFailAndHostResets : Prop := Sys2Proof.Claims.PowerFailLog ∧ Sys2Proof.Claims.HostResets

/-- The SMBus target (15 R429-R431). -/
def Obligations.Smbus : Prop := Sys2Proof.Claims.SmbusReads ∧ Sys2Proof.Claims.SmbusOff

end
end

