-- ==== Sys2Proof/Laws/Tab.lean ====
section
/-!
SUPPORT. Sparse tables: the canonical form is kept by every operation, and reads after writes.
-/

set_option Elab.async false

namespace Sys2Proof.Machine

variable {α : Type} [DecidableEq α] {d : α}

/-- The canonical form in words: rising keys, no entry equal to the default. -/
theorem tcanon_iff (t : Tab α) :
    tcanon d t = true ↔ t.Pairwise (fun p q => p.1 < q.1) ∧ ∀ p ∈ t, p.2 ≠ d := by
  induction t with
  | nil => simp [tcanon]
  | cons p t ih =>
    cases t with
    | nil => simp [tcanon]
    | cons q t =>
      have hs : tcanon d (p :: q :: t) = (p.2 != d && decide (p.1 < q.1) && tcanon d (q :: t)) := rfl
      rw [hs]
      simp only [Bool.and_eq_true, bne_iff_ne, ne_eq, decide_eq_true_eq, ih, List.pairwise_cons, List.mem_cons, forall_eq_or_imp]
      constructor
      · rintro ⟨⟨hp, hpq⟩, ⟨hq, ht⟩, hq', hd⟩
        exact ⟨⟨⟨hpq, fun a ha => lt_trans hpq (hq a ha)⟩, hq, ht⟩, hp, hq', hd⟩
      · rintro ⟨⟨⟨hpq, _⟩, hq, ht⟩, hp, hq', hd⟩
        exact ⟨⟨hp, hpq⟩, ⟨hq, ht⟩, hq', hd⟩

theorem tcanon_filter (f : Nat × α → Bool) {t : Tab α} (h : tcanon d t = true) : tcanon d (t.filter f) = true := by
  rw [tcanon_iff] at *
  exact ⟨h.1.filter _, fun p hp => h.2 p (List.mem_filter.1 hp).1⟩

theorem tcanon_tail {p : Nat × α} {t : Tab α} (h : tcanon d (p :: t) = true) : tcanon d t = true := by
  rw [tcanon_iff] at *
  exact ⟨(List.pairwise_cons.1 h.1).2, fun q hq => h.2 q (List.mem_cons_of_mem _ hq)⟩

/-- Keys of an updated table are the new key or keys it had. -/
theorem mem_tset {t : Tab α} {k : Nat} {a : α} {q : Nat × α} (h : q ∈ tset d t k a) : q = (k, a) ∧ a ≠ d ∨ q ∈ t := by
  induction t with
  | nil =>
    simp only [tset] at h
    split at h
    · simp at h
    · exact .inl ⟨by simpa using h, ‹_›⟩
  | cons p t ih =>
    simp only [tset] at h
    split at h
    · split at h
      · exact .inr h
      · rcases List.mem_cons.1 h with h | h
        · exact .inl ⟨h, ‹_›⟩
        · exact .inr h
    · split at h
      · split at h
        · exact .inr (List.mem_cons_of_mem _ h)
        · rcases List.mem_cons.1 h with h | h
          · exact .inl ⟨h, ‹_›⟩
          · exact .inr (List.mem_cons_of_mem _ h)
      · rcases List.mem_cons.1 h with h | h
        · exact .inr (h ▸ List.mem_cons_self)
        · exact (ih h).imp_right (List.mem_cons_of_mem _)

theorem tcanon_tset {t : Tab α} (k : Nat) (a : α) (h : tcanon d t = true) : tcanon d (tset d t k a) = true := by
  rw [tcanon_iff] at h ⊢
  refine ⟨?_, fun q hq => ?_⟩
  · induction t with
    | nil => simp only [tset]; split <;> simp
    | cons p t ih =>
      obtain ⟨h1, h2⟩ := h
      have hp := List.pairwise_cons.1 h1
      have ht := ih ⟨hp.2, fun q hq => h2 q (List.mem_cons_of_mem _ hq)⟩
      simp only [tset]
      split
      · rename_i hk
        split
        · exact h1
        · refine List.pairwise_cons.2 ⟨fun q hq => ?_, h1⟩
          rcases List.mem_cons.1 hq with e | e
          · exact e ▸ hk
          · exact lt_trans hk (hp.1 q e)
      · split
        · rename_i _ hk
          split
          · exact hp.2
          · exact List.pairwise_cons.2 ⟨fun q hq => hk ▸ hp.1 q hq, hp.2⟩
        · refine List.pairwise_cons.2 ⟨fun q hq => ?_, ht⟩
          rcases mem_tset hq with e | e
          · rw [e.1]
            show p.1 < k
            omega
          · exact hp.1 q e
  · rcases mem_tset hq with e | e
    · rw [e.1]; exact e.2
    · exact h.2 q e

omit [DecidableEq α] in
theorem tget_of_lt {t : Tab α} {k : Nat} (h : ∀ p ∈ t, k < p.1) : tget d t k = d := by
  cases t with
  | nil => rfl
  | cons p t =>
    have := h p List.mem_cons_self
    simp only [tget]
    rw [if_neg (by omega), if_pos this]

/-- A read after a write, in a table in canonical form. -/
theorem tget_tset {t : Tab α} (k j : Nat) (a : α) (h : tcanon d t = true) :
    tget d (tset d t k a) j = if j = k then a else tget d t j := by
  induction t with
  | nil =>
    simp only [tset]
    split
    · subst_vars; simp [tget]
    · simp only [tget]
      by_cases e : k = j
      · simp [e]
      · rw [if_neg e, if_neg (fun (x : j = k) => e x.symm)]
        split <;> rfl
  | cons p t ih =>
    have ht := ih (tcanon_tail h)
    have hp := List.pairwise_cons.1 ((tcanon_iff _).1 h).1
    obtain ⟨i, b⟩ := p
    simp only [tset]
    split
    · rename_i hk
      split
      · rename_i ha
        subst ha
        by_cases e : j = k
        · subst e
          simp only [tget, if_pos]
          rw [if_neg (by omega), if_pos hk]
        · rw [if_neg e]
      · by_cases e : j = k
        · subst e; simp [tget]
        · rw [if_neg e]
          simp only [tget]
          rw [if_neg (fun x => e x.symm)]
          by_cases l : j < k
          · rw [if_pos l, if_neg (by omega), if_pos (by omega)]
          · rw [if_neg l]
    · split
      · rename_i _ hk
        subst hk
        split
        · rename_i ha
          subst ha
          by_cases e : j = i
          · subst e
            rw [if_pos rfl]
            exact tget_of_lt (fun p hp' => hp.1 p hp')
          · rw [if_neg e]
            simp only [tget]
            rw [if_neg (fun x => e x.symm)]
            split
            · exact tget_of_lt (fun p hp' => lt_trans ‹_› (hp.1 p hp'))
            · rfl
        · by_cases e : j = i
          · subst e; simp [tget]
          · simp only [tget]
            rw [if_neg e, if_neg (fun (x : i = j) => e x.symm), if_neg (fun (x : i = j) => e x.symm)]
      · simp only [tget]
        by_cases e : i = j
        · subst e
          rw [if_pos rfl, if_neg (by omega), if_pos rfl]
        · rw [if_neg e, if_neg e]
          split
          · rw [if_neg (by omega)]
          · exact ht

theorem tget_filter {t : Tab α} {f : Nat × α → Bool} (k : Nat) (h : tcanon d t = true) (hf : ∀ a, f (k, a) = true) :
    tget d (t.filter f) k = tget d t k := by
  induction t with
  | nil => rfl
  | cons p t ih =>
    have ht := ih (tcanon_tail h)
    have hp := List.pairwise_cons.1 ((tcanon_iff _).1 h).1
    obtain ⟨i, b⟩ := p
    rw [List.filter_cons]
    split
    · simp only [tget]
      split
      · rfl
      · split
        · rfl
        · exact ht
    · rename_i hn
      rw [ht]
      simp only [tget]
      have : i ≠ k := by
        intro e; subst e; exact hn (hf b)
      rw [if_neg this]
      split
      · exact tget_of_lt (fun p hp' => lt_trans ‹_› (hp.1 p hp'))
      · rfl

/-! Bytes written one after another. -/

variable {c : Byte}

theorem tcanon_putBytes {t : Tab Byte} (a : Nat) (b : Bytes) (h : tcanon c t = true) : tcanon c (putBytes c t a b) = true := by
  induction b generalizing t a with
  | nil => exact h
  | cons x b ih => exact ih _ (tcanon_tset _ _ h)

/-- A byte outside the bytes written reads as before. -/
theorem tget_putBytes_of_not {t : Tab Byte} (a : Nat) (b : Bytes) (j : Nat) (h : tcanon c t = true) (hj : j < a ∨ a + b.length ≤ j) :
    tget c (putBytes c t a b) j = tget c t j := by
  induction b generalizing t a with
  | nil => rfl
  | cons x b ih =>
    have hl : (x :: b).length = b.length + 1 := rfl
    simp only [putBytes]
    rw [ih _ (tcanon_tset _ _ h) (by omega), tget_tset _ _ _ h, if_neg (by omega)]

/-- A byte written reads as it was written. -/
theorem tget_putBytes_of_mem {t : Tab Byte} (a : Nat) (b : Bytes) (i : Nat) (h : tcanon c t = true) (hi : i < b.length) :
    tget c (putBytes c t a b) (a + i) = b[i] := by
  induction b generalizing t a i with
  | nil => exact absurd hi (Nat.not_lt_zero i)
  | cons x b ih =>
    have hl : (x :: b).length = b.length + 1 := rfl
    simp only [putBytes]
    cases i with
    | zero =>
      rw [tget_putBytes_of_not _ _ _ (tcanon_tset _ _ h) (by omega), tget_tset _ _ _ h]
      simp
    | succ i =>
      have := ih (a + 1) i (tcanon_tset a x h) (by omega)
      rw [show a + (i + 1) = a + 1 + i by omega, this]
      simp

/-! Device memory (11 R313): a write keeps the canonical form, gives what was written, and leaves every other byte alone. -/

theorem Mem.write_wf (m : Mem) (a : Nat) (b : Bytes) (h : Memory.wf m.cells = true) : Memory.wf (m.write a b).cells = true :=
  tcanon_putBytes a b h

theorem Mem.write_other (m : Mem) (a : Nat) (b : Bytes) (j : Nat) (h : Memory.wf m.cells = true) (hj : j < a ∨ a + b.length ≤ j) :
    tget unlisted (m.write a b).cells j = tget unlisted m.cells j :=
  tget_putBytes_of_not a b j h hj

theorem Mem.write_same (m : Mem) (a : Nat) (b : Bytes) (i : Nat) (h : Memory.wf m.cells = true) (hi : i < b.length) :
    tget unlisted (m.write a b).cells (a + i) = b[i] :=
  tget_putBytes_of_mem a b i h hi

theorem Mem.read_write (m : Mem) (a : Nat) (b : Bytes) (h : Memory.wf m.cells = true) : (m.write a b).read a b.length = b := by
  apply List.ext_getElem
  · simp [Mem.read]
  · intro i h1 h2
    simp only [Mem.read, List.getElem_map, List.getElem_range]
    exact Mem.write_same m a b i h h2

end Sys2Proof.Machine
end

