-- ==== Sys2Proof/Laws/State.lean ====
section
/-!
SUPPORT. What each update of State leaves and changes: one lemma per field per update, and what is read back after an update.
-/

set_option Elab.async false

namespace Sys2Proof.Machine

variable (s : State)

/-! Tables: what is put is read back, and another entry stays. -/

@[simp] theorem tget_tput {α : Type} (d : α) (t : Tab α) (k j : Nat) (a : α) :
    tget d (tput t k a) j = if j = k then a else tget d t j := by
  induction t with
  | nil =>
    simp only [tput, tget]
    by_cases h : k = j
    · simp [h]
    · rw [if_neg h, if_neg (Ne.symm h)]
      split <;> rfl
  | cons p t ih =>
    obtain ⟨i, b⟩ := p
    simp only [tput]
    by_cases hj : j = k
    · subst hj
      rw [if_pos rfl] at ih ⊢
      split
      · simp [tget]
      · split
        · simp [tget]
        · simp only [tget]
          rw [if_neg ‹_›, if_neg ‹_›, ih]
    · rw [if_neg hj] at ih ⊢
      have hk : ¬k = j := fun h => hj h.symm
      split
      · simp only [tget]
        rw [if_neg hk]
        split
        · rw [if_neg (by omega), if_pos (by omega)]
        · rfl
      · split
        · rename_i h
          subst h
          simp only [tget]
          rw [if_neg hk, if_neg hk]
        · simp only [tget]
          rw [ih]

@[simp] theorem tput_tput {α : Type} (t : Tab α) (k : Nat) (a b : α) : tput (tput t k a) k b = tput t k b := by
  induction t with
  | nil => simp [tput]
  | cons p t ih =>
    obtain ⟨i, c⟩ := p
    simp only [tput]
    split
    · simp [tput]
    · split
      · simp [tput]
      · simp only [tput]
        rw [if_neg ‹_›, if_neg ‹_›, ih]

/-! Fields after updates. -/

@[simp] theorem State.setEasel_pending (n : Nat) (x : Easel) : (s.setEasel n x).pending = s.pending := rfl
@[simp] theorem State.setEasel_freeCtr (n : Nat) (x : Easel) : (s.setEasel n x).freeCtr = s.freeCtr := rfl
@[simp] theorem State.setEasel_dev (n : Nat) (x : Easel) : (s.setEasel n x).dev = s.dev := rfl
@[simp] theorem State.setEasel_clock (n : Nat) (x : Easel) : (s.setEasel n x).clock = s.clock := rfl
@[simp] theorem State.setEasel_formats (n : Nat) (x : Easel) : (s.setEasel n x).formats = s.formats := rfl
@[simp] theorem State.setEasel_easels (n : Nat) (x : Easel) : (s.setEasel n x).easels = tput s.easels n x := rfl
@[simp] theorem State.setEasel_coll (n : Nat) (x : Easel) : (s.setEasel n x).coll = s.coll := rfl
@[simp] theorem State.setEasel_fab (n : Nat) (x : Easel) : (s.setEasel n x).fab = s.fab := rfl
@[simp] theorem State.setEasel_mem (n : Nat) (x : Easel) : (s.setEasel n x).mem = s.mem := rfl
@[simp] theorem State.setEasel_health (n : Nat) (x : Easel) : (s.setEasel n x).health = s.health := rfl
@[simp] theorem State.setEasel_funcs (n : Nat) (x : Easel) : (s.setEasel n x).funcs = s.funcs := rfl
@[simp] theorem State.setEasel_diary (n : Nat) (x : Easel) : (s.setEasel n x).diary = s.diary := rfl
@[simp] theorem State.setEasel_boot (n : Nat) (x : Easel) : (s.setEasel n x).boot = s.boot := rfl
@[simp] theorem State.setEasel_board (n : Nat) (x : Easel) : (s.setEasel n x).board = s.board := rfl
@[simp] theorem State.setEasel_outs (n : Nat) (x : Easel) : (s.setEasel n x).outs = s.outs := rfl
@[simp] theorem State.setEasel_hot (n : Nat) (x : Easel) : (s.setEasel n x).hot = s.hot := rfl

@[simp] theorem State.setEngine_pending (n : Nat) (e : EngId) (g : Engine) : (s.setEngine n e g).pending = s.pending := rfl
@[simp] theorem State.setEngine_freeCtr (n : Nat) (e : EngId) (g : Engine) : (s.setEngine n e g).freeCtr = s.freeCtr := rfl
@[simp] theorem State.setEngine_dev (n : Nat) (e : EngId) (g : Engine) : (s.setEngine n e g).dev = s.dev := rfl
@[simp] theorem State.setEngine_clock (n : Nat) (e : EngId) (g : Engine) : (s.setEngine n e g).clock = s.clock := rfl
@[simp] theorem State.setEngine_formats (n : Nat) (e : EngId) (g : Engine) : (s.setEngine n e g).formats = s.formats := rfl
@[simp] theorem State.setEngine_easels (n : Nat) (e : EngId) (g : Engine) : (s.setEngine n e g).easels = tput s.easels n ((s.easel n).setEngine e g) := rfl
@[simp] theorem State.setEngine_coll (n : Nat) (e : EngId) (g : Engine) : (s.setEngine n e g).coll = s.coll := rfl
@[simp] theorem State.setEngine_fab (n : Nat) (e : EngId) (g : Engine) : (s.setEngine n e g).fab = s.fab := rfl
@[simp] theorem State.setEngine_mem (n : Nat) (e : EngId) (g : Engine) : (s.setEngine n e g).mem = s.mem := rfl
@[simp] theorem State.setEngine_health (n : Nat) (e : EngId) (g : Engine) : (s.setEngine n e g).health = s.health := rfl
@[simp] theorem State.setEngine_funcs (n : Nat) (e : EngId) (g : Engine) : (s.setEngine n e g).funcs = s.funcs := rfl
@[simp] theorem State.setEngine_diary (n : Nat) (e : EngId) (g : Engine) : (s.setEngine n e g).diary = s.diary := rfl
@[simp] theorem State.setEngine_boot (n : Nat) (e : EngId) (g : Engine) : (s.setEngine n e g).boot = s.boot := rfl
@[simp] theorem State.setEngine_board (n : Nat) (e : EngId) (g : Engine) : (s.setEngine n e g).board = s.board := rfl
@[simp] theorem State.setEngine_outs (n : Nat) (e : EngId) (g : Engine) : (s.setEngine n e g).outs = s.outs := rfl
@[simp] theorem State.setEngine_hot (n : Nat) (e : EngId) (g : Engine) : (s.setEngine n e g).hot = s.hot := rfl

@[simp] theorem State.modEngine_pending (n : Nat) (e : EngId) (f : Engine → Engine) : (s.modEngine n e f).pending = s.pending := rfl
@[simp] theorem State.modEngine_freeCtr (n : Nat) (e : EngId) (f : Engine → Engine) : (s.modEngine n e f).freeCtr = s.freeCtr := rfl
@[simp] theorem State.modEngine_dev (n : Nat) (e : EngId) (f : Engine → Engine) : (s.modEngine n e f).dev = s.dev := rfl
@[simp] theorem State.modEngine_clock (n : Nat) (e : EngId) (f : Engine → Engine) : (s.modEngine n e f).clock = s.clock := rfl
@[simp] theorem State.modEngine_formats (n : Nat) (e : EngId) (f : Engine → Engine) : (s.modEngine n e f).formats = s.formats := rfl
@[simp] theorem State.modEngine_easels (n : Nat) (e : EngId) (f : Engine → Engine) : (s.modEngine n e f).easels = tput s.easels n ((s.easel n).setEngine e (f (s.engine n e))) := rfl
@[simp] theorem State.modEngine_coll (n : Nat) (e : EngId) (f : Engine → Engine) : (s.modEngine n e f).coll = s.coll := rfl
@[simp] theorem State.modEngine_fab (n : Nat) (e : EngId) (f : Engine → Engine) : (s.modEngine n e f).fab = s.fab := rfl
@[simp] theorem State.modEngine_mem (n : Nat) (e : EngId) (f : Engine → Engine) : (s.modEngine n e f).mem = s.mem := rfl
@[simp] theorem State.modEngine_health (n : Nat) (e : EngId) (f : Engine → Engine) : (s.modEngine n e f).health = s.health := rfl
@[simp] theorem State.modEngine_funcs (n : Nat) (e : EngId) (f : Engine → Engine) : (s.modEngine n e f).funcs = s.funcs := rfl
@[simp] theorem State.modEngine_diary (n : Nat) (e : EngId) (f : Engine → Engine) : (s.modEngine n e f).diary = s.diary := rfl
@[simp] theorem State.modEngine_boot (n : Nat) (e : EngId) (f : Engine → Engine) : (s.modEngine n e f).boot = s.boot := rfl
@[simp] theorem State.modEngine_board (n : Nat) (e : EngId) (f : Engine → Engine) : (s.modEngine n e f).board = s.board := rfl
@[simp] theorem State.modEngine_outs (n : Nat) (e : EngId) (f : Engine → Engine) : (s.modEngine n e f).outs = s.outs := rfl
@[simp] theorem State.modEngine_hot (n : Nat) (e : EngId) (f : Engine → Engine) : (s.modEngine n e f).hot = s.hot := rfl

@[simp] theorem State.setCtx_pending (c : Nat) (x : Ctx) : (s.setCtx c x).pending = s.pending := rfl
@[simp] theorem State.setCtx_freeCtr (c : Nat) (x : Ctx) : (s.setCtx c x).freeCtr = s.freeCtr := rfl
@[simp] theorem State.setCtx_dev (c : Nat) (x : Ctx) : (s.setCtx c x).dev = s.dev := rfl
@[simp] theorem State.setCtx_clock (c : Nat) (x : Ctx) : (s.setCtx c x).clock = s.clock := rfl
@[simp] theorem State.setCtx_formats (c : Nat) (x : Ctx) : (s.setCtx c x).formats = s.formats := rfl
@[simp] theorem State.setCtx_easels (c : Nat) (x : Ctx) : (s.setCtx c x).easels = s.easels := rfl
@[simp] theorem State.setCtx_coll (c : Nat) (x : Ctx) : (s.setCtx c x).coll = { s.coll with ctxs := tset {} s.coll.ctxs c x } := rfl
@[simp] theorem State.setCtx_fab (c : Nat) (x : Ctx) : (s.setCtx c x).fab = s.fab := rfl
@[simp] theorem State.setCtx_mem (c : Nat) (x : Ctx) : (s.setCtx c x).mem = s.mem := rfl
@[simp] theorem State.setCtx_health (c : Nat) (x : Ctx) : (s.setCtx c x).health = s.health := rfl
@[simp] theorem State.setCtx_funcs (c : Nat) (x : Ctx) : (s.setCtx c x).funcs = s.funcs := rfl
@[simp] theorem State.setCtx_diary (c : Nat) (x : Ctx) : (s.setCtx c x).diary = s.diary := rfl
@[simp] theorem State.setCtx_boot (c : Nat) (x : Ctx) : (s.setCtx c x).boot = s.boot := rfl
@[simp] theorem State.setCtx_board (c : Nat) (x : Ctx) : (s.setCtx c x).board = s.board := rfl
@[simp] theorem State.setCtx_outs (c : Nat) (x : Ctx) : (s.setCtx c x).outs = s.outs := rfl
@[simp] theorem State.setCtx_hot (c : Nat) (x : Ctx) : (s.setCtx c x).hot = s.hot := rfl

@[simp] theorem State.setFab_pending (x : Fabric) : (s.setFab x).pending = s.pending := rfl
@[simp] theorem State.setFab_freeCtr (x : Fabric) : (s.setFab x).freeCtr = s.freeCtr := rfl
@[simp] theorem State.setFab_dev (x : Fabric) : (s.setFab x).dev = s.dev := rfl
@[simp] theorem State.setFab_clock (x : Fabric) : (s.setFab x).clock = s.clock := rfl
@[simp] theorem State.setFab_formats (x : Fabric) : (s.setFab x).formats = s.formats := rfl
@[simp] theorem State.setFab_easels (x : Fabric) : (s.setFab x).easels = s.easels := rfl
@[simp] theorem State.setFab_coll (x : Fabric) : (s.setFab x).coll = s.coll := rfl
@[simp] theorem State.setFab_fab (x : Fabric) : (s.setFab x).fab = x := rfl
@[simp] theorem State.setFab_mem (x : Fabric) : (s.setFab x).mem = s.mem := rfl
@[simp] theorem State.setFab_health (x : Fabric) : (s.setFab x).health = s.health := rfl
@[simp] theorem State.setFab_funcs (x : Fabric) : (s.setFab x).funcs = s.funcs := rfl
@[simp] theorem State.setFab_diary (x : Fabric) : (s.setFab x).diary = s.diary := rfl
@[simp] theorem State.setFab_boot (x : Fabric) : (s.setFab x).boot = s.boot := rfl
@[simp] theorem State.setFab_board (x : Fabric) : (s.setFab x).board = s.board := rfl
@[simp] theorem State.setFab_outs (x : Fabric) : (s.setFab x).outs = s.outs := rfl
@[simp] theorem State.setFab_hot (x : Fabric) : (s.setFab x).hot = s.hot := rfl

@[simp] theorem State.setPort_pending (n : Nat) (x : Port) : (s.setPort n x).pending = s.pending := rfl
@[simp] theorem State.setPort_freeCtr (n : Nat) (x : Port) : (s.setPort n x).freeCtr = s.freeCtr := rfl
@[simp] theorem State.setPort_dev (n : Nat) (x : Port) : (s.setPort n x).dev = s.dev := rfl
@[simp] theorem State.setPort_clock (n : Nat) (x : Port) : (s.setPort n x).clock = s.clock := rfl
@[simp] theorem State.setPort_formats (n : Nat) (x : Port) : (s.setPort n x).formats = s.formats := rfl
@[simp] theorem State.setPort_easels (n : Nat) (x : Port) : (s.setPort n x).easels = s.easels := rfl
@[simp] theorem State.setPort_coll (n : Nat) (x : Port) : (s.setPort n x).coll = s.coll := rfl
@[simp] theorem State.setPort_fab (n : Nat) (x : Port) : (s.setPort n x).fab = { s.fab with ports := tput s.fab.ports n x } := rfl
@[simp] theorem State.setPort_mem (n : Nat) (x : Port) : (s.setPort n x).mem = s.mem := rfl
@[simp] theorem State.setPort_health (n : Nat) (x : Port) : (s.setPort n x).health = s.health := rfl
@[simp] theorem State.setPort_funcs (n : Nat) (x : Port) : (s.setPort n x).funcs = s.funcs := rfl
@[simp] theorem State.setPort_diary (n : Nat) (x : Port) : (s.setPort n x).diary = s.diary := rfl
@[simp] theorem State.setPort_boot (n : Nat) (x : Port) : (s.setPort n x).boot = s.boot := rfl
@[simp] theorem State.setPort_board (n : Nat) (x : Port) : (s.setPort n x).board = s.board := rfl
@[simp] theorem State.setPort_outs (n : Nat) (x : Port) : (s.setPort n x).outs = s.outs := rfl
@[simp] theorem State.setPort_hot (n : Nat) (x : Port) : (s.setPort n x).hot = s.hot := rfl

@[simp] theorem State.setLPort_pending (p : Nat) (x : LPort) : (s.setLPort p x).pending = s.pending := rfl
@[simp] theorem State.setLPort_freeCtr (p : Nat) (x : LPort) : (s.setLPort p x).freeCtr = s.freeCtr := rfl
@[simp] theorem State.setLPort_dev (p : Nat) (x : LPort) : (s.setLPort p x).dev = s.dev := rfl
@[simp] theorem State.setLPort_clock (p : Nat) (x : LPort) : (s.setLPort p x).clock = s.clock := rfl
@[simp] theorem State.setLPort_formats (p : Nat) (x : LPort) : (s.setLPort p x).formats = s.formats := rfl
@[simp] theorem State.setLPort_easels (p : Nat) (x : LPort) : (s.setLPort p x).easels = s.easels := rfl
@[simp] theorem State.setLPort_coll (p : Nat) (x : LPort) : (s.setLPort p x).coll = s.coll := rfl
@[simp] theorem State.setLPort_fab (p : Nat) (x : LPort) : (s.setLPort p x).fab = { s.fab with lports := tput s.fab.lports p x } := rfl
@[simp] theorem State.setLPort_mem (p : Nat) (x : LPort) : (s.setLPort p x).mem = s.mem := rfl
@[simp] theorem State.setLPort_health (p : Nat) (x : LPort) : (s.setLPort p x).health = s.health := rfl
@[simp] theorem State.setLPort_funcs (p : Nat) (x : LPort) : (s.setLPort p x).funcs = s.funcs := rfl
@[simp] theorem State.setLPort_diary (p : Nat) (x : LPort) : (s.setLPort p x).diary = s.diary := rfl
@[simp] theorem State.setLPort_boot (p : Nat) (x : LPort) : (s.setLPort p x).boot = s.boot := rfl
@[simp] theorem State.setLPort_board (p : Nat) (x : LPort) : (s.setLPort p x).board = s.board := rfl
@[simp] theorem State.setLPort_outs (p : Nat) (x : LPort) : (s.setLPort p x).outs = s.outs := rfl
@[simp] theorem State.setLPort_hot (p : Nat) (x : LPort) : (s.setLPort p x).hot = s.hot := rfl

@[simp] theorem State.setFunc_pending (f : Nat) (x : Func) : (s.setFunc f x).pending = s.pending := rfl
@[simp] theorem State.setFunc_freeCtr (f : Nat) (x : Func) : (s.setFunc f x).freeCtr = s.freeCtr := rfl
@[simp] theorem State.setFunc_dev (f : Nat) (x : Func) : (s.setFunc f x).dev = s.dev := rfl
@[simp] theorem State.setFunc_clock (f : Nat) (x : Func) : (s.setFunc f x).clock = s.clock := rfl
@[simp] theorem State.setFunc_formats (f : Nat) (x : Func) : (s.setFunc f x).formats = s.formats := rfl
@[simp] theorem State.setFunc_easels (f : Nat) (x : Func) : (s.setFunc f x).easels = s.easels := rfl
@[simp] theorem State.setFunc_coll (f : Nat) (x : Func) : (s.setFunc f x).coll = s.coll := rfl
@[simp] theorem State.setFunc_fab (f : Nat) (x : Func) : (s.setFunc f x).fab = s.fab := rfl
@[simp] theorem State.setFunc_mem (f : Nat) (x : Func) : (s.setFunc f x).mem = s.mem := rfl
@[simp] theorem State.setFunc_health (f : Nat) (x : Func) : (s.setFunc f x).health = s.health := rfl
@[simp] theorem State.setFunc_funcs (f : Nat) (x : Func) : (s.setFunc f x).funcs = tput s.funcs f x := rfl
@[simp] theorem State.setFunc_diary (f : Nat) (x : Func) : (s.setFunc f x).diary = s.diary := rfl
@[simp] theorem State.setFunc_boot (f : Nat) (x : Func) : (s.setFunc f x).boot = s.boot := rfl
@[simp] theorem State.setFunc_board (f : Nat) (x : Func) : (s.setFunc f x).board = s.board := rfl
@[simp] theorem State.setFunc_outs (f : Nat) (x : Func) : (s.setFunc f x).outs = s.outs := rfl
@[simp] theorem State.setFunc_hot (f : Nat) (x : Func) : (s.setFunc f x).hot = s.hot := rfl

@[simp] theorem State.modFunc_pending (f : Nat) (g : Func → Func) : (s.modFunc f g).pending = s.pending := rfl
@[simp] theorem State.modFunc_freeCtr (f : Nat) (g : Func → Func) : (s.modFunc f g).freeCtr = s.freeCtr := rfl
@[simp] theorem State.modFunc_dev (f : Nat) (g : Func → Func) : (s.modFunc f g).dev = s.dev := rfl
@[simp] theorem State.modFunc_clock (f : Nat) (g : Func → Func) : (s.modFunc f g).clock = s.clock := rfl
@[simp] theorem State.modFunc_formats (f : Nat) (g : Func → Func) : (s.modFunc f g).formats = s.formats := rfl
@[simp] theorem State.modFunc_easels (f : Nat) (g : Func → Func) : (s.modFunc f g).easels = s.easels := rfl
@[simp] theorem State.modFunc_coll (f : Nat) (g : Func → Func) : (s.modFunc f g).coll = s.coll := rfl
@[simp] theorem State.modFunc_fab (f : Nat) (g : Func → Func) : (s.modFunc f g).fab = s.fab := rfl
@[simp] theorem State.modFunc_mem (f : Nat) (g : Func → Func) : (s.modFunc f g).mem = s.mem := rfl
@[simp] theorem State.modFunc_health (f : Nat) (g : Func → Func) : (s.modFunc f g).health = s.health := rfl
@[simp] theorem State.modFunc_funcs (f : Nat) (g : Func → Func) : (s.modFunc f g).funcs = tput s.funcs f (g (s.func f)) := rfl
@[simp] theorem State.modFunc_diary (f : Nat) (g : Func → Func) : (s.modFunc f g).diary = s.diary := rfl
@[simp] theorem State.modFunc_boot (f : Nat) (g : Func → Func) : (s.modFunc f g).boot = s.boot := rfl
@[simp] theorem State.modFunc_board (f : Nat) (g : Func → Func) : (s.modFunc f g).board = s.board := rfl
@[simp] theorem State.modFunc_outs (f : Nat) (g : Func → Func) : (s.modFunc f g).outs = s.outs := rfl
@[simp] theorem State.modFunc_hot (f : Nat) (g : Func → Func) : (s.modFunc f g).hot = s.hot := rfl

@[simp] theorem State.setBinding_pending (b : Nat) (x : Binding) : (s.setBinding b x).pending = s.pending := rfl
@[simp] theorem State.setBinding_freeCtr (b : Nat) (x : Binding) : (s.setBinding b x).freeCtr = s.freeCtr := rfl
@[simp] theorem State.setBinding_dev (b : Nat) (x : Binding) : (s.setBinding b x).dev = s.dev := rfl
@[simp] theorem State.setBinding_clock (b : Nat) (x : Binding) : (s.setBinding b x).clock = s.clock := rfl
@[simp] theorem State.setBinding_formats (b : Nat) (x : Binding) : (s.setBinding b x).formats = s.formats := rfl
@[simp] theorem State.setBinding_easels (b : Nat) (x : Binding) : (s.setBinding b x).easels = s.easels := rfl
@[simp] theorem State.setBinding_coll (b : Nat) (x : Binding) : (s.setBinding b x).coll = { s.coll with bindings := tset {} s.coll.bindings b x } := rfl
@[simp] theorem State.setBinding_fab (b : Nat) (x : Binding) : (s.setBinding b x).fab = s.fab := rfl
@[simp] theorem State.setBinding_mem (b : Nat) (x : Binding) : (s.setBinding b x).mem = s.mem := rfl
@[simp] theorem State.setBinding_health (b : Nat) (x : Binding) : (s.setBinding b x).health = s.health := rfl
@[simp] theorem State.setBinding_funcs (b : Nat) (x : Binding) : (s.setBinding b x).funcs = s.funcs := rfl
@[simp] theorem State.setBinding_diary (b : Nat) (x : Binding) : (s.setBinding b x).diary = s.diary := rfl
@[simp] theorem State.setBinding_boot (b : Nat) (x : Binding) : (s.setBinding b x).boot = s.boot := rfl
@[simp] theorem State.setBinding_board (b : Nat) (x : Binding) : (s.setBinding b x).board = s.board := rfl
@[simp] theorem State.setBinding_outs (b : Nat) (x : Binding) : (s.setBinding b x).outs = s.outs := rfl
@[simp] theorem State.setBinding_hot (b : Nat) (x : Binding) : (s.setBinding b x).hot = s.hot := rfl

@[simp] theorem State.setBoard_pending (x : Board) : (s.setBoard x).pending = s.pending := rfl
@[simp] theorem State.setBoard_freeCtr (x : Board) : (s.setBoard x).freeCtr = s.freeCtr := rfl
@[simp] theorem State.setBoard_dev (x : Board) : (s.setBoard x).dev = s.dev := rfl
@[simp] theorem State.setBoard_clock (x : Board) : (s.setBoard x).clock = s.clock := rfl
@[simp] theorem State.setBoard_formats (x : Board) : (s.setBoard x).formats = s.formats := rfl
@[simp] theorem State.setBoard_easels (x : Board) : (s.setBoard x).easels = s.easels := rfl
@[simp] theorem State.setBoard_coll (x : Board) : (s.setBoard x).coll = s.coll := rfl
@[simp] theorem State.setBoard_fab (x : Board) : (s.setBoard x).fab = s.fab := rfl
@[simp] theorem State.setBoard_mem (x : Board) : (s.setBoard x).mem = s.mem := rfl
@[simp] theorem State.setBoard_health (x : Board) : (s.setBoard x).health = s.health := rfl
@[simp] theorem State.setBoard_funcs (x : Board) : (s.setBoard x).funcs = s.funcs := rfl
@[simp] theorem State.setBoard_diary (x : Board) : (s.setBoard x).diary = s.diary := rfl
@[simp] theorem State.setBoard_boot (x : Board) : (s.setBoard x).boot = s.boot := rfl
@[simp] theorem State.setBoard_board (x : Board) : (s.setBoard x).board = x := rfl
@[simp] theorem State.setBoard_outs (x : Board) : (s.setBoard x).outs = s.outs := rfl
@[simp] theorem State.setBoard_hot (x : Board) : (s.setBoard x).hot = s.hot := rfl

@[simp] theorem State.setMem_pending (x : Mem) : (s.setMem x).pending = s.pending := rfl
@[simp] theorem State.setMem_freeCtr (x : Mem) : (s.setMem x).freeCtr = s.freeCtr := rfl
@[simp] theorem State.setMem_dev (x : Mem) : (s.setMem x).dev = s.dev := rfl
@[simp] theorem State.setMem_clock (x : Mem) : (s.setMem x).clock = s.clock := rfl
@[simp] theorem State.setMem_formats (x : Mem) : (s.setMem x).formats = s.formats := rfl
@[simp] theorem State.setMem_easels (x : Mem) : (s.setMem x).easels = s.easels := rfl
@[simp] theorem State.setMem_coll (x : Mem) : (s.setMem x).coll = s.coll := rfl
@[simp] theorem State.setMem_fab (x : Mem) : (s.setMem x).fab = s.fab := rfl
@[simp] theorem State.setMem_mem (x : Mem) : (s.setMem x).mem = x := rfl
@[simp] theorem State.setMem_health (x : Mem) : (s.setMem x).health = s.health := rfl
@[simp] theorem State.setMem_funcs (x : Mem) : (s.setMem x).funcs = s.funcs := rfl
@[simp] theorem State.setMem_diary (x : Mem) : (s.setMem x).diary = s.diary := rfl
@[simp] theorem State.setMem_boot (x : Mem) : (s.setMem x).boot = s.boot := rfl
@[simp] theorem State.setMem_board (x : Mem) : (s.setMem x).board = s.board := rfl
@[simp] theorem State.setMem_outs (x : Mem) : (s.setMem x).outs = s.outs := rfl
@[simp] theorem State.setMem_hot (x : Mem) : (s.setMem x).hot = s.hot := rfl

@[simp] theorem State.setHealth_pending (x : Health) : (s.setHealth x).pending = s.pending := rfl
@[simp] theorem State.setHealth_freeCtr (x : Health) : (s.setHealth x).freeCtr = s.freeCtr := rfl
@[simp] theorem State.setHealth_dev (x : Health) : (s.setHealth x).dev = s.dev := rfl
@[simp] theorem State.setHealth_clock (x : Health) : (s.setHealth x).clock = s.clock := rfl
@[simp] theorem State.setHealth_formats (x : Health) : (s.setHealth x).formats = s.formats := rfl
@[simp] theorem State.setHealth_easels (x : Health) : (s.setHealth x).easels = s.easels := rfl
@[simp] theorem State.setHealth_coll (x : Health) : (s.setHealth x).coll = s.coll := rfl
@[simp] theorem State.setHealth_fab (x : Health) : (s.setHealth x).fab = s.fab := rfl
@[simp] theorem State.setHealth_mem (x : Health) : (s.setHealth x).mem = s.mem := rfl
@[simp] theorem State.setHealth_health (x : Health) : (s.setHealth x).health = x := rfl
@[simp] theorem State.setHealth_funcs (x : Health) : (s.setHealth x).funcs = s.funcs := rfl
@[simp] theorem State.setHealth_diary (x : Health) : (s.setHealth x).diary = s.diary := rfl
@[simp] theorem State.setHealth_boot (x : Health) : (s.setHealth x).boot = s.boot := rfl
@[simp] theorem State.setHealth_board (x : Health) : (s.setHealth x).board = s.board := rfl
@[simp] theorem State.setHealth_outs (x : Health) : (s.setHealth x).outs = s.outs := rfl
@[simp] theorem State.setHealth_hot (x : Health) : (s.setHealth x).hot = s.hot := rfl

@[simp] theorem State.setColl_pending (x : Coll) : (s.setColl x).pending = s.pending := rfl
@[simp] theorem State.setColl_freeCtr (x : Coll) : (s.setColl x).freeCtr = s.freeCtr := rfl
@[simp] theorem State.setColl_dev (x : Coll) : (s.setColl x).dev = s.dev := rfl
@[simp] theorem State.setColl_clock (x : Coll) : (s.setColl x).clock = s.clock := rfl
@[simp] theorem State.setColl_formats (x : Coll) : (s.setColl x).formats = s.formats := rfl
@[simp] theorem State.setColl_easels (x : Coll) : (s.setColl x).easels = s.easels := rfl
@[simp] theorem State.setColl_coll (x : Coll) : (s.setColl x).coll = x := rfl
@[simp] theorem State.setColl_fab (x : Coll) : (s.setColl x).fab = s.fab := rfl
@[simp] theorem State.setColl_mem (x : Coll) : (s.setColl x).mem = s.mem := rfl
@[simp] theorem State.setColl_health (x : Coll) : (s.setColl x).health = s.health := rfl
@[simp] theorem State.setColl_funcs (x : Coll) : (s.setColl x).funcs = s.funcs := rfl
@[simp] theorem State.setColl_diary (x : Coll) : (s.setColl x).diary = s.diary := rfl
@[simp] theorem State.setColl_boot (x : Coll) : (s.setColl x).boot = s.boot := rfl
@[simp] theorem State.setColl_board (x : Coll) : (s.setColl x).board = s.board := rfl
@[simp] theorem State.setColl_outs (x : Coll) : (s.setColl x).outs = s.outs := rfl
@[simp] theorem State.setColl_hot (x : Coll) : (s.setColl x).hot = s.hot := rfl

@[simp] theorem State.emit_pending (o : Output) : (s.emit o).pending = s.pending := rfl
@[simp] theorem State.emit_freeCtr (o : Output) : (s.emit o).freeCtr = s.freeCtr := rfl
@[simp] theorem State.emit_dev (o : Output) : (s.emit o).dev = s.dev := rfl
@[simp] theorem State.emit_clock (o : Output) : (s.emit o).clock = s.clock := rfl
@[simp] theorem State.emit_formats (o : Output) : (s.emit o).formats = s.formats := rfl
@[simp] theorem State.emit_easels (o : Output) : (s.emit o).easels = s.easels := rfl
@[simp] theorem State.emit_coll (o : Output) : (s.emit o).coll = s.coll := rfl
@[simp] theorem State.emit_fab (o : Output) : (s.emit o).fab = s.fab := rfl
@[simp] theorem State.emit_mem (o : Output) : (s.emit o).mem = s.mem := rfl
@[simp] theorem State.emit_health (o : Output) : (s.emit o).health = s.health := rfl
@[simp] theorem State.emit_funcs (o : Output) : (s.emit o).funcs = s.funcs := rfl
@[simp] theorem State.emit_diary (o : Output) : (s.emit o).diary = s.diary := rfl
@[simp] theorem State.emit_boot (o : Output) : (s.emit o).boot = s.boot := rfl
@[simp] theorem State.emit_board (o : Output) : (s.emit o).board = s.board := rfl
@[simp] theorem State.emit_outs (o : Output) : (s.emit o).outs = s.outs ++ [o] := rfl
@[simp] theorem State.emit_hot (o : Output) : (s.emit o).hot = s.hot := rfl

@[simp] theorem State.draw_pending (n : Nat) : (s.draw n).pending = s.pending := rfl
@[simp] theorem State.draw_freeCtr (n : Nat) : (s.draw n).freeCtr = s.freeCtr + n := rfl
@[simp] theorem State.draw_dev (n : Nat) : (s.draw n).dev = s.dev := rfl
@[simp] theorem State.draw_clock (n : Nat) : (s.draw n).clock = s.clock := rfl
@[simp] theorem State.draw_formats (n : Nat) : (s.draw n).formats = s.formats := rfl
@[simp] theorem State.draw_easels (n : Nat) : (s.draw n).easels = s.easels := rfl
@[simp] theorem State.draw_coll (n : Nat) : (s.draw n).coll = s.coll := rfl
@[simp] theorem State.draw_fab (n : Nat) : (s.draw n).fab = s.fab := rfl
@[simp] theorem State.draw_mem (n : Nat) : (s.draw n).mem = s.mem := rfl
@[simp] theorem State.draw_health (n : Nat) : (s.draw n).health = s.health := rfl
@[simp] theorem State.draw_funcs (n : Nat) : (s.draw n).funcs = s.funcs := rfl
@[simp] theorem State.draw_diary (n : Nat) : (s.draw n).diary = s.diary := rfl
@[simp] theorem State.draw_boot (n : Nat) : (s.draw n).boot = s.boot := rfl
@[simp] theorem State.draw_board (n : Nat) : (s.draw n).board = s.board := rfl
@[simp] theorem State.draw_outs (n : Nat) : (s.draw n).outs = s.outs := rfl
@[simp] theorem State.draw_hot (n : Nat) : (s.draw n).hot = s.hot := rfl

@[simp] theorem State.mramWrite_pending (a : Nat) (b : Bytes) : (s.mramWrite a b).pending = s.pending := rfl
@[simp] theorem State.mramWrite_freeCtr (a : Nat) (b : Bytes) : (s.mramWrite a b).freeCtr = s.freeCtr := rfl
@[simp] theorem State.mramWrite_dev (a : Nat) (b : Bytes) : (s.mramWrite a b).dev = s.dev := rfl
@[simp] theorem State.mramWrite_clock (a : Nat) (b : Bytes) : (s.mramWrite a b).clock = s.clock := rfl
@[simp] theorem State.mramWrite_formats (a : Nat) (b : Bytes) : (s.mramWrite a b).formats = s.formats := rfl
@[simp] theorem State.mramWrite_easels (a : Nat) (b : Bytes) : (s.mramWrite a b).easels = s.easels := rfl
@[simp] theorem State.mramWrite_coll (a : Nat) (b : Bytes) : (s.mramWrite a b).coll = s.coll := rfl
@[simp] theorem State.mramWrite_fab (a : Nat) (b : Bytes) : (s.mramWrite a b).fab = s.fab := rfl
@[simp] theorem State.mramWrite_mem (a : Nat) (b : Bytes) : (s.mramWrite a b).mem = s.mem := rfl
@[simp] theorem State.mramWrite_health (a : Nat) (b : Bytes) : (s.mramWrite a b).health = s.health := rfl
@[simp] theorem State.mramWrite_funcs (a : Nat) (b : Bytes) : (s.mramWrite a b).funcs = s.funcs := rfl
@[simp] theorem State.mramWrite_diary (a : Nat) (b : Bytes) : (s.mramWrite a b).diary = s.diary := rfl
@[simp] theorem State.mramWrite_boot (a : Nat) (b : Bytes) : (s.mramWrite a b).boot = { s.boot with mram := putBytes 0 s.boot.mram a b } := rfl
@[simp] theorem State.mramWrite_board (a : Nat) (b : Bytes) : (s.mramWrite a b).board = s.board := rfl
@[simp] theorem State.mramWrite_outs (a : Nat) (b : Bytes) : (s.mramWrite a b).outs = s.outs := rfl
@[simp] theorem State.mramWrite_hot (a : Nat) (b : Bytes) : (s.mramWrite a b).hot = s.hot := rfl

@[simp] theorem State.norWrite_pending (a : Nat) (b : Bytes) : (s.norWrite a b).pending = s.pending := rfl
@[simp] theorem State.norWrite_freeCtr (a : Nat) (b : Bytes) : (s.norWrite a b).freeCtr = s.freeCtr := rfl
@[simp] theorem State.norWrite_dev (a : Nat) (b : Bytes) : (s.norWrite a b).dev = s.dev := rfl
@[simp] theorem State.norWrite_clock (a : Nat) (b : Bytes) : (s.norWrite a b).clock = s.clock := rfl
@[simp] theorem State.norWrite_formats (a : Nat) (b : Bytes) : (s.norWrite a b).formats = s.formats := rfl
@[simp] theorem State.norWrite_easels (a : Nat) (b : Bytes) : (s.norWrite a b).easels = s.easels := rfl
@[simp] theorem State.norWrite_coll (a : Nat) (b : Bytes) : (s.norWrite a b).coll = s.coll := rfl
@[simp] theorem State.norWrite_fab (a : Nat) (b : Bytes) : (s.norWrite a b).fab = s.fab := rfl
@[simp] theorem State.norWrite_mem (a : Nat) (b : Bytes) : (s.norWrite a b).mem = s.mem := rfl
@[simp] theorem State.norWrite_health (a : Nat) (b : Bytes) : (s.norWrite a b).health = s.health := rfl
@[simp] theorem State.norWrite_funcs (a : Nat) (b : Bytes) : (s.norWrite a b).funcs = s.funcs := rfl
@[simp] theorem State.norWrite_diary (a : Nat) (b : Bytes) : (s.norWrite a b).diary = s.diary := rfl
@[simp] theorem State.norWrite_boot (a : Nat) (b : Bytes) : (s.norWrite a b).boot = { s.boot with nor := putBytes 0xFF s.boot.nor a b } := rfl
@[simp] theorem State.norWrite_board (a : Nat) (b : Bytes) : (s.norWrite a b).board = s.board := rfl
@[simp] theorem State.norWrite_outs (a : Nat) (b : Bytes) : (s.norWrite a b).outs = s.outs := rfl
@[simp] theorem State.norWrite_hot (a : Nat) (b : Bytes) : (s.norWrite a b).hot = s.hot := rfl

/-! A Diary event and a W1C bit. -/

@[simp] theorem State.note_pending (r e c i st : Nat) (p : List Nat) : (s.note r e c i st p).pending = s.pending := by unfold State.note; dsimp only; split <;> rfl
@[simp] theorem State.note_freeCtr (r e c i st : Nat) (p : List Nat) : (s.note r e c i st p).freeCtr = s.freeCtr := by unfold State.note; dsimp only; split <;> rfl
@[simp] theorem State.note_dev (r e c i st : Nat) (p : List Nat) : (s.note r e c i st p).dev = s.dev := by unfold State.note; dsimp only; split <;> rfl
@[simp] theorem State.note_clock (r e c i st : Nat) (p : List Nat) : (s.note r e c i st p).clock = s.clock := by unfold State.note; dsimp only; split <;> rfl
@[simp] theorem State.note_formats (r e c i st : Nat) (p : List Nat) : (s.note r e c i st p).formats = s.formats := by unfold State.note; dsimp only; split <;> rfl
@[simp] theorem State.note_easels (r e c i st : Nat) (p : List Nat) : (s.note r e c i st p).easels = s.easels := by unfold State.note; dsimp only; split <;> rfl
@[simp] theorem State.note_coll (r e c i st : Nat) (p : List Nat) : (s.note r e c i st p).coll = s.coll := by unfold State.note; dsimp only; split <;> rfl
@[simp] theorem State.note_fab (r e c i st : Nat) (p : List Nat) : (s.note r e c i st p).fab = s.fab := by unfold State.note; dsimp only; split <;> rfl
@[simp] theorem State.note_mem (r e c i st : Nat) (p : List Nat) : (s.note r e c i st p).mem = s.mem := by unfold State.note; dsimp only; split <;> rfl
@[simp] theorem State.note_health (r e c i st : Nat) (p : List Nat) : (s.note r e c i st p).health = s.health := by unfold State.note; dsimp only; split <;> rfl
@[simp] theorem State.note_funcs (r e c i st : Nat) (p : List Nat) : (s.note r e c i st p).funcs = s.funcs := by unfold State.note; dsimp only; split <;> rfl
@[simp] theorem State.note_boot (r e c i st : Nat) (p : List Nat) : (s.note r e c i st p).boot = s.boot := by unfold State.note; dsimp only; split <;> rfl
@[simp] theorem State.note_board (r e c i st : Nat) (p : List Nat) : (s.note r e c i st p).board = s.board := by unfold State.note; dsimp only; split <;> rfl
@[simp] theorem State.note_outs (r e c i st : Nat) (p : List Nat) : (s.note r e c i st p).outs = s.outs := by unfold State.note; dsimp only; split <;> rfl
@[simp] theorem State.note_hot (r e c i st : Nat) (p : List Nat) : (s.note r e c i st p).hot = s.hot := by unfold State.note; dsimp only; split <;> rfl
@[simp] theorem State.setHot_pending (k i b : Nat) : (s.setHot k i b).pending = s.pending := by unfold State.setHot; split <;> rfl
@[simp] theorem State.setHot_freeCtr (k i b : Nat) : (s.setHot k i b).freeCtr = s.freeCtr := by unfold State.setHot; split <;> rfl
@[simp] theorem State.setHot_dev (k i b : Nat) : (s.setHot k i b).dev = s.dev := by unfold State.setHot; split <;> rfl
@[simp] theorem State.setHot_clock (k i b : Nat) : (s.setHot k i b).clock = s.clock := by unfold State.setHot; split <;> rfl
@[simp] theorem State.setHot_formats (k i b : Nat) : (s.setHot k i b).formats = s.formats := by unfold State.setHot; split <;> rfl
@[simp] theorem State.setHot_easels (k i b : Nat) : (s.setHot k i b).easels = s.easels := by unfold State.setHot; split <;> rfl
@[simp] theorem State.setHot_coll (k i b : Nat) : (s.setHot k i b).coll = s.coll := by unfold State.setHot; split <;> rfl
@[simp] theorem State.setHot_fab (k i b : Nat) : (s.setHot k i b).fab = s.fab := by unfold State.setHot; split <;> rfl
@[simp] theorem State.setHot_mem (k i b : Nat) : (s.setHot k i b).mem = s.mem := by unfold State.setHot; split <;> rfl
@[simp] theorem State.setHot_health (k i b : Nat) : (s.setHot k i b).health = s.health := by unfold State.setHot; split <;> rfl
@[simp] theorem State.setHot_funcs (k i b : Nat) : (s.setHot k i b).funcs = s.funcs := by unfold State.setHot; split <;> rfl
@[simp] theorem State.setHot_diary (k i b : Nat) : (s.setHot k i b).diary = s.diary := by unfold State.setHot; split <;> rfl
@[simp] theorem State.setHot_boot (k i b : Nat) : (s.setHot k i b).boot = s.boot := by unfold State.setHot; split <;> rfl
@[simp] theorem State.setHot_board (k i b : Nat) : (s.setHot k i b).board = s.board := by unfold State.setHot; split <;> rfl
@[simp] theorem State.setHot_outs (k i b : Nat) : (s.setHot k i b).outs = s.outs := by unfold State.setHot; split <;> rfl

/-! What is read back. -/

@[simp] theorem State.easel_setEasel (n m : Nat) (x : Easel) : (s.setEasel n x).easel m = if m = n then x else s.easel m :=
  tget_tput _ _ _ _ _
@[simp] theorem State.func_setFunc (f g : Nat) (x : Func) : (s.setFunc f x).func g = if g = f then x else s.func g :=
  tget_tput _ _ _ _ _
@[simp] theorem Easel.engine_setEngine (x : Easel) (e : EngId) (g : Engine) : (x.setEngine e g).engine e = g := by
  simp [Easel.engine, Easel.setEngine]
@[simp] theorem State.engine_setEngine (n : Nat) (e : EngId) (g : Engine) : (s.setEngine n e g).engine n e = g := by
  simp [State.engine, State.setEngine]
/-- The other engines of every Easel stay. -/
theorem State.engine_setEngine_of_ne (n m : Nat) (e d : EngId) (g : Engine) (h : m ≠ n ∨ d.id ≠ e.id) :
    (s.setEngine n e g).engine m d = s.engine m d := by
  simp only [State.engine, State.setEngine, State.easel_setEasel]
  by_cases hm : m = n
  · subst hm
    rw [if_pos rfl]
    simp [Easel.engine, Easel.setEngine, h.resolve_left (fun x => x rfl)]
  · rw [if_neg hm]
@[simp] theorem State.setEngine_setEngine (n : Nat) (e : EngId) (g h : Engine) :
    (s.setEngine n e g).setEngine n e h = s.setEngine n e h := by
  simp [State.setEngine, State.setEasel, Easel.setEngine, State.easel]

end Sys2Proof.Machine
end

