-- ==== Sys2Proof/Laws/Issue.lean ====
section
/-!
SUPPORT. Issue (04 R105-R108, R127; 05 R138): once the engine issues the instruction at its PC, `issue` runs the instruction's body.
-/

set_option Elab.async false

namespace Sys2Proof.Machine

variable {s : State} {n : Nat} {e : EngId} {op : Nat} {w : IWord}

/-- The opcode of a word (05 R138). -/
theorem opcode_wordOf (h : op < 256) : ((wordOf op w) >>> 56).toNat = op := by
  have hw := w.isLt
  simp only [wordOf, BitVec.toNat_ushiftRight, BitVec.toNat_ofNat, Nat.shiftRight_eq_div_pow]
  omega

/-- What a body's answer makes of the state it ran in. -/
def issueEnd (s : State) (n : Nat) (e : EngId) : Res → Out
  | .fault c st => .next ((s.setEngine n e { s.engine n e with st := .run }).issueFault n e c st (s.engine n e).pc)
  | .go s' k => .next (s'.modEngine n e (fun g' => g'.advance s.now k))

theorem issue_go {body : State → Engine → Res} (hn : s.isEasel n = true) (he : s.hasEngine e = true) (hc : s.canIssue n e = true)
    (hp : (s.engine n e).inStudy (s.engine n e).pc = true)
    (hw : tget 0 (s.engine n e).imem (s.engine n e).pc = wordOf op w) (ho : opListed e op = true) (h : op < 256) :
    issue s n e op w body =
      issueEnd s n e (body (s.setEngine n e { s.engine n e with st := .run }) { s.engine n e with st := .run }) := by
  unfold issue onUnit
  simp only [hn, he, hc, hp, hw, Bool.and_self, Bool.not_true, Bool.false_eq_true, if_true, if_false, opcode_wordOf h, ho, bne_self_eq_false]
  cases body (s.setEngine n e { s.engine n e with st := .run }) { s.engine n e with st := .run } <;> rfl

/-- An engine that the device lacks stops the command. -/
theorem issue_absent {body : State → Engine → Res} (h : (s.isEasel n && s.hasEngine e) = false) : issue s n e op w body = absent := by
  simp [issue, onUnit, h]

/-- An engine that does not issue in this cycle changes nothing. -/
theorem issue_idle {body : State → Engine → Res} (hn : s.isEasel n = true) (he : s.hasEngine e = true) (hc : s.canIssue n e = false) :
    issue s n e op w body = .next s := by
  simp [issue, onUnit, hn, he, hc, same]

theorem issue_pcRange {body : State → Engine → Res} (hn : s.isEasel n = true) (he : s.hasEngine e = true) (hc : s.canIssue n e = true)
    (hp : (s.engine n e).inStudy (s.engine n e).pc = false) :
    issue s n e op w body = .next (s.issueFault n e cPcRange stBadField (s.engine n e).pc) := by
  simp [issue, onUnit, hn, he, hc, hp]

/-- A word that passes its checks (05 R138). -/
theorem legal_ok {u : Used} {ok : Bool} {r : Res} (hu : reservedOk w u = true) (ho : ok = true) : legal w u ok r = r := by
  simp [legal, hu, ho]

theorem legal_reserved {u : Used} {ok : Bool} {r : Res} (hu : reservedOk w u = false) : legal w u ok r = illegal := by
  simp [legal, hu]

theorem legal_field {u : Used} {ok : Bool} {r : Res} (ho : ok = false) : legal w u ok r = illegal := by
  simp [legal, ho]

/-! Scheduling (04 R105): the write stands behind those that wait, and nothing else of the state changes. -/

@[simp] theorem State.setEngine_now (g : Engine) : (s.setEngine n e g).now = s.now := rfl
@[simp] theorem State.modEngine_eq (f : Engine → Engine) : s.modEngine n e f = s.setEngine n e (f (s.engine n e)) := rfl
@[simp] theorem State.setEngine_isEasel (g : Engine) (m : Nat) : (s.setEngine n e g).isEasel m = s.isEasel m := rfl
@[simp] theorem State.setEngine_hasEngine (g : Engine) (d : EngId) : (s.setEngine n e g).hasEngine d = s.hasEngine d := rfl
@[simp] theorem State.setEngine_vfmt (g : Engine) (c : Nat) : (s.setEngine n e g).vfmt c = s.vfmt c := rfl
@[simp] theorem State.setEngine_keyFmt (g : Engine) (c : Nat) : (s.setEngine n e g).keyFmt c = s.keyFmt c := rfl
@[simp] theorem State.setEngine_isInt (g : Engine) (c : Nat) : (s.setEngine n e g).isInt c = s.isInt c := rfl
@[simp] theorem State.setEngine_binding (g : Engine) (b : Nat) : (s.setEngine n e g).binding b = s.binding b := rfl
@[simp] theorem State.setEngine_groupOf (g : Engine) (m : Nat) : (s.setEngine n e g).groupOf m = s.groupOf m := rfl
@[simp] theorem State.setEngine_ctx (g : Engine) (c : Nat) : (s.setEngine n e g).ctx c = s.ctx c := rfl
@[simp] theorem State.setEngine_physical (g : Engine) (m : Nat) : (s.setEngine n e g).physical m = s.physical m := rfl

/-- What another unit of the Easel keeps while an engine of it changes. -/
theorem State.easel_setEngine (g : Engine) :
    (s.setEngine n e g).easel n = { s.easel n with eng := ((s.easel n).setEngine e g).eng } := by
  simp [State.setEngine, Easel.setEngine]

@[simp] theorem State.setEngine_read (g : Engine) (a l : Nat) : ((s.setEngine n e g).easel n).read a l = (s.easel n).read a l := by
  simp [State.easel_setEngine, Easel.read]

/-- A unit's occupancy is read from the engine alone. -/
@[simp] theorem State.unitBusy_setEngine (g : Engine) (u : UnitId) :
    (s.setEngine n e g).unitBusy n e u = g.busy.any (fun p => p.1 == u && decide (s.now < p.2)) := by
  unfold State.unitBusy
  rw [State.engine_setEngine]
  rfl

@[simp] theorem State.after_setEngine (g : Engine) (l : Nat) (x : Landing) :
    (s.setEngine n e g).after n e l x = s.setEngine n e { g with pend := g.pend ++ [{ due := s.now + l, what := x, issued := s.now }] } := by
  simp [State.after, State.sched]

@[simp] theorem State.occupy_setEngine (g : Engine) (u : UnitId) (k : Nat) :
    (s.setEngine n e g).occupy n e u k = s.setEngine n e { g with busy := (u, s.now + k) :: g.busy.filter (fun p => p.1 != u) } := by
  simp [State.occupy]

/-- The write that brings flags (02 R57), when there are any. -/
def flagWrite (g : Engine) (now l : Nat) (f : BitVec 7) : List Pending :=
  if f = 0 then [] else [{ due := now + l, what := .flags f g.serves.1 g.serves.2 g.pos, issued := now }]

@[simp] theorem State.raise_setEngine (g : Engine) (l : Nat) (f : BitVec 7) :
    (s.setEngine n e g).raise n e l f = s.setEngine n e { g with pend := g.pend ++ flagWrite g s.now l f } := by
  unfold State.raise flagWrite
  split
  · simp
  · simp

end Sys2Proof.Machine
end

