-- ==== Sys2Proof/Laws/Keeps.lean ====
section
/-!
SUPPORT. The relation `Keeps` between a state and a later one: what every operation keeps (the queue, the fuse map, the canonical
form of the memories, the identity area of the NOR, what was already sent out), and, each with a flag of its own, the components of
the state that the operation leaves as they were.
-/

set_option Elab.async false

namespace Sys2Proof.Machine

/-- An IMAGE_WRITE under way programs the image area alone (15 R410, R416). -/
def norJobOk (s : State) : Prop := ∀ j, s.boot.norJob = some j → j.len ≤ identityBase

/-- What an operation leaves as it was, or in its form, from `s` to `s'`. Always: the queue, the fuse map, the canonical forms, the
identity area, what was sent out. Where its flag is set, also: the tables that BOOT loads and Grisaille mode (`k`), the device state
(`fd`), the clock (`fc`), the Easels (`fe`), the collective state (`fl`), the fabric (`fb`), the memory (`fm`), health (`fh`), the functions
(`fu`), the Diary (`fy`), boot, NOR and MRAM (`fo`), the board (`fa`), what was sent out (`ft`). -/
structure Keeps (k fd fc fe fl fb fm fh fu fy fo fa ft : Bool) (s s' : State) : Prop where
  pending : s'.pending = s.pending
  fuses : s'.boot.fuses = s.boot.fuses
  cells : Memory.wf s.mem.cells = true → Memory.wf s'.mem.cells = true
  mram : tcanon (0 : Byte) s.boot.mram = true → tcanon (0 : Byte) s'.boot.mram = true
  nor : tcanon (0xFF : Byte) s.boot.nor = true → tcanon (0xFF : Byte) s'.boot.nor = true
  job : norJobOk s → norJobOk s'
  ident : norJobOk s → tcanon (0xFF : Byte) s.boot.nor = true →
    ∀ a, identityBase ≤ a → tget (0xFF : Byte) s'.boot.nor a = tget (0xFF : Byte) s.boot.nor a
  sent : ∃ l, s'.outs = s.outs ++ l
  free : s.freeCtr ≤ s'.freeCtr
  tables : k = true → s'.formats = s.formats ∧ s'.boot.functions = s.boot.functions ∧ s'.boot.imageDigest = s.boot.imageDigest ∧
    s'.boot.tablesDigest = s.boot.tablesDigest ∧ s'.boot.fw = s.boot.fw
  gris : k = true → s.dev = .grisaille → s'.dev = .grisaille
  dev : fd = true → s'.dev = s.dev
  clock : fc = true → s'.clock = s.clock
  easels : fe = true → s'.easels = s.easels
  coll : fl = true → s'.coll = s.coll
  fab : fb = true → s'.fab = s.fab
  mem : fm = true → s'.mem = s.mem
  health : fh = true → s'.health = s.health
  funcs : fu = true → s'.funcs = s.funcs
  diary : fy = true → s'.diary = s.diary
  boot : fo = true → s'.boot = s.boot
  board : fa = true → s'.board = s.board
  outs : ft = true → s'.outs = s.outs

variable {k fd fc fe fl fb fm fh fu fy fo fa ft : Bool} {s₀ s s' : State}

theorem Keeps.refl (s : State) : Keeps k fd fc fe fl fb fm fh fu fy fo fa ft s s :=
  ⟨rfl, rfl, id, id, id, id, fun _ _ _ _ => rfl, ⟨[], (List.append_nil _).symm⟩, Nat.le_refl _, fun _ => ⟨rfl, rfl, rfl, rfl, rfl⟩,
    fun _ h => h, fun _ => rfl, fun _ => rfl, fun _ => rfl, fun _ => rfl, fun _ => rfl, fun _ => rfl, fun _ => rfl, fun _ => rfl,
    fun _ => rfl, fun _ => rfl, fun _ => rfl, fun _ => rfl⟩

/-- A further state that differs from the last one as the arguments say, by default not in what the relation speaks of. -/
theorem Keeps.of (g : Keeps k fd fc fe fl fb fm fh fu fy fo fa ft s₀ s)
    (pending : s'.pending = s.pending := by rfl)
    (fuses : s'.boot.fuses = s.boot.fuses := by rfl)
    (cells : Memory.wf s.mem.cells = true → Memory.wf s'.mem.cells = true := by
      first | exact id | exact Mem.write_wf _ _ _ | exact fun w => Mem.write_wf _ _ _ (Mem.write_wf _ _ _ w))
    (mram : tcanon (0 : Byte) s.boot.mram = true → tcanon (0 : Byte) s'.boot.mram = true := by exact id)
    (nor : tcanon (0xFF : Byte) s.boot.nor = true → tcanon (0xFF : Byte) s'.boot.nor = true := by exact id)
    (job : norJobOk s → norJobOk s' := by exact id)
    (ident : norJobOk s → tcanon (0xFF : Byte) s.boot.nor = true →
      ∀ a, identityBase ≤ a → tget (0xFF : Byte) s'.boot.nor a = tget (0xFF : Byte) s.boot.nor a := by exact fun _ _ _ _ => rfl)
    (sent : ∃ l, s'.outs = s.outs ++ l := by exact ⟨[], (List.append_nil _).symm⟩)
    (free : s.freeCtr ≤ s'.freeCtr := by exact Nat.le_refl _)
    (tables : k = true → s'.formats = s.formats ∧ s'.boot.functions = s.boot.functions ∧ s'.boot.imageDigest = s.boot.imageDigest ∧
      s'.boot.tablesDigest = s.boot.tablesDigest ∧ s'.boot.fw = s.boot.fw := by
      first | exact fun _ => ⟨rfl, rfl, rfl, rfl, rfl⟩ | exact fun x => Bool.noConfusion x)
    (gris : k = true → s.dev = .grisaille → s'.dev = .grisaille := by first | exact fun _ h => h | exact fun x => Bool.noConfusion x)
    (dev : fd = true → s'.dev = s.dev := by first | exact fun _ => rfl | exact fun x => Bool.noConfusion x)
    (clock : fc = true → s'.clock = s.clock := by first | exact fun _ => rfl | exact fun x => Bool.noConfusion x)
    (easels : fe = true → s'.easels = s.easels := by first | exact fun _ => rfl | exact fun x => Bool.noConfusion x)
    (coll : fl = true → s'.coll = s.coll := by first | exact fun _ => rfl | exact fun x => Bool.noConfusion x)
    (fab : fb = true → s'.fab = s.fab := by first | exact fun _ => rfl | exact fun x => Bool.noConfusion x)
    (mem : fm = true → s'.mem = s.mem := by first | exact fun _ => rfl | exact fun x => Bool.noConfusion x)
    (health : fh = true → s'.health = s.health := by first | exact fun _ => rfl | exact fun x => Bool.noConfusion x)
    (funcs : fu = true → s'.funcs = s.funcs := by first | exact fun _ => rfl | exact fun x => Bool.noConfusion x)
    (diary : fy = true → s'.diary = s.diary := by first | exact fun _ => rfl | exact fun x => Bool.noConfusion x)
    (boot : fo = true → s'.boot = s.boot := by first | exact fun _ => rfl | exact fun x => Bool.noConfusion x)
    (board : fa = true → s'.board = s.board := by first | exact fun _ => rfl | exact fun x => Bool.noConfusion x)
    (outs : ft = true → s'.outs = s.outs := by first | exact fun _ => rfl | exact fun x => Bool.noConfusion x) :
    Keeps k fd fc fe fl fb fm fh fu fy fo fa ft s₀ s' where
  pending := pending.trans g.pending
  fuses := fuses.trans g.fuses
  cells w := cells (g.cells w)
  mram w := mram (g.mram w)
  nor w := nor (g.nor w)
  job w := job (g.job w)
  ident w c a ha := (ident (g.job w) (g.nor c) a ha).trans (g.ident w c a ha)
  sent := by
    obtain ⟨l, hl⟩ := g.sent
    obtain ⟨m, hm⟩ := sent
    exact ⟨l ++ m, by rw [hm, hl, List.append_assoc]⟩
  free := Nat.le_trans g.free free
  tables w := by
    obtain ⟨a, b, c, d, e⟩ := g.tables w
    obtain ⟨a', b', c', d', e'⟩ := tables w
    exact ⟨a'.trans a, b'.trans b, c'.trans c, d'.trans d, e'.trans e⟩
  gris w x := gris w (g.gris w x)
  dev w := (dev w).trans (g.dev w)
  clock w := (clock w).trans (g.clock w)
  easels w := (easels w).trans (g.easels w)
  coll w := (coll w).trans (g.coll w)
  fab w := (fab w).trans (g.fab w)
  mem w := (mem w).trans (g.mem w)
  health w := (health w).trans (g.health w)
  funcs w := (funcs w).trans (g.funcs w)
  diary w := (diary w).trans (g.diary w)
  boot w := (boot w).trans (g.boot w)
  board w := (board w).trans (g.board w)
  outs w := (outs w).trans (g.outs w)

theorem Keeps.trans (g : Keeps k fd fc fe fl fb fm fh fu fy fo fa ft s₀ s) (f : Keeps k fd fc fe fl fb fm fh fu fy fo fa ft s s') :
    Keeps k fd fc fe fl fb fm fh fu fy fo fa ft s₀ s' :=
  g.of f.pending f.fuses f.cells f.mram f.nor f.job f.ident f.sent f.free f.tables f.gris f.dev f.clock f.easels f.coll f.fab f.mem
    f.health f.funcs f.diary f.boot f.board f.outs

theorem Keeps.foldl {α : Type} {f : State → α → State} (xs : List α)
    (hf : ∀ s x, Keeps k fd fc fe fl fb fm fh fu fy fo fa ft s₀ s → Keeps k fd fc fe fl fb fm fh fu fy fo fa ft s₀ (f s x))
    (g : Keeps k fd fc fe fl fb fm fh fu fy fo fa ft s₀ s) : Keeps k fd fc fe fl fb fm fh fu fy fo fa ft s₀ (xs.foldl f s) := by
  induction xs generalizing s with
  | nil => exact g
  | cons x xs ih => exact ih (hf s x g)

/-- What a command answers, what an engine's operation gives, the end of a host command, and a register write keep the relation. -/
def OutKeeps (k fd fc fe fl fb fm fh fu fy fo fa ft : Bool) (s : State) (r : Out) : Prop := ∀ s', r = .next s' → Keeps k fd fc fe fl fb fm fh fu fy fo fa ft s s'
def ResKeeps (k fd fc fe fl fb fm fh fu fy fo fa ft : Bool) (s : State) (r : Res) : Prop := ∀ s' n, r = .go s' n → Keeps k fd fc fe fl fb fm fh fu fy fo fa ft s s'
def EndKeeps (k fd fc fe fl fb fm fh fu fy fo fa ft : Bool) (s : State) : CmdEnd → Prop
  | .fail _ => True
  | .done s' _ => Keeps k fd fc fe fl fb fm fh fu fy fo fa ft s s'
  | .waits _ go => ∀ u', Keeps k fd fc fe fl fb fm fh fu fy fo fa ft s u' → Keeps k fd fc fe fl fb fm fh fu fy fo fa ft s (go u')
def WrKeeps (k fd fc fe fl fb fm fh fu fy fo fa ft : Bool) (s : State) : Wr → Prop
  | .set s' => Keeps k fd fc fe fl fb fm fh fu fy fo fa ft s s'
  | .ignore => True
  | .refuse => True

theorem OutKeeps.next (g : Keeps k fd fc fe fl fb fm fh fu fy fo fa ft s₀ s) : OutKeeps k fd fc fe fl fb fm fh fu fy fo fa ft s₀ (.next s) := by
  intro _ x; cases x; exact g
theorem OutKeeps.fault {f : Fault} : OutKeeps k fd fc fe fl fb fm fh fu fy fo fa ft s₀ (.fault f) := by
  intro _ x; cases x
theorem ResKeeps.go {n : Next} (g : Keeps k fd fc fe fl fb fm fh fu fy fo fa ft s₀ s) : ResKeeps k fd fc fe fl fb fm fh fu fy fo fa ft s₀ (.go s n) := by
  intro _ _ x; cases x; exact g
theorem ResKeeps.fault {i j : Nat} : ResKeeps k fd fc fe fl fb fm fh fu fy fo fa ft s₀ (.fault i j) := by
  intro _ _ x; cases x
theorem EndKeeps.fail {j : Nat} : EndKeeps k fd fc fe fl fb fm fh fu fy fo fa ft s₀ (.fail j) := trivial
theorem EndKeeps.done {p : Bytes} (g : Keeps k fd fc fe fl fb fm fh fu fy fo fa ft s₀ s) : EndKeeps k fd fc fe fl fb fm fh fu fy fo fa ft s₀ (.done s p) := g
theorem EndKeeps.waits {on : WaitsOn} {go : State → State}
    (g : ∀ u', Keeps k fd fc fe fl fb fm fh fu fy fo fa ft s₀ u' → Keeps k fd fc fe fl fb fm fh fu fy fo fa ft s₀ (go u')) :
    EndKeeps k fd fc fe fl fb fm fh fu fy fo fa ft s₀ (.waits on go) := g
theorem WrKeeps.set (g : Keeps k fd fc fe fl fb fm fh fu fy fo fa ft s₀ s) : WrKeeps k fd fc fe fl fb fm fh fu fy fo fa ft s₀ (.set s) := g
theorem WrKeeps.refuse : WrKeeps k fd fc fe fl fb fm fh fu fy fo fa ft s₀ .refuse := trivial
theorem WrKeeps.ignore : WrKeeps k fd fc fe fl fb fm fh fu fy fo fa ft s₀ .ignore := trivial

/-- A state made from the last one with some fields replaced. -/
theorem Keeps.upd {dev clock formats easels coll fab mem health funcs diary boot board outs hot}
    (g : Keeps k fd fc fe fl fb fm fh fu fy fo fa ft s₀ s)
    (f : Keeps k fd fc fe fl fb fm fh fu fy fo fa ft s
      (State.mk s.pending s.freeCtr dev clock formats easels coll fab mem health funcs diary boot board outs hot)) :
    Keeps k fd fc fe fl fb fm fh fu fy fo fa ft s₀
      (State.mk s.pending s.freeCtr dev clock formats easels coll fab mem health funcs diary boot board outs hot) := g.trans f

theorem Keeps.memTo (g : Keeps k fd fc fe fl fb false fh fu fy fo fa ft s₀ s) (m : Mem)
    (w : Memory.wf s.mem.cells = true → Memory.wf m.cells = true) :
    Keeps k fd fc fe fl fb false fh fu fy fo fa ft s₀ { s with mem := m } := g.of (cells := w)

theorem keeps_store_eq {z : Account} {i j n : Nat} (g : Keeps k fd fc fe fl false fm fh fu fy fo fa ft s₀ s) (x : s.store z i j = (s', n)) :
    Keeps k fd fc fe fl false fm fh fu fy fo fa ft s₀ s' := by
  unfold State.store at x
  cases x
  exact g.upd (.of (.refl _))
end Sys2Proof.Machine
end

