-- ==== Sys2Proof/Laws/KeepsShared.lean ====
section
/-!
SUPPORT. `Keeps` for the shared operations, the net and the collective operations: one lemma per operation.
-/

set_option Elab.async false

namespace Sys2Proof.Machine

variable {k fd fc fe fl fb fm fh fu fy fo fa ft : Bool} {s₀ s : State}

/-! Ops -/

theorem keeps_absent :
    OutKeeps k fd fc fe fl fb fm fh fu fy fo fa ft s₀ (absent ) := by
  unfold absent
  exact OutKeeps.fault

theorem keeps_onUnit (x0 : Bool) (x1 : Out) (h1 : OutKeeps k fd fc fe fl fb fm fh fu fy fo fa ft s₀ x1) :
    OutKeeps k fd fc fe fl fb fm fh fu fy fo fa ft s₀ (onUnit x0 x1) := by
  unfold onUnit
  split
  · assumption
  · apply keeps_absent

theorem keeps_same {x0 : State} (h0 : Keeps k fd fc fe fl fb fm fh fu fy fo fa ft s₀ x0) :
    OutKeeps k fd fc fe fl fb fm fh fu fy fo fa ft s₀ (same x0) := by
  unfold same
  apply OutKeeps.next
  assumption

theorem keeps_whenP (x0 : Bool) {x1 : State} {x2 : State} (h1 : Keeps k fd fc fe fl fb fm fh fu fy fo fa ft s₀ x1) (h2 : Keeps k fd fc fe fl fb fm fh fu fy fo fa ft s₀ x2) :
    OutKeeps k fd fc fe fl fb fm fh fu fy fo fa ft s₀ (when' x0 x1 x2) := by
  unfold when'
  apply OutKeeps.next
  split
  · assumption
  · assumption

theorem keeps_State_draw {x0 : State} (x1 : Nat) (h0 : Keeps k fd fc fe fl fb fm fh fu fy fo fa ft s₀ x0) : Keeps k fd fc fe fl fb fm fh fu fy fo fa ft s₀ (x0.draw x1) :=
  h0.of (free := Nat.le_add_right _ _)

theorem keeps_State_setEasel {x0 : State} (x1 : Nat) (x2 : Easel) (h0 : Keeps k fd fc false fl fb fm fh fu fy fo fa ft s₀ x0) :
    Keeps k fd fc false fl fb fm fh fu fy fo fa ft s₀ (State.setEasel x0 x1 x2) := by
  unfold State.setEasel
  exact Keeps.upd ‹_› (.of (.refl _))

theorem keeps_State_setEngine {x0 : State} (x1 : Nat) (x2 : EngId) (x3 : Engine) (h0 : Keeps k fd fc false fl fb fm fh fu fy fo fa ft s₀ x0) :
    Keeps k fd fc false fl fb fm fh fu fy fo fa ft s₀ (State.setEngine x0 x1 x2 x3) := by
  unfold State.setEngine
  apply keeps_State_setEasel; assumption

theorem keeps_State_modEasel {x0 : State} (x1 : Nat) (x2 : Easel → Easel) (h0 : Keeps k fd fc false fl fb fm fh fu fy fo fa ft s₀ x0) :
    Keeps k fd fc false fl fb fm fh fu fy fo fa ft s₀ (State.modEasel x0 x1 x2) := by
  unfold State.modEasel
  apply keeps_State_setEasel; assumption

theorem keeps_State_modEngine {x0 : State} (x1 : Nat) (x2 : EngId) (x3 : Engine → Engine) (h0 : Keeps k fd fc false fl fb fm fh fu fy fo fa ft s₀ x0) :
    Keeps k fd fc false fl fb fm fh fu fy fo fa ft s₀ (State.modEngine x0 x1 x2 x3) := by
  unfold State.modEngine
  apply keeps_State_setEngine; assumption

theorem keeps_State_setCtx {x0 : State} (x1 : Nat) (x2 : Ctx) (h0 : Keeps k fd fc fe false fb fm fh fu fy fo fa ft s₀ x0) :
    Keeps k fd fc fe false fb fm fh fu fy fo fa ft s₀ (State.setCtx x0 x1 x2) := by
  unfold State.setCtx
  exact Keeps.upd ‹_› (.of (.refl _))

theorem keeps_State_modCtx {x0 : State} (x1 : Nat) (x2 : Ctx → Ctx) (h0 : Keeps k fd fc fe false fb fm fh fu fy fo fa ft s₀ x0) :
    Keeps k fd fc fe false fb fm fh fu fy fo fa ft s₀ (State.modCtx x0 x1 x2) := by
  unfold State.modCtx
  apply keeps_State_setCtx; assumption

theorem keeps_State_modGen {x0 : State} (x1 : Nat) (x2 : Word) (x3 : Gen → Gen) (h0 : Keeps k fd fc fe false fb fm fh fu fy fo fa ft s₀ x0) :
    Keeps k fd fc fe false fb fm fh fu fy fo fa ft s₀ (State.modGen x0 x1 x2 x3) := by
  unfold State.modGen
  split
  · assumption
  · apply keeps_State_setCtx; assumption

theorem keeps_State_setFunc {x0 : State} (x1 : Nat) (x2 : Func) (h0 : Keeps k fd fc fe fl fb fm fh false fy fo fa ft s₀ x0) :
    Keeps k fd fc fe fl fb fm fh false fy fo fa ft s₀ (State.setFunc x0 x1 x2) := by
  unfold State.setFunc
  exact Keeps.upd ‹_› (.of (.refl _))

theorem keeps_State_modFunc {x0 : State} (x1 : Nat) (x2 : Func → Func) (h0 : Keeps k fd fc fe fl fb fm fh false fy fo fa ft s₀ x0) :
    Keeps k fd fc fe fl fb fm fh false fy fo fa ft s₀ (State.modFunc x0 x1 x2) := by
  unfold State.modFunc
  apply keeps_State_setFunc; assumption

theorem keeps_State_emit {x0 : State} (x1 : Output) (h0 : Keeps k fd fc fe fl fb fm fh fu fy fo fa false s₀ x0) : Keeps k fd fc fe fl fb fm fh fu fy fo fa false s₀ (x0.emit x1) :=
  h0.of (sent := ⟨[x1], rfl⟩)

theorem keeps_State_interrupt {x0 : State} (x1 : Nat) (x2 : Nat) (h0 : Keeps k fd fc fe fl fb fm fh false fy fo fa ft s₀ x0) :
    Keeps k fd fc fe fl fb fm fh false fy fo fa ft s₀ (State.interrupt x0 x1 x2) := by
  unfold State.interrupt
  apply keeps_State_modFunc; assumption

theorem keeps_State_interruptAll {x0 : State} (x1 : Nat) (h0 : Keeps k fd fc fe fl fb fm fh false fy fo fa ft s₀ x0) :
    Keeps k fd fc fe fl fb fm fh false fy fo fa ft s₀ (State.interruptAll x0 x1) := by
  unfold State.interruptAll
  apply Keeps.foldl
  · intro _ _ _
    split
    · apply keeps_State_interrupt; assumption
    · assumption
  · assumption

theorem keeps_State_setBinding {x0 : State} (x1 : Nat) (x2 : Binding) (h0 : Keeps k fd fc fe false fb fm fh fu fy fo fa ft s₀ x0) :
    Keeps k fd fc fe false fb fm fh fu fy fo fa ft s₀ (State.setBinding x0 x1 x2) := by
  unfold State.setBinding
  exact Keeps.upd ‹_› (.of (.refl _))

theorem keeps_State_note {x0 : State} (x1 : Nat) (x2 : Nat) (x3 : Nat) (x4 : Nat) (x5 : Nat) (x6 : List Nat) (h0 : Keeps k fd fc fe fl fb fm fh fu false fo fa ft s₀ x0) :
    Keeps k fd fc fe fl fb fm fh fu false fo fa ft s₀ (State.note x0 x1 x2 x3 x4 x5 x6) := by
  unfold State.note
  extract_lets +onlyGivenNames v0 v1
  clear_value v0 v1
  split
  · exact Keeps.upd ‹_› (.of (.refl _))
  · exact Keeps.upd ‹_› (.of (.refl _))

theorem keeps_State_noteDev {x0 : State} (x1 : Nat) (x2 : Nat) (x3 : Nat) (x4 : List Nat) (h0 : Keeps k fd fc fe fl fb fm fh fu false fo fa ft s₀ x0) :
    Keeps k fd fc fe fl fb fm fh fu false fo fa ft s₀ (State.noteDev x0 x1 x2 x3 x4) := by
  unfold State.noteDev
  apply keeps_State_note; assumption

theorem keeps_State_notePort {x0 : State} (x1 : Nat) (x2 : Nat) (x3 : Nat) (x4 : Nat) (x5 : List Nat) (h0 : Keeps k fd fc fe fl fb fm fh fu false fo fa ft s₀ x0) :
    Keeps k fd fc fe fl fb fm fh fu false fo fa ft s₀ (State.notePort x0 x1 x2 x3 x4 x5) := by
  unfold State.notePort
  apply keeps_State_note; assumption

theorem keeps_State_noteEasel {x0 : State} (x1 : Nat) (x2 : Nat) (x3 : Nat) (x4 : Nat) (x5 : List Nat) (h0 : Keeps k fd fc fe fl fb fm fh fu false fo fa ft s₀ x0) :
    Keeps k fd fc fe fl fb fm fh fu false fo fa ft s₀ (State.noteEasel x0 x1 x2 x3 x4 x5) := by
  unfold State.noteEasel
  apply keeps_State_note; assumption

theorem keeps_State_noteCtx {x0 : State} (x1 : Nat) (x2 : Nat) (x3 : Nat) (x4 : Nat) (x5 : List Nat) (h0 : Keeps k fd fc fe fl fb fm fh fu false fo fa ft s₀ x0) :
    Keeps k fd fc fe fl fb fm fh fu false fo fa ft s₀ (State.noteCtx x0 x1 x2 x3 x4 x5) := by
  unfold State.noteCtx
  apply keeps_State_note; assumption

theorem keeps_State_ignored {x0 : State} (x1 : Nat) (x2 : Nat) (h0 : Keeps k fd fc fe fl fb fm fh false false fo fa ft s₀ x0) :
    Keeps k fd fc fe fl fb fm fh false false fo fa ft s₀ (State.ignored x0 x1 x2) := by
  unfold State.ignored
  split
  · split
    · assumption
    · apply keeps_State_note
      apply keeps_State_modFunc; assumption
  · apply keeps_State_note
    apply keeps_State_modFunc; assumption

theorem keeps_State_aerSet {x0 : State} (x1 : Nat) (x2 : Nat) (h0 : Keeps k fd fc fe fl fb fm fh false fy fo fa ft s₀ x0) :
    Keeps k fd fc fe fl fb fm fh false fy fo fa ft s₀ (State.aerSet x0 x1 x2) := by
  unfold State.aerSet
  apply keeps_State_modFunc; assumption

theorem keeps_State_poisoned {x0 : State} (x1 : Nat) (h0 : Keeps k fd fc fe fl fb fm fh false false fo fa ft s₀ x0) :
    Keeps k fd fc fe fl fb fm fh false false fo fa ft s₀ (State.poisoned x0 x1) := by
  unfold State.poisoned
  apply keeps_State_note
  apply keeps_State_aerSet; assumption

theorem keeps_State_abortRead {x0 : State} (x1 : Nat) (h0 : Keeps k fd fc fe fl fb fm fh false fy fo fa false s₀ x0) :
    Keeps k fd fc fe fl fb fm fh false fy fo fa false s₀ (State.abortRead x0 x1) := by
  unfold State.abortRead
  apply keeps_State_emit
  apply keeps_State_aerSet; assumption

theorem keeps_State_setHot {x0 : State} (x1 : Nat) (x2 : Nat) (x3 : Nat) (h0 : Keeps k fd fc fe fl fb fm fh fu fy fo fa ft s₀ x0) :
    Keeps k fd fc fe fl fb fm fh fu fy fo fa ft s₀ (State.setHot x0 x1 x2 x3) := by
  unfold State.setHot
  split
  · exact Keeps.upd ‹_› (.of (.refl _))
  · assumption

theorem keeps_State_alertBit {x0 : State} (x1 : Nat) (h0 : Keeps k fd fc fe fl fb fm fh fu fy false fa ft s₀ x0) :
    Keeps k fd fc fe fl fb fm fh fu fy false fa ft s₀ (State.alertBit x0 x1) := by
  unfold State.alertBit
  apply keeps_State_setHot
  exact Keeps.upd ‹_› (.of (.refl _))

theorem keeps_State_mramWrite {x0 : State} (x1 : Nat) (x2 : Bytes) (h0 : Keeps k fd fc fe fl fb fm fh fu fy false fa ft s₀ x0) : Keeps k fd fc fe fl fb fm fh fu fy false fa ft s₀ (x0.mramWrite x1 x2) :=
  h0.of (mram := tcanon_putBytes _ _)

theorem keeps_State_norWrite {x0 : State} (x1 : Nat) (x2 : Bytes) (h0 : Keeps k fd fc fe fl fb fm fh fu fy false fa ft s₀ x0) (hb : norJobOk s₀ → x1 + x2.length ≤ identityBase) :
    Keeps k fd fc fe fl fb fm fh fu fy false fa ft s₀ (x0.norWrite x1 x2) :=
  ⟨h0.pending, h0.fuses, h0.cells, h0.mram, fun c => tcanon_putBytes _ _ (h0.nor c), h0.job,
    fun w c a ha => (tget_putBytes_of_not _ _ _ (h0.nor c) (.inr (Nat.le_trans (hb w) ha))).trans (h0.ident w c a ha),
    h0.sent, h0.free, h0.tables, h0.gris, h0.dev, h0.clock, h0.easels, h0.coll, h0.fab, h0.mem, h0.health, h0.funcs, h0.diary, nofun,
    h0.board, h0.outs⟩

/-! Net -/

theorem keeps_State_setFab {x0 : State} (x1 : Fabric) (h0 : Keeps k fd fc fe fl false fm fh fu fy fo fa ft s₀ x0) :
    Keeps k fd fc fe fl false fm fh fu fy fo fa ft s₀ (State.setFab x0 x1) := by
  unfold State.setFab
  exact Keeps.upd ‹_› (.of (.refl _))

theorem keeps_State_setPort {x0 : State} (x1 : Nat) (x2 : Port) (h0 : Keeps k fd fc fe fl false fm fh fu fy fo fa ft s₀ x0) :
    Keeps k fd fc fe fl false fm fh fu fy fo fa ft s₀ (State.setPort x0 x1 x2) := by
  unfold State.setPort
  apply keeps_State_setFab; assumption

theorem keeps_State_setLPort {x0 : State} (x1 : Nat) (x2 : LPort) (h0 : Keeps k fd fc fe fl false fm fh fu fy fo fa ft s₀ x0) :
    Keeps k fd fc fe fl false fm fh fu fy fo fa ft s₀ (State.setLPort x0 x1 x2) := by
  unfold State.setLPort
  apply keeps_State_setFab; assumption

theorem keeps_State_modLPort {x0 : State} (x1 : Nat) (x2 : LPort → LPort) (h0 : Keeps k fd fc fe fl false fm fh fu fy fo fa ft s₀ x0) :
    Keeps k fd fc fe fl false fm fh fu fy fo fa ft s₀ (State.modLPort x0 x1 x2) := by
  unfold State.modLPort
  apply keeps_State_setLPort; assumption

theorem keeps_State_freeIngress {x0 : State} (x1 : Nat) (x2 : Nat) (x3 : Nat) (h0 : Keeps k fd fc fe fl false fm fh fu fy fo fa ft s₀ x0) :
    Keeps k fd fc fe fl false fm fh fu fy fo fa ft s₀ (State.freeIngress x0 x1 x2 x3) := by
  unfold State.freeIngress
  apply keeps_State_modLPort; assumption

theorem keeps_State_freeAccount {x0 : State} (x1 : Account) (x2 : Nat) (h0 : Keeps k fd fc fe fl false fm fh fu fy fo fa ft s₀ x0) :
    Keeps k fd fc fe fl false fm fh fu fy fo fa ft s₀ (State.freeAccount x0 x1 x2) := by
  unfold State.freeAccount
  split
  · apply keeps_State_freeIngress; assumption
  · apply keeps_State_freeIngress; assumption
  · apply keeps_State_setFab; assumption
  · assumption

theorem keeps_State_dropCopy {x0 : State} (x1 : Nat) (h0 : Keeps k fd fc fe fl false fm fh fu fy fo fa ft s₀ x0) :
    Keeps k fd fc fe fl false fm fh fu fy fo fa ft s₀ (State.dropCopy x0 x1) := by
  unfold State.dropCopy
  split
  · assumption
  · split
    · apply keeps_State_freeAccount
      apply keeps_State_setFab; assumption
    · apply keeps_State_setFab; assumption

theorem keeps_State_enqueue {x0 : State} (x1 : Nat) (x2 : Queued) (h0 : Keeps k fd fc fe fl false fm fh fu fy fo fa ft s₀ x0) :
    Keeps k fd fc fe fl false fm fh fu fy fo fa ft s₀ (State.enqueue x0 x1 x2) := by
  unfold State.enqueue
  extract_lets +onlyGivenNames v0 v1 v2 v3 v4 v7
  clear_value v0 v1 v2 v3 v4 v7
  apply keeps_State_setLPort
  apply keeps_State_setFab; assumption

theorem keeps_State_takeHop {x0 : State} (x1 : Option Nat) (x2 : Nat) (x3 : Bool) (x4 : Hop) (h0 : Keeps k fd fc fe fl false fm fh fu false fo fa ft s₀ x0) :
    Keeps k fd fc fe fl false fm fh fu false fo fa ft s₀ (State.takeHop x0 x1 x2 x3 x4) := by
  unfold State.takeHop
  split
  · apply keeps_State_enqueue; assumption
  · apply keeps_State_enqueue; assumption
  · apply keeps_State_dropCopy
    apply keeps_State_noteDev; assumption
  · apply keeps_State_dropCopy; assumption

theorem keeps_State_setFlow {x0 : State} (x1 : Flow) (h0 : Keeps k fd fc fe fl false fm fh fu fy fo fa ft s₀ x0) :
    Keeps k fd fc fe fl false fm fh fu fy fo fa ft s₀ (State.setFlow x0 x1) := by
  unfold State.setFlow
  extract_lets +onlyGivenNames v0
  clear_value v0
  split
  · apply keeps_State_setFab; assumption
  · apply keeps_State_setFab; assumption

theorem keeps_State_crossOut {x0 : State} (x1 : Nat) (x2 : Bytes) (x3 : Nat) (x4 : Hop) (h0 : Keeps k fd fc fe fl false fm fh fu false fo fa ft s₀ x0) :
    Keeps k fd fc fe fl false fm fh fu false fo fa ft s₀ (State.crossOut x0 x1 x2 x3 x4) := by
  unfold State.crossOut
  split
  · apply keeps_State_dropCopy
    apply keeps_State_notePort; assumption
  · apply keeps_State_takeHop; assumption

theorem keeps_State_placeFrame {x0 : State} (x1 : Orig) (x2 : Option Nat) (h0 : Keeps k fd fc fe fl false fm fh fu false fo fa ft s₀ x0) : Keeps k fd fc fe fl false fm fh fu false fo fa ft s₀ (x0.placeFrame x1 x2) := by
  unfold State.placeFrame
  extract_lets fl1 t1 f1 s1
  have h1 : Keeps k fd fc fe fl false fm fh fu false fo fa ft s₀ s1 := by
    subst s1
    split
    · exact h0
    · exact keeps_State_setFlow _ h0
  clear_value s1
  split
  rename_i t' i e
  apply keeps_State_crossOut
  split at e
  · cases e; exact h1
  · exact keeps_store_eq h1 e

theorem keeps_drainGo {x0 : State} (x1 : List Orig) (x2 : List Orig) (h0 : Keeps k fd fc fe fl false fm fh fu false fo fa ft s₀ x0) :
    Keeps k fd fc fe fl false fm fh fu false fo fa ft s₀ (drainGo x0 x1 x2) := by
  unfold drainGo
  split
  · apply keeps_State_setFab; assumption
  · split
    · apply keeps_drainGo
      apply keeps_State_placeFrame; assumption
    · apply keeps_drainGo; assumption

theorem keeps_State_drain {x0 : State} (h0 : Keeps k fd fc fe fl false fm fh fu false fo fa ft s₀ x0) :
    Keeps k fd fc fe fl false fm fh fu false fo fa ft s₀ (State.drain x0) := by
  unfold State.drain
  apply keeps_drainGo; assumption

theorem keeps_State_queueOrig {x0 : State} (x1 : Orig) (h0 : Keeps k fd fc fe fl false fm fh fu false fo fa ft s₀ x0) :
    Keeps k fd fc fe fl false fm fh fu false fo fa ft s₀ (State.queueOrig x0 x1) := by
  unfold State.queueOrig
  apply keeps_State_drain
  apply keeps_State_setFab; assumption

theorem keeps_State_endSpan {x0 : State} (x1 : Nat) (x2 : Nat) (h0 : Keeps k fd fc fe fl false fm fh fu false fo fa ft s₀ x0) :
    Keeps k fd fc fe fl false fm fh fu false fo fa ft s₀ (State.endSpan x0 x1 x2) := by
  unfold State.endSpan
  extract_lets +onlyGivenNames v0 v1
  clear_value v0 v1
  split
  · assumption
  · extract_lets +onlyGivenNames v2
    clear_value v2
    apply keeps_State_queueOrig
    apply keeps_State_setFlow; assumption

theorem keeps_State_privOrig {x0 : State} (x1 : Orig) (h0 : Keeps k fd fc fe fl false fm fh fu false fo fa ft s₀ x0) :
    Keeps k fd fc fe fl false fm fh fu false fo fa ft s₀ (State.privOrig x0 x1) := by
  unfold State.privOrig
  extract_lets +onlyGivenNames v0 v1
  clear_value v0 v1
  split
  · apply keeps_State_queueOrig; assumption
  · split
    · apply keeps_State_setFlow; assumption
    · split
      · extract_lets +onlyGivenNames v6
        have h6 : Keeps k fd fc fe fl false fm fh fu false fo fa ft s₀ v6 := by
          subst v6
          apply keeps_State_endSpan; assumption
        clear_value v6
        extract_lets +onlyGivenNames v7
        clear_value v7
        apply keeps_State_setFlow; assumption
      · apply keeps_State_queueOrig
        apply keeps_State_setFlow; assumption

theorem keeps_State_originate {x0 : State} (x1 : Nat) (x2 : Nat) (x3 : Nat) (x4 : Nat) (x5 : Bytes) (h0 : Keeps k fd fc fe fl false fm fh fu false fo fa ft s₀ x0) :
    Keeps k fd fc fe fl false fm fh fu false fo fa ft s₀ (State.originate x0 x1 x2 x3 x4 x5) := by
  unfold State.originate
  extract_lets +onlyGivenNames v0
  clear_value v0
  split
  · apply keeps_State_privOrig; assumption
  · apply keeps_State_queueOrig; assumption

theorem keeps_State_sendTack {x0 : State} (x1 : Nat) (x2 : Nat) (x3 : Nat) (x4 : Nat) (x5 : Nat) (x6 : Nat) (x7 : Nat) (h0 : Keeps k fd fc fe fl false fm fh fu false fo fa ft s₀ x0) :
    Keeps k fd fc fe fl false fm fh fu false fo fa ft s₀ (State.sendTack x0 x1 x2 x3 x4 x5 x6 x7) := by
  unfold State.sendTack
  apply keeps_State_originate; assumption

theorem keeps_State_tackFlow {x0 : State} (x1 : Nat) (x2 : Nat) (x3 : Nat) (x4 : Nat) (h0 : Keeps k fd fc fe fl false fm fh fu false fo fa ft s₀ x0) :
    Keeps k fd fc fe fl false fm fh fu false fo fa ft s₀ (State.tackFlow x0 x1 x2 x3 x4) := by
  unfold State.tackFlow
  extract_lets +onlyGivenNames v5
  clear_value v5
  split
  · assumption
  · extract_lets +onlyGivenNames v6
    clear_value v6
    apply keeps_State_sendTack
    apply keeps_State_setFlow; assumption

theorem keeps_State_ackFlow {x0 : State} (x1 : Nat) (x2 : Nat) (h0 : Keeps k fd fc fe fl false fm fh fu false fo fa ft s₀ x0) :
    Keeps k fd fc fe fl false fm fh fu false fo fa ft s₀ (State.ackFlow x0 x1 x2) := by
  unfold State.ackFlow
  split
  · assumption
  · apply keeps_State_tackFlow; assumption

theorem keeps_State_freeCells {x0 : State} (x1 : Nat) (x2 : Nat) (h0 : Keeps k fd fc fe fl false fm fh fu fy fo fa ft s₀ x0) :
    Keeps k fd fc fe fl false fm fh fu fy fo fa ft s₀ (State.freeCells x0 x1 x2) := by
  unfold State.freeCells
  apply keeps_State_setFab; assumption

theorem keeps_State_freeEject {x0 : State} (x1 : Nat) (x2 : Nat) (x3 : Nat) (h0 : Keeps k fd fc fe fl false fm fh fu false fo fa ft s₀ x0) :
    Keeps k fd fc fe fl false fm fh fu false fo fa ft s₀ (State.freeEject x0 x1 x2 x3) := by
  unfold State.freeEject
  extract_lets +onlyGivenNames v1
  have h1 : Keeps k fd fc fe fl false fm fh fu false fo fa ft s₀ v1 := by
    subst v1
    apply keeps_State_freeCells; assumption
  clear_value v1
  split
  · split
    · extract_lets +onlyGivenNames v2
      clear_value v2
      extract_lets +onlyGivenNames v4
      have h4 : Keeps k fd fc fe fl false fm fh fu false fo fa ft s₀ v4 := by
        subst v4
        apply keeps_State_setFlow; assumption
      clear_value v4
      split
      · apply keeps_State_ackFlow; assumption
      · assumption
    · assumption
  · assumption

/-! Gesso -/

theorem Mem.useLine_cells (m : Mem) (wr whole : Bool) (g : Nat) : (m.useLine wr whole g).1.cells = m.cells := rfl

theorem Mem.touchStack_cells (m : Mem) (now g : Nat) : (m.touchStack now g).cells = m.cells := rfl

theorem Mem.touchAll_cells (now : Nat) (l : List Nat) (m : Mem) : (l.foldl (fun m g => Mem.touchStack m now g) m).cells = m.cells := by
  induction l generalizing m with
  | nil => rfl
  | cons g l ih => rw [List.foldl_cons, ih, Mem.touchStack_cells]

theorem Mem.accessWide_cells (m : Mem) (now : Nat) (wr whole : Bool) (g : Nat) : (m.accessWide now wr whole g).cells = m.cells := by
  unfold Mem.accessWide
  split
  · rfl
  · split
    · exact (Mem.touchAll_cells _ _ _).trans (Mem.useLine_cells _ _ _ _)
    · rfl

theorem Mem.accessAll_cells (now : Nat) (wr : Bool) (f : Nat → Bool) (l : List Nat) (m : Mem) :
    (l.foldl (fun m g => Mem.accessWide m now wr (f g) g) m).cells = m.cells := by
  induction l generalizing m with
  | nil => rfl
  | cons g l ih => rw [List.foldl_cons, ih, Mem.accessWide_cells]

theorem keeps_State_access {x0 : State} (x1 : Bool) (x2 : List Nat) (h0 : Keeps k fd fc fe fl fb false fh fu fy fo fa ft s₀ x0) :
    Keeps k fd fc fe fl fb false fh fu fy fo fa ft s₀ (x0.access x1 x2) := by
  unfold State.access
  extract_lets v12
  exact h0.memTo _ (fun w => by rw [Mem.accessAll_cells]; exact w)

theorem keeps_State_accessRun {x0 : State} (x1 : Bool) (x2 : Nat) (x3 : Nat) (h0 : Keeps k fd fc fe fl fb false fh fu fy fo fa ft s₀ x0) :
    Keeps k fd fc fe fl fb false fh fu fy fo fa ft s₀ (State.accessRun x0 x1 x2 x3) := by
  unfold State.accessRun
  apply keeps_State_access; assumption

theorem keeps_State_putMem {x0 : State} (x1 : Nat) (x2 : Bytes) (h0 : Keeps k fd fc fe fl fb false fh fu fy fo fa ft s₀ x0) :
    Keeps k fd fc fe fl fb false fh fu fy fo fa ft s₀ (State.putMem x0 x1 x2) := by
  unfold State.putMem
  split
  · assumption
  · apply keeps_State_accessRun
    exact Keeps.upd ‹_› (.of (.refl _))

/-! Results -/

theorem keeps_State_finish {x0 : State} (x1 : Nat) (x2 : Nat) (x3 : DWord) (x4 : Byte) (x5 : Bool) (x6 : Nat) (x7 : Bytes) (h0 : Keeps k fd fc fe fl fb fm fh false fy fo fa ft s₀ x0) :
    Keeps k fd fc fe fl fb fm fh false fy fo fa ft s₀ (State.finish x0 x1 x2 x3 x4 x5 x6 x7) := by
  unfold State.finish
  extract_lets +onlyGivenNames v8
  clear_value v8
  extract_lets +onlyGivenNames v9
  have h9 : Keeps k fd fc fe fl fb fm fh false fy fo fa ft s₀ v9 := by
    subst v9
    apply keeps_State_modFunc; assumption
  clear_value v9
  split
  · apply keeps_State_interrupt; assumption
  · assumption

theorem keeps_State_endWaitsOf {x0 : State} (x1 : Nat) (x2 : WaitsOn → Bool) (x3 : Nat) (x4 : Bytes) (h0 : Keeps k fd fc fe fl fb fm fh false fy fo fa ft s₀ x0) :
    Keeps k fd fc fe fl fb fm fh false fy fo fa ft s₀ (State.endWaitsOf x0 x1 x2 x3 x4) := by
  unfold State.endWaitsOf
  extract_lets +onlyGivenNames v0
  clear_value v0
  split
  · apply Keeps.foldl
    · intro _ _ _
      apply keeps_State_finish; assumption
    · apply keeps_State_modFunc; assumption
  · assumption

theorem keeps_State_endWaits {x0 : State} (x1 : WaitsOn → Bool) (x2 : Nat) (x3 : Bytes) (h0 : Keeps k fd fc fe fl fb fm fh false fy fo fa ft s₀ x0) :
    Keeps k fd fc fe fl fb fm fh false fy fo fa ft s₀ (State.endWaits x0 x1 x2 x3) := by
  unfold State.endWaits
  apply Keeps.foldl
  · intro _ _ _
    apply keeps_State_endWaitsOf; assumption
  · assumption

/-! CollOps -/

theorem keeps_State_startFlush {x0 : State} (x1 : Nat) (h0 : Keeps k fd fc fe fl fb false fh fu false fo fa ft s₀ x0) :
    Keeps k fd fc fe fl fb false fh fu false fo fa ft s₀ (State.startFlush x0 x1) := by
  unfold State.startFlush
  extract_lets +onlyGivenNames v0
  clear_value v0
  split
  · exact Keeps.upd ‹_› (.of (.refl _))
  · extract_lets +onlyGivenNames v6 v7 v8 v9
    clear_value v6 v7 v8 v9
    extract_lets +onlyGivenNames v10
    have h10 : Keeps k fd fc fe fl fb false fh fu false fo fa ft s₀ v10 := by
      subst v10
      apply keeps_State_putMem; assumption
    clear_value v10
    exact Keeps.upd ‹_› (.of (.refl _))

theorem keeps_State_setCopied {x0 : State} (x1 : Nat) (h0 : Keeps k fd fc fe fl fb fm fh fu false fo fa ft s₀ x0) :
    Keeps k fd fc fe fl fb fm fh fu false fo fa ft s₀ (State.setCopied x0 x1) := by
  unfold State.setCopied
  exact Keeps.upd ‹_› (.of (.refl _))

theorem keeps_State_copyRecords {x0 : State} (x1 : Nat) (x2 : Nat) (x3 : Nat) (h0 : Keeps k fd fc fe fl fb false fh fu false fo fa ft s₀ x0) :
    Keeps k fd fc fe fl fb false fh fu false fo fa ft s₀ (State.copyRecords x0 x1 x2 x3) := by
  unfold State.copyRecords
  apply keeps_State_setCopied
  apply keeps_State_putMem; assumption

theorem keeps_State_copyTwo {x0 : State} (h0 : Keeps k fd fc fe fl fb false fh fu false fo fa ft s₀ x0) :
    Keeps k fd fc fe fl fb false fh fu false fo fa ft s₀ (State.copyTwo x0) := by
  unfold State.copyTwo
  split
  · assumption
  · extract_lets +onlyGivenNames v1 v2 v3
    clear_value v1 v2 v3
    split
    · assumption
    · apply keeps_State_copyRecords; assumption

theorem keeps_State_easelFlush {x0 : State} (h0 : Keeps k fd fc fe fl fb false fh fu false fo fa ft s₀ x0) :
    Keeps k fd fc fe fl fb false fh fu false fo fa ft s₀ (State.easelFlush x0) := by
  unfold State.easelFlush
  extract_lets +onlyGivenNames v0
  clear_value v0
  split
  · apply keeps_State_startFlush; assumption
  · assumption

theorem keeps_State_selfDeliver {x0 : State} (x1 : Nat) (x2 : Nat) (x3 : Bytes) (x4 : Option (Nat × Word × Nat)) (h0 : Keeps k fd fc fe fl false fm fh fu fy fo fa ft s₀ x0) :
    Keeps k fd fc fe fl false fm fh fu fy fo fa ft s₀ (State.selfDeliver x0 x1 x2 x3 x4) := by
  unfold State.selfDeliver
  extract_lets +onlyGivenNames v3
  clear_value v3
  apply keeps_State_setFab; assumption

theorem keeps_State_holdCells {x0 : State} (x1 : Nat) (x2 : Bytes) (h0 : Keeps k fd fc fe fl false fm fh fu fy fo fa ft s₀ x0) :
    Keeps k fd fc fe fl false fm fh fu fy fo fa ft s₀ (State.holdCells x0 x1 x2) := by
  unfold State.holdCells
  split
  · assumption
  · apply keeps_State_setFab; assumption

theorem keeps_State_freeHeld {x0 : State} (x1 : Nat) (x2 : Bytes) (h0 : Keeps k fd fc fe fl false fm fh fu fy fo fa ft s₀ x0) :
    Keeps k fd fc fe fl false fm fh fu fy fo fa ft s₀ (State.freeHeld x0 x1 x2) := by
  unfold State.freeHeld
  apply keeps_State_freeAccount; assumption

theorem keeps_State_freeHolds {x0 : State} (x1 : List Held) (h0 : Keeps k fd fc fe fl false fm fh fu fy fo fa ft s₀ x0) :
    Keeps k fd fc fe fl false fm fh fu fy fo fa ft s₀ (State.freeHolds x0 x1) := by
  unfold State.freeHolds
  apply Keeps.foldl
  · intro _ _ _
    split
    · apply keeps_State_freeHeld; assumption
    · assumption
  · assumption

theorem keeps_State_dropStaged {x0 : State} (x1 : Nat) (x2 : Word) (x3 : Nat → Bool) (h0 : Keeps k fd fc fe false false fm fh fu fy fo fa ft s₀ x0) :
    Keeps k fd fc fe false false fm fh fu fy fo fa ft s₀ (State.dropStaged x0 x1 x2 x3) := by
  unfold State.dropStaged
  extract_lets +onlyGivenNames v10
  clear_value v10
  split
  · assumption
  · extract_lets +onlyGivenNames v11 v12
    clear_value v11 v12
    extract_lets +onlyGivenNames v13
    have h13 : Keeps k fd fc fe false false fm fh fu fy fo fa ft s₀ v13 := by
      subst v13
      apply Keeps.foldl
      · intro _ _ _
        apply keeps_State_freeHeld; assumption
      · assumption
    clear_value v13
    apply keeps_State_modGen; assumption

theorem keeps_State_sendNode {x0 : State} (x1 : Nat) (x2 : Nat) (x3 : Nat) (x4 : Nat) (x5 : Bytes) (x6 : Option (Nat × Word × Nat)) (h0 : Keeps k fd fc fe false false fm fh fu false fo fa ft s₀ x0) :
    Keeps k fd fc fe false false fm fh fu false fo fa ft s₀ (State.sendNode x0 x1 x2 x3 x4 x5 x6) := by
  unfold State.sendNode
  extract_lets +onlyGivenNames v1 v2 v3
  clear_value v1 v2 v3
  split
  · apply keeps_State_selfDeliver; assumption
  · split
    · extract_lets +onlyGivenNames v6
      clear_value v6
      extract_lets +onlyGivenNames v7
      have h7 : Keeps k fd fc fe false false fm fh fu false fo fa ft s₀ v7 := by
        subst v7
        apply keeps_State_setCtx; assumption
      clear_value v7
      split
      · apply keeps_State_holdCells; assumption
      · assumption
    · apply keeps_State_originate; assumption

theorem keeps_State_toNode {x0 : State} (x1 : Nat) (x2 : Nat) (x3 : Nat) (x4 : Nat) (x5 : Bytes) (h0 : Keeps k fd fc fe false false fm fh fu false fo fa ft s₀ x0) :
    Keeps k fd fc fe false false fm fh fu false fo fa ft s₀ (State.toNode x0 x1 x2 x3 x4 x5) := by
  unfold State.toNode
  apply keeps_State_sendNode; assumption

theorem keeps_State_rosterTo {x0 : State} (x1 : Nat) (x2 : Bytes) (h0 : Keeps k fd fc fe fl false fm fh fu false fo fa ft s₀ x0) :
    Keeps k fd fc fe fl false fm fh fu false fo fa ft s₀ (State.rosterTo x0 x1 x2) := by
  unfold State.rosterTo
  apply keeps_State_originate; assumption

theorem keeps_State_toAuthority {x0 : State} (x1 : Bytes) (h0 : Keeps k fd fc fe fl false fm fh fu false fo fa ft s₀ x0) :
    Keeps k fd fc fe fl false fm fh fu false fo fa ft s₀ (State.toAuthority x0 x1) := by
  unfold State.toAuthority
  split
  · apply keeps_State_rosterTo; assumption
  · assumption

theorem keeps_State_rosterNode {x0 : State} (x1 : Nat) (x2 : Nat) (x3 : Bytes) (h0 : Keeps k fd fc fe fl false fm fh fu false fo fa ft s₀ x0) :
    Keeps k fd fc fe fl false fm fh fu false fo fa ft s₀ (State.rosterNode x0 x1 x2 x3) := by
  unfold State.rosterNode
  extract_lets +onlyGivenNames v0
  clear_value v0
  split
  · apply keeps_State_selfDeliver; assumption
  · apply keeps_State_originate; assumption

theorem keeps_State_downTree {x0 : State} (x1 : Nat) (x2 : Bytes) (h0 : Keeps k fd fc fe false false fm fh fu false fo fa ft s₀ x0) :
    Keeps k fd fc fe false false fm fh fu false fo fa ft s₀ (State.downTree x0 x1 x2) := by
  unfold State.downTree
  extract_lets +onlyGivenNames v0
  clear_value v0
  apply Keeps.foldl
  · intro _ _ _
    apply keeps_State_toNode; assumption
  · assumption

theorem keeps_State_clearEasel {x0 : State} (x1 : Nat) (x2 : Nat) (x3 : Word) (h0 : Keeps k fd fc false fl false fm fh fu false fo fa ft s₀ x0) :
    Keeps k fd fc false fl false fm fh fu false fo fa ft s₀ (State.clearEasel x0 x1 x2 x3) := by
  unfold State.clearEasel
  extract_lets +onlyGivenNames v1 v2 v3 v4 v5
  clear_value v1 v2 v3 v4 v5
  extract_lets +onlyGivenNames v6
  have h6 : Keeps k fd fc false fl false fm fh fu false fo fa ft s₀ v6 := by
    subst v6
    apply keeps_State_setEasel; assumption
  clear_value v6
  apply Keeps.foldl
  · intro _ _ _
    apply keeps_State_freeEject; assumption
  · assumption

theorem keeps_State_report {x0 : State} (x1 : Nat) (x2 : Word) (x3 : Nat) (h0 : Keeps k fd fc fe false false fm fh fu false fo fa ft s₀ x0) :
    Keeps k fd fc fe false false fm fh fu false fo fa ft s₀ (State.report x0 x1 x2 x3) := by
  unfold State.report
  extract_lets +onlyGivenNames v4
  clear_value v4
  split
  · assumption
  · split
    · split
      · assumption
      · apply keeps_State_modGen
        apply keeps_State_downTree; assumption
    · split
      · apply keeps_State_toNode; assumption
      · assumption

theorem keeps_State_failQuiet {x0 : State} (x1 : Nat) (x2 : Word) (x3 : Nat) (h0 : Keeps k fd fc false false false fm fh fu false fo fa ft s₀ x0) :
    Keeps k fd fc false false false fm fh fu false fo fa ft s₀ (State.failQuiet x0 x1 x2 x3) := by
  unfold State.failQuiet
  split
  · assumption
  · split
    · apply keeps_State_modGen; assumption
    · extract_lets +onlyGivenNames v4
      clear_value v4
      extract_lets +onlyGivenNames v5
      have h5 : Keeps k fd fc false false false fm fh fu false fo fa ft s₀ v5 := by
        subst v5
        apply keeps_State_dropStaged
        apply Keeps.foldl
        · intro _ _ _
          apply keeps_State_clearEasel; assumption
        · assumption
      clear_value v5
      apply keeps_State_modGen; assumption

theorem keeps_State_failGen {x0 : State} (x1 : Nat) (x2 : Word) (x3 : Nat) (h0 : Keeps k fd fc false false false fm fh fu false fo fa ft s₀ x0) :
    Keeps k fd fc false false false fm fh fu false fo fa ft s₀ (State.failGen x0 x1 x2 x3) := by
  unfold State.failGen
  split
  · assumption
  · extract_lets +onlyGivenNames v3
    have h3 : Keeps k fd fc false false false fm fh fu false fo fa ft s₀ v3 := by
      subst v3
      apply keeps_State_failQuiet; assumption
    clear_value v3
    split
    · apply keeps_State_modGen; assumption
    · assumption

theorem keeps_State_tell {x0 : State} (x1 : Nat) (x2 : Word) (h0 : Keeps k fd fc fe false false fm fh fu false fo fa ft s₀ x0) :
    Keeps k fd fc fe false false fm fh fu false fo fa ft s₀ (State.tell x0 x1 x2) := by
  unfold State.tell
  split
  · assumption
  · split
    · apply keeps_State_report
      apply keeps_State_modGen; assumption
    · assumption

theorem keeps_State_tellAll {x0 : State} (h0 : Keeps k fd fc fe false false fm fh fu false fo fa ft s₀ x0) :
    Keeps k fd fc fe false false fm fh fu false fo fa ft s₀ (State.tellAll x0) := by
  unfold State.tellAll
  apply Keeps.foldl
  · intro _ _ _
    apply Keeps.foldl
    · intro _ _ _
      apply keeps_State_tell; assumption
    · assumption
  · assumption

theorem keeps_State_mismatch {x0 : State} (x1 : Nat) (x2 : Word) (h0 : Keeps k fd fc false false false fm fh fu false fo fa ft s₀ x0) :
    Keeps k fd fc false false false fm fh fu false fo fa ft s₀ (State.mismatch x0 x1 x2) := by
  unfold State.mismatch
  split
  · assumption
  · extract_lets +onlyGivenNames v4
    clear_value v4
    apply keeps_State_modGen
    apply keeps_State_failGen; assumption

theorem keeps_State_mergeRerun {x0 : State} (x1 : Nat) (x2 : Word) (x3 : Nat) (x4 : Nat) (h0 : Keeps k fd fc fe false fb fm fh fu fy fo fa ft s₀ x0) :
    Keeps k fd fc fe false fb fm fh fu fy fo fa ft s₀ (State.mergeRerun x0 x1 x2 x3 x4) := by
  unfold State.mergeRerun
  extract_lets +onlyGivenNames v1
  clear_value v1
  split
  · exact Keeps.upd ‹_› (.of (.refl _))
  · exact Keeps.upd ‹_› (.of (.refl _))

theorem keeps_State_requestRerun {x0 : State} (x1 : Nat) (x2 : Word) (x3 : Nat) (x4 : Nat) (h0 : Keeps k fd fc false false false fm fh fu false fo fa ft s₀ x0) :
    Keeps k fd fc false false false fm fh fu false fo fa ft s₀ (State.requestRerun x0 x1 x2 x3 x4) := by
  unfold State.requestRerun
  extract_lets +onlyGivenNames v3
  clear_value v3
  split
  · apply keeps_State_failGen; assumption
  · split
    · apply keeps_State_mergeRerun; assumption
    · split
      · assumption
      · apply keeps_State_rosterNode; assumption

theorem keeps_State_sendDones {x0 : State} (x1 : Nat) (x2 : Gen) (x3 : List Nat) (h0 : Keeps k fd fc fe fl false fm fh fu false fo fa ft s₀ x0) :
    Keeps k fd fc fe fl false fm fh fu false fo fa ft s₀ (State.sendDones x0 x1 x2 x3) := by
  unfold State.sendDones
  extract_lets +onlyGivenNames v2 v3 v4 v5
  clear_value v2 v3 v4 v5
  apply Keeps.foldl
  · intro _ _ _
    split
    · extract_lets +onlyGivenNames v8
      clear_value v8
      apply keeps_State_originate; assumption
    · assumption
  · assumption

theorem keeps_State_truncateOne {x0 : State} (x1 : Nat) (x2 : Ctx) (x3 : Gen) (x4 : Capture) (h0 : Keeps k fd fc fe false fb false fh false fy fo fa ft s₀ x0) :
    Keeps k fd fc fe false fb false fh false fy fo fa ft s₀ (State.truncateOne x0 x1 x2 x3 x4) := by
  unfold State.truncateOne
  extract_lets +onlyGivenNames v1 v2
  clear_value v1 v2
  split
  · assumption
  · extract_lets +onlyGivenNames v10
    subst v10
    extract_lets +onlyGivenNames v20
    have h20 : Keeps k fd fc fe false fb false fh false fy fo fa ft s₀ v20 := by
      subst v20
      apply keeps_State_interrupt
      exact Keeps.upd ‹_› (.of (.refl _))
    clear_value v20
    split
    · assumption
    · apply keeps_State_putMem; assumption

theorem keeps_State_truncateAll {x0 : State} (h0 : Keeps k fd fc fe false fb false fh false fy fo fa ft s₀ x0) :
    Keeps k fd fc fe false fb false fh false fy fo fa ft s₀ (State.truncateAll x0) := by
  unfold State.truncateAll
  split
  · assumption
  · apply Keeps.foldl
    · intro _ _ _
      split
      · apply keeps_State_truncateOne; assumption
      · assumption
    · assumption

theorem keeps_State_closeOne {x0 : State} (x1 : Nat) (x2 : Ctx) (x3 : Gen) (x4 : Capture) (h0 : Keeps k fd fc fe false fb false fh false fy fo fa ft s₀ x0) :
    Keeps k fd fc fe false fb false fh false fy fo fa ft s₀ (State.closeOne x0 x1 x2 x3 x4) := by
  unfold State.closeOne
  extract_lets +onlyGivenNames v7 v8 v9 v10 v11 v12 v14 v15
  clear_value v7 v8 v9 v10 v11 v12 v14 v15
  extract_lets +onlyGivenNames v16
  have h16 : Keeps k fd fc fe false fb false fh false fy fo fa ft s₀ v16 := by
    subst v16
    apply keeps_State_putMem; assumption
  clear_value v16
  extract_lets +onlyGivenNames v18
  subst v18
  extract_lets +onlyGivenNames v19
  have h19 : Keeps k fd fc fe false fb false fh false fy fo fa ft s₀ v19 := by
    subst v19
    exact Keeps.upd ‹_› (.of (.refl _))
  clear_value v19
  split
  · assumption
  · apply keeps_State_interrupt; assumption

theorem keeps_State_closeCapture {x0 : State} (x1 : Nat) (x2 : Ctx) (x3 : Gen) (h0 : Keeps k fd fc fe false fb false fh false fy fo fa ft s₀ x0) :
    Keeps k fd fc fe false fb false fh false fy fo fa ft s₀ (State.closeCapture x0 x1 x2 x3) := by
  unfold State.closeCapture
  split
  · assumption
  · apply Keeps.foldl
    · intro _ _ _
      apply keeps_State_closeOne; assumption
    · assumption

theorem keeps_State_enterAck {x0 : State} (x1 : Nat) (x2 : Nat) (x3 : Bytes) (x4 : Nat) (h0 : Keeps k fd fc fe fl false fm fh fu false fo fa ft s₀ x0) :
    Keeps k fd fc fe fl false fm fh fu false fo fa ft s₀ (State.enterAck x0 x1 x2 x3 x4) := by
  unfold State.enterAck
  extract_lets +onlyGivenNames v2
  clear_value v2
  apply keeps_State_originate; assumption

theorem keeps_State_freeCtx {x0 : State} (x1 : Nat) (h0 : Keeps k fd fc fe false false fm fh false false fo fa ft s₀ x0) :
    Keeps k fd fc fe false false fm fh false false fo fa ft s₀ (State.freeCtx x0 x1) := by
  unfold State.freeCtx
  extract_lets +onlyGivenNames v1
  clear_value v1
  extract_lets +onlyGivenNames v2
  have h2 : Keeps k fd fc fe false false fm fh false false fo fa ft s₀ v2 := by
    subst v2
    apply keeps_State_setCtx; assumption
  clear_value v2
  extract_lets +onlyGivenNames v4
  subst v4
  extract_lets +onlyGivenNames v6
  have h6 : Keeps k fd fc fe false false fm fh false false fo fa ft s₀ v6 := by
    subst v6
    exact Keeps.upd ‹_› (.of (.refl _))
  clear_value v6
  extract_lets +onlyGivenNames v8
  have h8 : Keeps k fd fc fe false false fm fh false false fo fa ft s₀ v8 := by
    subst v8
    apply keeps_State_freeHolds; assumption
  clear_value v8
  extract_lets +onlyGivenNames v9
  have h9 : Keeps k fd fc fe false false fm fh false false fo fa ft s₀ v9 := by
    subst v9
    apply Keeps.foldl
    · intro _ _ _
      apply keeps_State_freeEject
      apply keeps_State_enterAck; assumption
    · assumption
  clear_value v9
  apply keeps_State_endWaits
  apply keeps_State_endWaits
  apply keeps_State_endWaits; assumption

theorem keeps_State_keepTiles {x0 : State} (x1 : Nat) (x2 : List (Nat × Bytes)) (h0 : Keeps k fd fc fe fl fb false fh fu fy fo fa ft s₀ x0) :
    Keeps k fd fc fe fl fb false fh fu fy fo fa ft s₀ (State.keepTiles x0 x1 x2) := by
  unfold State.keepTiles
  split
  · assumption
  · apply keeps_State_putMem; assumption

theorem keeps_State_retireGen {x0 : State} (x1 : Nat) (x2 : Gen) (h0 : Keeps k fd fc fe false false false fh false false fo fa ft s₀ x0) :
    Keeps k fd fc fe false false false fh false false fo fa ft s₀ (State.retireGen x0 x1 x2) := by
  unfold State.retireGen
  extract_lets +onlyGivenNames v14
  have h14 : Keeps k fd fc fe false false false fh false false fo fa ft s₀ v14 := by
    subst v14
    apply keeps_State_tell; assumption
  clear_value v14
  extract_lets +onlyGivenNames v15 v16 v17 v18
  clear_value v15 v16 v17 v18
  extract_lets +onlyGivenNames v19
  have h19 : Keeps k fd fc fe false false false fh false false fo fa ft s₀ v19 := by
    subst v19
    apply keeps_State_closeCapture; assumption
  clear_value v19
  extract_lets +onlyGivenNames v20
  have h20 : Keeps k fd fc fe false false false fh false false fo fa ft s₀ v20 := by
    subst v20
    split
    · assumption
    · apply keeps_State_sendDones; assumption
  clear_value v20
  extract_lets +onlyGivenNames v21 v22
  clear_value v21 v22
  extract_lets +onlyGivenNames v23
  have h23 : Keeps k fd fc fe false false false fh false false fo fa ft s₀ v23 := by
    subst v23
    apply keeps_State_keepTiles; assumption
  clear_value v23
  extract_lets +onlyGivenNames v24
  have h24 : Keeps k fd fc fe false false false fh false false fo fa ft s₀ v24 := by
    subst v24
    apply keeps_State_setCtx; assumption
  clear_value v24
  extract_lets +onlyGivenNames v25
  subst v25
  extract_lets +onlyGivenNames v30
  have h30 : Keeps k fd fc fe false false false fh false false fo fa ft s₀ v30 := by
    subst v30
    exact Keeps.upd ‹_› (.of (.refl _))
  clear_value v30
  split
  · apply keeps_State_freeCtx; assumption
  · assumption

theorem keeps_State_failAll {x0 : State} (x1 : Nat) (x2 : Nat) (h0 : Keeps k fd fc false false false false fh false false fo fa ft s₀ x0) :
    Keeps k fd fc false false false false fh false false fo fa ft s₀ (State.failAll x0 x1 x2) := by
  unfold State.failAll
  extract_lets +onlyGivenNames v5
  clear_value v5
  apply Keeps.foldl
  · intro _ _ _
    extract_lets +onlyGivenNames v13
    have h13 : Keeps k fd fc false false false false fh false false fo fa ft s₀ v13 := by
      subst v13
      apply keeps_State_failGen; assumption
    clear_value v13
    split
    · apply keeps_State_retireGen; assumption
    · assumption
  · assumption

/-! RecoveryOps -/

theorem keeps_State_spread {x0 : State} (x1 : Nat) (x2 : Option Nat) (x3 : Bytes) (h0 : Keeps k fd fc fe fl false fm fh fu false fo fa ft s₀ x0) :
    Keeps k fd fc fe fl false fm fh fu false fo fa ft s₀ (State.spread x0 x1 x2 x3) := by
  unfold State.spread
  extract_lets +onlyGivenNames v2 v3
  clear_value v2 v3
  apply Keeps.foldl
  · intro _ _ _
    apply keeps_State_rosterNode; assumption
  · assumption

theorem keeps_State_fenceGens {x0 : State} (x1 : Nat) (h0 : Keeps k fd fc false false false fm fh fu false fo fa ft s₀ x0) :
    Keeps k fd fc false false false fm fh fu false fo fa ft s₀ (State.fenceGens x0 x1) := by
  unfold State.fenceGens
  extract_lets +onlyGivenNames v5
  clear_value v5
  apply Keeps.foldl
  · intro _ _ _
    split
    · assumption
    · apply keeps_State_failGen; assumption
  · assumption

theorem keeps_State_sendFenced {x0 : State} (x1 : Nat) (x2 : Bytes) (h0 : Keeps k fd fc fe false false fm fh fu false fo fa ft s₀ x0) :
    Keeps k fd fc fe false false fm fh fu false fo fa ft s₀ (State.sendFenced x0 x1 x2) := by
  unfold State.sendFenced
  apply keeps_State_rosterTo
  exact Keeps.upd ‹_› (.of (.refl _))

theorem keeps_State_fenceRank {x0 : State} (x1 : Nat) (x2 : Nat) (x3 : Option Nat) (h0 : Keeps k fd fc false false false fm fh fu false fo fa ft s₀ x0) :
    Keeps k fd fc false false false fm fh fu false fo fa ft s₀ (State.fenceRank x0 x1 x2 x3) := by
  unfold State.fenceRank
  extract_lets +onlyGivenNames v3 v4
  clear_value v3 v4
  split
  · assumption
  · extract_lets +onlyGivenNames v5
    have h5 : Keeps k fd fc false false false fm fh fu false fo fa ft s₀ v5 := by
      subst v5
      apply keeps_State_setCtx; assumption
    clear_value v5
    extract_lets +onlyGivenNames v7
    have h7 : Keeps k fd fc false false false fm fh fu false fo fa ft s₀ v7 := by
      subst v7
      apply keeps_State_spread; assumption
    clear_value v7
    extract_lets +onlyGivenNames v8
    clear_value v8
    extract_lets +onlyGivenNames v9
    have h9 : Keeps k fd fc false false false fm fh fu false fo fa ft s₀ v9 := by
      subst v9
      apply keeps_State_sendFenced
      apply keeps_State_toAuthority; assumption
    clear_value v9
    apply keeps_State_fenceGens; assumption

theorem keeps_State_fenceEndpoint {x0 : State} (x1 : Nat) (h0 : Keeps k fd fc false false false fm fh fu false fo fa ft s₀ x0) :
    Keeps k fd fc false false false fm fh fu false fo fa ft s₀ (State.fenceEndpoint x0 x1) := by
  unfold State.fenceEndpoint
  apply Keeps.foldl
  · intro _ _ _
    extract_lets +onlyGivenNames v4
    clear_value v4
    split
    · apply Keeps.foldl
      · intro _ _ _
        apply keeps_State_fenceRank; assumption
      · assumption
    · assumption
  · assumption

theorem keeps_State_sendExpel {x0 : State} (x1 : Nat) (x2 : Nat) (h0 : Keeps k fd fc fe fl false fm fh false false false fa ft s₀ x0) :
    Keeps k fd fc fe fl false fm fh false false false fa ft s₀ (State.sendExpel x0 x1 x2) := by
  unfold State.sendExpel
  apply keeps_State_alertBit
  apply keeps_State_interruptAll
  apply keeps_State_toAuthority; assumption

theorem keeps_State_expel {x0 : State} (x1 : Nat) (h0 : Keeps k fd fc false false false fm false false false false fa ft s₀ x0) :
    Keeps k fd fc false false false fm false false false false fa ft s₀ (State.expel x0 x1) := by
  unfold State.expel
  extract_lets +onlyGivenNames v5
  subst v5
  extract_lets +onlyGivenNames v6
  have h6 : Keeps k fd fc false false false fm false false false false fa ft s₀ v6 := by
    subst v6
    exact Keeps.upd ‹_› (.of (.refl _))
  clear_value v6
  apply keeps_State_sendExpel
  apply keeps_State_fenceEndpoint; assumption

theorem keeps_State_expulsion {x0 : State} (x1 : Nat) (h0 : Keeps k fd fc false false false fm false false false false fa ft s₀ x0) :
    Keeps k fd fc false false false fm false false false false fa ft s₀ (State.expulsion x0 x1) := by
  unfold State.expulsion
  extract_lets +onlyGivenNames v3
  clear_value v3
  split
  · assumption
  · split
    · apply keeps_State_expel; assumption
    · apply keeps_State_sendExpel
      exact Keeps.upd ‹_› (.of (.refl _))

theorem keeps_State_addHealth {x0 : State} (x1 : Nat) (x2 : Nat) (h0 : Keeps k fd fc false false false fm false false false false fa ft s₀ x0) :
    Keeps k fd fc false false false fm false false false false fa ft s₀ (State.addHealth x0 x1 x2) := by
  unfold State.addHealth
  split
  · extract_lets +onlyGivenNames v5
    clear_value v5
    apply keeps_State_expulsion
    exact Keeps.upd ‹_› (.of (.refl _))
  · assumption

theorem keeps_State_healthOf {x0 : State} (x1 : Nat) (x2 : Option Nat) (x3 : Nat) (h0 : Keeps k fd fc false false false fm false false false false fa ft s₀ x0) :
    Keeps k fd fc false false false fm false false false false fa ft s₀ (State.healthOf x0 x1 x2 x3) := by
  unfold State.healthOf
  split
  · apply keeps_State_addHealth; assumption
  · assumption

end Sys2Proof.Machine
end

