-- ==== Sys2Proof/Laws/KeepsEngine.lean ====
section
/-!
SUPPORT. `Keeps` for the issue of instructions, the Blend, events of an Easel, the memory unit and delivery: one lemma per operation.
-/

set_option Elab.async false

namespace Sys2Proof.Machine

variable {k fd fc fe fl fb fm fh fu fy fo fa ft : Bool} {s₀ s : State}

/-! Issue -/

theorem keeps_State_stopGroup {x0 : State} (x1 : Nat) (x2 : Bool) (h0 : Keeps k fd fc false fl fb fm fh fu fy fo fa ft s₀ x0) :
    Keeps k fd fc false fl fb fm fh fu fy fo fa ft s₀ (State.stopGroup x0 x1 x2) := by
  unfold State.stopGroup
  apply Keeps.foldl
  · intro _ _ _
    apply keeps_State_modEasel; assumption
  · assumption

theorem keeps_State_engineFault {x0 : State} (x1 : Nat) (x2 : EngId) (x3 : Nat) (x4 : Nat) (x5 : Nat) (h0 : Keeps k fd fc false false false false fh fu false fo fa ft s₀ x0) :
    Keeps k fd fc false false false false fh fu false fo fa ft s₀ (State.engineFault x0 x1 x2 x3 x4 x5) := by
  unfold State.engineFault
  extract_lets +onlyGivenNames v8
  clear_value v8
  extract_lets +onlyGivenNames v9
  have h9 : Keeps k fd fc false false false false fh fu false fo fa ft s₀ v9 := by
    subst v9
    apply keeps_State_setEngine; assumption
  clear_value v9
  extract_lets +onlyGivenNames v11
  have h11 : Keeps k fd fc false false false false fh fu false fo fa ft s₀ v11 := by
    subst v11
    apply keeps_State_stopGroup
    apply keeps_State_modEasel; assumption
  clear_value v11
  extract_lets +onlyGivenNames v12
  have h12 : Keeps k fd fc false false false false fh fu false fo fa ft s₀ v12 := by
    subst v12
    apply keeps_State_noteEasel
    apply keeps_State_setHot
    apply keeps_State_setHot; assumption
  clear_value v12
  apply keeps_State_failGen
  apply keeps_State_easelFlush; assumption

theorem keeps_State_addCheck {x0 : State} (x1 : Nat) (x2 : BadCheck) (h0 : Keeps k fd fc false fl fb fm fh fu fy fo fa ft s₀ x0) :
    Keeps k fd fc false fl fb fm fh fu fy fo fa ft s₀ (State.addCheck x0 x1 x2) := by
  unfold State.addCheck
  apply keeps_State_modEasel
  apply keeps_State_stopGroup; assumption

theorem keeps_State_checkFail {x0 : State} (x1 : Nat) (x2 : Nat) (x3 : Nat) (x4 : Nat) (x5 : Nat) (x6 : Nat) (x7 : Word) (x8 : Nat) (h0 : Keeps k fd fc false fl fb fm fh fu false fo fa ft s₀ x0) :
    Keeps k fd fc false fl fb fm fh fu false fo fa ft s₀ (State.checkFail x0 x1 x2 x3 x4 x5 x6 x7 x8) := by
  unfold State.checkFail
  apply keeps_State_addCheck
  apply keeps_State_noteEasel; assumption

theorem keeps_State_sparseFail {x0 : State} (x1 : Nat) (x2 : Nat) (x3 : Nat) (x4 : Nat) (x5 : Word) (h0 : Keeps k fd fc false fl fb fm fh fu false fo fa ft s₀ x0) :
    Keeps k fd fc false fl fb fm fh fu false fo fa ft s₀ (State.sparseFail x0 x1 x2 x3 x4 x5) := by
  unfold State.sparseFail
  apply keeps_State_addCheck
  apply keeps_State_noteEasel; assumption

theorem keeps_State_applyCheck {x0 : State} (x1 : BadCheck) (h0 : Keeps k fd fc false false false false false false false false fa ft s₀ x0) :
    Keeps k fd fc false false false false false false false false fa ft s₀ (State.applyCheck x0 x1) := by
  unfold State.applyCheck
  extract_lets +onlyGivenNames v6
  clear_value v6
  split
  · apply keeps_State_failGen
    apply keeps_State_healthOf
    apply keeps_State_easelFlush; assumption
  · apply keeps_State_modGen
    apply keeps_State_healthOf
    apply keeps_State_easelFlush; assumption

theorem keeps_State_settleChecks {x0 : State} (x1 : Nat) (h0 : Keeps k fd fc false false false false false false false false fa ft s₀ x0) :
    Keeps k fd fc false false false false false false false false fa ft s₀ (State.settleChecks x0 x1) := by
  unfold State.settleChecks
  extract_lets +onlyGivenNames v5
  clear_value v5
  split
  · assumption
  · apply Keeps.foldl
    · intro _ _ _
      apply keeps_State_applyCheck; assumption
    · apply keeps_State_setEasel; assumption

theorem keeps_setFlags {x0 : State} (x1 : Nat) (x2 : EngId) (x3 : BitVec 7) (x4 : Nat) (x5 : Word) (x6 : Nat) (h0 : Keeps k fd fc false false fb fm fh fu fy fo fa ft s₀ x0) :
    Keeps k fd fc false false fb fm fh fu fy fo fa ft s₀ (setFlags x0 x1 x2 x3 x4 x5 x6) := by
  unfold setFlags
  extract_lets +onlyGivenNames v13
  have h13 : Keeps k fd fc false false fb fm fh fu fy fo fa ft s₀ v13 := by
    subst v13
    apply keeps_State_modEngine; assumption
  clear_value v13
  extract_lets +onlyGivenNames v17
  have h17 : Keeps k fd fc false false fb fm fh fu fy fo fa ft s₀ v17 := by
    subst v17
    apply Keeps.foldl
    · intro _ _ _
      split
      · apply keeps_State_setHot; assumption
      · assumption
    · assumption
  clear_value v17
  apply keeps_State_modGen; assumption

theorem keeps_State_landOne {x0 : State} (x1 : Nat) (x2 : EngId) (x3 : Landing) (h0 : Keeps k fd fc false false false false fh fu false fo fa ft s₀ x0) :
    Keeps k fd fc false false false false fh fu false fo fa ft s₀ (State.landOne x0 x1 x2 x3) := by
  unfold State.landOne
  split
  · apply keeps_State_modEngine; assumption
  · apply keeps_State_modEngine; assumption
  · apply keeps_State_modEngine; assumption
  · apply keeps_State_modEngine; assumption
  · apply keeps_State_modEngine; assumption
  · apply keeps_State_modEasel; assumption
  · apply keeps_State_modEngine; assumption
  · apply keeps_State_modEngine; assumption
  · apply keeps_setFlags; assumption
  · apply keeps_State_modEngine; assumption
  · apply keeps_State_modGen; assumption
  · apply keeps_State_checkFail; assumption
  · apply keeps_State_sparseFail; assumption
  · apply keeps_State_engineFault; assumption
  · apply keeps_State_modEngine; assumption
  · apply keeps_State_modEngine; assumption

theorem keeps_State_landEngine {x0 : State} (x1 : Nat) (x2 : EngId) (h0 : Keeps k fd fc false false false false fh fu false fo fa ft s₀ x0) :
    Keeps k fd fc false false false false fh fu false fo fa ft s₀ (State.landEngine x0 x1 x2) := by
  unfold State.landEngine
  extract_lets +onlyGivenNames v8 v9
  clear_value v8 v9
  split
  · assumption
  · extract_lets +onlyGivenNames v10
    have h10 : Keeps k fd fc false false false false fh fu false fo fa ft s₀ v10 := by
      subst v10
      apply keeps_State_setEngine; assumption
    clear_value v10
    extract_lets +onlyGivenNames v11
    have h11 : Keeps k fd fc false false false false fh fu false fo fa ft s₀ v11 := by
      subst v11
      apply keeps_State_modEasel; assumption
    clear_value v11
    apply Keeps.foldl
    · intro _ _ _
      apply keeps_State_landOne; assumption
    · assumption

theorem keeps_State_landAll {x0 : State} (h0 : Keeps k fd fc false false false false fh fu false fo fa ft s₀ x0) :
    Keeps k fd fc false false false false fh fu false fo fa ft s₀ (State.landAll x0) := by
  unfold State.landAll
  apply Keeps.foldl
  · intro _ _ _
    apply Keeps.foldl
    · intro _ _ _
      apply keeps_State_landEngine; assumption
    · assumption
  · assumption

theorem keeps_State_sched {x0 : State} (x1 : Nat) (x2 : EngId) (x3 : Nat) (x4 : Landing) (h0 : Keeps k fd fc false fl fb fm fh fu fy fo fa ft s₀ x0) :
    Keeps k fd fc false fl fb fm fh fu fy fo fa ft s₀ (State.sched x0 x1 x2 x3 x4) := by
  unfold State.sched
  apply keeps_State_modEngine; assumption

theorem keeps_State_after {x0 : State} (x1 : Nat) (x2 : EngId) (x3 : Nat) (x4 : Landing) (h0 : Keeps k fd fc false fl fb fm fh fu fy fo fa ft s₀ x0) :
    Keeps k fd fc false fl fb fm fh fu fy fo fa ft s₀ (State.after x0 x1 x2 x3 x4) := by
  unfold State.after
  apply keeps_State_sched; assumption

theorem keeps_State_raise {x0 : State} (x1 : Nat) (x2 : EngId) (x3 : Nat) (x4 : BitVec 7) (h0 : Keeps k fd fc false fl fb fm fh fu fy fo fa ft s₀ x0) :
    Keeps k fd fc false fl fb fm fh fu fy fo fa ft s₀ (State.raise x0 x1 x2 x3 x4) := by
  unfold State.raise
  extract_lets +onlyGivenNames v10
  clear_value v10
  split
  · assumption
  · apply keeps_State_after; assumption

theorem keeps_State_occupy {x0 : State} (x1 : Nat) (x2 : EngId) (x3 : UnitId) (x4 : Nat) (h0 : Keeps k fd fc false fl fb fm fh fu fy fo fa ft s₀ x0) :
    Keeps k fd fc false fl fb fm fh fu fy fo fa ft s₀ (State.occupy x0 x1 x2 x3 x4) := by
  unfold State.occupy
  apply keeps_State_modEngine; assumption

theorem keeps_illegal :
    ResKeeps k fd fc fe fl fb fm fh fu fy fo fa ft s₀ (illegal ) := by
  unfold illegal
  exact ResKeeps.fault

theorem keeps_badField :
    ResKeeps k fd fc fe fl fb fm fh fu fy fo fa ft s₀ (badField ) := by
  unfold badField
  exact ResKeeps.fault

theorem keeps_trayRange :
    ResKeeps k fd fc fe fl fb fm fh fu fy fo fa ft s₀ (trayRange ) := by
  unfold trayRange
  exact ResKeeps.fault

theorem keeps_busyFault :
    ResKeeps k fd fc fe fl fb fm fh fu fy fo fa ft s₀ (busyFault ) := by
  unfold busyFault
  exact ResKeeps.fault

theorem keeps_State_issueFault {x0 : State} (x1 : Nat) (x2 : EngId) (x3 : Nat) (x4 : Nat) (x5 : Nat) (h0 : Keeps k fd fc false false false false fh fu false fo fa ft s₀ x0) :
    Keeps k fd fc false false false false fh fu false fo fa ft s₀ (State.issueFault x0 x1 x2 x3 x4 x5) := by
  unfold State.issueFault
  apply keeps_State_modEngine
  apply keeps_State_engineFault; assumption

theorem keeps_issue {x0 : State} (x1 : Nat) (x2 : EngId) (x3 : Nat) (x4 : IWord) (x5 : State → Engine → Res) (h0 : Keeps k fd fc false false false false fh fu false fo fa ft s₀ x0)
    (h5 : ∀ y0 y1, Keeps k fd fc false false false false fh fu false fo fa ft s₀ y0 → ResKeeps k fd fc false false false false fh fu false fo fa ft s₀ (x5 y0 y1)) : OutKeeps k fd fc false false false false fh fu false fo fa ft s₀ (issue x0 x1 x2 x3 x4 x5) := by
  unfold issue
  apply keeps_onUnit
  dsimp only
  split
  · exact keeps_same h0
  · split
    · exact OutKeeps.next (keeps_State_issueFault _ _ _ _ _ h0)
    · split
      · exact OutKeeps.next (keeps_State_issueFault _ _ _ _ _ h0)
      · split
        · exact keeps_same h0
        · have h := keeps_State_setEngine x1 x2 { x0.engine x1 x2 with st := .run } h0
          split
          · exact OutKeeps.next (keeps_State_issueFault _ _ _ _ _ h)
          · exact OutKeeps.next (keeps_State_modEngine _ _ _ (h5 _ _ h _ _ ‹_›))

theorem keeps_legal (x0 : IWord) (x1 : Used) (x2 : Bool) (x3 : Res) (h3 : ResKeeps k fd fc fe fl fb fm fh fu fy fo fa ft s₀ x3) :
    ResKeeps k fd fc fe fl fb fm fh fu fy fo fa ft s₀ (legal x0 x1 x2 x3) := by
  unfold legal
  split
  · assumption
  · apply keeps_illegal

theorem keeps_State_wake {x0 : State} (x1 : Nat) (h0 : Keeps k fd fc false fl fb fm fh fu fy fo fa ft s₀ x0) :
    Keeps k fd fc false fl fb fm fh fu fy fo fa ft s₀ (State.wake x0 x1) := by
  unfold State.wake
  apply keeps_State_modEasel; assumption

theorem keeps_State_wakeBound {x0 : State} (x1 : Nat) (h0 : Keeps k fd fc false fl fb fm fh fu fy fo fa ft s₀ x0) :
    Keeps k fd fc false fl fb fm fh fu fy fo fa ft s₀ (State.wakeBound x0 x1) := by
  unfold State.wakeBound
  apply Keeps.foldl
  · intro _ _ _
    apply keeps_State_wake; assumption
  · assumption

theorem keeps_State_pushStart {x0 : State} (x1 : Nat) (x2 : EngId) (x3 : StartEntry) (h0 : Keeps k fd fc false fl fb fm fh fu fy fo fa ft s₀ x0) :
    Keeps k fd fc false fl fb fm fh fu fy fo fa ft s₀ (State.pushStart x0 x1 x2 x3) := by
  unfold State.pushStart
  apply keeps_State_wake
  apply keeps_State_modEngine; assumption

/-! Blend -/

theorem keeps_execVld (x0 : Nat) (x1 : IWord) {x2 : State} (h2 : Keeps k fd fc false false false false fh fu false fo fa ft s₀ x2) :
    OutKeeps k fd fc false false false false fh fu false fo fa ft s₀ (execVld x0 x1 x2) := by
  unfold execVld
  apply keeps_issue
  · assumption
  · intro _ _ _
    apply keeps_legal
    split
    · apply keeps_illegal
    · extract_lets +onlyGivenNames v17
      clear_value v17
      split
      · apply keeps_trayRange
      · extract_lets +onlyGivenNames v19 v20
        clear_value v19 v20
        apply ResKeeps.go
        apply keeps_State_after; assumption

theorem keeps_execVst (x0 : Nat) (x1 : IWord) {x2 : State} (h2 : Keeps k fd fc false false false false fh fu false fo fa ft s₀ x2) :
    OutKeeps k fd fc false false false false fh fu false fo fa ft s₀ (execVst x0 x1 x2) := by
  unfold execVst
  apply keeps_issue
  · assumption
  · intro _ _ _
    apply keeps_legal
    split
    · apply keeps_illegal
    · extract_lets +onlyGivenNames v4 v5
      clear_value v4 v5
      split
      · apply keeps_trayRange
      · apply ResKeeps.go
        apply keeps_State_after; assumption

theorem keeps_State_stochDraw {x0 : State} (x1 : Nat) (x2 : EngId) (x3 : Nat) (h0 : Keeps k fd fc fe false fb fm fh fu fy fo fa ft s₀ x0) :
    Keeps k fd fc fe false fb fm fh fu fy fo fa ft s₀ (State.stochDraw x0 x1 x2 x3) := by
  unfold State.stochDraw
  extract_lets +onlyGivenNames v11
  clear_value v11
  split
  · apply keeps_State_modGen
    apply keeps_State_draw; assumption
  · assumption

theorem keeps_arith {x0 : State} (x1 : Nat) (x2 : Nat) (x3 : IWord) (x4 : Used) (x5 : Bool) (x6 : Nat) (x7 : Nat) (x8 : Bool) (x9 : IWord → Nat) (x10 : Engine → Fmt → List (Val × FlagSet)) (h0 : Keeps k fd fc false false false false fh fu false fo fa ft s₀ x0) :
    OutKeeps k fd fc false false false false fh fu false fo fa ft s₀ (arith x0 x1 x2 x3 x4 x5 x6 x7 x8 x9 x10) := by
  unfold arith
  apply keeps_issue
  · assumption
  · intro _ _ _
    apply keeps_legal
    split
    · extract_lets +onlyGivenNames v12
      split
      · apply keeps_illegal
      · split
        · apply keeps_busyFault
        · split
          · apply keeps_badField
          · split
            extract_lets +onlyGivenNames v76
            have h76 : Keeps k fd fc false false false false fh fu false fo fa ft s₀ v76 := by
              subst v76
              apply keeps_State_stochDraw; assumption
            clear_value v76
            extract_lets +onlyGivenNames v77
            have h77 : Keeps k fd fc false false false false fh fu false fo fa ft s₀ v77 := by
              subst v77
              split
              · apply keeps_State_occupy; assumption
              · assumption
            clear_value v77
            extract_lets +onlyGivenNames v78
            clear_value v78
            apply ResKeeps.go
            apply keeps_State_raise
            apply keeps_State_after; assumption
    · apply keeps_illegal

theorem keeps_execVadd (x0 : Nat) (x1 : IWord) {x2 : State} (h2 : Keeps k fd fc false false false false fh fu false fo fa ft s₀ x2) :
    OutKeeps k fd fc false false false false fh fu false fo fa ft s₀ (execVadd x0 x1 x2) := by
  unfold execVadd
  apply keeps_arith; assumption

theorem keeps_execVsub (x0 : Nat) (x1 : IWord) {x2 : State} (h2 : Keeps k fd fc false false false false fh fu false fo fa ft s₀ x2) :
    OutKeeps k fd fc false false false false fh fu false fo fa ft s₀ (execVsub x0 x1 x2) := by
  unfold execVsub
  apply keeps_arith; assumption

theorem keeps_execVmul (x0 : Nat) (x1 : IWord) {x2 : State} (h2 : Keeps k fd fc false false false false fh fu false fo fa ft s₀ x2) :
    OutKeeps k fd fc false false false false fh fu false fo fa ft s₀ (execVmul x0 x1 x2) := by
  unfold execVmul
  apply keeps_arith; assumption

theorem keeps_execVfma (x0 : Nat) (x1 : IWord) {x2 : State} (h2 : Keeps k fd fc false false false false fh fu false fo fa ft s₀ x2) :
    OutKeeps k fd fc false false false false fh fu false fo fa ft s₀ (execVfma x0 x1 x2) := by
  unfold execVfma
  apply keeps_arith; assumption

theorem keeps_execVdiv (x0 : Nat) (x1 : IWord) {x2 : State} (h2 : Keeps k fd fc false false false false fh fu false fo fa ft s₀ x2) :
    OutKeeps k fd fc false false false false fh fu false fo fa ft s₀ (execVdiv x0 x1 x2) := by
  unfold execVdiv
  apply keeps_arith; assumption

theorem keeps_execVsqrt (x0 : Nat) (x1 : IWord) {x2 : State} (h2 : Keeps k fd fc false false false false fh fu false fo fa ft s₀ x2) :
    OutKeeps k fd fc false false false false fh fu false fo fa ft s₀ (execVsqrt x0 x1 x2) := by
  unfold execVsqrt
  apply keeps_arith; assumption

theorem keeps_minMaxRow {x0 : State} (x1 : Nat) (x2 : Nat) (x3 : IWord) (x4 : Bool) (h0 : Keeps k fd fc false false false false fh fu false fo fa ft s₀ x0) :
    OutKeeps k fd fc false false false false fh fu false fo fa ft s₀ (minMaxRow x0 x1 x2 x3 x4) := by
  unfold minMaxRow
  apply keeps_issue
  · assumption
  · intro _ _ _
    apply keeps_legal
    split
    · extract_lets +onlyGivenNames v4
      clear_value v4
      split
      · apply keeps_illegal
      · split
        · apply keeps_badField
        · extract_lets +onlyGivenNames v13 v14
          clear_value v13 v14
          split
          extract_lets +onlyGivenNames v16
          have h16 : Keeps k fd fc false false false false fh fu false fo fa ft s₀ v16 := by
            subst v16
            split
            · assumption
            · apply keeps_State_stochDraw; assumption
          clear_value v16
          apply ResKeeps.go
          apply keeps_State_raise
          apply keeps_State_after; assumption
    · apply keeps_illegal

theorem keeps_execVmin (x0 : Nat) (x1 : IWord) {x2 : State} (h2 : Keeps k fd fc false false false false fh fu false fo fa ft s₀ x2) :
    OutKeeps k fd fc false false false false fh fu false fo fa ft s₀ (execVmin x0 x1 x2) := by
  unfold execVmin
  apply keeps_minMaxRow; assumption

theorem keeps_execVmax (x0 : Nat) (x1 : IWord) {x2 : State} (h2 : Keeps k fd fc false false false false fh fu false fo fa ft s₀ x2) :
    OutKeeps k fd fc false false false false fh fu false fo fa ft s₀ (execVmax x0 x1 x2) := by
  unfold execVmax
  apply keeps_minMaxRow; assumption

theorem keeps_execVcvt (x0 : Nat) (x1 : IWord) {x2 : State} (h2 : Keeps k fd fc false false false false fh fu false fo fa ft s₀ x2) :
    OutKeeps k fd fc false false false false fh fu false fo fa ft s₀ (execVcvt x0 x1 x2) := by
  unfold execVcvt
  apply keeps_issue
  · assumption
  · intro _ _ _
    apply keeps_legal
    split
    · extract_lets +onlyGivenNames v6 v7 v8
      clear_value v6 v7 v8
      split
      · apply keeps_illegal
      · split
        · apply keeps_badField
        · extract_lets +onlyGivenNames v20
          clear_value v20
          split
          extract_lets +onlyGivenNames v21 v23
          clear_value v21 v23
          extract_lets +onlyGivenNames v24
          have h24 : Keeps k fd fc false false false false fh fu false fo fa ft s₀ v24 := by
            subst v24
            apply keeps_State_stochDraw; assumption
          clear_value v24
          apply ResKeeps.go
          apply keeps_State_raise
          apply keeps_State_after; assumption
    · apply keeps_illegal

theorem keeps_intRow {x0 : State} (x1 : Nat) (x2 : Nat) (x3 : IWord) (x4 : Int → Int → Int) (h0 : Keeps k fd fc false false false false fh fu false fo fa ft s₀ x0) :
    OutKeeps k fd fc false false false false fh fu false fo fa ft s₀ (intRow x0 x1 x2 x3 x4) := by
  unfold intRow
  apply keeps_issue
  · assumption
  · intro _ _ _
    apply keeps_legal
    split
    · apply keeps_illegal
    · split
      · apply keeps_illegal
      · extract_lets +onlyGivenNames v22 v23 v24 v25 v26
        clear_value v22 v23 v24 v25 v26
        apply ResKeeps.go
        apply keeps_State_raise
        apply keeps_State_after; assumption

theorem keeps_execViadd (x0 : Nat) (x1 : IWord) {x2 : State} (h2 : Keeps k fd fc false false false false fh fu false fo fa ft s₀ x2) :
    OutKeeps k fd fc false false false false fh fu false fo fa ft s₀ (execViadd x0 x1 x2) := by
  unfold execViadd
  apply keeps_intRow; assumption

theorem keeps_execVisub (x0 : Nat) (x1 : IWord) {x2 : State} (h2 : Keeps k fd fc false false false false fh fu false fo fa ft s₀ x2) :
    OutKeeps k fd fc false false false false fh fu false fo fa ft s₀ (execVisub x0 x1 x2) := by
  unfold execVisub
  apply keeps_intRow; assumption

/-! CircuitOps -/

theorem keeps_State_setCircuit {x0 : State} (x1 : Nat) (x2 : Circuit) (h0 : Keeps k fd fc fe fl false fm fh fu false fo fa ft s₀ x0) :
    Keeps k fd fc fe fl false fm fh fu false fo fa ft s₀ (State.setCircuit x0 x1 x2) := by
  unfold State.setCircuit
  split
  · apply keeps_State_noteDev; assumption
  · apply keeps_State_setFab; assumption

theorem keeps_State_freeCircuit {x0 : State} (x1 : Nat) (h0 : Keeps k fd fc fe fl false fm fh fu false fo fa ft s₀ x0) :
    Keeps k fd fc fe fl false fm fh fu false fo fa ft s₀ (State.freeCircuit x0 x1) := by
  unfold State.freeCircuit
  split
  · apply keeps_State_noteDev; assumption
  · apply keeps_State_setFab; assumption

theorem keeps_State_cctlOn {x0 : State} (x1 : Nat) (x2 : Bytes) (x3 : optParam (Option Frame) none) (h0 : Keeps k fd fc fe fl false fm fh fu false fo fa ft s₀ x0) :
    Keeps k fd fc fe fl false fm fh fu false fo fa ft s₀ (State.cctlOn x0 x1 x2 x3) := by
  unfold State.cctlOn
  split
  · apply keeps_State_privOrig; assumption
  · assumption

theorem keeps_State_tearCircuit {x0 : State} (x1 : Nat) (x2 : Option Nat) (h0 : Keeps k fd fc fe fl false fm fh fu false fo fa ft s₀ x0) :
    Keeps k fd fc fe fl false fm fh fu false fo fa ft s₀ (State.tearCircuit x0 x1 x2) := by
  unfold State.tearCircuit
  split
  · assumption
  · extract_lets +onlyGivenNames v12
    clear_value v12
    extract_lets +onlyGivenNames v13
    have h13 : Keeps k fd fc fe fl false fm fh fu false fo fa ft s₀ v13 := by
      subst v13
      apply keeps_State_freeCircuit; assumption
    clear_value v13
    extract_lets +onlyGivenNames v14
    have h14 : Keeps k fd fc fe fl false fm fh fu false fo fa ft s₀ v14 := by
      subst v14
      split
      · assumption
      · apply keeps_State_cctlOn; assumption
    clear_value v14
    split
    · assumption
    · apply keeps_State_cctlOn; assumption

theorem keeps_State_breakCircuit {x0 : State} (x1 : Nat) (h0 : Keeps k fd fc fe fl false fm fh false false fo fa ft s₀ x0) :
    Keeps k fd fc fe fl false fm fh false false fo fa ft s₀ (State.breakCircuit x0 x1) := by
  unfold State.breakCircuit
  split
  · assumption
  · extract_lets +onlyGivenNames v7
    have h7 : Keeps k fd fc fe fl false fm fh false false fo fa ft s₀ v7 := by
      subst v7
      apply keeps_State_setCircuit; assumption
    clear_value v7
    split
    · apply keeps_State_interrupt; assumption
    · apply keeps_State_cctlOn; assumption

theorem keeps_State_circuitsDown {x0 : State} (x1 : Nat) (h0 : Keeps k fd fc fe fl false fm fh false false fo fa ft s₀ x0) :
    Keeps k fd fc fe fl false fm fh false false fo fa ft s₀ (State.circuitsDown x0 x1) := by
  unfold State.circuitsDown
  apply Keeps.foldl
  · intro _ _ _
    apply keeps_State_breakCircuit; assumption
  · assumption

/-! EaselEvents -/

theorem keeps_onEasel {x0 : State} (x1 : Nat) (x2 : Bool) {x3 : State} (h0 : Keeps k fd fc fe fl fb fm fh fu fy fo fa ft s₀ x0) (h3 : Keeps k fd fc fe fl fb fm fh fu fy fo fa ft s₀ x3) :
    OutKeeps k fd fc fe fl fb fm fh fu fy fo fa ft s₀ (onEasel x0 x1 x2 x3) := by
  unfold onEasel
  apply keeps_onUnit
  apply keeps_whenP
  · assumption
  · assumption

theorem keeps_State_semAdd {x0 : State} (x1 : Nat) (x2 : Nat) (h0 : Keeps k fd fc false false false false fh fu false fo fa ft s₀ x0) :
    Keeps k fd fc false false false false fh fu false fo fa ft s₀ (State.semAdd x0 x1 x2) := by
  unfold State.semAdd
  extract_lets +onlyGivenNames v14 v15
  clear_value v14 v15
  split
  · assumption
  · extract_lets +onlyGivenNames v22
    clear_value v22
    extract_lets +onlyGivenNames v23
    have h23 : Keeps k fd fc false false false false fh fu false fo fa ft s₀ v23 := by
      subst v23
      apply keeps_State_setEasel; assumption
    clear_value v23
    split
    · apply Keeps.foldl
      · intro _ _ _
        apply keeps_State_engineFault; assumption
      · assumption
    · apply keeps_State_modEasel; assumption

theorem keeps_State_semWait {x0 : State} (x1 : Nat) (x2 : EngId) (h0 : Keeps k fd fc false fl fb fm fh fu fy fo fa ft s₀ x0) :
    Keeps k fd fc false fl fb fm fh fu fy fo fa ft s₀ (State.semWait x0 x1 x2) := by
  unfold State.semWait
  extract_lets +onlyGivenNames v9 v10
  clear_value v9 v10
  split
  · split
    · apply keeps_State_setEngine
      apply keeps_State_modEasel; assumption
    · assumption
  · assumption

theorem keeps_execSemResolve (x0 : Nat) {x1 : State} (h1 : Keeps k fd fc false false false false fh fu false fo fa ft s₀ x1) :
    OutKeeps k fd fc false false false false fh fu false fo fa ft s₀ (execSemResolve x0 x1) := by
  unfold execSemResolve
  apply keeps_onEasel
  · assumption
  · extract_lets +onlyGivenNames v12
    have h12 : Keeps k fd fc false false false false fh fu false fo fa ft s₀ v12 := by
      subst v12
      apply Keeps.foldl
      · intro _ _ _
        apply keeps_State_semAdd; assumption
      · assumption
    clear_value v12
    split
    · assumption
    · apply Keeps.foldl
      · intro _ _ _
        apply keeps_State_semWait; assumption
      · assumption

theorem keeps_State_placePush {x0 : State} (x1 : Nat) (x2 : EngId) (x3 : EngId) (h0 : Keeps k fd fc false fl fb fm fh fu fy fo fa ft s₀ x0) :
    Keeps k fd fc false fl fb fm fh fu fy fo fa ft s₀ (State.placePush x0 x1 x2 x3) := by
  unfold State.placePush
  extract_lets +onlyGivenNames v6
  clear_value v6
  split
  · extract_lets +onlyGivenNames v7
    clear_value v7
    split
    · apply keeps_State_setEngine
      apply keeps_State_setEngine; assumption
    · assumption
  · assumption

theorem keeps_State_noteToken {x0 : State} (x1 : EngId) (x2 : Engine) (x3 : DWord) (h0 : Keeps k fd fc fe false fb fm fh fu fy fo fa ft s₀ x0) :
    Keeps k fd fc fe false fb fm fh fu fy fo fa ft s₀ (State.noteToken x0 x1 x2 x3) := by
  unfold State.noteToken
  extract_lets +onlyGivenNames v11
  clear_value v11
  split
  · assumption
  · apply keeps_State_modGen; assumption

theorem keeps_State_serveTake {x0 : State} (x1 : Nat) (x2 : EngId) (h0 : Keeps k fd fc false false fb fm fh fu fy fo fa ft s₀ x0) :
    Keeps k fd fc false false fb fm fh fu fy fo fa ft s₀ (State.serveTake x0 x1 x2) := by
  unfold State.serveTake
  extract_lets +onlyGivenNames v6
  clear_value v6
  split
  · assumption
  · split
    · extract_lets +onlyGivenNames v11
      subst v11
      extract_lets +onlyGivenNames v12
      have h12 : Keeps k fd fc false false fb fm fh fu fy fo fa ft s₀ v12 := by
        subst v12
        apply keeps_State_noteToken
        apply keeps_State_setEngine; assumption
      clear_value v12
      apply keeps_State_after
      apply keeps_State_after; assumption
    · assumption

theorem keeps_execTokenQueueResolve (x0 : Nat) {x1 : State} (h1 : Keeps k fd fc false false fb fm fh fu fy fo fa ft s₀ x1) :
    OutKeeps k fd fc false false fb fm fh fu fy fo fa ft s₀ (execTokenQueueResolve x0 x1) := by
  unfold execTokenQueueResolve
  apply keeps_onEasel
  · assumption
  · apply Keeps.foldl
    · intro _ _ _
      extract_lets +onlyGivenNames v20
      have h20 : Keeps k fd fc false false fb fm fh fu fy fo fa ft s₀ v20 := by
        subst v20
        apply keeps_State_modEngine; assumption
      clear_value v20
      apply keeps_State_serveTake
      apply Keeps.foldl
      · intro _ _ _
        apply keeps_State_placePush; assumption
      · assumption
    · assumption

theorem keeps_execWaitTimeout (x0 : Nat) (x1 : EngId) {x2 : State} (h2 : Keeps k fd fc false false false false fh fu false fo fa ft s₀ x2) :
    OutKeeps k fd fc false false false false fh fu false fo fa ft s₀ (execWaitTimeout x0 x1 x2) := by
  unfold execWaitTimeout
  apply keeps_onUnit
  extract_lets +onlyGivenNames v7
  clear_value v7
  split
  · apply keeps_same; assumption
  · apply keeps_whenP
    · assumption
    · apply keeps_State_issueFault
      apply keeps_State_setEngine; assumption

theorem keeps_State_runAgain {x0 : State} (x1 : Nat) (x2 : Word) (x3 : Nat) (h0 : Keeps k fd fc false false false fm fh fu false fo fa ft s₀ x0) :
    Keeps k fd fc false false false fm fh fu false fo fa ft s₀ (State.runAgain x0 x1 x2 x3) := by
  unfold State.runAgain
  split
  · assumption
  · split
    · assumption
    · split
      · apply keeps_State_failGen; assumption
      · apply keeps_State_requestRerun; assumption

theorem keeps_execEaselReturnIdle (x0 : Nat) {x1 : State} (h1 : Keeps k fd fc false false false fm fh fu false fo fa ft s₀ x1) :
    OutKeeps k fd fc false false false fm fh fu false fo fa ft s₀ (execEaselReturnIdle x0 x1) := by
  unfold execEaselReturnIdle
  apply keeps_onEasel
  · assumption
  · extract_lets +onlyGivenNames v10 v11 v12
    clear_value v10 v11 v12
    extract_lets +onlyGivenNames v13
    have h13 : Keeps k fd fc false false false fm fh fu false fo fa ft s₀ v13 := by
      subst v13
      apply keeps_State_setEasel; assumption
    clear_value v13
    extract_lets +onlyGivenNames v14
    have h14 : Keeps k fd fc false false false fm fh fu false fo fa ft s₀ v14 := by
      subst v14
      apply Keeps.foldl
      · intro _ _ _
        apply keeps_State_freeEject; assumption
      · assumption
    clear_value v14
    apply Keeps.foldl
    · intro _ _ _
      apply keeps_State_runAgain; assumption
    · assumption

theorem keeps_State_loadEntry {x0 : State} (x1 : Nat) (x2 : EngId) (x3 : StartEntry) (x4 : Nat) (h0 : Keeps k fd fc false fl fb fm fh fu fy fo fa ft s₀ x0) :
    Keeps k fd fc false fl fb fm fh fu fy fo fa ft s₀ (State.loadEntry x0 x1 x2 x3 x4) := by
  unfold State.loadEntry
  extract_lets +onlyGivenNames v0 v1
  clear_value v0 v1
  extract_lets +onlyGivenNames v2
  have h2 : Keeps k fd fc false fl fb fm fh fu fy fo fa ft s₀ v2 := by
    subst v2
    apply keeps_State_sched
    apply keeps_State_sched; assumption
  clear_value v2
  extract_lets +onlyGivenNames v3
  have h3 : Keeps k fd fc false fl fb fm fh fu fy fo fa ft s₀ v3 := by
    subst v3
    apply Keeps.foldl
    · intro _ _ _
      apply keeps_State_sched; assumption
    · assumption
  clear_value v3
  extract_lets +onlyGivenNames v6
  have h6 : Keeps k fd fc false fl fb fm fh fu fy fo fa ft s₀ v6 := by
    subst v6
    apply Keeps.foldl
    · intro _ _ _
      apply keeps_State_sched; assumption
    · assumption
  clear_value v6
  extract_lets +onlyGivenNames v12
  clear_value v12
  split
  · apply keeps_State_modEngine
    apply keeps_State_sched
    apply keeps_State_sched; assumption
  · split
    · assumption
    · extract_lets +onlyGivenNames v21
      clear_value v21
      apply keeps_State_modEngine
      apply keeps_State_sched
      apply keeps_State_sched; assumption

theorem keeps_execStudySwitch (x0 : Nat) (x1 : EngId) {x2 : State} (h2 : Keeps k fd fc false fl fb fm fh fu fy fo fa ft s₀ x2) :
    OutKeeps k fd fc false fl fb fm fh fu fy fo fa ft s₀ (execStudySwitch x0 x1 x2) := by
  unfold execStudySwitch
  apply keeps_onUnit
  extract_lets +onlyGivenNames v26
  clear_value v26
  split
  · apply keeps_same; assumption
  · extract_lets +onlyGivenNames v27
    clear_value v27
    apply keeps_whenP
    · assumption
    · extract_lets +onlyGivenNames v28
      clear_value v28
      extract_lets +onlyGivenNames v29
      have h29 : Keeps k fd fc false fl fb fm fh fu fy fo fa ft s₀ v29 := by
        subst v29
        apply keeps_State_loadEntry
        apply keeps_State_setEngine; assumption
      clear_value v29
      split
      · assumption
      · apply keeps_State_modEasel; assumption

theorem keeps_execEaselLowPowerEntry (x0 : Nat) {x1 : State} (h1 : Keeps k fd fc false fl fb fm fh fu fy fo fa ft s₀ x1) :
    OutKeeps k fd fc false fl fb fm fh fu fy fo fa ft s₀ (execEaselLowPowerEntry x0 x1) := by
  unfold execEaselLowPowerEntry
  extract_lets +onlyGivenNames v16
  clear_value v16
  apply keeps_onEasel
  · assumption
  · apply keeps_State_setEasel; assumption

theorem keeps_execEaselWake (x0 : Nat) {x1 : State} (h1 : Keeps k fd fc false fl fb fm fh fu fy fo fa ft s₀ x1) :
    OutKeeps k fd fc false fl fb fm fh fu fy fo fa ft s₀ (execEaselWake x0 x1) := by
  unfold execEaselWake
  extract_lets +onlyGivenNames v11
  clear_value v11
  apply keeps_onEasel
  · assumption
  · apply keeps_State_setEasel; assumption

theorem keeps_execIngressStagePlace (x0 : Nat) {x1 : State} (h1 : Keeps k fd fc false false false fm fh fu false fo fa ft s₀ x1) :
    OutKeeps k fd fc false false false fm fh fu false fo fa ft s₀ (execIngressStagePlace x0 x1) := by
  unfold execIngressStagePlace
  extract_lets +onlyGivenNames v13
  clear_value v13
  split
  · apply keeps_onUnit
    apply keeps_same; assumption
  · apply keeps_onEasel
    · assumption
    · extract_lets +onlyGivenNames v15
      have h15 : Keeps k fd fc false false false fm fh fu false fo fa ft s₀ v15 := by
        subst v15
        apply keeps_State_freeEject
        apply keeps_State_setEasel; assumption
      clear_value v15
      apply keeps_State_modGen; assumption

theorem keeps_State_pushChunk {x0 : State} (x1 : Nat) (x2 : Nat) (x3 : Word) (x4 : Nat) (x5 : EngId) (h0 : Keeps k fd fc false false fb fm fh fu fy fo fa ft s₀ x0) :
    Keeps k fd fc false false fb fm fh fu fy fo fa ft s₀ (State.pushChunk x0 x1 x2 x3 x4 x5) := by
  unfold State.pushChunk
  extract_lets +onlyGivenNames v9
  clear_value v9
  split
  · assumption
  · split
    · assumption
    · extract_lets +onlyGivenNames v14 v15 v16
      clear_value v14 v15 v16
      apply keeps_State_modGen
      apply keeps_State_pushStart; assumption

theorem keeps_State_pushIntake {x0 : State} (x1 : Nat) (h0 : Keeps k fd fc false false fb fm fh fu fy fo fa ft s₀ x0) :
    Keeps k fd fc false false fb fm fh fu fy fo fa ft s₀ (State.pushIntake x0 x1) := by
  unfold State.pushIntake
  extract_lets +onlyGivenNames v12
  clear_value v12
  split
  · assumption
  · extract_lets +onlyGivenNames v13 v14 v15 v16 v17
    clear_value v13 v14 v15 v16 v17
    split
    · assumption
    · split
      · assumption
      · extract_lets +onlyGivenNames v27
        clear_value v27
        extract_lets +onlyGivenNames v28
        have h28 : Keeps k fd fc false false fb fm fh fu fy fo fa ft s₀ v28 := by
          subst v28
          apply keeps_State_setEasel; assumption
        clear_value v28
        apply keeps_State_modGen
        apply keeps_State_pushStart; assumption

theorem keeps_State_pushEmptyStep {x0 : State} (x1 : Nat) (x2 : Nat) (x3 : Word) (x4 : Nat) (x5 : Nat) (h0 : Keeps k fd fc false false fb fm fh fu fy fo fa ft s₀ x0) :
    Keeps k fd fc false false fb fm fh fu fy fo fa ft s₀ (State.pushEmptyStep x0 x1 x2 x3 x4 x5) := by
  unfold State.pushEmptyStep
  extract_lets +onlyGivenNames v7 v8 v9
  clear_value v7 v8 v9
  split
  · assumption
  · split
    · assumption
    · extract_lets +onlyGivenNames v10
      have h10 : Keeps k fd fc false false fb fm fh fu fy fo fa ft s₀ v10 := by
        subst v10
        apply keeps_State_modGen; assumption
      clear_value v10
      apply Keeps.foldl
      · intro _ _ _
        apply keeps_State_pushChunk; assumption
      · assumption

theorem keeps_State_pushEmpty {x0 : State} (x1 : Nat) (h0 : Keeps k fd fc false false fb fm fh fu fy fo fa ft s₀ x0) :
    Keeps k fd fc false false fb fm fh fu fy fo fa ft s₀ (State.pushEmpty x0 x1) := by
  unfold State.pushEmpty
  apply Keeps.foldl
  · intro _ _ _
    extract_lets +onlyGivenNames v21
    clear_value v21
    apply Keeps.foldl
    · intro _ _ _
      extract_lets +onlyGivenNames v27
      clear_value v27
      apply Keeps.foldl
      · intro _ _ _
        apply Keeps.foldl
        · intro _ _ _
          apply keeps_State_pushEmptyStep; assumption
        · assumption
      · assumption
    · assumption
  · assumption

theorem keeps_execStartEntryPush (x0 : Nat) {x1 : State} (h1 : Keeps k fd fc false false fb fm fh fu fy fo fa ft s₀ x1) :
    OutKeeps k fd fc false false fb fm fh fu fy fo fa ft s₀ (execStartEntryPush x0 x1) := by
  unfold execStartEntryPush
  extract_lets +onlyGivenNames v8
  clear_value v8
  apply keeps_onEasel
  · assumption
  · extract_lets +onlyGivenNames v9
    have h9 : Keeps k fd fc false false fb fm fh fu fy fo fa ft s₀ v9 := by
      subst v9
      apply Keeps.foldl
      · intro _ _ _
        apply Keeps.foldl
        · intro _ _ _
          apply keeps_State_pushChunk; assumption
        · assumption
      · assumption
    clear_value v9
    apply keeps_State_pushEmpty
    apply keeps_State_pushIntake; assumption

/-! MemUnit -/

theorem keeps_State_issueOp {x0 : State} (x1 : Nat) (x2 : Engine) (x3 : MemKind) (x4 : Nat) (x5 : Bool) (x6 : Nat) (x7 : Nat) (x8 : List (Nat × Nat)) (x9 : List (Nat × Bytes)) (h0 : Keeps k fd fc false fl fb false fh fu fy fo fa ft s₀ x0) :
    Keeps k fd fc false fl fb false fh fu fy fo fa ft s₀ (State.issueOp x0 x1 x2 x3 x4 x5 x6 x7 x8 x9) := by
  unfold State.issueOp
  extract_lets +onlyGivenNames v15 v16 v17
  clear_value v15 v16 v17
  apply keeps_State_access
  apply keeps_State_modEasel; assumption

theorem keeps_State_movePiece {x0 : State} (x1 : Nat) (x2 : Nat) (x3 : Nat × Nat) (h0 : Keeps k fd fc false fl fb fm fh fu fy fo fa ft s₀ x0) :
    Keeps k fd fc false fl fb fm fh fu fy fo fa ft s₀ (State.movePiece x0 x1 x2 x3) := by
  unfold State.movePiece
  apply keeps_State_modEasel; assumption

theorem keeps_State_writePiece {x0 : State} (x1 : Nat × Bytes) (h0 : Keeps k fd fc fe fl fb false fh fu fy fo fa ft s₀ x0) :
    Keeps k fd fc fe fl fb false fh fu fy fo fa ft s₀ (State.writePiece x0 x1) := by
  unfold State.writePiece
  exact Keeps.upd ‹_› (.of (.refl _))

theorem keeps_State_moveSome {x0 : State} (x1 : Nat) (x2 : Nat) (h0 : Keeps k fd fc false fl fb false fh fu fy fo fa ft s₀ x0) :
    Keeps k fd fc false fl fb false fh fu fy fo fa ft s₀ (State.moveSome x0 x1 x2) := by
  unfold State.moveSome
  split
  · assumption
  · extract_lets +onlyGivenNames v31
    clear_value v31
    extract_lets +onlyGivenNames v32
    subst v32
    extract_lets +onlyGivenNames v33 v34 v35 v36
    clear_value v33 v34 v35 v36
    extract_lets +onlyGivenNames v37
    have h37 : Keeps k fd fc false fl fb false fh fu fy fo fa ft s₀ v37 := by
      subst v37
      apply Keeps.foldl
      · intro _ _ _
        apply keeps_State_movePiece; assumption
      · assumption
    clear_value v37
    extract_lets +onlyGivenNames v41
    have h41 : Keeps k fd fc false fl fb false fh fu fy fo fa ft s₀ v41 := by
      subst v41
      apply Keeps.foldl
      · intro _ _ _
        apply keeps_State_writePiece; assumption
      · assumption
    clear_value v41
    extract_lets +onlyGivenNames v48 v49
    clear_value v48 v49
    apply keeps_State_draw
    apply keeps_State_modEasel; assumption

theorem keeps_State_moveAll {x0 : State} (h0 : Keeps k fd fc false fl fb false fh fu fy fo fa ft s₀ x0) :
    Keeps k fd fc false fl fb false fh fu fy fo fa ft s₀ (State.moveAll x0) := by
  unfold State.moveAll
  split
  · assumption
  · apply Keeps.foldl
    · intro _ _ _
      apply Keeps.foldl
      · intro _ _ _
        apply keeps_State_moveSome; assumption
      · assumption
    · assumption

theorem keeps_State_memErr {x0 : State} (x1 : MemErr) (x2 : List Nat) (h0 : Keeps k fd fc fe fl fb false fh fu false fo fa ft s₀ x0) :
    Keeps k fd fc fe fl fb false fh fu false fo fa ft s₀ (State.memErr x0 x1 x2) := by
  unfold State.memErr
  split
  · assumption
  · exact Keeps.upd ‹_› (.of (.refl _))
  · apply keeps_State_note
    exact Keeps.upd ‹_› (.of (.refl _))
  · split
    · apply keeps_State_draw
      exact Keeps.upd ‹_› (.of (.refl _))
    · assumption
  · extract_lets +onlyGivenNames v27
    have h27 : Keeps k fd fc fe fl fb false fh fu false fo fa ft s₀ v27 := by
      subst v27
      split
      · apply keeps_State_draw
        exact Keeps.upd ‹_› (.of (.refl _))
      · assumption
    clear_value v27
    apply keeps_State_note; assumption

theorem keeps_State_complete {x0 : State} (x1 : Nat) (x2 : Nat) (x3 : EngId) (x4 : Nat) (h0 : Keeps k fd fc false fl fb fm fh fu fy fo fa ft s₀ x0) :
    Keeps k fd fc false fl fb fm fh fu fy fo fa ft s₀ (State.complete x0 x1 x2 x3 x4) := by
  unfold State.complete
  apply keeps_State_modEasel; assumption

theorem keeps_State_spoil {x0 : State} (x1 : Nat) (x2 : Nat) (x3 : Nat) (h0 : Keeps k fd fc false fl fb fm fh fu fy fo fa ft s₀ x0) :
    Keeps k fd fc false fl fb fm fh fu fy fo fa ft s₀ (State.spoil x0 x1 x2 x3) := by
  unfold State.spoil
  extract_lets +onlyGivenNames v10
  clear_value v10
  apply keeps_State_draw
  apply keeps_State_modEasel; assumption

theorem keeps_completeOp {x0 : State} (x1 : Nat) (x2 : Nat) (x3 : MemKind) (x4 : MemErr) (h0 : Keeps k fd fc false fl fb false fh fu false fo fa ft s₀ x0) :
    OutKeeps k fd fc false fl fb false fh fu false fo fa ft s₀ (completeOp x0 x1 x2 x3 x4) := by
  unfold completeOp
  apply keeps_onUnit
  split
  · apply keeps_same; assumption
  · extract_lets +onlyGivenNames v18 v19
    clear_value v18 v19
    apply keeps_whenP
    · assumption
    · extract_lets +onlyGivenNames v21
      clear_value v21
      extract_lets +onlyGivenNames v22
      have h22 : Keeps k fd fc false fl fb false fh fu false fo fa ft s₀ v22 := by
        subst v22
        apply Keeps.foldl
        · intro _ _ _
          apply keeps_State_movePiece; assumption
        · assumption
      clear_value v22
      extract_lets +onlyGivenNames v35
      have h35 : Keeps k fd fc false fl fb false fh fu false fo fa ft s₀ v35 := by
        subst v35
        apply keeps_State_memErr
        apply keeps_State_modEasel; assumption
      clear_value v35
      extract_lets +onlyGivenNames v36
      clear_value v36
      split
      · apply keeps_State_checkFail
        split
        · apply keeps_State_spoil; assumption
        · assumption
      · split
        · apply keeps_State_checkFail
          apply keeps_State_spoil; assumption
        · apply keeps_State_complete
          apply Keeps.foldl
          · intro _ _ _
            apply keeps_State_writePiece; assumption
          · assumption

/-! Deliver -/

theorem keeps_State_multicast {x0 : State} (x1 : List Nat) (x2 : Nat) (x3 : Nat) (x4 : Bytes) (h0 : Keeps k fd fc fe fl false fm fh fu false fo fa ft s₀ x0) :
    Keeps k fd fc fe fl false fm fh fu false fo fa ft s₀ (State.multicast x0 x1 x2 x3 x4) := by
  unfold State.multicast
  split
  · assumption
  · split
    apply Keeps.foldl
    · intro _ _ _
      apply keeps_State_queueOrig; assumption
    · exact keeps_store_eq ‹_› ‹_›

theorem keeps_State_toRanks {x0 : State} (x1 : Nat) (x2 : Word) (x3 : Nat) (x4 : Nat) (x5 : Bytes) (x6 : List Nat) (h0 : Keeps k fd fc false false false fm fh fu false fo fa ft s₀ x0) :
    Keeps k fd fc false false false fm fh fu false fo fa ft s₀ (State.toRanks x0 x1 x2 x3 x4 x5 x6) := by
  unfold State.toRanks
  extract_lets +onlyGivenNames v22
  clear_value v22
  split
  · assumption
  · split
    · apply keeps_State_failGen; assumption
    · extract_lets +onlyGivenNames v23 v24
      clear_value v23 v24
      extract_lets +onlyGivenNames v25
      have h25 : Keeps k fd fc false false false fm fh fu false fo fa ft s₀ v25 := by
        subst v25
        apply keeps_State_multicast; assumption
      clear_value v25
      apply keeps_State_modGen; assumption

theorem keeps_State_tileTo {x0 : State} (x1 : Nat) (x2 : Word) (x3 : Nat) (x4 : Nat) (x5 : Bytes) (h0 : Keeps k fd fc fe false false fm fh fu false fo fa ft s₀ x0) :
    Keeps k fd fc fe false false fm fh fu false fo fa ft s₀ (State.tileTo x0 x1 x2 x3 x4 x5) := by
  unfold State.tileTo
  split
  · assumption
  · apply keeps_State_sendNode; assumption

theorem keeps_State_startGather {x0 : State} (x1 : Nat) (x2 : Word) (x3 : Nat) (h0 : Keeps k fd fc fe false false fm fh fu false fo fa ft s₀ x0) :
    Keeps k fd fc fe false false fm fh fu false fo fa ft s₀ (State.startGather x0 x1 x2 x3) := by
  unfold State.startGather
  extract_lets +onlyGivenNames v18
  clear_value v18
  split
  · assumption
  · extract_lets +onlyGivenNames v19
    clear_value v19
    apply Keeps.foldl
    · intro _ _ _
      apply keeps_State_tileTo
      apply keeps_State_freeHeld; assumption
    · apply keeps_State_modGen; assumption

theorem keeps_State_holdAll {x0 : State} (x1 : Nat) (x2 : Nat) (x3 : Bytes) (h0 : Keeps k fd fc fe fl false fm fh fu fy fo fa ft s₀ x0) :
    Keeps k fd fc fe fl false fm fh fu fy fo fa ft s₀ (State.holdAll x0 x1 x2 x3) := by
  unfold State.holdAll
  apply Keeps.foldl
  · intro _ _ _
    apply keeps_State_holdCells; assumption
  · assumption

theorem keeps_State_copyAt {x0 : State} (x1 : Nat) (x2 : Word) (x3 : Nat) (x4 : Nat) (x5 : Nat) (x6 : Bytes) (x7 : Option Nat) (h0 : Keeps k fd fc false false false fm fh fu false fo fa ft s₀ x0) :
    Keeps k fd fc false false false fm fh fu false fo fa ft s₀ (State.copyAt x0 x1 x2 x3 x4 x5 x6 x7) := by
  unfold State.copyAt
  extract_lets +onlyGivenNames v5
  clear_value v5
  split
  · assumption
  · split
    · assumption
    · extract_lets +onlyGivenNames v7 v8
      clear_value v7 v8
      extract_lets +onlyGivenNames v9
      have h9 : Keeps k fd fc false false false fm fh fu false fo fa ft s₀ v9 := by
        subst v9
        apply keeps_State_modGen; assumption
      clear_value v9
      extract_lets +onlyGivenNames v10
      have h10 : Keeps k fd fc false false false fm fh fu false fo fa ft s₀ v10 := by
        subst v10
        apply keeps_State_toRanks
        apply keeps_State_holdAll; assumption
      clear_value v10
      apply keeps_State_startGather
      apply Keeps.foldl
      · intro _ _ _
        apply keeps_State_tileTo; assumption
      · assumption

theorem keeps_State_runMove {x0 : State} (x1 : Nat) (x2 : Word) (x3 : Nat) (x4 : Nat) (x5 : Nat) (x6 : Bytes) (x7 : Move) (h0 : Keeps k fd fc false false false fm fh fu false fo fa ft s₀ x0) :
    Keeps k fd fc false false false fm fh fu false fo fa ft s₀ (State.runMove x0 x1 x2 x3 x4 x5 x6 x7) := by
  unfold State.runMove
  split
  · apply keeps_State_toRanks; assumption
  · apply keeps_State_tileTo; assumption
  · apply keeps_State_copyAt; assumption

theorem keeps_State_runMoves {x0 : State} (x1 : Nat) (x2 : Word) (x3 : Nat) (x4 : Nat) (x5 : Nat) (x6 : Bytes) (x7 : List Move) (h0 : Keeps k fd fc false false false fm fh fu false fo fa ft s₀ x0) :
    Keeps k fd fc false false false fm fh fu false fo fa ft s₀ (State.runMoves x0 x1 x2 x3 x4 x5 x6 x7) := by
  unfold State.runMoves
  extract_lets +onlyGivenNames v18
  clear_value v18
  extract_lets +onlyGivenNames v21
  have h21 : Keeps k fd fc false false false fm fh fu false fo fa ft s₀ v21 := by
    subst v21
    split
    · assumption
    · apply keeps_State_toRanks; assumption
  clear_value v21
  apply Keeps.foldl
  · intro _ _ _
    apply keeps_State_runMove; assumption
  · assumption

theorem keeps_State_noteSent {x0 : State} (x1 : Nat) (x2 : Word) (x3 : Nat) (x4 : Nat) (x5 : Bytes) (x6 : List Move) (h0 : Keeps k fd fc fe false fb fm fh fu fy fo fa ft s₀ x0) :
    Keeps k fd fc fe false fb fm fh fu fy fo fa ft s₀ (State.noteSent x0 x1 x2 x3 x4 x5 x6) := by
  unfold State.noteSent
  extract_lets +onlyGivenNames v12 v13
  clear_value v12 v13
  extract_lets +onlyGivenNames v14
  have h14 : Keeps k fd fc fe false fb fm fh fu fy fo fa ft s₀ v14 := by
    subst v14
    apply keeps_State_modGen; assumption
  clear_value v14
  split
  · apply keeps_State_modGen; assumption
  · assumption

theorem keeps_State_keepSent {x0 : State} (x1 : Nat) (x2 : Word) (x3 : Nat) (x4 : Nat) (x5 : Bytes) (x6 : List Move) (h0 : Keeps k fd fc fe false fb fm fh fu fy fo fa ft s₀ x0) :
    Keeps k fd fc fe false fb fm fh fu fy fo fa ft s₀ (State.keepSent x0 x1 x2 x3 x4 x5 x6) := by
  unfold State.keepSent
  extract_lets +onlyGivenNames v14
  have h14 : Keeps k fd fc fe false fb fm fh fu fy fo fa ft s₀ v14 := by
    subst v14
    apply keeps_State_noteSent; assumption
  clear_value v14
  split
  · assumption
  · apply keeps_State_modGen; assumption

theorem keeps_State_startStages {x0 : State} (x1 : Nat) (x2 : Word) (h0 : Keeps k fd fc fe false false fm fh fu false fo fa ft s₀ x0) :
    Keeps k fd fc fe false false fm fh fu false fo fa ft s₀ (State.startStages x0 x1 x2) := by
  unfold State.startStages
  extract_lets +onlyGivenNames v11
  clear_value v11
  split
  · assumption
  · extract_lets +onlyGivenNames v13
    clear_value v13
    apply Keeps.foldl
    · intro _ _ _
      apply keeps_State_tileTo
      apply keeps_State_freeHeld; assumption
    · apply keeps_State_modGen; assumption

theorem keeps_State_leaveFor {x0 : State} (x1 : Nat) (x2 : Word) (x3 : Nat) (x4 : Nat) (x5 : Nat) (x6 : Bytes) (x7 : List Move) (h0 : Keeps k fd fc false false false fm fh fu false fo fa ft s₀ x0) :
    Keeps k fd fc false false false fm fh fu false fo fa ft s₀ (State.leaveFor x0 x1 x2 x3 x4 x5 x6 x7) := by
  unfold State.leaveFor
  extract_lets +onlyGivenNames v23
  clear_value v23
  split
  · assumption
  · extract_lets +onlyGivenNames v24 v25
    clear_value v24 v25
    extract_lets +onlyGivenNames v26
    have h26 : Keeps k fd fc false false false fm fh fu false fo fa ft s₀ v26 := by
      subst v26
      split
      · assumption
      · apply keeps_State_holdAll
        apply keeps_State_modGen; assumption
    clear_value v26
    apply keeps_State_startStages
    apply keeps_State_runMoves; assumption

theorem keeps_State_startAll {x0 : State} (h0 : Keeps k fd fc fe false false fm fh fu false fo fa ft s₀ x0) :
    Keeps k fd fc fe false false fm fh fu false fo fa ft s₀ (State.startAll x0) := by
  unfold State.startAll
  apply Keeps.foldl
  · intro _ _ _
    apply Keeps.foldl
    · intro _ _ _
      apply keeps_State_startStages; assumption
    · assumption
  · assumption

theorem keeps_State_leaveEgress {x0 : State} (x1 : Nat) (x2 : OutTile) (x3 : List OutTile) (h0 : Keeps k fd fc false fl fb fm fh fu fy fo fa ft s₀ x0) :
    Keeps k fd fc false fl fb fm fh fu fy fo fa ft s₀ (State.leaveEgress x0 x1 x2 x3) := by
  unfold State.leaveEgress
  apply keeps_State_complete
  apply keeps_State_modEasel; assumption

theorem keeps_execSendCompletion (x0 : Nat) {x1 : State} (h1 : Keeps k fd fc false false false fm fh fu false fo fa ft s₀ x1) :
    OutKeeps k fd fc false false false fm fh fu false fo fa ft s₀ (execSendCompletion x0 x1) := by
  unfold execSendCompletion
  apply keeps_onUnit
  split
  · apply keeps_same; assumption
  · split
    · apply keeps_same; assumption
    · extract_lets +onlyGivenNames v32 v34
      clear_value v32 v34
      split
      · apply OutKeeps.next
        apply keeps_State_leaveEgress; assumption
      · split
        · apply OutKeeps.next
          apply keeps_State_leaveEgress; assumption
        · extract_lets +onlyGivenNames v47 v48 v52
          clear_value v47 v48 v52
          split
          · apply OutKeeps.next
            apply keeps_State_failGen
            apply keeps_State_leaveEgress; assumption
          · split
            · apply OutKeeps.next
              apply keeps_State_keepSent
              apply keeps_State_leaveEgress; assumption
            · split
              · apply keeps_same; assumption
              · apply OutKeeps.next
                apply keeps_State_leaveFor
                apply keeps_State_noteSent
                apply keeps_State_leaveEgress; assumption

end Sys2Proof.Machine
end

