-- ==== Sys2Proof/Laws/KeepsColl.lean ====
section
/-!
SUPPORT. `Keeps` for collectives, images, replay and host commands: one lemma per operation.
-/

set_option Elab.async false

namespace Sys2Proof.Machine

variable {k fd fc fe fl fb fm fh fu fy fo fa ft : Bool} {s₀ s : State}

/-! Hairline -/

theorem keeps_State_setAccum {x0 : State} (x1 : Accum) (h0 : Keeps k fd fc fe false fb fm fh fu fy fo fa ft s₀ x0) :
    Keeps k fd fc fe false fb fm fh fu fy fo fa ft s₀ (State.setAccum x0 x1) := by
  unfold State.setAccum
  exact Keeps.upd ‹_› (.of (.refl _))

theorem keeps_State_takeAccums {x0 : State} (x1 : Nat) (x2 : Word) (h0 : Keeps k fd fc fe false fb fm fh fu fy fo fa ft s₀ x0) :
    Keeps k fd fc fe false fb fm fh fu fy fo fa ft s₀ (State.takeAccums x0 x1 x2) := by
  unfold State.takeAccums
  extract_lets +onlyGivenNames v15
  clear_value v15
  split
  · assumption
  · split
    · assumption
    · exact Keeps.upd ‹_› (.of (.refl _))

theorem keeps_State_clearAccums {x0 : State} (x1 : Nat) (x2 : Word) (h0 : Keeps k fd fc fe false fb fm fh fu fy fo fa ft s₀ x0) :
    Keeps k fd fc fe false fb fm fh fu fy fo fa ft s₀ (State.clearAccums x0 x1 x2) := by
  unfold State.clearAccums
  exact Keeps.upd ‹_› (.of (.refl _))

theorem keeps_State_hairSend {x0 : State} (x1 : Nat) (x2 : Word) (x3 : Nat) (h0 : Keeps k fd fc false false false fm fh fu false fo fa ft s₀ x0) :
    Keeps k fd fc false false false fm fh fu false fo fa ft s₀ (State.hairSend x0 x1 x2 x3) := by
  unfold State.hairSend
  extract_lets +onlyGivenNames v38
  clear_value v38
  split
  · extract_lets +onlyGivenNames v39 v40
    clear_value v39 v40
    split
    · assumption
    · split
      · split
        · assumption
        · extract_lets +onlyGivenNames v93
          have h93 : Keeps k fd fc false false false fm fh fu false fo fa ft s₀ v93 := by
            subst v93
            apply keeps_State_setAccum; assumption
          clear_value v93
          apply keeps_State_runMoves
          split
          · apply keeps_State_modGen; assumption
          · assumption
      · split
        · apply keeps_State_setAccum; assumption
        · extract_lets +onlyGivenNames v99
          clear_value v99
          split
          · assumption
          · split
            · apply keeps_State_failGen; assumption
            · extract_lets +onlyGivenNames v100
              have h100 : Keeps k fd fc false false false fm fh fu false fo fa ft s₀ v100 := by
                subst v100
                apply keeps_State_modGen
                apply keeps_State_setAccum; assumption
              clear_value v100
              extract_lets +onlyGivenNames v101
              have h101 : Keeps k fd fc false false false fm fh fu false fo fa ft s₀ v101 := by
                subst v101
                split
                · apply keeps_State_draw; assumption
                · assumption
              clear_value v101
              split
              · extract_lets +onlyGivenNames v102
                have h102 : Keeps k fd fc false false false fm fh fu false fo fa ft s₀ v102 := by
                  subst v102
                  apply keeps_State_modGen; assumption
                clear_value v102
                apply keeps_State_tileTo
                apply keeps_State_modGen; assumption
              · apply keeps_State_runMoves; assumption
  · assumption

theorem keeps_State_hairPump {x0 : State} (x1 : Nat) (x2 : Word) (h0 : Keeps k fd fc false false false fm fh fu false fo fa ft s₀ x0) :
    Keeps k fd fc false false false fm fh fu false fo fa ft s₀ (State.hairPump x0 x1 x2) := by
  unfold State.hairPump
  apply Keeps.foldl
  · intro _ _ _
    apply keeps_State_hairSend; assumption
  · assumption

theorem keeps_State_hairAdd {x0 : State} (x1 : Nat) (x2 : Word) (x3 : Nat) (x4 : Bytes) (h0 : Keeps k fd fc false false false fm fh fu false fo fa ft s₀ x0) :
    Keeps k fd fc false false false fm fh fu false fo fa ft s₀ (State.hairAdd x0 x1 x2 x3 x4) := by
  unfold State.hairAdd
  extract_lets +onlyGivenNames v15
  clear_value v15
  split
  · assumption
  · extract_lets +onlyGivenNames v17
    clear_value v17
    split
    · assumption
    · split
      · assumption
      · split
        · split
          · apply keeps_State_failGen; assumption
          · apply keeps_State_modGen
            apply keeps_State_setAccum; assumption
        · extract_lets +onlyGivenNames v29
          have h29 : Keeps k fd fc false false false fm fh fu false fo fa ft s₀ v29 := by
            subst v29
            apply keeps_State_setAccum; assumption
          clear_value v29
          split
          · assumption
          · apply keeps_State_modGen; assumption

theorem keeps_State_hairTile {x0 : State} (x1 : Nat) (x2 : Word) (x3 : Nat) (x4 : Bytes) (x5 : Nat) (h0 : Keeps k fd fc false false false fm fh fu false fo fa ft s₀ x0) :
    Keeps k fd fc false false false fm fh fu false fo fa ft s₀ (State.hairTile x0 x1 x2 x3 x4 x5) := by
  unfold State.hairTile
  extract_lets +onlyGivenNames v16
  clear_value v16
  split
  · assumption
  · extract_lets +onlyGivenNames v17 v19 v20
    clear_value v17 v19 v20
    split
    · assumption
    · split
      · extract_lets +onlyGivenNames v44
        clear_value v44
        split
        · apply keeps_State_hairPump
          apply keeps_State_modGen
          apply keeps_State_setAccum; assumption
        · split
          · apply keeps_State_failGen; assumption
          · apply keeps_State_hairPump
            apply keeps_State_modGen
            apply keeps_State_setAccum; assumption
      · split
        · assumption
        · split
          · split
            · extract_lets +onlyGivenNames v49
              clear_value v49
              apply keeps_State_copyAt
              apply keeps_State_modGen; assumption
            · assumption
          · split
            · apply keeps_State_toRanks; assumption
            · assumption

theorem keeps_hairTakeGo (x0 : Nat) (x1 : Word) (x2 : Nat) {x3 : State} (h3 : Keeps k fd fc false false false fm fh fu false fo fa ft s₀ x3) :
    Keeps k fd fc false false false fm fh fu false fo fa ft s₀ (hairTakeGo x0 x1 x2 x3) := by
  unfold hairTakeGo
  split
  · assumption
  · split
    · assumption
    · extract_lets +onlyGivenNames v32
      subst v32
      extract_lets +onlyGivenNames v37
      have h37 : Keeps k fd fc false false false fm fh fu false fo fa ft s₀ v37 := by
        subst v37
        apply keeps_State_freeEject
        apply keeps_State_setFab; assumption
      clear_value v37
      apply keeps_hairTakeGo
      split
      · apply keeps_State_noteDev; assumption
      · apply keeps_State_hairTile; assumption

theorem keeps_State_hairTake {x0 : State} (x1 : Nat) (x2 : Word) (h0 : Keeps k fd fc false false false fm fh fu false fo fa ft s₀ x0) :
    Keeps k fd fc false false false fm fh fu false fo fa ft s₀ (State.hairTake x0 x1 x2) := by
  unfold State.hairTake
  extract_lets +onlyGivenNames v29
  have h29 : Keeps k fd fc false false false fm fh fu false fo fa ft s₀ v29 := by
    subst v29
    apply keeps_State_takeAccums; assumption
  clear_value v29
  split
  · assumption
  · split
    · assumption
    · apply keeps_hairTakeGo; assumption

/-! Stage -/

theorem keeps_State_popFront {x0 : State} (x1 : Nat) (x2 : Nat) (h0 : Keeps k fd fc fe fl false fm fh fu fy fo fa ft s₀ x0) :
    Keeps k fd fc fe fl false fm fh fu fy fo fa ft s₀ (State.popFront x0 x1 x2) := by
  unfold State.popFront
  split
  · assumption
  · apply keeps_State_setFab; assumption

theorem keeps_State_consume {x0 : State} (x1 : Arrived) (h0 : Keeps k fd fc fe fl false fm fh fu false fo fa ft s₀ x0) :
    Keeps k fd fc fe fl false fm fh fu false fo fa ft s₀ (State.consume x0 x1) := by
  unfold State.consume
  apply keeps_State_freeEject
  apply keeps_State_popFront; assumption

theorem keeps_onMessage (x0 : Nat) (x1 : Nat) (x2 : Nat) {x3 : State} (x4 : Arrived → State → State) (h3 : Keeps k fd fc fe fl false fm fh fu false fo fa ft s₀ x3)
    (h4 : ∀ y0 y1, Keeps k fd fc fe fl false fm fh fu false fo fa ft s₀ y1 → Keeps k fd fc fe fl false fm fh fu false fo fa ft s₀ (x4 y0 y1)) : OutKeeps k fd fc fe fl false fm fh fu false fo fa ft s₀ (onMessage x0 x1 x2 x3 x4) := by
  unfold onMessage
  split
  · exact keeps_same h3
  · exact keeps_whenP _ h3 (h4 _ _ (keeps_State_consume _ h3))

theorem keeps_State_notLost {x0 : State} (x1 : Nat) (x2 : Nat) {x3 : State} (h0 : Keeps k fd fc fe fl fb fm fh fu false fo fa ft s₀ x0) (h3 : Keeps k fd fc fe fl fb fm fh fu false fo fa ft s₀ x3) :
    Keeps k fd fc fe fl fb fm fh fu false fo fa ft s₀ (State.notLost x0 x1 x2 x3) := by
  unfold State.notLost
  split
  · apply keeps_State_noteCtx; assumption
  · assumption

theorem keeps_State_sendChecks {x0 : State} (x1 : Nat) (h0 : Keeps k fd fc fe false false fm fh fu false fo fa ft s₀ x0) :
    Keeps k fd fc fe false false fm fh fu false fo fa ft s₀ (State.sendChecks x0 x1) := by
  unfold State.sendChecks
  extract_lets +onlyGivenNames v16 v17
  clear_value v16 v17
  apply Keeps.foldl
  · intro _ _ _
    apply keeps_State_originate; assumption
  · apply keeps_State_setCtx; assumption

theorem keeps_State_releaseHeld {x0 : State} (x1 : Nat) (x2 : Nat) (h0 : Keeps k fd fc fe false false fm fh fu false fo fa ft s₀ x0) :
    Keeps k fd fc fe false false fm fh fu false fo fa ft s₀ (State.releaseHeld x0 x1 x2) := by
  unfold State.releaseHeld
  extract_lets +onlyGivenNames v11
  clear_value v11
  apply Keeps.foldl
  · intro _ _ _
    apply keeps_State_originate
    apply keeps_State_freeHolds; assumption
  · apply keeps_State_setCtx; assumption

theorem keeps_execStageCheck (x0 : Nat) {x1 : State} (h1 : Keeps k fd fc fe false false fm fh fu false fo fa ft s₀ x1) :
    OutKeeps k fd fc fe false false fm fh fu false fo fa ft s₀ (execStageCheck x0 x1) := by
  unfold execStageCheck
  apply keeps_onMessage
  · assumption
  · intro _ _ _
    extract_lets +onlyGivenNames v43 v44 v45
    clear_value v43 v44 v45
    apply keeps_State_notLost
    · assumption
    · split
      · assumption
      · extract_lets +onlyGivenNames v47
        have h47 : Keeps k fd fc fe false false fm fh fu false fo fa ft s₀ v47 := by
          subst v47
          apply keeps_State_setCtx; assumption
        clear_value v47
        extract_lets +onlyGivenNames v50
        clear_value v50
        split
        · apply keeps_State_releaseHeld
          apply keeps_State_setCtx; assumption
        · apply keeps_State_noteCtx
          apply keeps_State_setCtx; assumption

theorem keeps_execCheckResendTimer (x0 : Nat) {x1 : State} (h1 : Keeps k fd fc fe false false fm fh fu false fo fa ft s₀ x1) :
    OutKeeps k fd fc fe false false fm fh fu false fo fa ft s₀ (execCheckResendTimer x0 x1) := by
  unfold execCheckResendTimer
  extract_lets +onlyGivenNames v24
  clear_value v24
  apply keeps_whenP
  · assumption
  · apply keeps_State_sendChecks; assumption

theorem keeps_State_learn {x0 : State} (x1 : Nat) (x2 : Word) (x3 : Fields) (h0 : Keeps k fd fc false false false fm fh fu false fo fa ft s₀ x0) :
    Keeps k fd fc false false false fm fh fu false fo fa ft s₀ (State.learn x0 x1 x2 x3) := by
  unfold State.learn
  extract_lets +onlyGivenNames v16
  clear_value v16
  split
  · split
    · apply keeps_State_hairTake
      apply keeps_State_modGen; assumption
    · assumption
  · split
    · assumption
    · extract_lets +onlyGivenNames v18
      clear_value v18
      apply keeps_State_takeAccums
      apply keeps_State_setCtx; assumption

theorem keeps_State_takeVerdict {x0 : State} (x1 : Nat) (x2 : Word) (x3 : Nat) (x4 : Fields) (x5 : Nat) (h0 : Keeps k fd fc false false false fm fh fu false fo fa ft s₀ x0) :
    Keeps k fd fc false false false fm fh fu false fo fa ft s₀ (State.takeVerdict x0 x1 x2 x3 x4 x5) := by
  unfold State.takeVerdict
  extract_lets +onlyGivenNames v18
  clear_value v18
  split
  · assumption
  · extract_lets +onlyGivenNames v21
    have h21 : Keeps k fd fc false false false fm fh fu false fo fa ft s₀ v21 := by
      subst v21
      split
      · assumption
      · apply keeps_State_modGen; assumption
    clear_value v21
    split
    · split
      · assumption
      · split
        · apply keeps_State_failGen; assumption
        · split
          · apply keeps_State_failGen; assumption
          · apply keeps_State_modGen; assumption
    · extract_lets +onlyGivenNames v50
      have h50 : Keeps k fd fc false false false fm fh fu false fo fa ft s₀ v50 := by
        subst v50
        apply keeps_State_failQuiet; assumption
      clear_value v50
      split
      · apply keeps_State_modGen; assumption
      · assumption

theorem keeps_State_sendVerdict {x0 : State} (x1 : Nat) (x2 : Word) (x3 : Nat) (x4 : Fields) (h0 : Keeps k fd fc false false false fm fh fu false fo fa ft s₀ x0) :
    Keeps k fd fc false false false fm fh fu false fo fa ft s₀ (State.sendVerdict x0 x1 x2 x3 x4) := by
  unfold State.sendVerdict
  extract_lets +onlyGivenNames v17 v18
  clear_value v17 v18
  apply keeps_State_takeVerdict
  apply keeps_State_downTree; assumption

theorem keeps_State_sumNode {x0 : State} (x1 : Nat) (x2 : Word) (x3 : Nat) (h0 : Keeps k fd fc false false false fm fh fu false fo fa ft s₀ x0) :
    Keeps k fd fc false false false fm fh fu false fo fa ft s₀ (State.sumNode x0 x1 x2 x3) := by
  unfold State.sumNode
  extract_lets +onlyGivenNames v30
  clear_value v30
  split
  · assumption
  · extract_lets +onlyGivenNames v31 v32 v33
    clear_value v31 v32 v33
    split
    · assumption
    · extract_lets +onlyGivenNames v38 v39
      clear_value v38 v39
      split
      · assumption
      · extract_lets +onlyGivenNames v42 v44
        clear_value v42 v44
        extract_lets +onlyGivenNames v45
        have h45 : Keeps k fd fc false false false fm fh fu false fo fa ft s₀ v45 := by
          subst v45
          apply keeps_State_modGen; assumption
        clear_value v45
        split
        · apply keeps_State_toNode; assumption
        · split
          · apply keeps_State_sendVerdict; assumption
          · split
            · assumption
            · apply keeps_State_sendVerdict; assumption

theorem keeps_State_pumpSummary {x0 : State} (x1 : Nat) (x2 : Word) (h0 : Keeps k fd fc false false false fm fh fu false fo fa ft s₀ x0) :
    Keeps k fd fc false false false fm fh fu false fo fa ft s₀ (State.pumpSummary x0 x1 x2) := by
  unfold State.pumpSummary
  apply Keeps.foldl
  · intro _ _ _
    apply keeps_State_sumNode; assumption
  · assumption

theorem keeps_execSummary (x0 : Nat) {x1 : State} (h1 : Keeps k fd fc false false false fm fh fu false fo fa ft s₀ x1) :
    OutKeeps k fd fc false false false fm fh fu false fo fa ft s₀ (execSummary x0 x1) := by
  unfold execSummary
  apply keeps_onMessage
  · assumption
  · intro _ _ _
    extract_lets +onlyGivenNames v30 v31 v32
    clear_value v30 v31 v32
    apply keeps_State_notLost
    · assumption
    · split
      · assumption
      · extract_lets +onlyGivenNames v35
        have h35 : Keeps k fd fc false false false fm fh fu false fo fa ft s₀ v35 := by
          subst v35
          apply keeps_State_learn; assumption
        clear_value v35
        extract_lets +onlyGivenNames v36
        clear_value v36
        split
        · assumption
        · extract_lets +onlyGivenNames v37
          clear_value v37
          split
          · assumption
          · split
            · assumption
            · apply keeps_State_pumpSummary
              apply keeps_State_modGen; assumption

theorem keeps_execVerdict (x0 : Nat) {x1 : State} (h1 : Keeps k fd fc false false false fm fh fu false fo fa ft s₀ x1) :
    OutKeeps k fd fc false false false fm fh fu false fo fa ft s₀ (execVerdict x0 x1) := by
  unfold execVerdict
  apply keeps_onMessage
  · assumption
  · intro _ _ _
    extract_lets +onlyGivenNames v10 v11 v12 v13
    clear_value v10 v11 v12 v13
    apply keeps_State_notLost
    · assumption
    · split
      · assumption
      · extract_lets +onlyGivenNames v18
        have h18 : Keeps k fd fc false false false fm fh fu false fo fa ft s₀ v18 := by
          subst v18
          apply keeps_State_learn; assumption
        clear_value v18
        split
        · apply keeps_State_downTree; assumption
        · split
          · assumption
          · apply keeps_State_wakeBound
            apply keeps_State_takeVerdict
            apply keeps_State_downTree; assumption

theorem keeps_execFail (x0 : Nat) {x1 : State} (h1 : Keeps k fd fc false false false fm fh fu false fo fa ft s₀ x1) :
    OutKeeps k fd fc false false false fm fh fu false fo fa ft s₀ (execFail x0 x1) := by
  unfold execFail
  apply keeps_onMessage
  · assumption
  · intro _ _ _
    extract_lets +onlyGivenNames v24 v26 v27
    clear_value v24 v26 v27
    apply keeps_State_notLost
    · assumption
    · split
      · assumption
      · extract_lets +onlyGivenNames v49
        clear_value v49
        split
        · extract_lets +onlyGivenNames v50
          have h50 : Keeps k fd fc false false false fm fh fu false fo fa ft s₀ v50 := by
            subst v50
            apply keeps_State_learn; assumption
          clear_value v50
          split
          · apply keeps_State_downTree; assumption
          · split
            · assumption
            · apply keeps_State_sendVerdict; assumption
        · split
          · apply keeps_State_toNode; assumption
          · assumption

theorem keeps_execPoseRelease (x0 : Nat) (x1 : Word) {x2 : State} (h2 : Keeps k fd fc false false fb fm fh fu fy fo fa ft s₀ x2) :
    OutKeeps k fd fc false false fb fm fh fu fy fo fa ft s₀ (execPoseRelease x0 x1 x2) := by
  unfold execPoseRelease
  extract_lets +onlyGivenNames v18
  clear_value v18
  split
  · apply keeps_same; assumption
  · apply keeps_whenP
    · assumption
    · extract_lets +onlyGivenNames v19
      clear_value v19
      apply keeps_State_modGen
      apply Keeps.foldl
      · intro _ _ _
        apply Keeps.foldl
        · intro _ _ _
          apply keeps_State_pushStart; assumption
        · assumption
      · assumption

/-! Collect -/

theorem keeps_State_setEnter {x0 : State} (x1 : Nat) (x2 : Nat) (x3 : Option (Nat × Word × Nat)) (h0 : Keeps k fd fc fe fl false fm fh fu fy fo fa ft s₀ x0) :
    Keeps k fd fc fe fl false fm fh fu fy fo fa ft s₀ (State.setEnter x0 x1 x2 x3) := by
  unfold State.setEnter
  extract_lets +onlyGivenNames v15
  clear_value v15
  apply keeps_State_setFlow; assumption

theorem keeps_State_fencedFrame {x0 : State} (x1 : Nat) (x2 : Nat) (x3 : Word) (x4 : Nat) (x5 : Nat) (h0 : Keeps k fd fc fe false false fm fh fu false fo fa ft s₀ x0) :
    Keeps k fd fc fe false false fm fh fu false fo fa ft s₀ (State.fencedFrame x0 x1 x2 x3 x4 x5) := by
  unfold State.fencedFrame
  extract_lets +onlyGivenNames v42
  subst v42
  extract_lets +onlyGivenNames v46
  have h46 : Keeps k fd fc fe false false fm fh fu false fo fa ft s₀ v46 := by
    subst v46
    split
    · assumption
    · apply keeps_State_noteCtx
      exact Keeps.upd ‹_› (.of (.refl _))
  clear_value v46
  split
  · assumption
  · apply keeps_State_sendFenced; assumption

theorem keeps_begun (x0 : State) (a c : Nat) (num : Word) (hdr : Bytes) (caps : List Capture) (f : Gen → Gen) (h0 : Keeps k fd fc fe false fb false fh fu fy fo fa ft s₀ x0) :
    Keeps k fd fc fe false fb false fh fu fy fo fa ft s₀ (({ x0.putMem a hdr with coll := { x0.coll with armed := none, captures := x0.coll.captures ++ caps } } : State).modGen c num f) := by
  have h1 := keeps_State_putMem a hdr h0
  generalize x0.putMem a hdr = s1 at h1 ⊢
  exact keeps_State_modGen _ _ _ h1.of

theorem keeps_State_beginCapture {x0 : State} (x1 : Nat) (x2 : Word) (h0 : Keeps k fd fc fe false fb false fh fu fy fo fa ft s₀ x0) : Keeps k fd fc fe false fb false fh fu fy fo fa ft s₀ (x0.beginCapture x1 x2) := by
  unfold State.beginCapture
  split
  · exact h0
  · split
    · exact h0
    · exact keeps_begun _ _ _ _ _ _ _ h0

theorem keeps_State_accept {x0 : State} (x1 : Nat) (x2 : Word) (x3 : Entered) (x4 : Option Bytes) (h0 : Keeps k fd fc false false false false fh fu false fo fa ft s₀ x0) :
    Keeps k fd fc false false false false fh fu false fo fa ft s₀ (State.accept x0 x1 x2 x3 x4) := by
  unfold State.accept
  extract_lets +onlyGivenNames v27 v28 v30 v32 v33 v34
  clear_value v27 v28 v30 v32 v33 v34
  extract_lets +onlyGivenNames v35
  have h35 : Keeps k fd fc false false false false fh fu false fo fa ft s₀ v35 := by
    subst v35
    apply keeps_State_setCtx; assumption
  clear_value v35
  extract_lets +onlyGivenNames v36
  subst v36
  extract_lets +onlyGivenNames v41
  have h41 : Keeps k fd fc false false false false fh fu false fo fa ft s₀ v41 := by
    subst v41
    split
    · apply keeps_State_beginCapture
      exact Keeps.upd ‹_› (.of (.refl _))
    · assumption
  clear_value v41
  extract_lets +onlyGivenNames v42
  have h42 : Keeps k fd fc false false false false fh fu false fo fa ft s₀ v42 := by
    subst v42
    split
    · apply keeps_State_failGen; assumption
    · assumption
  clear_value v42
  extract_lets +onlyGivenNames v43
  have h43 : Keeps k fd fc false false false false fh fu false fo fa ft s₀ v43 := by
    subst v43
    split
    · apply keeps_State_mismatch; assumption
    · assumption
  clear_value v43
  extract_lets +onlyGivenNames v45
  have h45 : Keeps k fd fc false false false false fh fu false fo fa ft s₀ v45 := by
    subst v45
    split
    · apply keeps_State_failGen; assumption
    · assumption
  clear_value v45
  extract_lets +onlyGivenNames v46
  extract_lets +onlyGivenNames v47
  have h47 : Keeps k fd fc false false false false fh fu false fo fa ft s₀ v47 := by
    subst v47
    apply keeps_State_takeAccums; assumption
  clear_value v47
  extract_lets +onlyGivenNames v48
  have h48 : Keeps k fd fc false false false false fh fu false fo fa ft s₀ v48 := by
    subst v48
    split
    · split
      · apply keeps_State_hairTake
        apply keeps_State_hairPump
        apply keeps_State_hairAdd; assumption
      · assumption
    · assumption
  clear_value v48
  apply keeps_State_pumpSummary; assumption

theorem keeps_State_settleEnter {x0 : State} (x1 : Nat) (x2 : Nat) (x3 : Bytes) (h0 : Keeps k fd fc false false false false false false false false fa ft s₀ x0) :
    Keeps k fd fc false false false false false false false false fa ft s₀ (State.settleEnter x0 x1 x2 x3) := by
  unfold State.settleEnter
  extract_lets +onlyGivenNames v19 v20 v21 v22
  clear_value v19 v20 v21 v22
  split
  · extract_lets +onlyGivenNames v23
    have h23 : Keeps k fd fc false false false false false false false false fa ft s₀ v23 := by
      subst v23
      apply keeps_State_setEnter
      apply keeps_State_enterAck; assumption
    clear_value v23
    extract_lets +onlyGivenNames v25
    have h25 : Keeps k fd fc false false false false false false false false fa ft s₀ v25 := by
      subst v25
      split
      · apply keeps_State_addHealth; assumption
      · assumption
    clear_value v25
    split
    · apply keeps_State_fencedFrame; assumption
    · assumption
  · extract_lets +onlyGivenNames v27
    have h27 : Keeps k fd fc false false false false false false false false fa ft s₀ v27 := by
      subst v27
      apply keeps_State_setEnter
      apply keeps_State_enterAck; assumption
    clear_value v27
    split
    · apply keeps_State_hairTake
      apply keeps_State_hairPump
      apply keeps_State_hairAdd; assumption
    · assumption
  · extract_lets +onlyGivenNames v31
    have h31 : Keeps k fd fc false false false false false false false false fa ft s₀ v31 := by
      subst v31
      apply keeps_State_setEnter
      apply keeps_State_enterAck; assumption
    clear_value v31
    apply keeps_State_wakeBound
    apply keeps_State_accept; assumption

theorem keeps_State_takeEnter {x0 : State} (x1 : Arrived) (h0 : Keeps k fd fc false false false false false false false false fa ft s₀ x0) :
    Keeps k fd fc false false false false false false false false fa ft s₀ (State.takeEnter x0 x1) := by
  unfold State.takeEnter
  split
  · apply keeps_State_modCtx
    apply keeps_State_popFront; assumption
  · apply keeps_State_settleEnter
    apply keeps_State_consume; assumption

theorem keeps_execEnter (x0 : Nat) (x1 : Nat) {x2 : State} (h2 : Keeps k fd fc false false false false false false false false fa ft s₀ x2) :
    OutKeeps k fd fc false false false false false false false false fa ft s₀ (execEnter x0 x1 x2) := by
  unfold execEnter
  split
  · apply keeps_same; assumption
  · apply keeps_whenP
    · assumption
    · apply keeps_State_takeEnter; assumption

theorem keeps_execHairlineEnter (x0 : Nat) {x1 : State} (h1 : Keeps k fd fc false false false false false false false false fa ft s₀ x1) :
    OutKeeps k fd fc false false false false false false false false fa ft s₀ (execHairlineEnter x0 x1) := by
  unfold execHairlineEnter
  split
  · apply keeps_same; assumption
  · apply keeps_whenP
    · assumption
    · apply keeps_State_takeEnter; assumption

theorem keeps_execEnterWaitRelease (x0 : Nat) {x1 : State} (h1 : Keeps k fd fc false false false false false false false false fa ft s₀ x1) :
    OutKeeps k fd fc false false false false false false false false fa ft s₀ (execEnterWaitRelease x0 x1) := by
  unfold execEnterWaitRelease
  extract_lets +onlyGivenNames v14
  clear_value v14
  split
  · apply keeps_same; assumption
  · apply keeps_whenP
    · assumption
    · apply keeps_State_settleEnter
      apply keeps_State_freeEject
      apply keeps_State_setCtx; assumption

theorem keeps_State_noteInput {x0 : State} (x1 : Nat) (x2 : Word) (x3 : Nat) (x4 : Nat) (x5 : Nat) (x6 : Bytes) (h0 : Keeps k fd fc fe false fb fm fh fu fy fo fa ft s₀ x0) :
    Keeps k fd fc fe false fb fm fh fu fy fo fa ft s₀ (State.noteInput x0 x1 x2 x3 x4 x5 x6) := by
  unfold State.noteInput
  apply keeps_State_modGen; assumption

theorem keeps_State_placeTile {x0 : State} (x1 : Arrived) (x2 : Nat) (x3 : Word) (x4 : Nat) (x5 : Nat) (x6 : Option (Nat × Nat)) (h0 : Keeps k fd fc false false false fm fh fu fy fo fa ft s₀ x0) :
    Keeps k fd fc false false false fm fh fu fy fo fa ft s₀ (State.placeTile x0 x1 x2 x3 x4 x5 x6) := by
  unfold State.placeTile
  extract_lets +onlyGivenNames v20 v21 v22 v23 v24
  clear_value v20 v21 v22 v23 v24
  extract_lets +onlyGivenNames v25
  have h25 : Keeps k fd fc false false false fm fh fu fy fo fa ft s₀ v25 := by
    subst v25
    apply keeps_State_modEasel
    apply keeps_State_popFront; assumption
  clear_value v25
  extract_lets +onlyGivenNames v26
  have h26 : Keeps k fd fc false false false fm fh fu fy fo fa ft s₀ v26 := by
    subst v26
    apply keeps_State_modGen; assumption
  clear_value v26
  extract_lets +onlyGivenNames v27
  have h27 : Keeps k fd fc false false false fm fh fu fy fo fa ft s₀ v27 := by
    subst v27
    split
    · apply keeps_State_noteInput; assumption
    · assumption
  clear_value v27
  apply keeps_State_wakeBound; assumption

theorem keeps_State_relay {x0 : State} (x1 : Nat) (x2 : Word) (x3 : Nat) (x4 : Nat) (x5 : Nat) (x6 : Nat) (x7 : Nat) (x8 : Bytes) (h0 : Keeps k fd fc fe false false fm fh fu false fo fa ft s₀ x0) :
    Keeps k fd fc fe false false fm fh fu false fo fa ft s₀ (State.relay x0 x1 x2 x3 x4 x5 x6 x7 x8) := by
  unfold State.relay
  apply keeps_State_tileTo
  apply keeps_State_modGen
  apply keeps_State_noteInput; assumption

theorem keeps_State_takeResult {x0 : State} (x1 : Nat) (x2 : Word) (x3 : Nat) (x4 : Bytes) (x5 : Nat) (h0 : Keeps k fd fc false false false fm fh fu false fo fa ft s₀ x0) :
    Keeps k fd fc false false false fm fh fu false fo fa ft s₀ (State.takeResult x0 x1 x2 x3 x4 x5) := by
  unfold State.takeResult
  extract_lets +onlyGivenNames v51 v52 v53
  clear_value v51 v52 v53
  apply keeps_State_toRanks
  split
  · assumption
  · apply keeps_State_noteInput; assumption

theorem keeps_execContributionTile (x0 : Nat) (x1 : Nat) {x2 : State} (h2 : Keeps k fd fc false false false fm false false false false fa ft s₀ x2) :
    OutKeeps k fd fc false false false fm false false false false fa ft s₀ (execContributionTile x0 x1 x2) := by
  unfold execContributionTile
  split
  · apply keeps_same; assumption
  · extract_lets +onlyGivenNames v25
    clear_value v25
    split
    · apply keeps_same; assumption
    · split
      · apply keeps_same; assumption
      · apply OutKeeps.next
        split
        · apply keeps_State_consume; assumption
        · apply keeps_State_noteDev
          apply keeps_State_consume; assumption
      · apply OutKeeps.next
        apply keeps_State_modGen
        apply keeps_State_consume; assumption
      · apply OutKeeps.next
        apply keeps_State_learn; assumption
      · apply OutKeeps.next
        apply keeps_State_failGen
        apply keeps_State_addHealth
        apply keeps_State_consume; assumption
      · apply OutKeeps.next
        apply keeps_State_fencedFrame
        apply keeps_State_consume; assumption
      · apply keeps_whenP
        · assumption
        · apply keeps_State_placeTile; assumption
      · apply keeps_whenP
        · assumption
        · apply keeps_State_relay
          apply keeps_State_modGen
          apply keeps_State_consume; assumption
      · extract_lets +onlyGivenNames v28 v29 v30
        clear_value v28 v29 v30
        apply keeps_whenP
        · assumption
        · apply keeps_State_copyAt
          apply keeps_State_noteInput
          apply keeps_State_consume; assumption
      · extract_lets +onlyGivenNames v31 v32
        clear_value v31 v32
        apply keeps_whenP
        · assumption
        · split
          · apply keeps_State_relay
            apply keeps_State_consume; assumption
          · apply keeps_State_consume; assumption
      · apply keeps_whenP
        · assumption
        · apply Keeps.foldl
          · intro _ _ _
            apply keeps_State_takeResult; assumption
          · apply keeps_State_consume; assumption
      · apply OutKeeps.next
        apply keeps_State_hairTake; assumption

theorem keeps_execGenTimeout (x0 : Nat) (x1 : Word) {x2 : State} (h2 : Keeps k fd fc false false false fm fh fu false fo fa ft s₀ x2) :
    OutKeeps k fd fc false false false fm fh fu false fo fa ft s₀ (execGenTimeout x0 x1 x2) := by
  unfold execGenTimeout
  extract_lets +onlyGivenNames v19
  clear_value v19
  split
  · apply keeps_same; assumption
  · apply keeps_whenP
    · assumption
    · apply keeps_State_failGen; assumption

theorem keeps_execChunkRetire (x0 : Nat) (x1 : Word) (x2 : Nat) {x3 : State} (h3 : Keeps k fd fc fe false fb fm fh fu fy fo fa ft s₀ x3) :
    OutKeeps k fd fc fe false fb fm fh fu fy fo fa ft s₀ (execChunkRetire x0 x1 x2 x3) := by
  unfold execChunkRetire
  extract_lets +onlyGivenNames v29
  clear_value v29
  split
  · apply keeps_same; assumption
  · apply keeps_whenP
    · assumption
    · apply keeps_State_modGen; assumption

theorem keeps_execGenerationRetire (x0 : Nat) {x1 : State} (h1 : Keeps k fd fc fe false false false fh false false fo fa ft s₀ x1) :
    OutKeeps k fd fc fe false false false fh false false fo fa ft s₀ (execGenerationRetire x0 x1) := by
  unfold execGenerationRetire
  extract_lets +onlyGivenNames v24
  clear_value v24
  split
  · apply keeps_same; assumption
  · apply keeps_whenP
    · assumption
    · apply keeps_State_retireGen; assumption

/-! Loader -/

theorem keeps_State_loadImage {x0 : State} (x1 : Bytes) (x2 : Nat) (x3 : Nat) (h0 : Keeps k fd fc false fl fb fm fh fu fy fo fa ft s₀ x0) :
    Keeps k fd fc false fl fb fm fh fu fy fo fa ft s₀ (State.loadImage x0 x1 x2 x3) := by
  unfold State.loadImage
  extract_lets +onlyGivenNames v34
  clear_value v34
  apply Keeps.foldl
  · intro _ _ _
    apply Keeps.foldl
    · intro _ _ _
      apply keeps_State_modEngine; assumption
    · assumption
  · assumption

/-! ReplayOps -/

theorem keeps_State_present {x0 : State} (x1 : Nat) (x2 : Word) (x3 : Nat) (x4 : List ((Nat × Nat × Nat × Nat) × Bytes)) (h0 : Keeps k fd fc false false fb fm fh fu fy fo fa ft s₀ x0) :
    Keeps k fd fc false false fb fm fh fu fy fo fa ft s₀ (State.present x0 x1 x2 x3 x4) := by
  unfold State.present
  apply Keeps.foldl
  · intro _ _ _
    extract_lets +onlyGivenNames v15 v16 v17
    clear_value v15 v16 v17
    apply keeps_State_wake
    apply keeps_State_modGen
    apply keeps_State_modEasel; assumption
  · assumption

theorem keeps_State_replayHairline {x0 : State} (x1 : Nat) (x2 : Word) (x3 : Nat) (x4 : List ((Nat × Nat × Nat × Nat) × Bytes)) (h0 : Keeps k fd fc false false false fm fh fu false fo fa ft s₀ x0) :
    Keeps k fd fc false false false fm fh fu false fo fa ft s₀ (State.replayHairline x0 x1 x2 x3 x4) := by
  unfold State.replayHairline
  extract_lets +onlyGivenNames v26
  clear_value v26
  split
  · assumption
  · extract_lets +onlyGivenNames v28 v29
    clear_value v28 v29
    split
    · apply Keeps.foldl
      · intro _ _ _
        split
        · assumption
        · apply keeps_State_modGen; assumption
      · assumption
    · split
      · apply keeps_State_failGen; assumption
      · extract_lets +onlyGivenNames v39 v40
        clear_value v39 v40
        split
        · apply keeps_State_failGen; assumption
        · apply keeps_State_modGen; assumption

theorem keeps_State_startReplay {x0 : State} (x1 : Nat) (x2 : Replay) (h0 : Keeps k fd fc false false false fm fh fu false fo fa ft s₀ x0) :
    Keeps k fd fc false false false fm fh fu false fo fa ft s₀ (State.startReplay x0 x1 x2) := by
  unfold State.startReplay
  extract_lets +onlyGivenNames v15 v16 v17 v19 v20 v21 v22 v23 v24 v25 v26 v27 v28 v29 v30 v31 v33 v35 v36 v37 v38 v39 v40 v41 v42
  clear_value v15 v16 v17 v19 v20 v21 v22 v23 v24 v25 v26 v27 v28 v29 v30 v31 v33 v35 v36 v37 v38 v39 v40 v41 v42
  extract_lets +onlyGivenNames v43
  have h43 : Keeps k fd fc false false false fm fh fu false fo fa ft s₀ v43 := by
    subst v43
    apply keeps_State_setCtx; assumption
  clear_value v43
  extract_lets +onlyGivenNames v44
  subst v44
  extract_lets +onlyGivenNames v53
  have h53 : Keeps k fd fc false false false fm fh fu false fo fa ft s₀ v53 := by
    subst v53
    exact Keeps.upd ‹_› (.of (.refl _))
  clear_value v53
  split
  · apply keeps_State_replayHairline; assumption
  · extract_lets +onlyGivenNames v60 v61
    clear_value v60 v61
    apply keeps_State_draw
    apply keeps_State_present; assumption

theorem keeps_loadAll {b l : Nat} (imgs : List Bytes) (a : Except Nat State) (t : State)
    (ha : ∀ u, a = .ok u → Keeps k fd fc false false false fm fh false false fo fa ft s₀ u)
    (e : imgs.foldl (fun (acc : Except Nat State) img => match acc with
        | .error e => .error e
        | .ok s => match lowest (s.loadChecks img b l) with
          | some e => .error e
          | none => .ok (s.loadImage img b l)) a = .ok t) : Keeps k fd fc false false false fm fh false false fo fa ft s₀ t := by
  induction imgs generalizing a with
  | nil => exact ha t e
  | cons i l' ih =>
    refine ih _ (fun u hu => ?_) e
    dsimp only at hu
    split at hu
    · cases hu
    · split at hu
      · cases hu
      · cases hu
        exact keeps_State_loadImage _ _ _ (ha _ rfl)

theorem keeps_State_grantReplay {x0 : State} (x1 : Nat) (h0 : Keeps k fd fc false false false fm fh false false fo fa ft s₀ x0) : Keeps k fd fc false false false fm fh false false fo fa ft s₀ (x0.grantReplay x1) := by
  unfold State.grantReplay
  split
  · exact h0
  · extract_lets x imgs go
    cases e : go with
    | error st => exact keeps_State_freeCtx _ (keeps_State_endWaits _ _ _ h0)
    | ok t =>
      have h1 := keeps_loadAll _ _ _ (fun u hu => by cases hu; exact h0) e
      show Keeps _ _ _ _ _ _ _ _ _ _ _ _ _ _ (if _ then _ else _)
      split
      · exact keeps_State_freeCtx _ (keeps_State_endWaits _ _ _ h0)
      · exact keeps_State_startReplay _ _ h1

theorem keeps_State_finishReplay {x0 : State} (x1 : Replay) (x2 : Gen) (h0 : Keeps k fd fc false false false false fh false false fo fa ft s₀ x0) :
    Keeps k fd fc false false false false fh false false fo fa ft s₀ (State.finishReplay x0 x1 x2) := by
  unfold State.finishReplay
  extract_lets +onlyGivenNames v17 v18 v19
  clear_value v17 v18 v19
  extract_lets +onlyGivenNames v20
  have h20 : Keeps k fd fc false false false false fh false false fo fa ft s₀ v20 := by
    subst v20
    apply Keeps.foldl
    · intro _ _ _
      apply keeps_State_clearEasel; assumption
    · assumption
  clear_value v20
  split
  · apply keeps_State_freeCtx
    apply keeps_State_endWaits; assumption
  · extract_lets +onlyGivenNames v22
    have h22 : Keeps k fd fc false false false false fh false false fo fa ft s₀ v22 := by
      subst v22
      apply keeps_State_putMem; assumption
    clear_value v22
    apply keeps_State_freeCtx
    apply keeps_State_endWaits; assumption

/-! HostCmd -/

theorem keeps_State_readHost {x0 : State} (x1 : Nat) (x2 : Nat) (x3 : Nat) (h0 : Keeps k fd fc fe fl fb fm fh fu fy fo fa false s₀ x0) :
    Keeps k fd fc fe fl fb fm fh fu fy fo fa false s₀ (State.readHost x0 x1 x2 x3) := by
  unfold State.readHost
  apply Keeps.foldl
  · intro _ _ _
    apply keeps_State_emit; assumption
  · assumption

theorem keeps_State_writeHost {x0 : State} (x1 : Nat) (x2 : Nat) (x3 : Bytes) (h0 : Keeps k fd fc fe fl fb fm fh fu fy fo fa false s₀ x0) :
    Keeps k fd fc fe fl fb fm fh fu fy fo fa false s₀ (State.writeHost x0 x1 x2 x3) := by
  unfold State.writeHost
  apply Keeps.foldl
  · intro _ _ _
    apply keeps_State_emit; assumption
  · assumption

theorem keeps_State_takeCommand {x0 : State} (x1 : Nat) (x2 : Nat) (x3 : Bytes) (h0 : Keeps k fd fc fe fl fb fm fh false fy fo fa false s₀ x0) :
    Keeps k fd fc fe fl fb fm fh false fy fo fa false s₀ (State.takeCommand x0 x1 x2 x3) := by
  unfold State.takeCommand
  extract_lets +onlyGivenNames v22 v25
  clear_value v22 v25
  extract_lets +onlyGivenNames v26
  subst v26
  extract_lets +onlyGivenNames v28
  have h28 : Keeps k fd fc fe fl fb fm fh false fy fo fa false s₀ v28 := by
    subst v28
    apply keeps_State_setFunc; assumption
  clear_value v28
  split
  · apply keeps_State_readHost; assumption
  · assumption

theorem keeps_State_seqError {x0 : State} (x1 : Nat) (x2 : Nat) (x3 : DWord) (h0 : Keeps k fd fc fe fl fb fm fh false false fo fa ft s₀ x0) :
    Keeps k fd fc fe fl fb fm fh false false fo fa ft s₀ (State.seqError x0 x1 x2 x3) := by
  unfold State.seqError
  extract_lets +onlyGivenNames v31
  have h31 : Keeps k fd fc fe fl fb fm fh false false fo fa ft s₀ v31 := by
    subst v31
    apply keeps_State_modFunc; assumption
  clear_value v31
  apply keeps_State_note
  apply keeps_State_setHot
  apply keeps_State_interrupt; assumption

theorem keeps_State_examine {x0 : State} (x1 : Nat) (h0 : Keeps k fd fc fe fl fb fm fh false false fo fa false s₀ x0) :
    Keeps k fd fc fe fl fb fm fh false false fo fa false s₀ (State.examine x0 x1) := by
  unfold State.examine
  extract_lets +onlyGivenNames v26 v28 v29 v30
  clear_value v26 v28 v29 v30
  split
  · assumption
  · split
    · split
      · apply keeps_State_takeCommand; assumption
      · assumption
    · split
      · apply keeps_State_seqError; assumption
      · assumption

theorem keeps_execCommandTake (x0 : Nat) {x1 : State} (h1 : Keeps k fd fc fe fl fb fm fh false false fo fa false s₀ x1) :
    OutKeeps k fd fc fe fl fb fm fh false false fo fa false s₀ (execCommandTake x0 x1) := by
  unfold execCommandTake
  apply keeps_onUnit
  apply keeps_same
  apply keeps_State_examine; assumption

theorem keeps_State_examineAll {x0 : State} (h0 : Keeps k fd fc fe fl fb fm fh false false fo fa false s₀ x0) :
    Keeps k fd fc fe fl fb fm fh false false fo fa false s₀ (State.examineAll x0) := by
  unfold State.examineAll
  apply Keeps.foldl
  · intro _ _ _
    apply keeps_State_examine; assumption
  · assumption

theorem keeps_execHostReadCompletion (x0 : Nat) (x1 : Option Bytes) {x2 : State} (h2 : Keeps k fd fc fe fl fb fm fh false fy fo fa ft s₀ x2) :
    OutKeeps k fd fc fe fl fb fm fh false fy fo fa ft s₀ (execHostReadCompletion x0 x1 x2) := by
  unfold execHostReadCompletion
  apply keeps_onUnit
  apply keeps_whenP
  · assumption
  · apply keeps_State_modFunc; assumption

theorem keeps_runCmd {x0 : State} (x1 : Nat) (x2 : Nat → Bool) (x3 : Taken → State → CmdEnd) (h0 : Keeps k fd fc fe fl fb fm fh false fy fo fa ft s₀ x0)
    (h3 : ∀ (y0 : Taken) (y1 : State), Keeps k fd fc fe fl fb fm fh false fy fo fa ft s₀ y1 → EndKeeps k fd fc fe fl fb fm fh false fy fo fa ft s₀ (x3 y0 y1)) : OutKeeps k fd fc fe fl fb fm fh false fy fo fa ft s₀ (runCmd x0 x1 x2 x3) := by
  unfold runCmd
  apply keeps_onUnit
  split
  · exact keeps_same h0
  · rename_i t rest _
    apply keeps_whenP _ h0
    extract_lets s1 fin
    have h : Keeps k fd fc fe fl fb fm fh false fy fo fa ft s₀ s1 := keeps_State_modFunc _ _ h0
    have hf : ∀ u st p, Keeps k fd fc fe fl fb fm fh false fy fo fa ft s₀ u → Keeps k fd fc fe fl fb fm fh false fy fo fa ft s₀ (fin u st p) := by
      intro u st p hu
      simp only [fin]
      split
      · exact hu
      · exact keeps_State_finish _ _ _ _ _ _ _ hu
    have h' := h3 t s1 h
    clear_value s1 fin
    split
    · exact hf _ _ _ h
    · rename_i e
      rw [e] at h'
      exact hf _ _ _ h'
    · rename_i e
      rw [e] at h'
      apply h'
      split
      · exact h
      · exact keeps_State_modFunc _ _ h

theorem keeps_checked (x0 : List (Bool × Nat)) (x1 : CmdEnd) (h1 : EndKeeps k fd fc fe fl fb fm fh fu fy fo fa ft s₀ x1) :
    EndKeeps k fd fc fe fl fb fm fh fu fy fo fa ft s₀ (checked x0 x1) := by
  unfold checked
  split
  · exact EndKeeps.fail
  · assumption

theorem keeps_State_wakeRange {x0 : State} (x1 : Nat) (x2 : Nat) (h0 : Keeps k fd fc false fl fb fm fh fu fy fo fa ft s₀ x0) :
    Keeps k fd fc false fl fb fm fh fu fy fo fa ft s₀ (State.wakeRange x0 x1 x2) := by
  unfold State.wakeRange
  apply Keeps.foldl
  · intro _ _ _
    split
    · apply keeps_State_wake; assumption
    · assumption
  · assumption

theorem keeps_execCmdNop (x0 : Nat) {x1 : State} (h1 : Keeps k fd fc fe fl fb fm fh false fy fo fa ft s₀ x1) :
    OutKeeps k fd fc fe fl fb fm fh false fy fo fa ft s₀ (execCmdNop x0 x1) := by
  unfold execCmdNop
  apply keeps_runCmd
  · assumption
  · intro _ _ _
    apply keeps_checked
    apply EndKeeps.done
    assumption

theorem keeps_State_clearSems {x0 : State} (x1 : Nat) (x2 : Ctx) (h0 : Keeps k fd fc false fl fb fm fh fu fy fo fa ft s₀ x0) :
    Keeps k fd fc false fl fb fm fh fu fy fo fa ft s₀ (State.clearSems x0 x1 x2) := by
  unfold State.clearSems
  apply Keeps.foldl
  · intro _ _ _
    apply keeps_State_modEasel; assumption
  · assumption

theorem keeps_State_takeCtx {x0 : State} (x1 : Nat) (x2 : Nat) (x3 : Ctx) (h0 : Keeps k fd fc false false fb fm fh fu fy fo fa ft s₀ x0) :
    Keeps k fd fc false false fb fm fh fu fy fo fa ft s₀ (State.takeCtx x0 x1 x2 x3) := by
  unfold State.takeCtx
  extract_lets +onlyGivenNames v26
  have h26 : Keeps k fd fc false false fb fm fh fu fy fo fa ft s₀ v26 := by
    subst v26
    apply keeps_State_setCtx
    split
    · assumption
    · apply keeps_State_clearSems; assumption
  clear_value v26
  exact Keeps.upd ‹_› (.of (.refl _))

theorem keeps_execOpenCtx (x0 : Nat) {x1 : State} (h1 : Keeps k fd fc false false fb fm fh false fy fo fa ft s₀ x1) :
    OutKeeps k fd fc false false fb fm fh false fy fo fa ft s₀ (execOpenCtx x0 x1) := by
  unfold execOpenCtx
  apply keeps_runCmd
  · assumption
  · intro _ _ _
    extract_lets +onlyGivenNames v43 v44
    clear_value v43 v44
    apply keeps_checked
    apply EndKeeps.waits
    intro _ _
    apply keeps_State_wakeRange
    apply keeps_State_takeCtx; assumption

theorem keeps_execReservationGranted {x0 : State} (h0 : Keeps k fd fc false false false fm fh false false fo fa ft s₀ x0) :
    OutKeeps k fd fc false false false fm fh false false fo fa ft s₀ (execReservationGranted x0) := by
  unfold execReservationGranted
  split
  · apply keeps_same; assumption
  · extract_lets +onlyGivenNames v37
    clear_value v37
    split
    · apply keeps_same; assumption
    · apply keeps_whenP
      · assumption
      · extract_lets +onlyGivenNames v38
        have h38 : Keeps k fd fc false false false fm fh false false fo fa ft s₀ v38 := by
          subst v38
          apply keeps_State_setCtx; assumption
        clear_value v38
        extract_lets +onlyGivenNames v39
        subst v39
        extract_lets +onlyGivenNames v40
        have h40 : Keeps k fd fc false false false fm fh false false fo fa ft s₀ v40 := by
          subst v40
          exact Keeps.upd ‹_› (.of (.refl _))
        clear_value v40
        split
        · apply keeps_State_grantReplay
          apply keeps_State_clearSems; assumption
        · apply keeps_State_endWaits; assumption

theorem keeps_execOpenWaitExpiry (x0 : Nat) {x1 : State} (h1 : Keeps k fd fc fe false false fm fh false false fo fa ft s₀ x1) :
    OutKeeps k fd fc fe false false fm fh false false fo fa ft s₀ (execOpenWaitExpiry x0 x1) := by
  unfold execOpenWaitExpiry
  split
  · apply keeps_same; assumption
  · extract_lets +onlyGivenNames v33 v34
    clear_value v33 v34
    apply keeps_whenP
    · assumption
    · apply keeps_State_freeCtx
      apply keeps_State_endWaits
      apply keeps_State_endWaits; assumption

theorem keeps_execRoster (x0 : Nat) {x1 : State} (h1 : Keeps k fd fc fe false fb fm fh false fy fo fa ft s₀ x1) :
    OutKeeps k fd fc fe false fb fm fh false fy fo fa ft s₀ (execRoster x0 x1) := by
  unfold execRoster
  apply keeps_runCmd
  · assumption
  · intro _ _ _
    extract_lets +onlyGivenNames v37 v40 v41 v43
    clear_value v37 v40 v41 v43
    apply keeps_checked
    apply EndKeeps.done
    apply keeps_State_setCtx; assumption

theorem keeps_execCommit (x0 : Nat) {x1 : State} (h1 : Keeps k fd fc fe false false fm fh false false fo fa ft s₀ x1) :
    OutKeeps k fd fc fe false false fm fh false false fo fa ft s₀ (execCommit x0 x1) := by
  unfold execCommit
  apply keeps_runCmd
  · assumption
  · intro _ _ _
    extract_lets +onlyGivenNames v21 v22
    clear_value v21 v22
    apply keeps_checked
    extract_lets +onlyGivenNames v23
    clear_value v23
    apply EndKeeps.done
    apply keeps_State_sendChecks
    apply keeps_State_setCtx; assumption

theorem keeps_execClose (x0 : Nat) {x1 : State} (h1 : Keeps k fd fc fe false false fm fh false false fo fa ft s₀ x1) :
    OutKeeps k fd fc fe false false fm fh false false fo fa ft s₀ (execClose x0 x1) := by
  unfold execClose
  apply keeps_runCmd
  · assumption
  · intro _ _ _
    extract_lets +onlyGivenNames v33 v34
    clear_value v33 v34
    apply keeps_checked
    apply EndKeeps.waits
    intro _ _
    split
    · apply keeps_State_setCtx; assumption
    · apply keeps_State_freeCtx; assumption

theorem keeps_State_abortCtx {x0 : State} (x1 : Nat) (h0 : Keeps k fd fc false false false false fh false false fo fa ft s₀ x0) :
    Keeps k fd fc false false false false fh false false fo fa ft s₀ (State.abortCtx x0 x1) := by
  unfold State.abortCtx
  apply keeps_State_freeCtx
  apply keeps_State_failAll; assumption

theorem keeps_execAbort (x0 : Nat) {x1 : State} (h1 : Keeps k fd fc false false false false fh false false fo fa ft s₀ x1) :
    OutKeeps k fd fc false false false false fh false false fo fa ft s₀ (execAbort x0 x1) := by
  unfold execAbort
  apply keeps_runCmd
  · assumption
  · intro _ _ _
    extract_lets +onlyGivenNames v41 v42
    clear_value v41 v42
    apply keeps_checked
    apply EndKeeps.waits
    intro _ _
    apply keeps_State_abortCtx; assumption

theorem keeps_execCmdLoad (x0 : Nat) {x1 : State} (h1 : Keeps k fd fc false fl fb fm fh false fy fo fa ft s₀ x1) :
    OutKeeps k fd fc false fl fb fm fh false fy fo fa ft s₀ (execCmdLoad x0 x1) := by
  unfold execCmdLoad
  apply keeps_runCmd
  · assumption
  · intro _ _ _
    extract_lets +onlyGivenNames v37 v38 v39 v41
    clear_value v37 v38 v39 v41
    apply keeps_checked
    apply EndKeeps.done
    apply keeps_State_wakeRange
    apply keeps_State_loadImage; assumption

theorem keeps_execGroup (x0 : Nat) {x1 : State} (h1 : Keeps k fd fc false false fb fm fh false fy fo fa ft s₀ x1) :
    OutKeeps k fd fc false false fb fm fh false fy fo fa ft s₀ (execGroup x0 x1) := by
  unfold execGroup
  apply keeps_runCmd
  · assumption
  · intro _ _ _
    extract_lets +onlyGivenNames v26 v27 v28 v29 v30
    clear_value v26 v27 v28 v29 v30
    apply keeps_checked
    apply EndKeeps.done
    apply keeps_State_wakeRange
    exact Keeps.upd ‹_› (.of (.refl _))

theorem keeps_execStart (x0 : Nat) {x1 : State} (h1 : Keeps k fd fc false fl fb fm fh false fy fo fa ft s₀ x1) :
    OutKeeps k fd fc false fl fb fm fh false fy fo fa ft s₀ (execStart x0 x1) := by
  unfold execStart
  split
  · apply keeps_same; assumption
  · apply keeps_runCmd
    · assumption
    · intro _ _ _
      extract_lets +onlyGivenNames v69
      clear_value v69
      apply keeps_checked
      split
      · exact EndKeeps.fail
      · extract_lets +onlyGivenNames v70
        clear_value v70
        apply EndKeeps.done
        apply keeps_State_pushStart; assumption

theorem keeps_execBind (x0 : Nat) {x1 : State} (h1 : Keeps k fd fc fe false fb fm fh false fy fo fa ft s₀ x1) :
    OutKeeps k fd fc fe false fb fm fh false fy fo fa ft s₀ (execBind x0 x1) := by
  unfold execBind
  apply keeps_runCmd
  · assumption
  · intro _ _ _
    extract_lets +onlyGivenNames v36 v37 v38
    clear_value v36 v37 v38
    apply keeps_checked
    apply EndKeeps.done
    apply keeps_State_setBinding; assumption

theorem keeps_execUnbind (x0 : Nat) {x1 : State} (h1 : Keeps k fd fc fe false fb fm fh false fy fo fa ft s₀ x1) :
    OutKeeps k fd fc fe false fb fm fh false fy fo fa ft s₀ (execUnbind x0 x1) := by
  unfold execUnbind
  apply keeps_runCmd
  · assumption
  · intro _ _ _
    extract_lets +onlyGivenNames v31 v32
    clear_value v31 v32
    apply keeps_checked
    apply EndKeeps.done
    apply keeps_State_setBinding; assumption

theorem keeps_execGrant (x0 : Nat) {x1 : State} (h1 : Keeps k fd fc fe false fb fm fh false fy fo fa ft s₀ x1) :
    OutKeeps k fd fc fe false fb fm fh false fy fo fa ft s₀ (execGrant x0 x1) := by
  unfold execGrant
  apply keeps_runCmd
  · assumption
  · intro _ _ _
    extract_lets +onlyGivenNames v51 v52 v53 v54 v57 v58
    clear_value v51 v52 v53 v54 v57 v58
    apply keeps_checked
    apply EndKeeps.done
    apply keeps_State_setCtx; assumption

theorem keeps_State_setUpCircuit {x0 : State} (x1 : Nat) (x2 : Nat) (x3 : Nat) (x4 : Nat) (h0 : Keeps k fd fc fe fl false fm fh false false fo fa ft s₀ x0) :
    Keeps k fd fc fe fl false fm fh false false fo fa ft s₀ (State.setUpCircuit x0 x1 x2 x3 x4) := by
  unfold State.setUpCircuit
  extract_lets +onlyGivenNames v35
  clear_value v35
  extract_lets +onlyGivenNames v36
  subst v36
  split
  · split
    · apply keeps_State_endWaits
      apply keeps_State_setCircuit; assumption
    · apply keeps_State_endWaits; assumption
  · split
    · apply keeps_State_cctlOn
      apply keeps_State_setCircuit; assumption
    · apply keeps_State_noteDev
      apply keeps_State_setCircuit; assumption

theorem keeps_execCircuit (x0 : Nat) {x1 : State} (h1 : Keeps k fd fc fe fl false fm fh false false fo fa ft s₀ x1) :
    OutKeeps k fd fc fe fl false fm fh false false fo fa ft s₀ (execCircuit x0 x1) := by
  unfold execCircuit
  apply keeps_runCmd
  · assumption
  · intro _ _ _
    extract_lets +onlyGivenNames v51 v52 v53
    clear_value v51 v52 v53
    apply keeps_checked
    apply EndKeeps.waits
    intro _ _
    apply keeps_State_setUpCircuit; assumption

theorem keeps_State_tearNow {x0 : State} (x1 : Nat) (h0 : Keeps k fd fc fe fl false fm fh false false fo fa ft s₀ x0) :
    Keeps k fd fc fe fl false fm fh false false fo fa ft s₀ (State.tearNow x0 x1) := by
  unfold State.tearNow
  apply keeps_State_endWaits
  apply keeps_State_tearCircuit; assumption

theorem keeps_execTear (x0 : Nat) {x1 : State} (h1 : Keeps k fd fc fe fl false fm fh false false fo fa ft s₀ x1) :
    OutKeeps k fd fc fe fl false fm fh false false fo fa ft s₀ (execTear x0 x1) := by
  unfold execTear
  apply keeps_runCmd
  · assumption
  · intro _ _ _
    extract_lets +onlyGivenNames v41 v42
    clear_value v41 v42
    apply keeps_checked
    apply EndKeeps.done
    apply keeps_State_tearNow; assumption

theorem keeps_execCapture (x0 : Nat) {x1 : State} (h1 : Keeps k fd fc fe false fb fm fh false fy fo fa ft s₀ x1) :
    OutKeeps k fd fc fe false fb fm fh false fy fo fa ft s₀ (execCapture x0 x1) := by
  unfold execCapture
  apply keeps_runCmd
  · assumption
  · intro _ _ _
    extract_lets +onlyGivenNames v45 v46 v49 v50 v51
    clear_value v45 v46 v49 v50 v51
    apply keeps_checked
    apply EndKeeps.done
    exact Keeps.upd ‹_› (.of (.refl _))

theorem keeps_State_clearCaptures {x0 : State} (h0 : Keeps k fd fc fe false fb false fh fu fy fo fa ft s₀ x0) : Keeps k fd fc fe false fb false fh fu fy fo fa ft s₀ x0.clearCaptures := by
  unfold State.clearCaptures
  extract_lets t
  have h1 : Keeps k fd fc fe false fb false fh fu fy fo fa ft s₀ t := Keeps.foldl _ (fun _ _ h => keeps_State_putMem _ _ h) h0
  clear_value t
  exact h1.of

theorem keeps_execCaptureClear (x0 : Nat) {x1 : State} (h1 : Keeps k fd fc fe false fb false fh false fy fo fa ft s₀ x1) :
    OutKeeps k fd fc fe false fb false fh false fy fo fa ft s₀ (execCaptureClear x0 x1) := by
  unfold execCaptureClear
  split
  · apply keeps_same; assumption
  · apply keeps_runCmd
    · assumption
    · intro _ _ _
      apply keeps_checked
      apply EndKeeps.done
      apply keeps_State_clearCaptures; assumption

theorem keeps_execReplay (x0 : Nat) {x1 : State} (h1 : Keeps k fd fc false false fb false fh false fy fo fa ft s₀ x1) :
    OutKeeps k fd fc false false fb false fh false fy fo fa ft s₀ (execReplay x0 x1) := by
  unfold execReplay
  split
  · apply keeps_same; assumption
  · apply keeps_runCmd
    · assumption
    · intro _ _ _
      extract_lets +onlyGivenNames v40 v41 v42 v43 v44 v45
      clear_value v40 v41 v42 v43 v44 v45
      extract_lets +onlyGivenNames v47
      have h47 : Keeps k fd fc false false fb false fh false fy fo fa ft s₀ v47 := by
        subst v47
        apply keeps_State_accessRun; assumption
      clear_value v47
      extract_lets +onlyGivenNames v48 v49
      clear_value v48 v49
      apply keeps_checked
      apply EndKeeps.waits
      intro _ _
      apply keeps_State_wakeRange
      apply keeps_State_takeCtx
      exact Keeps.upd ‹_› (.of (.refl _))

theorem keeps_execReplayFinish {x0 : State} (h0 : Keeps k fd fc false false false false fh false false fo fa ft s₀ x0) :
    OutKeeps k fd fc false false false false fh false false fo fa ft s₀ (execReplayFinish x0) := by
  unfold execReplayFinish
  split
  · apply keeps_same; assumption
  · apply keeps_whenP
    · assumption
    · apply keeps_State_finishReplay; assumption

theorem keeps_execHbmRetry (x0 : Nat) {x1 : State} (h1 : Keeps k fd fc fe fl fb fm fh false fy false fa ft s₀ x1) :
    OutKeeps k fd fc fe fl fb fm fh false fy false fa ft s₀ (execHbmRetry x0 x1) := by
  unfold execHbmRetry
  apply keeps_runCmd
  · assumption
  · intro _ _ _
    extract_lets +onlyGivenNames v27
    clear_value v27
    apply keeps_checked
    apply EndKeeps.done
    apply keeps_State_mramWrite; assumption

theorem keeps_execAssign (x0 : Nat) {x1 : State} (h1 : Keeps k fd fc false fl fb fm fh false fy fo fa ft s₀ x1) :
    OutKeeps k fd fc false fl fb fm fh false fy fo fa ft s₀ (execAssign x0 x1) := by
  unfold execAssign
  apply keeps_runCmd
  · assumption
  · intro _ _ _
    extract_lets +onlyGivenNames v35 v36 v39 v40
    clear_value v35 v36 v39 v40
    apply keeps_checked
    apply EndKeeps.done
    apply keeps_State_wakeRange
    apply Keeps.foldl
    · intro _ _ _
      apply keeps_State_modEasel; assumption
    · assumption

end Sys2Proof.Machine
end

