-- ==== Sys2Proof/Laws/KeepsFabric.lean ====
section
/-!
SUPPORT. `Keeps` for memory failures, links, routing and circuits: one lemma per operation.
-/

set_option Elab.async false

namespace Sys2Proof.Machine

variable {k fd fc fe fl fb fm fh fu fy fo fa ft : Bool} {s₀ s : State}

/-! MemoryOps -/

theorem keeps_State_setDev {x0 : State} (x1 : DevSt) (hg : k = true → x0.dev = .grisaille → x1 = .grisaille) (h0 : Keeps k false fc fe fl fb fm fh fu fy false fa ft s₀ x0) :
    Keeps k false fc fe fl fb fm fh fu fy false fa ft s₀ (x0.setDev x1) := by
  unfold State.setDev
  split
  · exact h0
  · apply keeps_State_alertBit
    exact h0.of (gris := hg)

theorem keeps_State_setLog {x0 : State} (x1 : Option LogJob) (h0 : Keeps k fd fc fe fl fb fm fh fu fy false fa ft s₀ x0) :
    Keeps k fd fc fe fl fb fm fh fu fy false fa ft s₀ (State.setLog x0 x1) := by
  unfold State.setLog
  exact Keeps.upd ‹_› (.of (.refl _))

theorem keeps_State_logPieces {x0 : State} (x1 : LogJob) (x2 : Nat) (x3 : List (Nat × Bytes)) (h0 : Keeps k fd fc fe fl fb fm fh fu fy false fa ft s₀ x0) :
    Keeps k fd fc fe fl fb fm fh fu fy false fa ft s₀ (State.logPieces x0 x1 x2 x3) := by
  unfold State.logPieces
  extract_lets +onlyGivenNames v46
  have h46 : Keeps k fd fc fe fl fb fm fh fu fy false fa ft s₀ v46 := by
    subst v46
    apply Keeps.foldl
    · intro _ _ _
      apply keeps_State_mramWrite; assumption
    · assumption
  clear_value v46
  split
  · apply keeps_State_alertBit
    apply keeps_State_setLog; assumption
  · apply keeps_State_setLog; assumption

theorem keeps_State_logTick {x0 : State} (h0 : Keeps k fd fc fe fl fb fm fh fu fy false fa ft s₀ x0) :
    Keeps k fd fc fe fl fb fm fh fu fy false fa ft s₀ (State.logTick x0) := by
  unfold State.logTick
  split
  · assumption
  · split
    · apply keeps_State_setLog; assumption
    · split
      · apply keeps_State_logPieces; assumption
      · assumption

theorem keeps_State_endLog {x0 : State} (h0 : Keeps k fd fc fe fl fb fm fh fu false false fa ft s₀ x0) :
    Keeps k fd fc fe fl fb fm fh fu false false fa ft s₀ (State.endLog x0) := by
  unfold State.endLog
  split
  · assumption
  · split
    · extract_lets +onlyGivenNames v38
      have h38 : Keeps k fd fc fe fl fb fm fh fu false false fa ft s₀ v38 := by
        subst v38
        exact Keeps.upd ‹_› (.of (.refl _))
      clear_value v38
      extract_lets +onlyGivenNames v44
      clear_value v44
      apply keeps_State_logPieces; assumption
    · apply keeps_State_logPieces; assumption

theorem keeps_State_powerLog {x0 : State} (h0 : Keeps k fd fc fe fl fb fm fh fu false false fa ft s₀ x0) :
    Keeps k fd fc fe fl fb fm fh fu false false fa ft s₀ (State.powerLog x0) := by
  unfold State.powerLog
  split
  · assumption
  · extract_lets +onlyGivenNames v54
    have h54 : Keeps k fd fc fe fl fb fm fh fu false false fa ft s₀ v54 := by
      subst v54
      apply keeps_State_endLog; assumption
    clear_value v54
    apply keeps_State_setLog; assumption

theorem keeps_State_grisailleCtx {x0 : State} (x1 : Nat) (h0 : Keeps k fd fc false false false false fh false false fo fa ft s₀ x0) :
    Keeps k fd fc false false false false fh false false fo fa ft s₀ (State.grisailleCtx x0 x1) := by
  unfold State.grisailleCtx
  extract_lets +onlyGivenNames v20
  have h20 : Keeps k fd fc false false false false fh false false fo fa ft s₀ v20 := by
    subst v20
    apply keeps_State_endWaits
    apply keeps_State_endWaits; assumption
  clear_value v20
  extract_lets +onlyGivenNames v23
  have h23 : Keeps k fd fc false false false false fh false false fo fa ft s₀ v23 := by
    subst v23
    split
    · apply keeps_State_modCtx; assumption
    · assumption
  clear_value v23
  extract_lets +onlyGivenNames v25
  have h25 : Keeps k fd fc false false false false fh false false fo fa ft s₀ v25 := by
    subst v25
    apply keeps_State_failAll; assumption
  clear_value v25
  extract_lets +onlyGivenNames v29 v32 v33
  clear_value v29 v32 v33
  extract_lets +onlyGivenNames v34
  have h34 : Keeps k fd fc false false false false fh false false fo fa ft s₀ v34 := by
    subst v34
    split
    · apply keeps_State_spread; assumption
    · assumption
  clear_value v34
  apply keeps_State_freeCtx
  apply keeps_State_toAuthority; assumption

theorem keeps_State_enterGrisaille {x0 : State} (x1 : GrisCause) (h0 : Keeps k false fc false false false false false false false false fa ft s₀ x0) :
    Keeps k false fc false false false false false false false false fa ft s₀ (State.enterGrisaille x0 x1) := by
  unfold State.enterGrisaille
  split
  · assumption
  · extract_lets +onlyGivenNames v42
    clear_value v42
    extract_lets +onlyGivenNames v43
    subst v43
    extract_lets +onlyGivenNames v49
    subst v49
    extract_lets +onlyGivenNames v51
    have h51 : Keeps k false fc false false false false false false false false fa ft s₀ v51 := by
      subst v51
      exact Keeps.upd ‹_› (.of (.refl _))
    clear_value v51
    extract_lets +onlyGivenNames v52
    have h52 : Keeps k false fc false false false false false false false false fa ft s₀ v52 := by
      subst v52
      apply Keeps.foldl
      · intro _ _ _
        apply keeps_State_grisailleCtx; assumption
      · assumption
    clear_value v52
    extract_lets +onlyGivenNames v54
    subst v54
    extract_lets +onlyGivenNames v55
    subst v55
    extract_lets +onlyGivenNames v59
    have h59 : Keeps k false fc false false false false false false false false fa ft s₀ v59 := by
      subst v59
      exact Keeps.upd ‹_› (.of (.refl _))
    clear_value v59
    extract_lets +onlyGivenNames v62
    subst v62
    extract_lets +onlyGivenNames v68
    have h68 : Keeps k false fc false false false false false false false false fa ft s₀ v68 := by
      subst v68
      split
      · apply keeps_State_powerLog
        exact Keeps.upd ‹_› (.of (.refl _))
      · apply keeps_State_startFlush; assumption
    clear_value v68
    apply keeps_State_interruptAll
    apply keeps_State_setDev
    · intro _ _
      rfl
    · assumption

theorem keeps_State_failChannel {x0 : State} (x1 : Nat) (h0 : Keeps k fd fc fe fl fb false fh fu fy false fa ft s₀ x0) :
    Keeps k fd fc fe fl fb false fh fu fy false fa ft s₀ (State.failChannel x0 x1) := by
  unfold State.failChannel
  extract_lets +onlyGivenNames v23
  subst v23
  extract_lets +onlyGivenNames v24
  clear_value v24
  extract_lets +onlyGivenNames v25
  have h25 : Keeps k fd fc fe fl fb false fh fu fy false fa ft s₀ v25 := by
    subst v25
    exact Keeps.upd ‹_› (.of (.refl _))
  clear_value v25
  apply keeps_State_alertBit
  apply keeps_State_mramWrite; assumption

theorem keeps_State_loseHbm {x0 : State} (h0 : Keeps k false fc false false false false false false false false fa ft s₀ x0) :
    Keeps k false fc false false false false false false false false fa ft s₀ (State.loseHbm x0) := by
  unfold State.loseHbm
  apply keeps_State_enterGrisaille
  exact Keeps.upd ‹_› (.of (.refl _))

theorem keeps_State_replaceChannel {x0 : State} (x1 : Nat) (h0 : Keeps k false fc false false false false false false false false fa ft s₀ x0) :
    Keeps k false fc false false false false false false false false fa ft s₀ (State.replaceChannel x0 x1) := by
  unfold State.replaceChannel
  split
  · exact Keeps.upd ‹_› (.of (.refl _))
  · apply keeps_State_loseHbm; assumption

theorem keeps_State_spoilOps {x0 : State} (x1 : Nat) (x2 : Nat) (h0 : Keeps k fd fc false fl fb fm fh fu fy fo fa ft s₀ x0) :
    Keeps k fd fc false fl fb fm fh fu fy fo fa ft s₀ (State.spoilOps x0 x1 x2) := by
  unfold State.spoilOps
  extract_lets +onlyGivenNames v30
  clear_value v30
  exact Keeps.upd ‹_› (.of (.refl _))

theorem keeps_State_mapOut {x0 : State} (x1 : Nat) (h0 : Keeps k false fc false false false false false false false false fa ft s₀ x0) :
    Keeps k false fc false false false false false false false false fa ft s₀ (State.mapOut x0 x1) := by
  unfold State.mapOut
  extract_lets +onlyGivenNames v55
  clear_value v55
  extract_lets +onlyGivenNames v56
  have h56 : Keeps k false fc false false false false false false false false fa ft s₀ v56 := by
    subst v56
    apply keeps_State_failChannel; assumption
  clear_value v56
  split
  · apply keeps_State_loseHbm; assumption
  · split
    · apply keeps_State_replaceChannel
      apply keeps_State_spoilOps; assumption
    · assumption

theorem keeps_State_spoilFlush {x0 : State} (x1 : Nat) (h0 : Keeps k fd fc fe fl fb false fh fu fy fo fa ft s₀ x0) :
    Keeps k fd fc fe fl fb false fh fu fy fo fa ft s₀ (State.spoilFlush x0 x1) := by
  unfold State.spoilFlush
  extract_lets +onlyGivenNames v38
  clear_value v38
  split
  · apply keeps_State_putMem; assumption
  · assumption

theorem keeps_State_spoilCapture {x0 : State} (x1 : Capture) (h0 : Keeps k fd fc fe fl fb false fh false fy fo fa ft s₀ x0) :
    Keeps k fd fc fe fl fb false fh false fy fo fa ft s₀ (State.spoilCapture x0 x1) := by
  unfold State.spoilCapture
  extract_lets +onlyGivenNames v5
  clear_value v5
  exact keeps_State_interrupt _ _ (keeps_State_putMem _ _ h0)

theorem keeps_State_failBound {x0 : State} (h0 : Keeps k fd fc false false false fm fh fu false fo fa ft s₀ x0) :
    Keeps k fd fc false false false fm fh fu false fo fa ft s₀ (State.failBound x0) := by
  unfold State.failBound
  apply Keeps.foldl
  · intro _ _ _
    extract_lets +onlyGivenNames v20
    clear_value v20
    split
    · apply Keeps.foldl
      · intro _ _ _
        split
        · assumption
        · apply keeps_State_failGen; assumption
      · assumption
    · assumption
  · assumption

theorem keeps_State_rerunParked {x0 : State} (h0 : Keeps k fd fc false false false fm fh fu false fo fa ft s₀ x0) :
    Keeps k fd fc false false false fm fh fu false fo fa ft s₀ (State.rerunParked x0) := by
  unfold State.rerunParked
  apply Keeps.foldl
  · intro _ _ _
    apply Keeps.foldl
    · intro _ _ _
      split
      · assumption
      · apply Keeps.foldl
        · intro _ _ _
          apply keeps_State_requestRerun; assumption
        · apply keeps_State_modGen; assumption
    · assumption
  · assumption

theorem keeps_State_settleLoss {x0 : State} (x1 : Nat) (h0 : Keeps k fd fc false false false false fh false false fo fa ft s₀ x0) : Keeps k fd fc false false false false fh false false fo fa ft s₀ (x0.settleLoss x1) := by
  unfold State.settleLoss
  extract_lets n gone m s1 s2 _ s3 s4 _ s5 s6 _ s7
  have h1 : Keeps k fd fc false false false false fh false false fo fa ft s₀ s1 := h0.of (cells := tcanon_filter _)
  clear_value s1
  have h2 : Keeps k fd fc false false false false fh false false fo fa ft s₀ s2 := keeps_State_rerunParked h1
  clear_value s2
  have h3 : Keeps k fd fc false false false false fh false false fo fa ft s₀ s3 := h2.of
  clear_value s3
  have h4 : Keeps k fd fc false false false false fh false false fo fa ft s₀ s4 := keeps_State_failBound h3
  clear_value s4
  have h5 : Keeps k fd fc false false false false fh false false fo fa ft s₀ s5 := h4.of
  clear_value s5
  have h6 : Keeps k fd fc false false false false fh false false fo fa ft s₀ s6 := Keeps.foldl _ (fun s y h => keeps_State_spoilCapture _ h) h5
  clear_value s6
  have h7 : Keeps k fd fc false false false false fh false false fo fa ft s₀ s7 := h6.of
  clear_value s7
  exact Keeps.foldl _ (fun _ _ h => keeps_State_spoilFlush _ h) h7

theorem keeps_State_tookOver {x0 : State} (x1 : Nat × Nat × Nat) (h0 : Keeps k fd fc false false false false fh false false fo fa ft s₀ x0) :
    Keeps k fd fc false false false false fh false false fo fa ft s₀ (State.tookOver x0 x1) := by
  unfold State.tookOver
  extract_lets +onlyGivenNames v21
  subst v21
  extract_lets +onlyGivenNames v22
  have h22 : Keeps k fd fc false false false false fh false false fo fa ft s₀ v22 := by
    subst v22
    exact Keeps.upd ‹_› (.of (.refl _))
  clear_value v22
  apply keeps_State_startFlush
  apply keeps_State_interruptAll
  apply keeps_State_settleLoss; assumption

/-! LinkOps -/

theorem keeps_State_sendLink {x0 : State} (x1 : Nat) (x2 : LinkInfo) (h0 : Keeps k fd fc fe fl false fm fh fu fy fo fa false s₀ x0) :
    Keeps k fd fc fe fl false fm fh fu fy fo fa false s₀ (State.sendLink x0 x1 x2) := by
  unfold State.sendLink
  apply keeps_State_modLPort
  apply keeps_State_emit; assumption

theorem keeps_State_noteFault {x0 : State} (x1 : Nat) (x2 : Nat × Nat × List Nat) (h0 : Keeps k fd fc fe fl false fm fh fu false fo fa ft s₀ x0) :
    Keeps k fd fc fe fl false fm fh fu false fo fa ft s₀ (State.noteFault x0 x1 x2) := by
  unfold State.noteFault
  split
  · assumption
  · apply keeps_State_notePort
    apply keeps_State_modLPort; assumption

theorem keeps_State_noteHello {x0 : State} (x1 : Nat) (h0 : Keeps k fd fc fe fl false fm fh fu false fo fa ft s₀ x0) :
    Keeps k fd fc fe fl false fm fh fu false fo fa ft s₀ (State.noteHello x0 x1) := by
  unfold State.noteHello
  split
  · apply Keeps.foldl
    · intro _ _ _
      apply keeps_State_noteFault; assumption
    · assumption
  · assumption

theorem keeps_State_reroute {x0 : State} (x1 : Option Nat) (x2 : Queued) (h0 : Keeps k fd fc fe fl false fm fh fu false fo fa ft s₀ x0) :
    Keeps k fd fc fe fl false fm fh fu false fo fa ft s₀ (State.reroute x0 x1 x2) := by
  unfold State.reroute
  split
  · apply keeps_State_dropCopy
    apply keeps_State_noteDev; assumption
  · apply keeps_State_dropCopy
    apply keeps_State_noteDev; assumption
  · apply keeps_State_dropCopy
    apply keeps_State_noteDev; assumption
  · apply keeps_State_takeHop; assumption

theorem keeps_State_requeueAll {x0 : State} (x1 : Nat) (h0 : Keeps k fd fc fe fl false fm fh fu false fo fa ft s₀ x0) :
    Keeps k fd fc fe fl false fm fh fu false fo fa ft s₀ (State.requeueAll x0 x1) := by
  unfold State.requeueAll
  extract_lets +onlyGivenNames v33
  clear_value v33
  apply Keeps.foldl
  · intro _ _ _
    apply keeps_State_reroute; assumption
  · apply keeps_State_modLPort; assumption

theorem keeps_State_takeBack {x0 : State} (x1 : Nat) (x2 : Queued) (h0 : Keeps k fd fc fe fl false fm fh fu false fo fa ft s₀ x0) :
    Keeps k fd fc fe fl false fm fh fu false fo fa ft s₀ (State.takeBack x0 x1 x2) := by
  unfold State.takeBack
  split
  apply keeps_State_reroute
  exact keeps_store_eq ‹_› ‹_›

theorem keeps_State_goDown {x0 : State} (x1 : Nat) (h0 : Keeps k fd fc false false false fm false false false false fa ft s₀ x0) :
    Keeps k fd fc false false false fm false false false false fa ft s₀ (State.goDown x0 x1) := by
  unfold State.goDown
  extract_lets +onlyGivenNames v39
  clear_value v39
  extract_lets +onlyGivenNames v40
  have h40 : Keeps k fd fc false false false fm false false false false fa ft s₀ v40 := by
    subst v40
    apply keeps_State_setLPort; assumption
  clear_value v40
  split
  · extract_lets +onlyGivenNames v42
    have h42 : Keeps k fd fc false false false fm false false false false fa ft s₀ v42 := by
      subst v42
      apply keeps_State_circuitsDown; assumption
    clear_value v42
    extract_lets +onlyGivenNames v45
    have h45 : Keeps k fd fc false false false fm false false false false fa ft s₀ v45 := by
      subst v45
      apply Keeps.foldl
      · intro _ _ _
        apply keeps_State_takeBack; assumption
      · assumption
    clear_value v45
    extract_lets +onlyGivenNames v52
    have h52 : Keeps k fd fc false false false fm false false false false fa ft s₀ v52 := by
      subst v52
      apply keeps_State_requeueAll; assumption
    clear_value v52
    extract_lets +onlyGivenNames v53
    have h53 : Keeps k fd fc false false false fm false false false false fa ft s₀ v53 := by
      subst v53
      split
      · apply keeps_State_addHealth; assumption
      · assumption
    clear_value v53
    apply keeps_State_interruptAll; assumption
  · assumption

theorem keeps_State_replayEvent {x0 : State} (x1 : Nat) (h0 : Keeps k fd fc false false false fm false false false false fa ft s₀ x0) :
    Keeps k fd fc false false false fm false false false false fa ft s₀ (State.replayEvent x0 x1) := by
  unfold State.replayEvent
  extract_lets +onlyGivenNames v47 v48
  clear_value v47 v48
  extract_lets +onlyGivenNames v49
  have h49 : Keeps k fd fc false false false fm false false false false fa ft s₀ v49 := by
    subst v49
    apply keeps_State_setLPort; assumption
  clear_value v49
  extract_lets +onlyGivenNames v50
  have h50 : Keeps k fd fc false false false fm false false false false fa ft s₀ v50 := by
    subst v50
    split
    · apply keeps_State_addHealth; assumption
    · assumption
  clear_value v50
  split
  · apply keeps_State_goDown; assumption
  · assumption

theorem keeps_State_resend {x0 : State} (x1 : Nat) (x2 : Nat) (x3 : Bool) (h0 : Keeps k fd fc false false false fm false false false false fa false s₀ x0) :
    Keeps k fd fc false false false fm false false false false fa false s₀ (State.resend x0 x1 x2 x3) := by
  unfold State.resend
  extract_lets +onlyGivenNames v13 v14
  clear_value v13 v14
  split
  · assumption
  · extract_lets +onlyGivenNames v19
    have h19 : Keeps k fd fc false false false fm false false false false fa false s₀ v19 := by
      subst v19
      apply Keeps.foldl
      · intro _ _ _
        apply keeps_State_emit; assumption
      · assumption
    clear_value v19
    apply keeps_State_replayEvent
    apply keeps_State_modLPort; assumption

theorem keeps_State_commit {x0 : State} (x1 : Nat) (x2 : Queued) (h0 : Keeps k fd fc fe fl false fm fh fu fy fo fa false s₀ x0) :
    Keeps k fd fc fe fl false fm fh fu fy fo fa false s₀ (State.commit x0 x1 x2) := by
  unfold State.commit
  extract_lets +onlyGivenNames v43 v45 v46 v47 v49
  clear_value v43 v45 v46 v47 v49
  extract_lets +onlyGivenNames v51
  have h51 : Keeps k fd fc fe fl false fm fh fu fy fo fa false s₀ v51 := by
    subst v51
    apply Keeps.foldl
    · intro _ _ _
      apply keeps_State_emit; assumption
    · assumption
  clear_value v51
  extract_lets +onlyGivenNames v60
  clear_value v60
  apply keeps_State_dropCopy
  apply keeps_State_setLPort; assumption

/-! Links -/

theorem keeps_onPort {x0 : State} (x1 : Nat) (x2 : Bool) {x3 : State} (h0 : Keeps k fd fc fe fl fb fm fh fu fy fo fa ft s₀ x0) (h3 : Keeps k fd fc fe fl fb fm fh fu fy fo fa ft s₀ x3) :
    OutKeeps k fd fc fe fl fb fm fh fu fy fo fa ft s₀ (onPort x0 x1 x2 x3) := by
  unfold onPort
  apply keeps_onUnit
  apply keeps_whenP
  · assumption
  · assumption

theorem keeps_execLinkDownTimer (x0 : Nat) {x1 : State} (h1 : Keeps k fd fc fe fl false fm fh fu fy fo fa ft s₀ x1) :
    OutKeeps k fd fc fe fl false fm fh fu fy fo fa ft s₀ (execLinkDownTimer x0 x1) := by
  unfold execLinkDownTimer
  extract_lets +onlyGivenNames v28
  clear_value v28
  apply keeps_onPort
  · assumption
  · apply keeps_State_setLPort; assumption

theorem keeps_execTrainingSuccess (x0 : Nat) {x1 : State} (h1 : Keeps k fd fc fe fl false fm fh fu fy fo fa ft s₀ x1) :
    OutKeeps k fd fc fe fl false fm fh fu fy fo fa ft s₀ (execTrainingSuccess x0 x1) := by
  unfold execTrainingSuccess
  extract_lets +onlyGivenNames v28
  clear_value v28
  apply keeps_onPort
  · assumption
  · apply keeps_State_setLPort; assumption

theorem keeps_execTrainingTimeout (x0 : Nat) {x1 : State} (h1 : Keeps k fd fc fe fl false fm fh fu fy fo fa ft s₀ x1) :
    OutKeeps k fd fc fe fl false fm fh fu fy fo fa ft s₀ (execTrainingTimeout x0 x1) := by
  unfold execTrainingTimeout
  extract_lets +onlyGivenNames v31
  clear_value v31
  apply keeps_onPort
  · assumption
  · apply keeps_State_setLPort; assumption

theorem keeps_execHelloSend (x0 : Nat) {x1 : State} (h1 : Keeps k fd fc fe fl false fm fh fu fy fo fa false s₀ x1) :
    OutKeeps k fd fc fe fl false fm fh fu fy fo fa false s₀ (execHelloSend x0 x1) := by
  unfold execHelloSend
  extract_lets +onlyGivenNames v54
  clear_value v54
  apply keeps_onPort
  · assumption
  · apply keeps_State_modLPort
    apply keeps_State_sendLink; assumption

theorem keeps_State_lapse {x0 : State} (x1 : Nat) (h0 : Keeps k fd fc fe fl false fm fh fu fy fo fa ft s₀ x0) :
    Keeps k fd fc fe fl false fm fh fu fy fo fa ft s₀ (State.lapse x0 x1) := by
  unfold State.lapse
  extract_lets +onlyGivenNames v33 v34 v35
  clear_value v33 v34 v35
  apply keeps_State_modLPort
  apply keeps_State_setFab; assumption

theorem keeps_State_goUp {x0 : State} (x1 : Nat) (h0 : Keeps k fd fc fe fl false fm fh false false fo fa ft s₀ x0) :
    Keeps k fd fc fe fl false fm fh false false fo fa ft s₀ (State.goUp x0 x1) := by
  unfold State.goUp
  extract_lets +onlyGivenNames v34
  have h34 : Keeps k fd fc fe fl false fm fh false false fo fa ft s₀ v34 := by
    subst v34
    apply keeps_State_lapse; assumption
  clear_value v34
  extract_lets +onlyGivenNames v37 v38
  clear_value v37 v38
  extract_lets +onlyGivenNames v41
  have h41 : Keeps k fd fc fe fl false fm fh false false fo fa ft s₀ v41 := by
    subst v41
    apply keeps_State_setLPort; assumption
  clear_value v41
  apply keeps_State_interruptAll
  apply Keeps.foldl
  · intro _ _ _
    apply keeps_State_requeueAll; assumption
  · assumption

theorem keeps_execLinkUp (x0 : Nat) {x1 : State} (h1 : Keeps k fd fc fe fl false fm fh false false fo fa ft s₀ x1) :
    OutKeeps k fd fc fe fl false fm fh false false fo fa ft s₀ (execLinkUp x0 x1) := by
  unfold execLinkUp
  apply keeps_onPort
  · assumption
  · apply keeps_State_goUp; assumption

theorem keeps_execLinkFlitSend (x0 : Nat) {x1 : State} (h1 : Keeps k fd fc fe fl false fm fh fu fy fo fa false s₀ x1) :
    OutKeeps k fd fc fe fl false fm fh fu fy fo fa false s₀ (execLinkFlitSend x0 x1) := by
  unfold execLinkFlitSend
  extract_lets +onlyGivenNames v41
  clear_value v41
  apply keeps_onPort
  · assumption
  · apply keeps_State_modLPort
    apply keeps_State_sendLink; assumption

theorem keeps_execTimeMeasure (x0 : Nat) {x1 : State} (h1 : Keeps k fd false fe fl false fm fh fu fy fo fa false s₀ x1) :
    OutKeeps k fd false fe fl false fm fh fu fy fo fa false s₀ (execTimeMeasure x0 x1) := by
  unfold execTimeMeasure
  extract_lets +onlyGivenNames v54
  clear_value v54
  apply keeps_onPort
  · assumption
  · split
    · exact Keeps.upd ‹_› (.of (.refl _))
    · apply keeps_State_modLPort
      apply keeps_State_sendLink; assumption

theorem keeps_State_gatesAfterJump {x0 : State} (h0 : Keeps k fd fc fe fl false fm fh fu fy fo fa ft s₀ x0) :
    Keeps k fd fc fe fl false fm fh fu fy fo fa ft s₀ (State.gatesAfterJump x0) := by
  unfold State.gatesAfterJump
  extract_lets +onlyGivenNames v18
  clear_value v18
  apply Keeps.foldl
  · intro _ _ _
    extract_lets +onlyGivenNames v27
    clear_value v27
    split
    · apply keeps_State_setHot
      apply keeps_State_setPort; assumption
    · apply keeps_State_setPort; assumption
  · assumption

theorem keeps_State_takeTime {x0 : State} (x1 : Nat) (x2 : Nat) (x3 : Nat) (h0 : Keeps k fd false fe fl false fm fh fu fy fo fa ft s₀ x0) :
    Keeps k fd false fe fl false fm fh fu fy fo fa ft s₀ (State.takeTime x0 x1 x2 x3) := by
  unfold State.takeTime
  extract_lets +onlyGivenNames v48 v50
  clear_value v48 v50
  split
  · apply keeps_State_gatesAfterJump
    exact Keeps.upd ‹_› (.of (.refl _))
  · exact Keeps.upd ‹_› (.of (.refl _))

theorem keeps_State_takeAnswer {x0 : State} (x1 : Nat) (x2 : Bytes) (h0 : Keeps k fd false fe fl false fm fh fu fy fo fa ft s₀ x0) :
    Keeps k fd false fe fl false fm fh fu fy fo fa ft s₀ (State.takeAnswer x0 x1 x2) := by
  unfold State.takeAnswer
  extract_lets +onlyGivenNames v55 v56 v57
  clear_value v55 v56 v57
  split
  · apply keeps_State_takeTime; assumption
  · assumption

theorem keeps_State_takeHello {x0 : State} (x1 : Nat) (x2 : Bytes) (h0 : Keeps k fd fc fe fl false fm fh fu false fo fa ft s₀ x0) :
    Keeps k fd fc fe fl false fm fh fu false fo fa ft s₀ (State.takeHello x0 x1 x2) := by
  unfold State.takeHello
  extract_lets +onlyGivenNames v30 v31
  clear_value v30 v31
  apply keeps_State_noteHello
  apply keeps_State_modLPort; assumption

theorem keeps_State_takeLink {x0 : State} (x1 : Nat) (x2 : Bytes) (h0 : Keeps k fd false false false false fm false false false false fa false s₀ x0) :
    Keeps k fd false false false false fm false false false false fa false s₀ (State.takeLink x0 x1 x2) := by
  unfold State.takeLink
  extract_lets +onlyGivenNames v29 v30 v31
  clear_value v29 v30 v31
  extract_lets +onlyGivenNames v32
  have h32 : Keeps k fd false false false false fm false false false false fa false s₀ v32 := by
    subst v32
    apply keeps_State_modLPort; assumption
  clear_value v32
  extract_lets +onlyGivenNames v33
  have h33 : Keeps k fd false false false false fm false false false false fa false s₀ v33 := by
    subst v33
    split
    · apply keeps_State_takeAnswer; assumption
    · assumption
  clear_value v33
  extract_lets +onlyGivenNames v34 v35
  clear_value v34 v35
  split
  · apply keeps_State_resend; assumption
  · assumption

theorem keeps_execLinkFlit (x0 : Nat) (x1 : Bytes) {x2 : State} (h2 : Keeps k fd false false false false fm false false false false fa false s₀ x2) :
    OutKeeps k fd false false false false fm false false false false fa false s₀ (execLinkFlit x0 x1 x2) := by
  unfold execLinkFlit
  extract_lets +onlyGivenNames v32
  clear_value v32
  apply keeps_onPort
  · assumption
  · split
    · apply keeps_State_setLPort; assumption
    · extract_lets +onlyGivenNames v46
      have h46 : Keeps k fd false false false false fm false false false false fa false s₀ v46 := by
        subst v46
        apply keeps_State_setLPort; assumption
      clear_value v46
      split
      · assumption
      · split
        · apply keeps_State_takeLink; assumption
        · split
          · apply keeps_State_takeHello; assumption
          · assumption

theorem keeps_State_refuseFlit {x0 : State} (x1 : Nat) (h0 : Keeps k fd fc false false false fm false false false false fa ft s₀ x0) :
    Keeps k fd fc false false false fm false false false false fa ft s₀ (State.refuseFlit x0 x1) := by
  unfold State.refuseFlit
  extract_lets +onlyGivenNames v55
  clear_value v55
  split
  · assumption
  · apply keeps_State_replayEvent
    apply keeps_State_setLPort; assumption

theorem keeps_State_dropPart {x0 : State} (x1 : Nat) (h0 : Keeps k fd fc fe fl false fm fh fu fy fo fa ft s₀ x0) :
    Keeps k fd fc fe fl false fm fh fu fy fo fa ft s₀ (State.dropPart x0 x1) := by
  unfold State.dropPart
  split
  · assumption
  · apply keeps_State_freeIngress
    apply keeps_State_modLPort; assumption

theorem keeps_State_frameWhole {x0 : State} (x1 : Nat) (x2 : Nat) (x3 : Nat) (x4 : Bytes) (h0 : Keeps k fd fc fe fl false fm fh fu fy fo fa ft s₀ x0) :
    Keeps k fd fc fe fl false fm fh fu fy fo fa ft s₀ (State.frameWhole x0 x1 x2 x3 x4) := by
  unfold State.frameWhole
  apply keeps_State_modLPort; assumption

theorem keeps_State_growPart {x0 : State} (x1 : Nat) (x2 : Nat) (x3 : Nat) (x4 : Bytes) (x5 : Bytes) (x6 : Bool) (h0 : Keeps k fd fc fe fl false fm fh fu false fo fa ft s₀ x0) :
    Keeps k fd fc fe fl false fm fh fu false fo fa ft s₀ (State.growPart x0 x1 x2 x3 x4 x5 x6) := by
  unfold State.growPart
  extract_lets +onlyGivenNames v59 v61 v62
  clear_value v59 v61 v62
  split
  · apply keeps_State_freeIngress
    apply keeps_State_notePort; assumption
  · extract_lets +onlyGivenNames v65
    have h65 : Keeps k fd fc fe fl false fm fh fu false fo fa ft s₀ v65 := by
      subst v65
      apply keeps_State_setLPort; assumption
    clear_value v65
    split
    · apply keeps_State_frameWhole; assumption
    · assumption

theorem keeps_State_takeFlit {x0 : State} (x1 : Nat) (x2 : Bytes) (h0 : Keeps k fd fc fe fl false fm fh fu false fo fa ft s₀ x0) :
    Keeps k fd fc fe fl false fm fh fu false fo fa ft s₀ (State.takeFlit x0 x1 x2) := by
  unfold State.takeFlit
  extract_lets +onlyGivenNames v43
  clear_value v43
  extract_lets +onlyGivenNames v44
  have h44 : Keeps k fd fc fe fl false fm fh fu false fo fa ft s₀ v44 := by
    subst v44
    apply keeps_State_modLPort; assumption
  clear_value v44
  extract_lets +onlyGivenNames v46 v47
  clear_value v46 v47
  split
  · apply keeps_State_growPart
    apply keeps_State_dropPart; assumption
  · split
    · assumption
    · apply keeps_State_growPart
      apply keeps_State_modLPort; assumption

theorem keeps_execDataFlit (x0 : Nat) (x1 : Bytes) {x2 : State} (h2 : Keeps k fd fc false false false fm false false false false fa ft s₀ x2) :
    OutKeeps k fd fc false false false fm false false false false fa ft s₀ (execDataFlit x0 x1 x2) := by
  unfold execDataFlit
  extract_lets +onlyGivenNames v57
  clear_value v57
  apply keeps_onPort
  · assumption
  · split
    · apply keeps_State_refuseFlit
      apply keeps_State_setLPort; assumption
    · extract_lets +onlyGivenNames v65
      have h65 : Keeps k fd fc false false false fm false false false false fa ft s₀ v65 := by
        subst v65
        apply keeps_State_setLPort; assumption
      clear_value v65
      split
      · assumption
      · split
        · apply keeps_State_takeFlit; assumption
        · apply keeps_State_refuseFlit; assumption

theorem keeps_execAckTimeoutResend (x0 : Nat) {x1 : State} (h1 : Keeps k fd fc false false false fm false false false false fa false s₀ x1) :
    OutKeeps k fd fc false false false fm false false false false fa false s₀ (execAckTimeoutResend x0 x1) := by
  unfold execAckTimeoutResend
  extract_lets +onlyGivenNames v24
  clear_value v24
  apply keeps_onPort
  · assumption
  · split
    · assumption
    · apply keeps_State_resend; assumption

theorem keeps_execLinkDown (x0 : Nat) (x1 : DownCause) {x2 : State} (h2 : Keeps k fd fc false false false fm false false false false fa ft s₀ x2) :
    OutKeeps k fd fc false false false fm false false false false fa ft s₀ (execLinkDown x0 x1 x2) := by
  unfold execLinkDown
  extract_lets +onlyGivenNames v52 v53
  clear_value v52 v53
  apply keeps_onUnit
  apply keeps_whenP
  · assumption
  · apply keeps_State_goDown; assumption

theorem keeps_State_sendVector {x0 : State} (x1 : Nat) (x2 : Nat) (h0 : Keeps k fd fc fe fl fb fm fh false fy fo fa false s₀ x0) :
    Keeps k fd fc fe fl fb fm fh false fy fo fa false s₀ (State.sendVector x0 x1 x2) := by
  unfold State.sendVector
  extract_lets +onlyGivenNames v58
  clear_value v58
  split
  · apply keeps_State_setFunc; assumption
  · apply keeps_State_emit; assumption

theorem keeps_State_sendDue {x0 : State} (x1 : Nat) (h0 : Keeps k fd fc fe fl fb fm fh false fy fo fa false s₀ x0) :
    Keeps k fd fc fe fl fb fm fh false fy fo fa false s₀ (State.sendDue x0 x1) := by
  unfold State.sendDue
  extract_lets +onlyGivenNames v35 v36
  clear_value v35 v36
  extract_lets +onlyGivenNames v37
  have h37 : Keeps k fd fc fe fl fb fm fh false fy fo fa false s₀ v37 := by
    subst v37
    apply Keeps.foldl
    · intro _ _ _
      split
      · apply keeps_State_sendVector; assumption
      · assumption
    · assumption
  clear_value v37
  apply keeps_State_modFunc; assumption

theorem keeps_State_tick {x0 : State} (h0 : Keeps k fd false false false false false false false false false fa false s₀ x0) :
    Keeps k fd false false false false false false false false false fa false s₀ (State.tick x0) := by
  unfold State.tick
  extract_lets +onlyGivenNames v36
  have h36 : Keeps k fd false false false false false false false false false fa false s₀ v36 := by
    subst v36
    apply Keeps.foldl
    · intro _ _ _
      split
      · apply keeps_State_sendDue; assumption
      · assumption
    · assumption
  clear_value v36
  extract_lets +onlyGivenNames v40
  have h40 : Keeps k fd false false false false false false false false false fa false s₀ v40 := by
    subst v40
    apply Keeps.foldl
    · intro _ _ _
      apply keeps_State_settleChecks; assumption
    · assumption
  clear_value v40
  extract_lets +onlyGivenNames v45
  have h45 : Keeps k fd false false false false false false false false false fa false s₀ v45 := by
    subst v45
    apply keeps_State_copyTwo
    apply keeps_State_truncateAll
    apply keeps_State_startAll
    apply keeps_State_tellAll; assumption
  clear_value v45
  extract_lets +onlyGivenNames v47
  have h47 : Keeps k fd false false false false false false false false false fa false s₀ v47 := by
    subst v47
    exact Keeps.upd ‹_› (.of (.refl _))
  clear_value v47
  apply keeps_State_moveAll
  apply keeps_State_landAll
  apply keeps_State_logTick; assumption

theorem keeps_execFabricTimeTick {x0 : State} (h0 : Keeps k fd false false false false false false false false false fa false s₀ x0) :
    OutKeeps k fd false false false false false false false false false fa false s₀ (execFabricTimeTick x0) := by
  unfold execFabricTimeTick
  apply keeps_whenP
  · assumption
  · apply keeps_State_tick; assumption

/-! Routing -/

theorem keeps_State_heardEndpoint {x0 : State} (x1 : Nat) (h0 : Keeps k fd fc false false false fm false false false false fa ft s₀ x0) :
    Keeps k fd fc false false false fm false false false false fa ft s₀ (State.heardEndpoint x0 x1) := by
  unfold State.heardEndpoint
  extract_lets +onlyGivenNames v56 v57
  clear_value v56 v57
  extract_lets +onlyGivenNames v58
  have h58 : Keeps k fd fc false false false fm false false false false fa ft s₀ v58 := by
    subst v58
    exact Keeps.upd ‹_› (.of (.refl _))
  clear_value v58
  split
  · apply keeps_State_addHealth; assumption
  · assumption

theorem keeps_State_heard {x0 : State} (x1 : Nat) (x2 : Frame) (h0 : Keeps k fd fc false false false fm false false false false fa ft s₀ x0) :
    Keeps k fd fc false false false fm false false false false fa ft s₀ (State.heard x0 x1 x2) := by
  unfold State.heard
  extract_lets +onlyGivenNames v39
  clear_value v39
  split
  · assumption
  · split
    · exact Keeps.upd ‹_› (.of (.refl _))
    · split
      · apply keeps_State_heardEndpoint; assumption
      · assumption

theorem keeps_State_blameEdge {x0 : State} (x1 : Nat) (x2 : Nat) (h0 : Keeps k fd fc false false false fm false false false false fa ft s₀ x0) :
    Keeps k fd fc false false false fm false false false false fa ft s₀ (State.blameEdge x0 x1 x2) := by
  unfold State.blameEdge
  extract_lets +onlyGivenNames v42
  clear_value v42
  split
  · apply keeps_State_addHealth; assumption
  · assumption

theorem keeps_State_putCopies {x0 : State} (x1 : Option Nat) (x2 : Account) (x3 : Nat) (x4 : List Copy) (h0 : Keeps k fd fc fe fl false fm fh fu fy fo fa ft s₀ x0) :
    Keeps k fd fc fe fl false fm fh fu fy fo fa ft s₀ (State.putCopies x0 x1 x2 x3 x4) := by
  unfold State.putCopies
  split
  · apply keeps_State_freeAccount; assumption
  · split
    apply Keeps.foldl
    · intro _ _ _
      apply keeps_State_enqueue; assumption
    · exact keeps_store_eq ‹_› ‹_›

theorem keeps_State_groupFrame {x0 : State} (x1 : Nat) (x2 : Account) (x3 : Nat) (x4 : Frame) (h0 : Keeps k fd fc fe fl false fm fh fu false fo fa ft s₀ x0) :
    Keeps k fd fc fe fl false fm fh fu false fo fa ft s₀ (State.groupFrame x0 x1 x2 x3 x4) := by
  unfold State.groupFrame
  extract_lets +onlyGivenNames v48
  clear_value v48
  split
  · apply keeps_State_freeAccount
    apply keeps_State_noteDev; assumption
  · extract_lets +onlyGivenNames v49 v50
    clear_value v49 v50
    extract_lets +onlyGivenNames v51
    have h51 : Keeps k fd fc fe fl false fm fh fu false fo fa ft s₀ v51 := by
      subst v51
      apply Keeps.foldl
      · intro _ _ _
        apply keeps_State_notePort; assumption
      · assumption
    clear_value v51
    apply keeps_State_putCopies; assumption

theorem keeps_State_lineFrame {x0 : State} (x1 : Nat) (x2 : Account) (x3 : Nat) (x4 : Frame) (h0 : Keeps k fd fc fe fl false fm fh fu false fo fa ft s₀ x0) :
    Keeps k fd fc fe fl false fm fh fu false fo fa ft s₀ (State.lineFrame x0 x1 x2 x3 x4) := by
  unfold State.lineFrame
  extract_lets +onlyGivenNames v55 v56 v58 v59
  clear_value v55 v56 v58 v59
  extract_lets +onlyGivenNames v60
  have h60 : Keeps k fd fc fe fl false fm fh fu false fo fa ft s₀ v60 := by
    subst v60
    split
    · assumption
    · apply keeps_State_noteDev; assumption
  clear_value v60
  extract_lets +onlyGivenNames v61
  have h61 : Keeps k fd fc fe fl false fm fh fu false fo fa ft s₀ v61 := by
    subst v61
    split
    · apply keeps_State_noteDev; assumption
    · assumption
  clear_value v61
  extract_lets +onlyGivenNames v62
  have h62 : Keeps k fd fc fe fl false fm fh fu false fo fa ft s₀ v62 := by
    subst v62
    apply Keeps.foldl
    · intro _ _ _
      apply keeps_State_notePort; assumption
    · assumption
  clear_value v62
  apply keeps_State_putCopies; assumption

theorem keeps_State_circuitFrame {x0 : State} (x1 : Nat) (x2 : Account) (x3 : Nat) (x4 : Frame) (h0 : Keeps k fd fc fe fl false fm fh fu false fo fa ft s₀ x0) :
    Keeps k fd fc fe fl false fm fh fu false fo fa ft s₀ (State.circuitFrame x0 x1 x2 x3 x4) := by
  unfold State.circuitFrame
  extract_lets +onlyGivenNames v25
  clear_value v25
  extract_lets +onlyGivenNames v26
  have h26 : Keeps k fd fc fe fl false fm fh fu false fo fa ft s₀ v26 := by
    subst v26
    apply keeps_State_freeAccount
    apply keeps_State_noteDev; assumption
  clear_value v26
  split
  · assumption
  · extract_lets +onlyGivenNames v28
    clear_value v28
    split
    · assumption
    · extract_lets +onlyGivenNames v30
      clear_value v30
      apply keeps_State_putCopies; assumption

theorem keeps_State_nakFlow {x0 : State} (x1 : Nat) (x2 : Nat) (x3 : Nat) (h0 : Keeps k fd fc fe fl false fm fh fu false fo fa ft s₀ x0) :
    Keeps k fd fc fe fl false fm fh fu false fo fa ft s₀ (State.nakFlow x0 x1 x2 x3) := by
  unfold State.nakFlow
  extract_lets +onlyGivenNames v54
  clear_value v54
  split
  · assumption
  · split
    · assumption
    · apply keeps_State_tackFlow
      apply keeps_State_setFlow; assumption

theorem keeps_State_wakeFor {x0 : State} (x1 : Nat) (x2 : Nat) (x3 : Nat) (x4 : Bytes) (x5 : Option (Nat × Word × Nat)) (h0 : Keeps k fd fc false fl fb fm fh fu fy fo fa ft s₀ x0) :
    Keeps k fd fc false fl fb fm fh fu fy fo fa ft s₀ (State.wakeFor x0 x1 x2 x3 x4 x5) := by
  unfold State.wakeFor
  split
  · split
    · assumption
    · apply keeps_State_wakeBound; assumption
  · assumption

theorem keeps_State_deliver {x0 : State} (x1 : Nat) (x2 : Frame) (x3 : Option (Nat × Word × Nat)) (h0 : Keeps k fd fc false false false fm false false false false fa ft s₀ x0) :
    Keeps k fd fc false false false fm false false false false fa ft s₀ (State.deliver x0 x1 x2 x3) := by
  unfold State.deliver
  extract_lets +onlyGivenNames v38 v39 v40
  clear_value v38 v39 v40
  split
  · extract_lets +onlyGivenNames v43
    have h43 : Keeps k fd fc false false false fm false false false false fa ft s₀ v43 := by
      subst v43
      apply keeps_State_freeEject; assumption
    clear_value v43
    split
    · assumption
    · apply keeps_State_blameEdge
      apply keeps_State_noteDev; assumption
  · extract_lets +onlyGivenNames v48
    subst v48
    extract_lets +onlyGivenNames v51
    have h51 : Keeps k fd fc false false false fm false false false false fa ft s₀ v51 := by
      subst v51
      apply keeps_State_setFab; assumption
    clear_value v51
    extract_lets +onlyGivenNames v52
    have h52 : Keeps k fd fc false false false fm false false false false fa ft s₀ v52 := by
      subst v52
      apply keeps_State_wakeFor; assumption
    clear_value v52
    split
    · split
      · apply keeps_State_hairTake; assumption
      · assumption
    · assumption

theorem keeps_State_countDelivered {x0 : State} (x1 : Nat) (x2 : Nat) (x3 : Nat) (h0 : Keeps k fd fc fe fl false fm fh fu false fo fa ft s₀ x0) :
    Keeps k fd fc fe fl false fm fh fu false fo fa ft s₀ (State.countDelivered x0 x1 x2 x3) := by
  unfold State.countDelivered
  extract_lets +onlyGivenNames v44
  clear_value v44
  split
  · assumption
  · extract_lets +onlyGivenNames v46
    have h46 : Keeps k fd fc fe fl false fm fh fu false fo fa ft s₀ v46 := by
      subst v46
      apply keeps_State_setFlow; assumption
    clear_value v46
    extract_lets +onlyGivenNames v48
    subst v48
    extract_lets +onlyGivenNames v50
    have h50 : Keeps k fd fc fe fl false fm fh fu false fo fa ft s₀ v50 := by
      subst v50
      apply keeps_State_setFab; assumption
    clear_value v50
    split
    · apply keeps_State_ackFlow; assumption
    · assumption

theorem keeps_State_inOrder {x0 : State} (x1 : Nat) (x2 : Frame) (x3 : Option (Nat × Word × Nat)) (h0 : Keeps k fd fc false false false fm false false false false fa ft s₀ x0) :
    Keeps k fd fc false false false fm false false false false fa ft s₀ (State.inOrder x0 x1 x2 x3) := by
  unfold State.inOrder
  extract_lets +onlyGivenNames v33 v34 v35 v36 v37
  clear_value v33 v34 v35 v36 v37
  extract_lets +onlyGivenNames v38
  subst v38
  extract_lets +onlyGivenNames v39
  have h39 : Keeps k fd fc false false false fm false false false false fa ft s₀ v39 := by
    subst v39
    apply keeps_State_setFab; assumption
  clear_value v39
  split
  · extract_lets +onlyGivenNames v50
    clear_value v50
    apply keeps_State_countDelivered
    apply keeps_State_deliver
    apply keeps_State_setFlow; assumption
  · extract_lets +onlyGivenNames v51 v52
    clear_value v51 v52
    split
    · apply keeps_State_setFlow; assumption
    · extract_lets +onlyGivenNames v53 v54
      clear_value v53 v54
      split
      · extract_lets +onlyGivenNames v55
        have h55 : Keeps k fd fc false false false fm false false false false fa ft s₀ v55 := by
          subst v55
          apply keeps_State_setFlow; assumption
        clear_value v55
        apply keeps_State_countDelivered
        apply Keeps.foldl
        · intro _ _ _
          apply keeps_State_deliver; assumption
        · assumption
      · extract_lets +onlyGivenNames v60
        have h60 : Keeps k fd fc false false false fm false false false false fa ft s₀ v60 := by
          subst v60
          apply keeps_State_setFlow; assumption
        clear_value v60
        extract_lets +onlyGivenNames v61
        have h61 : Keeps k fd fc false false false fm false false false false fa ft s₀ v61 := by
          subst v61
          apply Keeps.foldl
          · intro _ _ _
            apply keeps_State_freeEject; assumption
          · assumption
        clear_value v61
        apply keeps_State_noteDev
        apply keeps_State_tackFlow; assumption

theorem keeps_State_countMark {x0 : State} (x1 : Frame) (h0 : Keeps k fd fc fe fl false fm fh fu fy fo fa ft s₀ x0) :
    Keeps k fd fc fe fl false fm fh fu fy fo fa ft s₀ (State.countMark x0 x1) := by
  unfold State.countMark
  extract_lets +onlyGivenNames v59
  clear_value v59
  split
  · apply keeps_State_setFlow; assumption
  · assumption

theorem keeps_State_takeTack {x0 : State} (x1 : Nat) (x2 : Frame) (h0 : Keeps k fd fc fe fl false fm fh fu fy fo fa ft s₀ x0) :
    Keeps k fd fc fe fl false fm fh fu fy fo fa ft s₀ (State.takeTack x0 x1 x2) := by
  unfold State.takeTack
  split
  · assumption
  · apply keeps_State_setFab; assumption

theorem keeps_State_receive {x0 : State} (x1 : Nat) (x2 : Frame) (x3 : Option (Nat × Word × Nat)) (h0 : Keeps k fd fc false false false fm false false false false fa ft s₀ x0) :
    Keeps k fd fc false false false fm false false false false fa ft s₀ (State.receive x0 x1 x2 x3) := by
  unfold State.receive
  extract_lets +onlyGivenNames v45 v46 v47 v48
  clear_value v45 v46 v47 v48
  split
  · apply keeps_State_takeTack; assumption
  · extract_lets +onlyGivenNames v55
    have h55 : Keeps k fd fc false false false fm false false false false fa ft s₀ v55 := by
      subst v55
      apply keeps_State_countMark; assumption
    clear_value v55
    extract_lets +onlyGivenNames v56 v57
    clear_value v56 v57
    split
    · split
      · apply keeps_State_sendTack; assumption
      · split
        · apply keeps_State_sendTack; assumption
        · apply keeps_State_inOrder
          apply keeps_State_setFlow; assumption
    · extract_lets +onlyGivenNames v58
      have h58 : Keeps k fd fc false false false fm false false false false fa ft s₀ v58 := by
        subst v58
        split
        · split
          · apply keeps_State_setFlow
            apply Keeps.foldl
            · intro _ _ _
              apply keeps_State_freeEject; assumption
            · assumption
          · assumption
        · assumption
      clear_value v58
      split
      · apply keeps_State_ackFlow; assumption
      · extract_lets +onlyGivenNames v68
        clear_value v68
        split
        · split
          · apply keeps_State_noteDev; assumption
          · apply keeps_State_inOrder; assumption
        · split
          · apply keeps_State_ackFlow; assumption
          · apply keeps_State_nakFlow; assumption

theorem keeps_State_badFrame {x0 : State} (x1 : Nat) (x2 : Frame) (h0 : Keeps k fd fc false false false fm false false false false fa ft s₀ x0) :
    Keeps k fd fc false false false fm false false false false fa ft s₀ (State.badFrame x0 x1 x2) := by
  unfold State.badFrame
  extract_lets +onlyGivenNames v60
  have h60 : Keeps k fd fc false false false fm false false false false fa ft s₀ v60 := by
    subst v60
    apply keeps_State_notePort; assumption
  clear_value v60
  extract_lets +onlyGivenNames v63
  clear_value v63
  extract_lets +onlyGivenNames v64
  subst v64
  extract_lets +onlyGivenNames v66
  have h66 : Keeps k fd fc false false false fm false false false false fa ft s₀ v66 := by
    subst v66
    split
    · apply keeps_State_setFab; assumption
    · assumption
  clear_value v66
  split
  · apply keeps_State_blameEdge; assumption
  · assumption

theorem keeps_State_spoiltFrame {x0 : State} (x1 : Nat) (x2 : Nat) (x3 : Account) (h0 : Keeps k fd fc fe fl false fm fh fu false fo fa ft s₀ x0) :
    Keeps k fd fc fe fl false fm fh fu false fo fa ft s₀ (State.spoiltFrame x0 x1 x2 x3) := by
  unfold State.spoiltFrame
  apply keeps_State_freeAccount
  apply keeps_State_notePort; assumption

theorem keeps_State_handleFrame {x0 : State} (x1 : Nat) (x2 : Frame) (x3 : Nat) (x4 : Account) (x5 : Option (Nat × Word × Nat)) (h0 : Keeps k fd fc false false false fm false false false false fa ft s₀ x0) :
    Keeps k fd fc false false false fm false false false false fa ft s₀ (State.handleFrame x0 x1 x2 x3 x4 x5) := by
  unfold State.handleFrame
  extract_lets +onlyGivenNames v63
  clear_value v63
  extract_lets +onlyGivenNames v64
  have h64 : Keeps k fd fc false false false fm false false false false fa ft s₀ v64 := by
    subst v64
    apply keeps_State_heard; assumption
  clear_value v64
  split
  · apply keeps_State_freeAccount
    apply keeps_State_badFrame; assumption
  · split
    · apply keeps_State_freeAccount
      apply keeps_State_blameEdge
      apply keeps_State_notePort; assumption
    · split
      · apply keeps_State_groupFrame; assumption
      · apply keeps_State_lineFrame; assumption
      · apply keeps_State_circuitFrame; assumption
      · split
        · apply keeps_State_receive
          apply keeps_State_freeAccount; assumption
        · split
          apply keeps_State_takeHop
          exact keeps_store_eq ‹_› ‹_›

theorem keeps_execFrameReceive (x0 : Nat) (x1 : Reception) {x3 : State} (h3 : Keeps k fd fc false false false fm false false false false fa ft s₀ x3) :
    OutKeeps k fd fc false false false fm false false false false fa ft s₀ (execFrameReceive x0 x1 x3) := by
  unfold execFrameReceive
  apply keeps_onUnit
  split
  · apply keeps_same; assumption
  · apply keeps_whenP
    · assumption
    · extract_lets +onlyGivenNames v29
      have h29 : Keeps k fd fc false false false fm false false false false fa ft s₀ v29 := by
        subst v29
        apply keeps_State_modLPort; assumption
      clear_value v29
      split
      · apply keeps_State_spoiltFrame; assumption
      · apply keeps_State_handleFrame; assumption

theorem keeps_execLinkHoldExpiry (x0 : Nat) (x1 : Nat) {x2 : State} (h2 : Keeps k fd fc fe fl false fm fh fu false fo fa ft s₀ x2) :
    OutKeeps k fd fc fe fl false fm fh fu false fo fa ft s₀ (execLinkHoldExpiry x0 x1 x2) := by
  unfold execLinkHoldExpiry
  extract_lets +onlyGivenNames v55 v56 v57
  clear_value v55 v56 v57
  apply keeps_onUnit
  apply keeps_whenP
  · assumption
  · extract_lets +onlyGivenNames v58
    clear_value v58
    extract_lets +onlyGivenNames v59
    have h59 : Keeps k fd fc fe fl false fm fh fu false fo fa ft s₀ v59 := by
      subst v59
      apply keeps_State_setLPort; assumption
    clear_value v59
    apply Keeps.foldl
    · intro _ _ _
      apply keeps_State_dropCopy
      apply keeps_State_notePort; assumption
    · assumption

/-! Circuits -/

theorem keeps_onCctl (x0 : Nat) (x1 : Nat) {x2 : State} (x3 : Nat → Arrived → State → State) (h2 : Keeps k fd fc fe fl false fm fh fu false fo fa ft s₀ x2)
    (h3 : ∀ y0 y1 y2, Keeps k fd fc fe fl false fm fh fu false fo fa ft s₀ y2 → Keeps k fd fc fe fl false fm fh fu false fo fa ft s₀ (x3 y0 y1 y2)) : OutKeeps k fd fc fe fl false fm fh fu false fo fa ft s₀ (onCctl x0 x1 x2 x3) := by
  unfold onCctl
  apply keeps_onUnit
  split
  · exact keeps_same h2
  · exact keeps_whenP _ h2 (h3 _ _ _ (keeps_State_freeEject _ _ _ (keeps_State_setFab _ h2)))

theorem keeps_State_setUpHop {x0 : State} (x1 : Nat) (x2 : Nat) (x3 : Arrived) (h0 : Keeps k fd fc fe fl false fm fh fu false fo fa ft s₀ x0) :
    Keeps k fd fc fe fl false fm fh fu false fo fa ft s₀ (State.setUpHop x0 x1 x2 x3) := by
  unfold State.setUpHop
  extract_lets +onlyGivenNames v44 v45
  clear_value v44 v45
  extract_lets +onlyGivenNames v46
  subst v46
  extract_lets +onlyGivenNames v47
  subst v47
  split
  · apply keeps_State_cctlOn; assumption
  · split
    · apply keeps_State_cctlOn
      apply keeps_State_noteDev; assumption
    · split
      · split
        · apply keeps_State_cctlOn
          apply keeps_State_setCircuit; assumption
        · apply keeps_State_cctlOn; assumption
      · split
        · apply keeps_State_cctlOn
          apply keeps_State_setCircuit; assumption
        · apply keeps_State_noteDev; assumption

theorem keeps_execCsetup (x0 : Nat) {x1 : State} (h1 : Keeps k fd fc fe fl false fm fh fu false fo fa ft s₀ x1) :
    OutKeeps k fd fc fe fl false fm fh fu false fo fa ft s₀ (execCsetup x0 x1) := by
  unfold execCsetup
  apply keeps_onCctl
  · assumption
  · intro _ _ _ _
    apply keeps_State_setUpHop; assumption

theorem keeps_State_fromOut {x0 : State} (x1 : Nat) (x2 : Nat) (x3 : Circuit → State) (h0 : Keeps k fd fc fe fl fb fm fh fu fy fo fa ft s₀ x0)
    (h3 : ∀ y0, Keeps k fd fc fe fl fb fm fh fu fy fo fa ft s₀ (x3 y0)) : Keeps k fd fc fe fl fb fm fh fu fy fo fa ft s₀ (x0.fromOut x1 x2 x3) := by
  unfold State.fromOut
  split
  · split
    · exact h3 _
    · exact h0
  · exact h0

theorem keeps_execCready (x0 : Nat) {x1 : State} (h1 : Keeps k fd fc fe fl false fm fh false false fo fa ft s₀ x1) :
    OutKeeps k fd fc fe fl false fm fh false false fo fa ft s₀ (execCready x0 x1) := by
  unfold execCready
  apply keeps_onCctl
  · assumption
  · intro _ _ _ _
    apply keeps_State_fromOut
    · assumption
    · intro _
      split
      · assumption
      · extract_lets +onlyGivenNames v61
        clear_value v61
        extract_lets +onlyGivenNames v62
        have h62 : Keeps k fd fc fe fl false fm fh false false fo fa ft s₀ v62 := by
          subst v62
          apply keeps_State_setCircuit; assumption
        clear_value v62
        split
        · assumption
        · split
          · apply keeps_State_endWaits; assumption
          · apply keeps_State_cctlOn; assumption

theorem keeps_execCfail (x0 : Nat) {x1 : State} (h1 : Keeps k fd fc fe fl false fm fh false false fo fa ft s₀ x1) :
    OutKeeps k fd fc fe fl false fm fh false false fo fa ft s₀ (execCfail x0 x1) := by
  unfold execCfail
  apply keeps_onCctl
  · assumption
  · intro _ _ _ _
    apply keeps_State_fromOut
    · assumption
    · intro _
      extract_lets +onlyGivenNames v41
      have h41 : Keeps k fd fc fe fl false fm fh false false fo fa ft s₀ v41 := by
        subst v41
        apply keeps_State_freeCircuit; assumption
      clear_value v41
      split
      · apply keeps_State_endWaits; assumption
      · apply keeps_State_cctlOn; assumption

theorem keeps_execCtear (x0 : Nat) {x1 : State} (h1 : Keeps k fd fc fe fl false fm fh false false fo fa ft s₀ x1) :
    OutKeeps k fd fc fe fl false fm fh false false fo fa ft s₀ (execCtear x0 x1) := by
  unfold execCtear
  apply keeps_onCctl
  · assumption
  · intro _ _ _ _
    split
    · split
      · apply keeps_State_endWaits
        apply keeps_State_tearCircuit; assumption
      · assumption
    · assumption

theorem keeps_execCbroken (x0 : Nat) {x1 : State} (h1 : Keeps k fd fc fe fl false fm fh false false fo fa ft s₀ x1) :
    OutKeeps k fd fc fe fl false fm fh false false fo fa ft s₀ (execCbroken x0 x1) := by
  unfold execCbroken
  apply keeps_onCctl
  · assumption
  · intro _ _ _ _
    apply keeps_State_fromOut
    · assumption
    · intro _
      apply keeps_State_breakCircuit; assumption

theorem keeps_execCircuitTimeout (x0 : Nat) {x1 : State} (h1 : Keeps k fd fc fe fl false fm fh false false fo fa ft s₀ x1) :
    OutKeeps k fd fc fe fl false fm fh false false fo fa ft s₀ (execCircuitTimeout x0 x1) := by
  unfold execCircuitTimeout
  split
  · apply keeps_same; assumption
  · apply keeps_whenP
    · assumption
    · apply keeps_State_endWaits
      apply keeps_State_tearCircuit; assumption

end Sys2Proof.Machine
end

