-- ==== Sys2Proof/Laws/KeepsRegs.lean ====
section
/-!
SUPPORT. `Keeps` for common instructions, registers and images: one lemma per operation.
-/

set_option Elab.async false

namespace Sys2Proof.Machine

variable {k fd fc fe fl fb fm fh fu fy fo fa ft : Bool} {s₀ s : State}

/-! Common -/

theorem keeps_execNop (x0 : Nat) (x1 : EngId) (x2 : IWord) {x3 : State} (h3 : Keeps k fd fc false false false false fh fu false fo fa ft s₀ x3) :
    OutKeeps k fd fc false false false false fh fu false fo fa ft s₀ (execNop x0 x1 x2 x3) := by
  unfold execNop
  apply keeps_issue
  · assumption
  · intro _ _ _
    apply keeps_legal
    apply ResKeeps.go
    assumption

theorem keeps_State_endChunk {x0 : State} (x1 : EngId) (x2 : Nat) (x3 : Engine) (h0 : Keeps k fd fc fe false fb fm fh fu fy fo fa ft s₀ x0) :
    Keeps k fd fc fe false fb fm fh fu fy fo fa ft s₀ (State.endChunk x0 x1 x2 x3) := by
  unfold State.endChunk
  split
  · assumption
  · apply keeps_State_modGen; assumption

theorem keeps_execEndStudy (x0 : Nat) (x1 : EngId) (x2 : IWord) {x3 : State} (h3 : Keeps k fd fc false false false false fh fu false fo fa ft s₀ x3) :
    OutKeeps k fd fc false false false false fh fu false fo fa ft s₀ (execEndStudy x0 x1 x2 x3) := by
  unfold execEndStudy
  apply keeps_issue
  · assumption
  · intro _ _ _
    apply keeps_legal
    extract_lets +onlyGivenNames v63 v64 v65
    clear_value v63 v64 v65
    split
    · exact ResKeeps.fault
    · extract_lets +onlyGivenNames v67
      have h67 : Keeps k fd fc false false false false fh fu false fo fa ft s₀ v67 := by
        subst v67
        apply keeps_State_modEasel
        apply keeps_State_endChunk; assumption
      clear_value v67
      apply ResKeeps.go
      apply keeps_State_modEngine; assumption

theorem keeps_execBr (x0 : Nat) (x1 : EngId) (x2 : IWord) {x3 : State} (h3 : Keeps k fd fc false false false false fh fu false fo fa ft s₀ x3) :
    OutKeeps k fd fc false false false false fh fu false fo fa ft s₀ (execBr x0 x1 x2 x3) := by
  unfold execBr
  apply keeps_issue
  · assumption
  · intro _ _ _
    apply keeps_legal
    extract_lets +onlyGivenNames v59
    clear_value v59
    split
    · exact ResKeeps.fault
    · apply ResKeeps.go
      assumption

theorem keeps_execLoop (x0 : Nat) (x1 : EngId) (x2 : IWord) {x3 : State} (h3 : Keeps k fd fc false false false false fh fu false fo fa ft s₀ x3) :
    OutKeeps k fd fc false false false false fh fu false fo fa ft s₀ (execLoop x0 x1 x2 x3) := by
  unfold execLoop
  apply keeps_issue
  · assumption
  · intro _ _ _
    apply keeps_legal
    extract_lets +onlyGivenNames v53
    clear_value v53
    split
    · exact ResKeeps.fault
    · split
      · apply ResKeeps.go
        assumption
      · split
        · exact ResKeeps.fault
        · apply ResKeeps.go
          assumption

theorem keeps_State_holdIn {x0 : State} (x1 : Nat) (x2 : EngId) (x3 : Nat) (x4 : HoldKind) (h0 : Keeps k fd fc false fl fb fm fh fu fy fo fa ft s₀ x0) :
    Keeps k fd fc false fl fb fm fh fu fy fo fa ft s₀ (State.holdIn x0 x1 x2 x3 x4) := by
  unfold State.holdIn
  apply keeps_State_modEngine; assumption

theorem keeps_execWait (x0 : Nat) (x1 : EngId) (x2 : IWord) {x3 : State} (h3 : Keeps k fd fc false false false false fh fu false fo fa ft s₀ x3) :
    OutKeeps k fd fc false false false false fh fu false fo fa ft s₀ (execWait x0 x1 x2 x3) := by
  unfold execWait
  apply keeps_issue
  · assumption
  · intro _ _ _
    apply keeps_legal
    apply ResKeeps.go
    apply keeps_State_holdIn; assumption

theorem keeps_State_sendSig {x0 : State} (x1 : Nat) (x2 : Sig) (h0 : Keeps k fd fc false fl fb fm fh fu fy fo fa ft s₀ x0) :
    Keeps k fd fc false fl fb fm fh fu fy fo fa ft s₀ (State.sendSig x0 x1 x2) := by
  unfold State.sendSig
  apply keeps_State_modEasel; assumption

theorem keeps_execSignal (x0 : Nat) (x1 : EngId) (x2 : IWord) {x3 : State} (h3 : Keeps k fd fc false false false false fh fu false fo fa ft s₀ x3) :
    OutKeeps k fd fc false false false false fh fu false fo fa ft s₀ (execSignal x0 x1 x2 x3) := by
  unfold execSignal
  apply keeps_issue
  · assumption
  · intro _ _ _
    apply keeps_legal
    extract_lets +onlyGivenNames v40
    clear_value v40
    split
    · apply ResKeeps.go
      apply keeps_State_sendSig; assumption
    · split
      · apply keeps_illegal
      · apply ResKeeps.go
        apply Keeps.foldl
        · intro _ _ _
          apply keeps_State_wake
          apply keeps_State_sendSig; assumption
        · assumption

theorem keeps_execPush (x0 : Nat) (x1 : EngId) (x2 : IWord) {x3 : State} (h3 : Keeps k fd fc false false false false fh fu false fo fa ft s₀ x3) :
    OutKeeps k fd fc false false false false fh fu false fo fa ft s₀ (execPush x0 x1 x2 x3) := by
  unfold execPush
  apply keeps_issue
  · assumption
  · intro _ _ _
    apply keeps_legal
    split
    · apply keeps_illegal
    · split
      · apply keeps_illegal
      · apply ResKeeps.go
        apply keeps_State_holdIn; assumption

theorem keeps_execTake (x0 : Nat) (x1 : EngId) (x2 : IWord) {x3 : State} (h3 : Keeps k fd fc false false false false fh fu false fo fa ft s₀ x3) :
    OutKeeps k fd fc false false false false fh fu false fo fa ft s₀ (execTake x0 x1 x2 x3) := by
  unfold execTake
  apply keeps_issue
  · assumption
  · intro _ _ _
    apply keeps_legal
    apply ResKeeps.go
    apply keeps_State_holdIn; assumption

theorem keeps_execCset (x0 : Nat) (x1 : EngId) (x2 : IWord) {x3 : State} (h3 : Keeps k fd fc false false false false fh fu false fo fa ft s₀ x3) :
    OutKeeps k fd fc false false false false fh fu false fo fa ft s₀ (execCset x0 x1 x2 x3) := by
  unfold execCset
  apply keeps_issue
  · assumption
  · intro _ _ _
    apply keeps_legal
    apply ResKeeps.go
    apply keeps_State_after; assumption

theorem keeps_execCadd (x0 : Nat) (x1 : EngId) (x2 : IWord) {x3 : State} (h3 : Keeps k fd fc false false false false fh fu false fo fa ft s₀ x3) :
    OutKeeps k fd fc false false false false fh fu false fo fa ft s₀ (execCadd x0 x1 x2 x3) := by
  unfold execCadd
  apply keeps_issue
  · assumption
  · intro _ _ _
    apply keeps_legal
    apply ResKeeps.go
    apply keeps_State_after; assumption

theorem keeps_execCmov (x0 : Nat) (x1 : EngId) (x2 : IWord) {x3 : State} (h3 : Keeps k fd fc false false false false fh fu false fo fa ft s₀ x3) :
    OutKeeps k fd fc false false false false fh fu false fo fa ft s₀ (execCmov x0 x1 x2 x3) := by
  unfold execCmov
  apply keeps_issue
  · assumption
  · intro _ _ _
    apply keeps_legal
    apply ResKeeps.go
    apply keeps_State_after; assumption

theorem keeps_execKset (x0 : Nat) (x1 : EngId) (x2 : IWord) {x3 : State} (h3 : Keeps k fd fc false false false false fh fu false fo fa ft s₀ x3) :
    OutKeeps k fd fc false false false false fh fu false fo fa ft s₀ (execKset x0 x1 x2 x3) := by
  unfold execKset
  apply keeps_issue
  · assumption
  · intro _ _ _
    apply keeps_legal
    split
    · apply keeps_illegal
    · apply ResKeeps.go
      apply keeps_State_after; assumption

theorem keeps_execSmovi (x0 : Nat) (x1 : EngId) (x2 : IWord) {x3 : State} (h3 : Keeps k fd fc false false false false fh fu false fo fa ft s₀ x3) :
    OutKeeps k fd fc false false false false fh fu false fo fa ft s₀ (execSmovi x0 x1 x2 x3) := by
  unfold execSmovi
  apply keeps_issue
  · assumption
  · intro _ _ _
    apply keeps_legal
    apply ResKeeps.go
    apply keeps_State_after; assumption

theorem keeps_execSalu (x0 : Nat) (x1 : EngId) (x2 : IWord) {x3 : State} (h3 : Keeps k fd fc false false false false fh fu false fo fa ft s₀ x3) :
    OutKeeps k fd fc false false false false fh fu false fo fa ft s₀ (execSalu x0 x1 x2 x3) := by
  unfold execSalu
  apply keeps_issue
  · assumption
  · intro _ _ _
    apply keeps_legal
    split
    · apply keeps_illegal
    · apply ResKeeps.go
      apply keeps_State_after; assumption

theorem keeps_execSaddi (x0 : Nat) (x1 : EngId) (x2 : IWord) {x3 : State} (h3 : Keeps k fd fc false false false false fh fu false fo fa ft s₀ x3) :
    OutKeeps k fd fc false false false false fh fu false fo fa ft s₀ (execSaddi x0 x1 x2 x3) := by
  unfold execSaddi
  apply keeps_issue
  · assumption
  · intro _ _ _
    apply keeps_legal
    apply ResKeeps.go
    apply keeps_State_after; assumption

theorem keeps_execSmov (x0 : Nat) (x1 : EngId) (x2 : IWord) {x3 : State} (h3 : Keeps k fd fc false false false false fh fu false fo fa ft s₀ x3) :
    OutKeeps k fd fc false false false false fh fu false fo fa ft s₀ (execSmov x0 x1 x2 x3) := by
  unfold execSmov
  apply keeps_issue
  · assumption
  · intro _ _ _
    apply keeps_legal
    split
    · apply keeps_illegal
    · apply ResKeeps.go
      apply keeps_State_after; assumption

theorem keeps_execMode (x0 : Nat) (x1 : EngId) (x2 : IWord) {x3 : State} (h3 : Keeps k fd fc false false false false fh fu false fo fa ft s₀ x3) :
    OutKeeps k fd fc false false false false fh fu false fo fa ft s₀ (execMode x0 x1 x2 x3) := by
  unfold execMode
  apply keeps_issue
  · assumption
  · intro _ _ _
    apply keeps_legal
    split
    · exact ResKeeps.fault
    · apply ResKeeps.go
      apply keeps_State_after; assumption

theorem keeps_execSeed (x0 : Nat) (x1 : EngId) (x2 : IWord) {x3 : State} (h3 : Keeps k fd fc false false false false fh fu false fo fa ft s₀ x3) :
    OutKeeps k fd fc false false false false fh fu false fo fa ft s₀ (execSeed x0 x1 x2 x3) := by
  unfold execSeed
  apply keeps_issue
  · assumption
  · intro _ _ _
    apply keeps_legal
    apply ResKeeps.go
    apply keeps_State_after; assumption

theorem keeps_execFclr (x0 : Nat) (x1 : EngId) (x2 : IWord) {x3 : State} (h3 : Keeps k fd fc false false false false fh fu false fo fa ft s₀ x3) :
    OutKeeps k fd fc false false false false fh fu false fo fa ft s₀ (execFclr x0 x1 x2 x3) := by
  unfold execFclr
  apply keeps_issue
  · assumption
  · intro _ _ _
    apply keeps_legal
    apply ResKeeps.go
    apply keeps_State_after; assumption

/-! RegRead -/

theorem keeps_State_readLatch {x0 : State} (x1 : Nat) (x2 : Nat) (h0 : Keeps k fd fc fe fl fb fm fh false fy fo fa ft s₀ x0) :
    Keeps k fd fc fe fl fb fm fh false fy fo fa ft s₀ (State.readLatch x0 x1 x2) := by
  unfold State.readLatch
  split
  · apply keeps_State_modFunc; assumption
  · apply keeps_State_modFunc; assumption
  · apply keeps_State_modFunc; assumption
  · apply keeps_State_modFunc; assumption
  · assumption

theorem keeps_readWords (f n o : Nat) {x0 : State} (h0 : Keeps k fd fc fe fl fb fm fh false false fo fa false s₀ x0) : Keeps k fd fc fe fl fb fm fh false false fo fa false s₀ (readWords f n o x0).1 := by
  induction n generalizing o x0 with
  | zero => exact h0
  | succ n ih => exact ih _ (keeps_State_readLatch _ _ h0)

theorem keeps_State_bar0Read {x0 : State} (x1 x2 x3 : Nat) (h0 : Keeps k fd fc fe fl fb fm fh false false fo fa false s₀ x0) : Keeps k fd fc fe fl fb fm fh false false fo fa false s₀ (x0.bar0Read x1 x2 x3) := by
  unfold State.bar0Read
  split
  · extract_lets r
    exact keeps_State_emit _ (keeps_readWords _ _ _ h0)
  · exact keeps_State_abortRead _ (keeps_State_note _ _ _ _ _ _ h0)

/-! RegWrite -/

theorem keeps_Wr_host (x0 : Wr) {x1 : State} (x2 : Nat) (h0 : WrKeeps k fd fc fe fl fb fm fh false false fo fa ft s₀ x0) (h1 : Keeps k fd fc fe fl fb fm fh false false fo fa ft s₀ x1) :
    Keeps k fd fc fe fl fb fm fh false false fo fa ft s₀ (Wr.host x0 x1 x2) := by
  unfold Wr.host
  split
  · assumption
  · apply keeps_State_ignored; assumption
  · assumption

theorem keeps_inRange (x0 : Bool) {x1 : State} (h1 : Keeps k fd fc fe fl fb fm fh fu fy fo fa ft s₀ x1) :
    WrKeeps k fd fc fe fl fb fm fh fu fy fo fa ft s₀ (inRange x0 x1) := by
  unfold inRange
  split
  · apply WrKeeps.set
    assumption
  · exact WrKeeps.ignore

theorem keeps_State_setHealth {x0 : State} (x1 : Health) (h0 : Keeps k fd fc fe fl fb fm false fu fy fo fa ft s₀ x0) :
    Keeps k fd fc fe fl fb fm false fu fy fo fa ft s₀ (State.setHealth x0 x1) := by
  unfold State.setHealth
  exact Keeps.upd ‹_› (.of (.refl _))

theorem keeps_State_setMem {x0 : State} (x1 : Mem) (h0 : Keeps k fd fc fe fl fb false fh fu fy fo fa ft s₀ x0) (hm : Memory.wf x0.mem.cells = true → Memory.wf x1.cells = true) :
    Keeps k fd fc fe fl fb false fh fu fy fo fa ft s₀ (x0.setMem x1) :=
  h0.of (cells := hm)

theorem keeps_State_setColl {x0 : State} (x1 : Coll) (h0 : Keeps k fd fc fe false fb fm fh fu fy fo fa ft s₀ x0) :
    Keeps k fd fc fe false fb fm fh fu fy fo fa ft s₀ (State.setColl x0 x1) := by
  unfold State.setColl
  exact Keeps.upd ‹_› (.of (.refl _))

theorem keeps_State_writeWindow {x0 : State} (x1 : Nat) (x2 : Nat) (h0 : Keeps k fd fc fe fl false fm fh fu fy fo fa ft s₀ x0) :
    WrKeeps k fd fc fe fl false fm fh fu fy fo fa ft s₀ (State.writeWindow x0 x1 x2) := by
  unfold State.writeWindow
  apply keeps_inRange
  apply keeps_State_setFab; assumption

theorem keeps_State_writeFault {x0 : State} (x1 : Nat) (x2 : Nat) (h0 : Keeps k fd fc fe fl fb fm false fu fy fo fa ft s₀ x0) :
    WrKeeps k fd fc fe fl fb fm false fu fy fo fa ft s₀ (State.writeFault x0 x1 x2) := by
  unfold State.writeFault
  extract_lets +onlyGivenNames v60
  clear_value v60
  split
  · apply keeps_inRange
    apply keeps_State_setHealth; assumption
  · extract_lets +onlyGivenNames v63
    apply keeps_inRange
    apply keeps_State_setHealth; assumption
  · apply WrKeeps.set
    apply keeps_State_setHealth; assumption
  · extract_lets +onlyGivenNames v64 v65
    clear_value v64 v65
    apply keeps_inRange
    apply keeps_State_setHealth; assumption
  · extract_lets +onlyGivenNames v66
    clear_value v66
    apply keeps_inRange
    apply keeps_State_setHealth; assumption
  · exact WrKeeps.ignore

theorem keeps_State_writeGesso {x0 : State} (x1 : Bool) (x2 : Nat) (h0 : Keeps k fd fc fe fl fb false fh fu false fo fa ft s₀ x0) :
    Keeps k fd fc fe fl fb false fh fu false fo fa ft s₀ (State.writeGesso x0 x1 x2) := by
  unfold State.writeGesso
  split
  · apply keeps_State_noteDev; assumption
  · extract_lets +onlyGivenNames v44
    subst v44
    extract_lets +onlyGivenNames v45
    clear_value v45
    split
    · assumption
    · apply keeps_State_setMem
      · assumption
      · intro _
        exact tcanon_filter _ ‹_›

theorem keeps_State_writeMapout {x0 : State} (x1 : Nat) (h0 : Keeps k false fc false false false false false false false false fa ft s₀ x0) :
    Keeps k false fc false false false false false false false false fa ft s₀ (State.writeMapout x0 x1) := by
  unfold State.writeMapout
  extract_lets +onlyGivenNames v49
  clear_value v49
  split
  · assumption
  · split
    · apply keeps_State_mapOut; assumption
    · apply keeps_State_note; assumption

theorem keeps_State_writeStrict {x0 : State} (x1 : Nat) (h0 : Keeps k fd fc fe false fb fm fh fu false fo fa ft s₀ x0) :
    Keeps k fd fc fe false fb fm fh fu false fo fa ft s₀ (State.writeStrict x0 x1) := by
  unfold State.writeStrict
  extract_lets +onlyGivenNames v67
  clear_value v67
  split
  · assumption
  · split
    · apply keeps_State_noteDev; assumption
    · apply keeps_State_setColl; assumption

theorem keeps_State_writeGlobal {x0 : State} (x1 : Bool) (x2 : Nat) (x3 : Nat) (h0 : Keeps k false fc false false false false false false false false fa ft s₀ x0) :
    WrKeeps k false fc false false false false false false false false fa ft s₀ (State.writeGlobal x0 x1 x2 x3) := by
  unfold State.writeGlobal
  extract_lets +onlyGivenNames v54 v55
  clear_value v54 v55
  extract_lets +onlyGivenNames v56
  subst v56
  split
  · extract_lets +onlyGivenNames v59
    apply keeps_inRange
    apply keeps_State_setColl; assumption
  · apply keeps_inRange
    apply keeps_State_setColl; assumption
  · extract_lets +onlyGivenNames v60
    clear_value v60
    apply keeps_inRange
    apply keeps_State_setColl; assumption
  · split
    · apply WrKeeps.set
      apply keeps_State_setFab; assumption
    · exact WrKeeps.ignore
  · split
    · apply WrKeeps.set
      apply keeps_State_setFab; assumption
    · exact WrKeeps.ignore
  · split
    · apply WrKeeps.set
      apply keeps_State_setFab; assumption
    · exact WrKeeps.ignore
  · extract_lets +onlyGivenNames v62
    extract_lets +onlyGivenNames v63
    clear_value v63
    apply keeps_inRange
    apply keeps_State_setFab; assumption
  · extract_lets +onlyGivenNames v64 v65
    clear_value v64 v65
    apply keeps_inRange
    apply keeps_State_setFab; assumption
  · split
    · apply WrKeeps.set
      apply keeps_State_setMem
      · assumption
      · intro _
        assumption
    · exact WrKeeps.ignore
  · apply WrKeeps.set
    apply keeps_State_setMem
    · assumption
    · intro _
      assumption
  · apply WrKeeps.set
    split
    · split
      · apply keeps_State_note; assumption
      · assumption
    · apply keeps_State_writeMapout; assumption
  · apply WrKeeps.set
    apply keeps_State_writeGesso; assumption
  · apply WrKeeps.set
    apply keeps_State_writeGesso; assumption
  · apply WrKeeps.set
    apply keeps_State_writeStrict; assumption
  · split
    · apply keeps_State_writeWindow; assumption
    · split
      · apply keeps_State_writeFault; assumption
      · exact WrKeeps.ignore

theorem keeps_State_writeFunc {x0 : State} (x1 : Nat) (x2 : Nat) (x3 : Nat) (h0 : Keeps k fd fc fe fl fb fm fh false fy fo fa ft s₀ x0) :
    WrKeeps k fd fc fe fl fb fm fh false fy fo fa ft s₀ (State.writeFunc x0 x1 x2 x3) := by
  unfold State.writeFunc
  split
  · apply WrKeeps.set
    split
    · apply keeps_State_modFunc; assumption
    · assumption
  · apply WrKeeps.set
    apply keeps_State_modFunc; assumption
  · apply WrKeeps.set
    apply keeps_State_modFunc; assumption
  · apply WrKeeps.set
    apply keeps_State_modFunc; assumption
  · exact WrKeeps.ignore

theorem keeps_State_followEnable {x0 : State} (x1 : Nat) (h0 : Keeps k fd fc false false false fm false false false false fa ft s₀ x0) :
    Keeps k fd fc false false false fm false false false false fa ft s₀ (State.followEnable x0 x1) := by
  unfold State.followEnable
  extract_lets +onlyGivenNames v31
  clear_value v31
  split
  · split
    · apply keeps_State_setLPort; assumption
    · assumption
  · split
    · apply keeps_State_goDown; assumption
    · split
      · assumption
      · apply keeps_State_setLPort; assumption

theorem keeps_State_writePortCfg {x0 : State} (x1 : Nat) (x2 : Nat) (h0 : Keeps k fd fc false false false fm false false false false fa ft s₀ x0) :
    WrKeeps k fd fc false false false fm false false false false fa ft s₀ (State.writePortCfg x0 x1 x2) := by
  unfold State.writePortCfg
  extract_lets +onlyGivenNames v61 v62
  clear_value v61 v62
  split
  · apply WrKeeps.set
    apply keeps_State_notePort; assumption
  · split
    · exact WrKeeps.refuse
    · extract_lets +onlyGivenNames v72
      clear_value v72
      extract_lets +onlyGivenNames v73
      have h73 : Keeps k fd fc false false false fm false false false false fa ft s₀ v73 := by
        subst v73
        apply keeps_State_setPort; assumption
      clear_value v73
      extract_lets +onlyGivenNames v74
      have h74 : Keeps k fd fc false false false fm false false false false fa ft s₀ v74 := by
        subst v74
        split
        · apply Keeps.foldl
          · intro _ _ _
            apply keeps_State_goDown; assumption
          · assumption
        · assumption
      clear_value v74
      apply WrKeeps.set
      apply Keeps.foldl
      · intro _ _ _
        apply keeps_State_followEnable; assumption
      · assumption

theorem keeps_State_writeLportCfg {x0 : State} (x1 : Nat) (x2 : Nat) (h0 : Keeps k fd fc fe fl false fm fh fu false fo fa ft s₀ x0) :
    WrKeeps k fd fc fe fl false fm fh fu false fo fa ft s₀ (State.writeLportCfg x0 x1 x2) := by
  unfold State.writeLportCfg
  extract_lets +onlyGivenNames v62 v63
  clear_value v62 v63
  split
  · exact WrKeeps.ignore
  · split
    · apply WrKeeps.set
      split
      · assumption
      · apply keeps_State_notePort; assumption
    · split
      · exact WrKeeps.refuse
      · split
        · exact WrKeeps.ignore
        · apply WrKeeps.set
          apply keeps_State_setLPort; assumption

theorem keeps_State_writeLpeer {x0 : State} (x1 : Nat) (x2 : Nat) (h0 : Keeps k fd fc fe fl false fm fh fu false fo fa ft s₀ x0) :
    WrKeeps k fd fc fe fl false fm fh fu false fo fa ft s₀ (State.writeLpeer x0 x1 x2) := by
  unfold State.writeLpeer
  extract_lets +onlyGivenNames v54 v55
  clear_value v54 v55
  split
  · exact WrKeeps.ignore
  · split
    · apply WrKeeps.set
      split
      · assumption
      · apply keeps_State_notePort; assumption
    · apply WrKeeps.set
      apply keeps_State_setLPort; assumption

theorem keeps_State_writePort {x0 : State} (x1 : Nat) (x2 : Nat) (x3 : Nat) (h0 : Keeps k fd fc false false false fm false false false false fa ft s₀ x0) :
    WrKeeps k fd fc false false false fm false false false false fa ft s₀ (State.writePort x0 x1 x2 x3) := by
  unfold State.writePort
  split
  · apply keeps_State_writePortCfg; assumption
  · split
    · apply keeps_State_writeLportCfg; assumption
    · split
      · apply keeps_State_writeLpeer; assumption
      · exact WrKeeps.ignore

theorem keeps_State_restartDrr {x0 : State} (x1 : Nat) (h0 : Keeps k fd fc fe fl false fm fh fu fy fo fa ft s₀ x0) :
    Keeps k fd fc fe fl false fm fh fu fy fo fa ft s₀ (State.restartDrr x0 x1) := by
  unfold State.restartDrr
  apply Keeps.foldl
  · intro _ _ _
    apply keeps_State_modLPort; assumption
  · assumption

theorem keeps_State_writeSched {x0 : State} (x1 : Nat) (x2 : Nat) (h0 : Keeps k fd fc fe fl false fm fh fu fy fo fa ft s₀ x0) :
    WrKeeps k fd fc fe fl false fm fh fu fy fo fa ft s₀ (State.writeSched x0 x1 x2) := by
  unfold State.writeSched
  extract_lets +onlyGivenNames v67 v68
  clear_value v67 v68
  split
  · exact WrKeeps.refuse
  · split
    · exact WrKeeps.refuse
    · apply WrKeeps.set
      apply keeps_State_restartDrr
      apply keeps_State_setPort; assumption

theorem keeps_State_writeQuantum {x0 : State} (x1 : Nat) (x2 : Nat) (x3 : Nat) (h0 : Keeps k fd fc fe fl false fm fh fu fy fo fa ft s₀ x0) :
    WrKeeps k fd fc fe fl false fm fh fu fy fo fa ft s₀ (State.writeQuantum x0 x1 x2 x3) := by
  unfold State.writeQuantum
  extract_lets +onlyGivenNames v42
  apply keeps_inRange
  apply keeps_State_restartDrr
  apply keeps_State_setPort; assumption

theorem keeps_State_resetCredit {x0 : State} (x1 : Nat) (x2 : Nat) (h0 : Keeps k fd fc fe fl false fm fh fu fy fo fa ft s₀ x0) :
    Keeps k fd fc fe fl false fm fh fu fy fo fa ft s₀ (State.resetCredit x0 x1 x2) := by
  unfold State.resetCredit
  extract_lets +onlyGivenNames v50 v51 v52
  clear_value v50 v51 v52
  apply Keeps.foldl
  · intro _ _ _
    apply keeps_State_modLPort; assumption
  · assumption

theorem keeps_State_writeShape {x0 : State} (x1 : Nat) (x2 : Nat) (x3 : Bool) (x4 : Nat) (h0 : Keeps k fd fc fe fl false fm fh fu fy fo fa ft s₀ x0) :
    WrKeeps k fd fc fe fl false fm fh fu fy fo fa ft s₀ (State.writeShape x0 x1 x2 x3 x4) := by
  unfold State.writeShape
  extract_lets +onlyGivenNames v68
  clear_value v68
  split
  · exact WrKeeps.ignore
  · split
    · split
      · exact WrKeeps.refuse
      · apply WrKeeps.set
        apply keeps_State_resetCredit
        apply keeps_State_setPort; assumption
    · apply WrKeeps.set
      apply keeps_State_resetCredit
      apply keeps_State_setPort; assumption

theorem keeps_State_writeBufLimit {x0 : State} (x1 : Bool) (x2 x3 x4 : Nat) (h0 : Keeps k fd fc fe fl false fm fh fu false fo fa ft s₀ x0) :
    WrKeeps k fd fc fe fl false fm fh fu false fo fa ft s₀ (x0.writeBufLimit x1 x2 x3 x4) := by
  unfold State.writeBufLimit
  generalize 2 ^ 15 = e
  extract_lets x b m
  clear_value x b m
  split
  · exact WrKeeps.ignore
  · split
    · exact WrKeeps.set (keeps_State_notePort _ _ _ _ _ h0)
    · split
      · exact WrKeeps.set (keeps_State_notePort _ _ _ _ _ h0)
      · exact WrKeeps.set (keeps_State_setPort _ _ h0)

theorem keeps_State_armGates {x0 : State} (x1 : Nat) (h0 : Keeps k fd fc fe fl false fm fh fu false fo fa ft s₀ x0) :
    Keeps k fd fc fe fl false fm fh fu false fo fa ft s₀ (State.armGates x0 x1) := by
  unfold State.armGates
  extract_lets +onlyGivenNames v66 v67 v68
  clear_value v66 v67 v68
  split
  · apply keeps_State_notePort; assumption
  · extract_lets +onlyGivenNames v72
    clear_value v72
    split
    · apply keeps_State_notePort
      apply keeps_State_setHot
      apply keeps_State_setPort; assumption
    · apply keeps_State_setPort; assumption

theorem keeps_State_writeGateCtrl {x0 : State} (x1 : Nat) (x2 : Nat) (h0 : Keeps k fd fc fe fl false fm fh fu false fo fa ft s₀ x0) :
    WrKeeps k fd fc fe fl false fm fh fu false fo fa ft s₀ (State.writeGateCtrl x0 x1 x2) := by
  unfold State.writeGateCtrl
  extract_lets +onlyGivenNames v32 v33
  clear_value v32 v33
  split
  · exact WrKeeps.refuse
  · extract_lets +onlyGivenNames v36 v37 v38 v39 v40
    clear_value v36 v37 v38 v39 v40
    extract_lets +onlyGivenNames v41
    have h41 : Keeps k fd fc fe fl false fm fh fu false fo fa ft s₀ v41 := by
      subst v41
      apply keeps_State_setPort; assumption
    clear_value v41
    extract_lets +onlyGivenNames v42
    have h42 : Keeps k fd fc fe fl false fm fh fu false fo fa ft s₀ v42 := by
      subst v42
      split
      · apply keeps_State_notePort; assumption
      · assumption
    clear_value v42
    apply WrKeeps.set
    split
    · apply keeps_State_armGates; assumption
    · assumption

theorem keeps_State_writeGate {x0 : State} (x1 : Nat) (x2 : Bool) (x3 : Nat) (x4 : Nat) (h0 : Keeps k fd fc fe fl false fm fh fu false fo fa ft s₀ x0) :
    Keeps k fd fc fe fl false fm fh fu false fo fa ft s₀ (State.writeGate x0 x1 x2 x3 x4) := by
  unfold State.writeGate
  extract_lets +onlyGivenNames v66
  clear_value v66
  split
  · apply keeps_State_notePort; assumption
  · apply keeps_State_setPort; assumption

theorem keeps_State_writeSchedBlock {x0 : State} (x1 : Bool) (x2 : Nat) (x3 : Nat) (x4 : Nat) (h0 : Keeps k fd fc fe fl false fm fh fu false fo fa ft s₀ x0) :
    WrKeeps k fd fc fe fl false fm fh fu false fo fa ft s₀ (State.writeSchedBlock x0 x1 x2 x3 x4) := by
  unfold State.writeSchedBlock
  extract_lets +onlyGivenNames v64
  clear_value v64
  split
  · apply keeps_State_writeSched; assumption
  · apply keeps_State_writeGateCtrl; assumption
  · apply WrKeeps.set
    split
    · apply keeps_State_setPort; assumption
    · assumption
  · apply WrKeeps.set
    apply keeps_State_setPort; assumption
  · apply WrKeeps.set
    apply keeps_State_setPort; assumption
  · split
    · apply keeps_State_writeQuantum; assumption
    · split
      · extract_lets +onlyGivenNames v85
        clear_value v85
        split
        · exact WrKeeps.ignore
        · apply WrKeeps.set
          apply keeps_State_setPort; assumption
      · split
        · apply keeps_State_writeShape; assumption
        · split
          · apply keeps_State_writeBufLimit; assumption
          · split
            · apply WrKeeps.set
              apply keeps_State_writeGate; assumption
            · split
              · apply WrKeeps.set
                apply keeps_State_writeGate; assumption
              · exact WrKeeps.ignore

theorem keeps_State_writeLimit {x0 : State} (x1 : Bool) (x2 : Nat) (x3 : Nat) (h0 : Keeps k fd fc fe fl false fm fh fu fy fo fa ft s₀ x0) :
    WrKeeps k fd fc fe fl false fm fh fu fy fo fa ft s₀ (State.writeLimit x0 x1 x2 x3) := by
  unfold State.writeLimit
  extract_lets +onlyGivenNames v56
  clear_value v56
  split
  · exact WrKeeps.ignore
  · split
    · exact WrKeeps.ignore
    · split
      · apply WrKeeps.set
        apply keeps_State_setFab; assumption
      · split
        · apply WrKeeps.set
          apply keeps_State_setFab; assumption
        · exact WrKeeps.ignore

theorem keeps_State_writeRoute {x0 : State} (x1 : Nat) (x2 : Nat) (h0 : Keeps k fd fc fe fl false fm fh fu fy fo fa ft s₀ x0) :
    WrKeeps k fd fc fe fl false fm fh fu fy fo fa ft s₀ (State.writeRoute x0 x1 x2) := by
  unfold State.writeRoute
  extract_lets +onlyGivenNames v53
  clear_value v53
  split
  · exact WrKeeps.ignore
  · split
    · exact WrKeeps.refuse
    · apply WrKeeps.set
      apply keeps_State_setFab; assumption

theorem keeps_State_writeGroup {x0 : State} (x1 : Nat) (x2 : Nat) (h0 : Keeps k fd fc fe fl false fm fh fu fy fo fa ft s₀ x0) :
    WrKeeps k fd fc fe fl false fm fh fu fy fo fa ft s₀ (State.writeGroup x0 x1 x2) := by
  unfold State.writeGroup
  extract_lets +onlyGivenNames v56 v57 v58 v59
  clear_value v56 v57 v58 v59
  split
  · apply WrKeeps.set
    apply keeps_State_setFab; assumption
  · split
    · apply WrKeeps.set
      apply keeps_State_setFab; assumption
    · exact WrKeeps.ignore

theorem keeps_State_writeTable {x0 : State} (x1 : Nat) (x2 : Nat) (h0 : Keeps k fd fc fe fl false fm fh fu false fo fa ft s₀ x0) :
    WrKeeps k fd fc fe fl false fm fh fu false fo fa ft s₀ (State.writeTable x0 x1 x2) := by
  unfold State.writeTable
  split
  · apply WrKeeps.set
    apply keeps_State_noteDev; assumption
  · split
    · apply keeps_State_writeRoute; assumption
    · split
      · apply keeps_State_writeGroup; assumption
      · exact WrKeeps.ignore

theorem keeps_State_writeEaselCtrl {x0 : State} (x1 : Nat) (x2 : Nat) (h0 : Keeps k fd fc false fl fb fm fh fu fy fo fa ft s₀ x0) :
    Keeps k fd fc false fl fb fm fh fu fy fo fa ft s₀ (State.writeEaselCtrl x0 x1 x2) := by
  unfold State.writeEaselCtrl
  extract_lets +onlyGivenNames v43
  have h43 : Keeps k fd fc false fl fb fm fh fu fy fo fa ft s₀ v43 := by
    subst v43
    apply keeps_State_modEasel; assumption
  clear_value v43
  split
  · apply keeps_State_wake; assumption
  · assumption

theorem keeps_State_writeEngine {x0 : State} (x1 : Nat) (x2 : EngId) (x3 : Nat) (x4 : Nat) (h0 : Keeps k fd fc false fl fb fm fh fu fy fo fa ft s₀ x0) :
    WrKeeps k fd fc false fl fb fm fh fu fy fo fa ft s₀ (State.writeEngine x0 x1 x2 x3 x4) := by
  unfold State.writeEngine
  split
  · apply WrKeeps.set
    split
    · apply keeps_State_modEngine; assumption
    · assumption
  · apply WrKeeps.set
    apply keeps_State_modEngine; assumption
  · extract_lets +onlyGivenNames v53 v54
    clear_value v53 v54
    apply WrKeeps.set
    apply keeps_State_modEngine; assumption
  · exact WrKeeps.ignore

theorem keeps_State_writeEasel {x0 : State} (x1 : Nat) (x2 : Nat) (x3 : Nat) (h0 : Keeps k fd fc false fl fb fm fh fu fy fo fa ft s₀ x0) :
    WrKeeps k fd fc false fl fb fm fh fu fy fo fa ft s₀ (State.writeEasel x0 x1 x2 x3) := by
  unfold State.writeEasel
  split
  · exact WrKeeps.set (keeps_State_writeEaselCtrl _ _ h0)
  · apply WrKeeps.set
    split
    · exact keeps_State_modEasel _ _ h0
    · exact h0
  · split
    · split
      · split
        · generalize (x2 - 2048) % 1024 = o
          exact keeps_State_writeEngine _ _ _ _ h0
        · exact WrKeeps.ignore
      · exact WrKeeps.ignore
    · exact WrKeeps.ignore

theorem keeps_State_sendHeld {x0 : State} (x1 : Nat) (x2 : Nat) (h0 : Keeps k fd fc fe fl fb fm fh false fy fo fa false s₀ x0) :
    Keeps k fd fc fe fl fb fm fh false fy fo fa false s₀ (State.sendHeld x0 x1 x2) := by
  unfold State.sendHeld
  extract_lets +onlyGivenNames v57
  clear_value v57
  split
  · apply keeps_State_emit
    apply keeps_State_setFunc; assumption
  · assumption

theorem keeps_State_writeMsix {x0 : State} (x1 : Nat) (x2 : Nat) (x3 : Nat) (h0 : Keeps k fd fc fe fl fb fm fh false fy fo fa false s₀ x0) :
    Keeps k fd fc fe fl fb fm fh false fy fo fa false s₀ (State.writeMsix x0 x1 x2 x3) := by
  unfold State.writeMsix
  extract_lets +onlyGivenNames v69 v70 v71
  clear_value v69 v70 v71
  apply keeps_State_sendHeld
  apply keeps_State_setFunc; assumption

theorem keeps_State_retireSlot {x0 : State} (x1 : Nat) (x2 : Nat) (x3 : Nat) (h0 : Keeps k fd fc fe fl fb fm fh false false fo fa ft s₀ x0) :
    Keeps k fd fc fe fl fb fm fh false false fo fa ft s₀ (State.retireSlot x0 x1 x2 x3) := by
  unfold State.retireSlot
  extract_lets +onlyGivenNames v34 v35
  clear_value v34 v35
  split
  · apply keeps_State_setFunc; assumption
  · apply keeps_State_ignored; assumption

theorem keeps_State_writeSlots {x0 : State} (x1 : Nat) (x2 : Nat) (x3 : Bytes) (h0 : Keeps k fd fc fe fl fb fm fh false fy fo fa ft s₀ x0) :
    Keeps k fd fc fe fl fb fm fh false fy fo fa ft s₀ (State.writeSlots x0 x1 x2 x3) := by
  unfold State.writeSlots
  extract_lets +onlyGivenNames v68 v69 v70 v71
  clear_value v68 v69 v70 v71
  apply keeps_State_setFunc; assumption

theorem keeps_State_hostFlush {x0 : State} (h0 : Keeps k fd fc fe fl fb false fh fu false false fa ft s₀ x0) :
    Keeps k fd fc fe fl fb false fh fu false false fa ft s₀ (State.hostFlush x0) := by
  unfold State.hostFlush
  split
  · apply keeps_State_powerLog; assumption
  · split
    · apply keeps_State_startFlush; assumption
    · assumption

theorem keeps_State_writeDiaryCtrl {x0 : State} (x1 : Nat) (h0 : Keeps k fd fc fe fl fb false fh fu false false fa ft s₀ x0) :
    Keeps k fd fc fe fl fb false fh fu false false fa ft s₀ (State.writeDiaryCtrl x0 x1) := by
  unfold State.writeDiaryCtrl
  extract_lets +onlyGivenNames v57
  subst v57
  extract_lets +onlyGivenNames v58
  have h58 : Keeps k fd fc fe fl fb false fh fu false false fa ft s₀ v58 := by
    subst v58
    exact Keeps.upd ‹_› (.of (.refl _))
  clear_value v58
  split
  · apply keeps_State_hostFlush; assumption
  · assumption

theorem keeps_State_writeDiaryReg {x0 : State} (x1 : Nat) (x2 : Nat) (x3 : Nat) (h0 : Keeps k fd fc fe fl fb false fh false false false fa ft s₀ x0) :
    Keeps k fd fc fe fl fb false fh false false false fa ft s₀ (State.writeDiaryReg x0 x1 x2 x3) := by
  unfold State.writeDiaryReg
  split
  · apply keeps_State_modFunc; assumption
  · split
    · apply keeps_State_writeDiaryCtrl; assumption
    · apply keeps_State_ignored; assumption
  · apply keeps_State_ignored; assumption

theorem ite_some {α : Type} {c : Prop} [Decidable c] {a b : Option α} {w : α} (e : (if c then a else b) = some w) :
    a = some w ∨ b = some w := by
  split at e
  · exact .inl e
  · exact .inr e

theorem keeps_writeShared {x0 : State} (x1 : Bool) (x2 x3 : Nat) {w : Wr} (h0 : Keeps k false fc false false false false false false false false fa false s₀ x0) (e : x0.writeShared x1 x2 x3 = some w) :
    WrKeeps k false fc false false false false false false false false fa false s₀ w := by
  unfold State.writeShared at e
  rcases ite_some e with e | e
  · rw [← Option.some.inj e]
    generalize x2 - 65536 = o
    exact keeps_State_writeGlobal _ _ _ h0
  rcases ite_some e with e | e
  · rw [← Option.some.inj e]
    generalize x2 - 1048576 = o
    exact keeps_State_writePort _ _ _ h0
  rcases ite_some e with e | e
  · rw [← Option.some.inj e]
    generalize x2 - 2097152 = o
    exact keeps_State_writeSchedBlock _ _ _ _ h0
  rcases ite_some e with e | e
  · rw [← Option.some.inj e]
    generalize x2 - 3145728 = o
    exact keeps_State_writeLimit _ _ _ h0
  rcases ite_some e with e | e
  · rw [← Option.some.inj e]
    generalize x2 - 16777216 = o
    exact keeps_State_writeTable _ _ h0
  · cases e

theorem keeps_State_writeWord {x0 : State} (x1 x2 x3 : Nat) (h0 : Keeps k false fc false false false false false false false false fa false s₀ x0) : Keeps k false fc false false false false false false false false fa false s₀ (x0.writeWord x1 x2 x3) := by
  unfold State.writeWord
  split
  · exact keeps_State_ignored _ _ h0
  · split
    · exact keeps_State_writeMsix _ _ _ h0
    · split
      · generalize x2 - 65536 = o
        exact keeps_Wr_host _ _ (keeps_State_writeFunc _ _ _ h0) h0
      · split
        · exact keeps_State_writeSlots _ _ _ h0
        · split
          · split
            · exact keeps_State_retireSlot _ _ _ h0
            · exact keeps_State_ignored _ _ h0
          · split
            · exact keeps_State_writeDiaryReg _ _ _ h0
            · split
              · extract_lets n
                split
                · exact keeps_State_ignored _ _ h0
                · exact keeps_Wr_host _ _ (keeps_State_writeEasel _ _ _ h0) h0
              · split
                · exact keeps_State_ignored _ _ h0
                · split
                  · rename_i w e
                    split
                    · exact keeps_Wr_host _ _ (keeps_writeShared _ _ _ h0 e) h0
                    · exact keeps_State_ignored _ _ h0
                  · exact keeps_State_ignored _ _ h0

theorem keeps_State_bar0Write {x0 : State} (x1 : Nat) (x2 : Nat) (x3 : Bytes) (h0 : Keeps k false fc false false false false false false false false fa false s₀ x0) :
    Keeps k false fc false false false false false false false false fa false s₀ (State.bar0Write x0 x1 x2 x3) := by
  unfold State.bar0Write
  split
  · apply keeps_State_writeSlots; assumption
  · split
    · split
      · apply keeps_State_ignored; assumption
      · apply keeps_State_writeWord
        apply keeps_State_writeWord; assumption
    · apply keeps_State_writeWord; assumption

/-! HostRegs -/

theorem keeps_onFunc {x0 : State} (x1 : Nat) {x2 : State} (h0 : Keeps k fd fc fe fl fb fm fh fu fy fo fa ft s₀ x0) (h2 : Keeps k fd fc fe fl fb fm fh fu fy fo fa ft s₀ x2) :
    OutKeeps k fd fc fe fl fb fm fh fu fy fo fa ft s₀ (onFunc x0 x1 x2) := by
  unfold onFunc
  apply keeps_onUnit
  apply keeps_whenP
  · assumption
  · assumption

theorem keeps_onWrite {x0 : State} (x1 : Nat) (x2 : State → State) (h0 : Keeps k fd fc fe fl fb fm fh false false fo fa false s₀ x0) (h2 : ∀ y0, Keeps k fd fc fe fl fb fm fh false false fo fa false s₀ y0 → Keeps k fd fc fe fl fb fm fh false false fo fa false s₀ (x2 y0)) :
    OutKeeps k fd fc fe fl fb fm fh false false fo fa false s₀ (onWrite x0 x1 x2) := by
  unfold onWrite
  exact keeps_onFunc _ h0 (h2 _ (keeps_State_examineAll h0))

theorem keeps_onWord {x0 : State} (x1 : Nat) (x2 : Nat) (x3 : Word) (h0 : Keeps k false fc false false false false false false false false fa false s₀ x0) :
    OutKeeps k false fc false false false false false false false false fa false s₀ (onWord x0 x1 x2 x3) := by
  unfold onWord
  apply keeps_onWrite
  · assumption
  · intro _ _
    apply keeps_State_writeWord; assumption

theorem keeps_execRegisterWrite (x0 : Nat) (x1 : Nat) (x2 : Bytes) (x3 : Bool) {x4 : State} (h4 : Keeps k false fc false false false false false false false false fa false s₀ x4) :
    OutKeeps k false fc false false false false false false false false fa false s₀ (execRegisterWrite x0 x1 x2 x3 x4) := by
  unfold execRegisterWrite
  apply keeps_onWrite
  · assumption
  · intro _ _
    split
    · apply keeps_State_poisoned; assumption
    · split
      · apply keeps_State_bar0Write; assumption
      · apply keeps_State_note; assumption

theorem keeps_execRetire (x0 : Nat) (x1 : Nat) (x2 : Word) {x3 : State} (h3 : Keeps k false fc false false false false false false false false fa false s₀ x3) :
    OutKeeps k false fc false false false false false false false false fa false s₀ (execRetire x0 x1 x2 x3) := by
  unfold execRetire
  apply keeps_onUnit
  apply keeps_onWord; assumption

theorem keeps_execFtimeLoRead (x0 : Nat) {x1 : State} (h1 : Keeps k fd fc fe fl fb fm fh false false fo fa false s₀ x1) :
    OutKeeps k fd fc fe fl fb fm fh false false fo fa false s₀ (execFtimeLoRead x0 x1) := by
  unfold execFtimeLoRead
  apply keeps_onFunc
  · assumption
  · apply keeps_State_bar0Read; assumption

theorem keeps_execCmdNextLoRead (x0 : Nat) {x1 : State} (h1 : Keeps k fd fc fe fl fb fm fh false false fo fa false s₀ x1) :
    OutKeeps k fd fc fe fl fb fm fh false false fo fa false s₀ (execCmdNextLoRead x0 x1) := by
  unfold execCmdNextLoRead
  apply keeps_onFunc
  · assumption
  · apply keeps_State_bar0Read; assumption

theorem keeps_execBar0AccessRefused (x0 : Nat) (x1 : Nat) (x2 : Nat) {x3 : State} (h3 : Keeps k fd fc fe fl fb fm fh false false fo fa false s₀ x3) :
    OutKeeps k fd fc fe fl fb fm fh false false fo fa false s₀ (execBar0AccessRefused x0 x1 x2 x3) := by
  unfold execBar0AccessRefused
  apply keeps_onFunc
  · assumption
  · apply keeps_State_bar0Read; assumption

theorem keeps_execHbmMapoutWrite (x0 : Nat) (x1 : Word) {x2 : State} (h2 : Keeps k false fc false false false false false false false false fa false s₀ x2) :
    OutKeeps k false fc false false false false false false false false fa false s₀ (execHbmMapoutWrite x0 x1 x2) := by
  unfold execHbmMapoutWrite
  apply keeps_onWord; assumption

theorem keeps_execDiaryCtrlFlush (x0 : Nat) (x1 : Word) {x2 : State} (h2 : Keeps k false fc false false false false false false false false fa false s₀ x2) :
    OutKeeps k false fc false false false false false false false false fa false s₀ (execDiaryCtrlFlush x0 x1 x2) := by
  unfold execDiaryCtrlFlush
  apply keeps_onWord; assumption

theorem keeps_execDetCtrlWrite (x0 : Nat) (x1 : Word) {x2 : State} (h2 : Keeps k false fc false false false false false false false false fa false s₀ x2) :
    OutKeeps k false fc false false false false false false false false fa false s₀ (execDetCtrlWrite x0 x1 x2) := by
  unfold execDetCtrlWrite
  apply keeps_onWord; assumption

theorem keeps_execApertureWrite (x0 : Nat) (x1 : Word) {x2 : State} (h2 : Keeps k false fc false false false false false false false false fa false s₀ x2) :
    OutKeeps k false fc false false false false false false false false fa false s₀ (execApertureWrite x0 x1 x2) := by
  unfold execApertureWrite
  apply keeps_onWord; assumption

theorem keeps_execGessoModeWrite (x0 : Nat) (x1 : Bool) (x2 : Word) {x3 : State} (h3 : Keeps k false fc false false false false false false false false fa false s₀ x3) :
    OutKeeps k false fc false false false false false false false false fa false s₀ (execGessoModeWrite x0 x1 x2 x3) := by
  unfold execGessoModeWrite
  apply keeps_onWord; assumption

theorem keeps_onPortReg {x0 : State} (x1 : Nat) (x2 : Nat) (x3 : Nat) (x4 : Nat) (x5 : Nat) (x6 : Word) (h0 : Keeps k false fc false false false false false false false false fa false s₀ x0) :
    OutKeeps k false fc false false false false false false false false fa false s₀ (onPortReg x0 x1 x2 x3 x4 x5 x6) := by
  unfold onPortReg
  apply keeps_onUnit
  apply keeps_onWord; assumption

theorem keeps_execGateArm (x0 : Nat) (x1 : Nat) (x2 : Word) {x3 : State} (h3 : Keeps k false fc false false false false false false false false fa false s₀ x3) :
    OutKeeps k false fc false false false false false false false false fa false s₀ (execGateArm x0 x1 x2 x3) := by
  unfold execGateArm
  apply keeps_onPortReg; assumption

theorem keeps_execShapeCfgWrite (x0 : Nat) (x1 : Nat) (x2 : Nat) (x3 : Bool) (x4 : Word) {x5 : State} (h5 : Keeps k false fc false false false false false false false false fa false s₀ x5) :
    OutKeeps k false fc false false false false false false false false fa false s₀ (execShapeCfgWrite x0 x1 x2 x3 x4 x5) := by
  unfold execShapeCfgWrite
  apply keeps_onUnit
  apply keeps_onPortReg; assumption

theorem keeps_execSchedCfgWrite (x0 : Nat) (x1 : Nat) (x2 : Option Nat) (x3 : Word) {x4 : State} (h4 : Keeps k false fc false false false false false false false false fa false s₀ x4) :
    OutKeeps k false fc false false false false false false false false fa false s₀ (execSchedCfgWrite x0 x1 x2 x3 x4) := by
  unfold execSchedCfgWrite
  split
  · apply keeps_onPortReg; assumption
  · apply keeps_onUnit
    apply keeps_onPortReg; assumption

theorem keeps_execBufLimitWrite (x0 : Nat) (x1 : Nat) (x2 : Nat) (x3 : Word) {x4 : State} (h4 : Keeps k false fc false false false false false false false false fa false s₀ x4) :
    OutKeeps k false fc false false false false false false false false fa false s₀ (execBufLimitWrite x0 x1 x2 x3 x4) := by
  unfold execBufLimitWrite
  apply keeps_onUnit
  apply keeps_onPortReg; assumption

theorem keeps_execPortCfgWrite (x0 : Nat) (x1 : Nat) (x2 : PortReg) (x3 : Word) {x4 : State} (h4 : Keeps k false fc false false false false false false false false fa false s₀ x4) :
    OutKeeps k false fc false false false false false false false false fa false s₀ (execPortCfgWrite x0 x1 x2 x3 x4) := by
  unfold execPortCfgWrite
  split
  · apply keeps_onPortReg; assumption
  · apply keeps_onUnit
    apply keeps_onPortReg; assumption
  · apply keeps_onUnit
    apply keeps_onPortReg; assumption

theorem keeps_execRouteEntryWrite (x0 : Nat) (x1 : Nat) (x2 : Word) {x3 : State} (h3 : Keeps k false fc false false false false false false false false fa false s₀ x3) :
    OutKeeps k false fc false false false false false false false false fa false s₀ (execRouteEntryWrite x0 x1 x2 x3) := by
  unfold execRouteEntryWrite
  apply keeps_onUnit
  apply keeps_onWord; assumption

theorem keeps_execGroupEntryValidWrite (x0 : Nat) (x1 : Nat) (x2 : Word) {x3 : State} (h3 : Keeps k false fc false false false false false false false false fa false s₀ x3) :
    OutKeeps k false fc false false false false false false false false fa false s₀ (execGroupEntryValidWrite x0 x1 x2 x3) := by
  unfold execGroupEntryValidWrite
  apply keeps_onUnit
  apply keeps_onWord; assumption

theorem keeps_execEaselCtrlWrite (x0 : Nat) (x1 : Nat) (x2 : Word) {x3 : State} (h3 : Keeps k false fc false false false false false false false false fa false s₀ x3) :
    OutKeeps k false fc false false false false false false false false fa false s₀ (execEaselCtrlWrite x0 x1 x2 x3) := by
  unfold execEaselCtrlWrite
  apply keeps_onUnit
  apply keeps_onWord; assumption

theorem keeps_State_unmaskVector {x0 : State} (x1 : Nat) (x2 : Nat) (h0 : Keeps k fd fc fe fl fb fm fh false fy fo fa false s₀ x0) :
    Keeps k fd fc fe fl fb fm fh false fy fo fa false s₀ (State.unmaskVector x0 x1 x2) := by
  unfold State.unmaskVector
  extract_lets +onlyGivenNames v46
  clear_value v46
  apply keeps_State_sendHeld
  apply keeps_State_setFunc; assumption

theorem keeps_State_unmaskFunction {x0 : State} (x1 : Nat) (h0 : Keeps k fd fc fe fl fb fm fh false fy fo fa false s₀ x0) :
    Keeps k fd fc fe fl fb fm fh false fy fo fa false s₀ (State.unmaskFunction x0 x1) := by
  unfold State.unmaskFunction
  apply Keeps.foldl
  · intro _ _ _
    apply keeps_State_sendHeld; assumption
  · apply keeps_State_modFunc; assumption

theorem keeps_execMsixUnmask (x0 : Nat) (x1 : Option Nat) {x2 : State} (h2 : Keeps k fd fc fe fl fb fm fh false false fo fa false s₀ x2) :
    OutKeeps k fd fc fe fl fb fm fh false false fo fa false s₀ (execMsixUnmask x0 x1 x2) := by
  unfold execMsixUnmask
  split
  · apply keeps_onWrite
    · assumption
    · intro _ _
      apply keeps_State_unmaskFunction; assumption
  · apply keeps_onUnit
    apply keeps_onWrite
    · assumption
    · intro _ _
      apply keeps_State_unmaskVector; assumption

theorem keeps_State_bar2Read {x0 : State} (x1 : Nat) (x2 : Nat) (x3 : Nat) (x4 : MemErr) (h0 : Keeps k fd fc fe fl fb false fh false false fo fa false s₀ x0) :
    Keeps k fd fc fe fl fb false fh false false fo fa false s₀ (State.bar2Read x0 x1 x2 x3 x4) := by
  unfold State.bar2Read
  split
  · apply keeps_State_abortRead; assumption
  · extract_lets +onlyGivenNames v58
    have h58 : Keeps k fd fc fe fl fb false fh false false fo fa false s₀ v58 := by
      subst v58
      apply keeps_State_accessRun
      apply keeps_State_memErr; assumption
    clear_value v58
    split
    · apply keeps_State_abortRead; assumption
    · apply keeps_State_emit; assumption

theorem keeps_State_bar2Write {x0 : State} (x1 : Nat) (x2 : Nat) (x3 : Bytes) (x4 : MemErr) (h0 : Keeps k fd fc fe fl fb false fh fu false fo fa ft s₀ x0) :
    Keeps k fd fc fe fl fb false fh fu false fo fa ft s₀ (State.bar2Write x0 x1 x2 x3 x4) := by
  unfold State.bar2Write
  split
  · apply keeps_State_note; assumption
  · extract_lets +onlyGivenNames v73
    have h73 : Keeps k fd fc fe fl fb false fh fu false fo fa ft s₀ v73 := by
      subst v73
      apply keeps_State_accessRun
      apply keeps_State_memErr; assumption
    clear_value v73
    split
    · assumption
    · apply keeps_State_setMem
      · assumption
      · intro _
        exact Mem.write_wf _ _ _ ‹_›

theorem keeps_execBar2Access (x0 : Nat) (x1 : Nat) (x2 : Nat) (x3 : Option Bytes) (x4 : MemErr) (x5 : Bool) {x6 : State} (h6 : Keeps k fd fc fe fl fb false fh false false fo fa false s₀ x6) :
    OutKeeps k fd fc fe fl fb false fh false false fo fa false s₀ (execBar2Access x0 x1 x2 x3 x4 x5 x6) := by
  unfold execBar2Access
  extract_lets +onlyGivenNames v43
  clear_value v43
  apply keeps_onUnit
  split
  · apply keeps_same; assumption
  · apply keeps_onFunc
    · assumption
    · split
      · apply keeps_State_bar2Read; assumption
      · split
        · apply keeps_State_poisoned; assumption
        · apply keeps_State_bar2Write; assumption

/-! Image -/

theorem keeps_State_writeFunctions {x0 : State} (x1 : Nat) (h0 : Keeps false fd fc fe fl fb fm fh fu fy false fa ft s₀ x0) : Keeps false fd fc fe fl fb fm fh fu fy false fa ft s₀ (x0.writeFunctions x1) :=
  h0.of

theorem keeps_State_blank {x0 : State} (h0 : Keeps false fd false false false false false false false false false false ft s₀ x0) : Keeps false fd false false false false false false false false false false ft s₀ x0.blank :=
  h0.of (cells := tcanon_filter _) (job := nofun)

theorem keeps_State_eraseImage {x0 : State} (h0 : Keeps k fd fc fe fl fb fm fh fu fy false fa ft s₀ x0) : Keeps k fd fc fe fl fb fm fh fu fy false fa ft s₀ x0.eraseImage :=
  h0.of (nor := tcanon_filter _) (ident := fun _ c _ ha => tget_filter _ c (fun _ => decide_eq_true ha))

theorem keeps_State_startNor {x0 : State} (x1 x2 x3 : Nat) (x4 : Bytes) (h0 : Keeps k fd fc fe fl fb fm fh fu fy false fa false s₀ x0) (hb : x3 ≤ identityBase) :
    Keeps k fd fc fe fl fb fm fh fu fy false fa false s₀ (x0.startNor x1 x2 x3 x4) := by
  unfold State.startNor
  apply keeps_State_readHost
  refine (keeps_State_eraseImage h0).of (job := fun _ j e => ?_)
  cases e
  exact hb

theorem minOf_append_ne (l : List Nat) (a : Nat) (m : List Nat) : minOf (l ++ a :: m) ≠ none := by
  cases l with
  | nil => simp only [List.nil_append, minOf]; split <;> simp
  | cons x l => simp only [List.cons_append, minOf]; split <;> simp

theorem keeps_execImageWrite (x0 : Nat) {x1 : State} (h1 : Keeps k fd fc fe fl fb fm fh false fy false fa false s₀ x1) : OutKeeps k fd fc fe fl fb fm fh false fy false fa false s₀ (execImageWrite x0 x1) := by
  unfold execImageWrite
  apply keeps_runCmd _ _ _ h1
  intro t u hu
  extract_lets n a b bad
  by_cases hb : n ≤ identityBase
  · apply keeps_checked
    apply EndKeeps.waits
    intro v hv
    exact keeps_State_startNor _ _ _ _ hv hb
  · have : bad = true := by
      have : decide (66060288 < n) = true := decide_eq_true (by unfold identityBase at hb; omega)
      simp [bad, this]
    unfold checked
    split
    · exact EndKeeps.fail
    · rename_i e
      simp [lowest, this, List.filter_append, minOf_append_ne] at e

theorem length_slice (b : Bytes) (o n : Nat) : (slice b o n).length = n := by
  simp only [slice, List.length_append, List.length_replicate, List.length_take, List.length_drop]
  omega

theorem keeps_execNorProgramComplete (x0 : Option Bytes) (x1 : Bool) {x2 : State} (h2 : Keeps k fd fc fe fl fb fm fh false fy false fa ft s₀ x2) :
    OutKeeps k fd fc fe fl fb fm fh false fy false fa ft s₀ (execNorProgramComplete x0 x1 x2) := by
  unfold execNorProgramComplete
  split
  · exact keeps_same h2
  · rename_i j e
    apply keeps_whenP _ h2
    extract_lets _ s1
    have h1 : Keeps k fd fc fe fl fb fm fh false fy false fa ft s₀ s1 :=
      h2.of (job := fun _ _ e => nomatch e)
    clear_value s1
    split
    · exact keeps_State_endWaits _ _ _ h1
    · rename_i b
      extract_lets b' s2
      apply keeps_State_endWaits
      subst s2
      split
      · refine keeps_State_norWrite _ _ h1 fun w => ?_
        have := h2.job w j e
        simp only [b', length_slice]
        omega
      · exact h1

theorem keeps_execAttest (x0 : Nat) {x1 : State} (h1 : Keeps k fd fc fe fl fb fm fh false fy fo fa false s₀ x1) :
    OutKeeps k fd fc fe fl fb fm fh false fy fo fa false s₀ (execAttest x0 x1) := by
  unfold execAttest
  apply keeps_runCmd
  · assumption
  · intro _ _ _
    apply keeps_checked
    apply EndKeeps.done
    apply keeps_State_draw
    apply keeps_State_writeHost; assumption

end Sys2Proof.Machine
end

