-- ==== Sys2Proof/Laws/KeepsUnits.lean ====
section
/-!
SUPPORT. `Keeps` for the other engines, memory events and recovery: one lemma per operation.
-/

set_option Elab.async false

namespace Sys2Proof.Machine

variable {k fd fc fe fl fb fm fh fu fy fo fa ft : Bool} {s₀ s : State}

/-! Intake -/

theorem keeps_execRecv (x0 : Nat) (x1 : IWord) {x2 : State} (h2 : Keeps k fd fc false false false false fh fu false fo fa ft s₀ x2) :
    OutKeeps k fd fc false false false false fh fu false fo fa ft s₀ (execRecv x0 x1 x2) := by
  unfold execRecv
  apply keeps_issue
  · assumption
  · intro _ _ _
    apply keeps_legal
    extract_lets +onlyGivenNames v61
    clear_value v61
    split
    · apply keeps_busyFault
    · split
      · exact ResKeeps.fault
      · extract_lets +onlyGivenNames v71
        clear_value v71
        split
        · apply keeps_trayRange
        · extract_lets +onlyGivenNames v73
          have h73 : Keeps k fd fc false false false false fh fu false fo fa ft s₀ v73 := by
            subst v73
            apply keeps_State_occupy
            apply keeps_State_modEasel; assumption
          clear_value v73
          extract_lets +onlyGivenNames v74
          have h74 : Keeps k fd fc false false false false fh fu false fo fa ft s₀ v74 := by
            subst v74
            apply keeps_State_after; assumption
          clear_value v74
          extract_lets +onlyGivenNames v75
          clear_value v75
          apply ResKeeps.go
          apply keeps_State_after
          apply keeps_State_after; assumption

theorem keeps_execLoad (x0 : Nat) (x1 : IWord) {x2 : State} (h2 : Keeps k fd fc false false false false fh fu false fo fa ft s₀ x2) :
    OutKeeps k fd fc false false false false fh fu false fo fa ft s₀ (execLoad x0 x1 x2) := by
  unfold execLoad
  apply keeps_issue
  · assumption
  · intro _ _ _
    apply keeps_legal
    extract_lets +onlyGivenNames v74 v75 v76
    clear_value v74 v75 v76
    split
    · apply keeps_busyFault
    · split
      · apply keeps_trayRange
      · split
        · apply keeps_badField
        · apply ResKeeps.go
          apply keeps_State_issueOp; assumption

theorem keeps_execLoadCompletion (x0 : Nat) (x1 : Nat) (x2 : MemErr) {x3 : State} (h3 : Keeps k fd fc false fl fb false fh fu false fo fa ft s₀ x3) :
    OutKeeps k fd fc false fl fb false fh fu false fo fa ft s₀ (execLoadCompletion x0 x1 x2 x3) := by
  unfold execLoadCompletion
  apply keeps_completeOp; assumption

theorem keeps_execGather (x0 : Nat) (x1 : IWord) {x2 : State} (h2 : Keeps k fd fc false false false false fh fu false fo fa ft s₀ x2) :
    OutKeeps k fd fc false false false false fh fu false fo fa ft s₀ (execGather x0 x1 x2) := by
  unfold execGather
  apply keeps_issue
  · assumption
  · intro _ _ _
    apply keeps_legal
    extract_lets +onlyGivenNames v75 v76 v77 v78
    clear_value v75 v76 v77 v78
    split
    · apply keeps_busyFault
    · split
      · apply keeps_trayRange
      · extract_lets +onlyGivenNames v86
        clear_value v86
        split
        · apply keeps_badField
        · extract_lets +onlyGivenNames v88
          clear_value v88
          apply ResKeeps.go
          apply keeps_State_issueOp; assumption

theorem keeps_execGatherCompletion (x0 : Nat) (x1 : Nat) (x2 : MemErr) {x3 : State} (h3 : Keeps k fd fc false fl fb false fh fu false fo fa ft s₀ x3) :
    OutKeeps k fd fc false fl fb false fh fu false fo fa ft s₀ (execGatherCompletion x0 x1 x2 x3) := by
  unfold execGatherCompletion
  apply keeps_completeOp; assumption

/-! Order -/

theorem keeps_orderOp {x0 : State} (x1 : Nat) (x2 : Nat) (x3 : Nat) (x4 : Nat) (x5 : List (Nat × Nat)) (x6 : List Bytes) (h0 : Keeps k fd fc false fl fb fm fh fu fy fo fa ft s₀ x0) :
    ResKeeps k fd fc false fl fb fm fh fu fy fo fa ft s₀ (orderOp x0 x1 x2 x3 x4 x5 x6) := by
  unfold orderOp
  split
  · apply keeps_trayRange
  · split
    · apply keeps_badField
    · apply ResKeeps.go
      apply keeps_State_after
      apply keeps_State_occupy; assumption

theorem keeps_execSort (x0 : Nat) (x1 : IWord) {x2 : State} (h2 : Keeps k fd fc false false false false fh fu false fo fa ft s₀ x2) :
    OutKeeps k fd fc false false false false fh fu false fo fa ft s₀ (execSort x0 x1 x2) := by
  unfold execSort
  apply keeps_issue
  · assumption
  · intro _ _ _
    apply keeps_legal
    split
    · apply keeps_illegal
    · extract_lets +onlyGivenNames v56 v57
      clear_value v56 v57
      split
      · apply keeps_busyFault
      · split
        · apply keeps_badField
        · apply keeps_orderOp; assumption

theorem keeps_execMerge (x0 : Nat) (x1 : IWord) {x2 : State} (h2 : Keeps k fd fc false false false false fh fu false fo fa ft s₀ x2) :
    OutKeeps k fd fc false false false false fh fu false fo fa ft s₀ (execMerge x0 x1 x2) := by
  unfold execMerge
  apply keeps_issue
  · assumption
  · intro _ _ _
    apply keeps_legal
    split
    · apply keeps_illegal
    · extract_lets +onlyGivenNames v64 v65 v66 v67
      clear_value v64 v65 v66 v67
      split
      · apply keeps_busyFault
      · split
        · apply keeps_badField
        · apply keeps_orderOp; assumption

theorem keeps_execTopk (x0 : Nat) (x1 : IWord) {x2 : State} (h2 : Keeps k fd fc false false false false fh fu false fo fa ft s₀ x2) :
    OutKeeps k fd fc false false false false fh fu false fo fa ft s₀ (execTopk x0 x1 x2) := by
  unfold execTopk
  apply keeps_issue
  · assumption
  · intro _ _ _
    apply keeps_legal
    split
    · apply keeps_illegal
    · extract_lets +onlyGivenNames v71 v72 v73
      clear_value v71 v72 v73
      split
      · apply keeps_busyFault
      · split
        · apply keeps_badField
        · apply keeps_orderOp; assumption

/-! Xau -/

theorem keeps_State_failUse {x0 : State} (x1 : Nat) (x2 : EngId) (x3 : Engine) (x4 : Nat) (x5 : Nat) (x6 : Use) (h0 : Keeps k fd fc false fl fb fm fh fu fy fo fa ft s₀ x0) :
    Keeps k fd fc false fl fb fm fh fu fy fo fa ft s₀ (State.failUse x0 x1 x2 x3 x4 x5 x6) := by
  unfold State.failUse
  extract_lets +onlyGivenNames v47 v48 v49
  clear_value v47 v48 v49
  apply keeps_State_after; assumption

theorem keeps_execXclr (x0 : Nat) (x1 : IWord) {x2 : State} (h2 : Keeps k fd fc false false false false fh fu false fo fa ft s₀ x2) :
    OutKeeps k fd fc false false false false fh fu false fo fa ft s₀ (execXclr x0 x1 x2) := by
  unfold execXclr
  apply keeps_issue
  · assumption
  · intro _ _ _
    apply keeps_legal
    split
    · apply keeps_busyFault
    · apply ResKeeps.go
      apply keeps_State_after
      apply keeps_State_occupy; assumption

theorem keeps_execXadd (x0 : Nat) (x1 : IWord) {x2 : State} (h2 : Keeps k fd fc false false false false fh fu false fo fa ft s₀ x2) :
    OutKeeps k fd fc false false false false fh fu false fo fa ft s₀ (execXadd x0 x1 x2) := by
  unfold execXadd
  apply keeps_issue
  · assumption
  · intro _ _ _
    apply keeps_legal
    split
    · apply keeps_illegal
    · extract_lets +onlyGivenNames v80 v81
      clear_value v80 v81
      split
      · apply keeps_busyFault
      · split
        · apply keeps_trayRange
        · split
          · apply keeps_badField
          · extract_lets +onlyGivenNames v89
            clear_value v89
            extract_lets +onlyGivenNames v90
            have h90 : Keeps k fd fc false false false false fh fu false fo fa ft s₀ v90 := by
              subst v90
              apply keeps_State_occupy; assumption
            clear_value v90
            split
            · split
              · apply ResKeeps.go
                apply keeps_State_failUse; assumption
              · extract_lets +onlyGivenNames v91 v92
                clear_value v91 v92
                apply ResKeeps.go
                apply keeps_State_raise
                apply keeps_State_after; assumption
            · apply ResKeeps.go
              apply keeps_State_failUse; assumption

theorem keeps_execXrnd (x0 : Nat) (x1 : IWord) {x2 : State} (h2 : Keeps k fd fc false false false false fh fu false fo fa ft s₀ x2) :
    OutKeeps k fd fc false false false false fh fu false fo fa ft s₀ (execXrnd x0 x1 x2) := by
  unfold execXrnd
  apply keeps_issue
  · assumption
  · intro _ _ _
    apply keeps_legal
    split
    · apply keeps_illegal
    · extract_lets +onlyGivenNames v66 v67
      clear_value v66 v67
      extract_lets +onlyGivenNames v68
      extract_lets +onlyGivenNames v69 v70 v72
      clear_value v69 v70 v72
      split
      · apply keeps_illegal
      · split
        · apply keeps_busyFault
        · split
          · apply keeps_trayRange
          · split
            · apply keeps_badField
            · split
              · apply keeps_badField
              · split
                · apply keeps_badField
                · extract_lets +onlyGivenNames v105 v106 v107 v108 v109 v110 v111 v112 v113
                  clear_value v105 v106 v107 v108 v109 v110 v111 v112 v113
                  extract_lets +onlyGivenNames v114
                  have h114 : Keeps k fd fc false false false false fh fu false fo fa ft s₀ v114 := by
                    subst v114
                    split
                    · assumption
                    · apply keeps_State_stochDraw; assumption
                  clear_value v114
                  extract_lets +onlyGivenNames v115
                  have h115 : Keeps k fd fc false false false false fh fu false fo fa ft s₀ v115 := by
                    subst v115
                    apply keeps_State_raise
                    apply keeps_State_after
                    apply keeps_State_occupy; assumption
                  clear_value v115
                  extract_lets +onlyGivenNames v116
                  have h116 : Keeps k fd fc false false false false fh fu false fo fa ft s₀ v116 := by
                    subst v116
                    split
                    · assumption
                    · apply keeps_State_after; assumption
                  clear_value v116
                  apply ResKeeps.go
                  split
                  · apply keeps_State_after; assumption
                  · assumption

theorem keeps_execXcnt (x0 : Nat) (x1 : IWord) {x2 : State} (h2 : Keeps k fd fc false false false false fh fu false fo fa ft s₀ x2) :
    OutKeeps k fd fc false false false false fh fu false fo fa ft s₀ (execXcnt x0 x1 x2) := by
  unfold execXcnt
  apply keeps_issue
  · assumption
  · intro _ _ _
    apply keeps_legal
    split
    · apply keeps_busyFault
    · extract_lets +onlyGivenNames v77
      clear_value v77
      apply ResKeeps.go
      apply keeps_State_after
      apply keeps_State_occupy; assumption

theorem keeps_execXst (x0 : Nat) (x1 : IWord) {x2 : State} (h2 : Keeps k fd fc false false false false fh fu false fo fa ft s₀ x2) :
    OutKeeps k fd fc false false false false fh fu false fo fa ft s₀ (execXst x0 x1 x2) := by
  unfold execXst
  apply keeps_issue
  · assumption
  · intro _ _ _
    apply keeps_legal
    extract_lets +onlyGivenNames v45
    clear_value v45
    split
    · apply keeps_busyFault
    · split
      · apply keeps_trayRange
      · apply ResKeeps.go
        apply keeps_State_after
        apply keeps_State_occupy; assumption

theorem keeps_execXld (x0 : Nat) (x1 : IWord) {x2 : State} (h2 : Keeps k fd fc false false false false fh fu false fo fa ft s₀ x2) :
    OutKeeps k fd fc false false false false fh fu false fo fa ft s₀ (execXld x0 x1 x2) := by
  unfold execXld
  apply keeps_issue
  · assumption
  · intro _ _ _
    apply keeps_legal
    extract_lets +onlyGivenNames v79
    clear_value v79
    split
    · apply keeps_busyFault
    · split
      · apply keeps_trayRange
      · extract_lets +onlyGivenNames v80
        have h80 : Keeps k fd fc false false false false fh fu false fo fa ft s₀ v80 := by
          subst v80
          apply keeps_State_occupy; assumption
        clear_value v80
        extract_lets +onlyGivenNames v82
        clear_value v82
        split
        · apply ResKeeps.go
          apply keeps_State_after; assumption
        · apply ResKeeps.go
          apply keeps_State_after; assumption

theorem keeps_execBsfit (x0 : Nat) (x1 : IWord) {x2 : State} (h2 : Keeps k fd fc false false false false fh fu false fo fa ft s₀ x2) :
    OutKeeps k fd fc false false false false fh fu false fo fa ft s₀ (execBsfit x0 x1 x2) := by
  unfold execBsfit
  apply keeps_issue
  · assumption
  · intro _ _ _
    apply keeps_legal
    split
    · apply keeps_illegal
    · extract_lets +onlyGivenNames v65 v66
      clear_value v65 v66
      split
      · apply keeps_busyFault
      · split
        · apply keeps_trayRange
        · split
          · apply keeps_badField
          · extract_lets +onlyGivenNames v71
            have h71 : Keeps k fd fc false false false false fh fu false fo fa ft s₀ v71 := by
              subst v71
              apply keeps_State_occupy; assumption
            clear_value v71
            split
            · split
              · apply ResKeeps.go
                apply keeps_State_failUse; assumption
              · extract_lets +onlyGivenNames v73 v74
                clear_value v73 v74
                apply ResKeeps.go
                apply keeps_State_after; assumption
            · apply ResKeeps.go
              apply keeps_State_failUse; assumption

theorem keeps_execBsmax (x0 : Nat) (x1 : IWord) {x2 : State} (h2 : Keeps k fd fc false false false false fh fu false fo fa ft s₀ x2) :
    OutKeeps k fd fc false false false false fh fu false fo fa ft s₀ (execBsmax x0 x1 x2) := by
  unfold execBsmax
  apply keeps_issue
  · assumption
  · intro _ _ _
    apply keeps_legal
    split
    · apply keeps_illegal
    · extract_lets +onlyGivenNames v62 v64 v65
      clear_value v62 v64 v65
      split
      · apply keeps_busyFault
      · split
        · apply keeps_trayRange
        · split
          · extract_lets +onlyGivenNames v69
            clear_value v69
            split
            · apply keeps_badField
            · apply ResKeeps.go
              apply keeps_State_after
              apply keeps_State_occupy; assumption
          · split
            · apply keeps_badField
            · extract_lets +onlyGivenNames v70
              have h70 : Keeps k fd fc false false false false fh fu false fo fa ft s₀ v70 := by
                subst v70
                apply keeps_State_occupy; assumption
              clear_value v70
              split
              · split
                · apply ResKeeps.go
                  apply keeps_State_failUse; assumption
                · apply ResKeeps.go
                  apply keeps_State_after; assumption
              · apply ResKeeps.go
                apply keeps_State_failUse; assumption

theorem keeps_execThdr (x0 : Nat) (x1 : IWord) {x2 : State} (h2 : Keeps k fd fc false false false false fh fu false fo fa ft s₀ x2) :
    OutKeeps k fd fc false false false false fh fu false fo fa ft s₀ (execThdr x0 x1 x2) := by
  unfold execThdr
  apply keeps_issue
  · assumption
  · intro _ _ _
    apply keeps_legal
    extract_lets +onlyGivenNames v58
    clear_value v58
    split
    · apply keeps_illegal
    · split
      · apply keeps_trayRange
      · apply ResKeeps.go
        apply keeps_State_after; assumption

/-! Mask -/

theorem keeps_reform {x0 : State} (x1 : Nat) (x2 : Engine) (x3 : IWord) (x4 : Nat) (x5 : Bytes → Tile → Bytes) (h0 : Keeps k fd fc false fl fb fm fh fu fy fo fa ft s₀ x0) :
    ResKeeps k fd fc false fl fb fm fh fu fy fo fa ft s₀ (reform x0 x1 x2 x3 x4 x5) := by
  unfold reform
  extract_lets +onlyGivenNames v62 v63
  clear_value v62 v63
  split
  · apply keeps_busyFault
  · split
    · apply keeps_trayRange
    · split
      · extract_lets +onlyGivenNames v70
        clear_value v70
        split
        · apply keeps_trayRange
        · apply ResKeeps.go
          apply keeps_State_after
          apply keeps_State_occupy; assumption
      · apply ResKeeps.go
        apply keeps_State_failUse
        apply keeps_State_occupy; assumption

theorem keeps_execFsel (x0 : Nat) (x1 : IWord) {x2 : State} (h2 : Keeps k fd fc false false false false fh fu false fo fa ft s₀ x2) :
    OutKeeps k fd fc false false false false fh fu false fo fa ft s₀ (execFsel x0 x1 x2) := by
  unfold execFsel
  apply keeps_issue
  · assumption
  · intro _ _ _
    apply keeps_legal
    apply keeps_reform; assumption

theorem keeps_execDense (x0 : Nat) (x1 : IWord) {x2 : State} (h2 : Keeps k fd fc false false false false fh fu false fo fa ft s₀ x2) :
    OutKeeps k fd fc false false false false fh fu false fo fa ft s₀ (execDense x0 x1 x2) := by
  unfold execDense
  apply keeps_issue
  · assumption
  · intro _ _ _
    apply keeps_legal
    apply keeps_reform; assumption

theorem keeps_execCmpct (x0 : Nat) (x1 : IWord) {x2 : State} (h2 : Keeps k fd fc false false false false fh fu false fo fa ft s₀ x2) :
    OutKeeps k fd fc false false false false fh fu false fo fa ft s₀ (execCmpct x0 x1 x2) := by
  unfold execCmpct
  apply keeps_issue
  · assumption
  · intro _ _ _
    apply keeps_legal
    extract_lets +onlyGivenNames v60
    clear_value v60
    split
    · apply keeps_trayRange
    · apply keeps_reform; assumption

theorem keeps_execFilt (x0 : Nat) (x1 : IWord) {x2 : State} (h2 : Keeps k fd fc false false false false fh fu false fo fa ft s₀ x2) :
    OutKeeps k fd fc false false false false fh fu false fo fa ft s₀ (execFilt x0 x1 x2) := by
  unfold execFilt
  apply keeps_issue
  · assumption
  · intro _ _ _
    apply keeps_legal
    split
    · apply keeps_illegal
    · extract_lets +onlyGivenNames v74 v75 v76 v79
      clear_value v74 v75 v76 v79
      split
      · apply keeps_busyFault
      · split
        · apply keeps_badField
        · extract_lets +onlyGivenNames v82 v84
          clear_value v82 v84
          split
          · apply keeps_trayRange
          · extract_lets +onlyGivenNames v85
            have h85 : Keeps k fd fc false false false false fh fu false fo fa ft s₀ v85 := by
              subst v85
              apply keeps_State_after
              apply keeps_State_occupy; assumption
            clear_value v85
            apply ResKeeps.go
            apply keeps_State_after; assumption

theorem keeps_execRecs (x0 : Nat) (x1 : IWord) {x2 : State} (h2 : Keeps k fd fc false false false false fh fu false fo fa ft s₀ x2) :
    OutKeeps k fd fc false false false false fh fu false fo fa ft s₀ (execRecs x0 x1 x2) := by
  unfold execRecs
  apply keeps_issue
  · assumption
  · intro _ _ _
    apply keeps_legal
    split
    · apply keeps_illegal
    · extract_lets +onlyGivenNames v79 v80
      clear_value v79 v80
      split
      · apply keeps_busyFault
      · split
        · apply keeps_trayRange
        · extract_lets +onlyGivenNames v91
          have h91 : Keeps k fd fc false false false false fh fu false fo fa ft s₀ v91 := by
            subst v91
            apply keeps_State_occupy; assumption
          clear_value v91
          split
          · apply ResKeeps.go
            apply keeps_State_after; assumption
          · apply ResKeeps.go
            apply keeps_State_failUse; assumption

theorem keeps_execTwrap (x0 : Nat) (x1 : IWord) {x2 : State} (h2 : Keeps k fd fc false false false false fh fu false fo fa ft s₀ x2) :
    OutKeeps k fd fc false false false false fh fu false fo fa ft s₀ (execTwrap x0 x1 x2) := by
  unfold execTwrap
  apply keeps_issue
  · assumption
  · intro _ _ _
    apply keeps_legal
    split
    · apply keeps_illegal
    · extract_lets +onlyGivenNames v82 v84 v85 v86
      clear_value v82 v84 v85 v86
      split
      · apply keeps_busyFault
      · split
        · split
          · apply keeps_trayRange
          · split
            · apply keeps_badField
            · extract_lets +onlyGivenNames v105 v106 v107
              clear_value v105 v106 v107
              apply ResKeeps.go
              apply keeps_State_after
              apply keeps_State_occupy; assumption
        · split
          · apply keeps_trayRange
          · split
            · apply keeps_badField
            · extract_lets +onlyGivenNames v109 v110 v111
              clear_value v109 v110 v111
              apply ResKeeps.go
              apply keeps_State_after
              apply keeps_State_occupy; assumption

/-! MemoryEvents -/

theorem keeps_execRuntimeMapout (x0 : Nat) (x1 : MapCause) {x2 : State} (h2 : Keeps k false fc false false false false false false false false fa ft s₀ x2) :
    OutKeeps k false fc false false false false false false false false fa ft s₀ (execRuntimeMapout x0 x1 x2) := by
  unfold execRuntimeMapout
  apply keeps_onUnit
  apply keeps_whenP
  · assumption
  · apply keeps_State_mapOut; assumption

theorem keeps_execSpareTakeover {x0 : State} (h0 : Keeps k fd fc false false false false fh false false fo fa ft s₀ x0) :
    OutKeeps k fd fc false false false false fh false false fo fa ft s₀ (execSpareTakeover x0) := by
  unfold execSpareTakeover
  split
  · apply keeps_same; assumption
  · apply keeps_whenP
    · assumption
    · apply keeps_State_tookOver; assumption

theorem keeps_execBackgroundScrub (x0 : MemErr) {x1 : State} (h1 : Keeps k fd fc fe fl fb false fh fu false fo fa ft s₀ x1) :
    OutKeeps k fd fc fe fl fb false fh fu false fo fa ft s₀ (execBackgroundScrub x0 x1) := by
  unfold execBackgroundScrub
  apply keeps_whenP
  · assumption
  · apply keeps_State_memErr; assumption

theorem keeps_execHbmPowerDown (x0 : Nat) {x1 : State} (h1 : Keeps k fd fc fe fl fb false fh fu fy fo fa ft s₀ x1) :
    OutKeeps k fd fc fe fl fb false fh fu fy fo fa ft s₀ (execHbmPowerDown x0 x1) := by
  unfold execHbmPowerDown
  apply keeps_onUnit
  apply keeps_whenP
  · assumption
  · exact Keeps.upd ‹_› (.of (.refl _))

theorem keeps_execHbmSelfRefreshEntry (x0 : Nat) {x1 : State} (h1 : Keeps k fd fc fe fl fb false fh fu fy fo fa ft s₀ x1) :
    OutKeeps k fd fc fe fl fb false fh fu fy fo fa ft s₀ (execHbmSelfRefreshEntry x0 x1) := by
  unfold execHbmSelfRefreshEntry
  apply keeps_onUnit
  apply keeps_whenP
  · assumption
  · exact Keeps.upd ‹_› (.of (.refl _))

theorem keeps_flushed (x0 : State) (first n a : Nat) (hdr : Bytes) (h0 : Keeps k fd fc fe fl fb false fh false false false fa ft s₀ x0) :
    Keeps k fd fc fe fl fb false fh false false false fa ft s₀ ((({ ((x0.copyRecords first x0.diary.copied n).putMem a hdr) with diary := { ((x0.copyRecords first x0.diary.copied n).putMem a hdr).diary with busy := none } } : State).interruptAll 5).alertBit 2) := by
  have h1 := keeps_State_putMem a hdr (keeps_State_copyRecords first x0.diary.copied n h0)
  generalize (x0.copyRecords first x0.diary.copied n).putMem a hdr = s1 at h1 ⊢
  exact keeps_State_alertBit _ (keeps_State_interruptAll _ h1.of)

theorem keeps_State_closeFlush {x0 : State} (x1 x2 : Nat) (h0 : Keeps k fd fc fe fl fb false fh false false false fa ft s₀ x0) : Keeps k fd fc fe fl fb false fh false false false fa ft s₀ (x0.closeFlush x1 x2) := by
  unfold State.closeFlush
  exact keeps_flushed _ _ _ _ _ h0

theorem keeps_State_nextFlush {x0 : State} (h0 : Keeps k fd fc fe fl fb false fh fu false fo fa ft s₀ x0) :
    Keeps k fd fc fe fl fb false fh fu false fo fa ft s₀ (State.nextFlush x0) := by
  unfold State.nextFlush
  split
  · apply keeps_State_startFlush
    exact Keeps.upd ‹_› (.of (.refl _))
  · assumption

theorem keeps_State_flushFor {x0 : State} (x1 : Nat) (h0 : Keeps k fd fc fe fl fb false fh fu false false fa ft s₀ x0) :
    Keeps k fd fc fe fl fb false fh fu false false fa ft s₀ (State.flushFor x0 x1) := by
  unfold State.flushFor
  split
  · apply keeps_State_powerLog; assumption
  · split
    · apply keeps_State_easelFlush; assumption
    · apply keeps_State_startFlush; assumption

theorem keeps_execDiaryFlush (x0 : Nat) {x1 : State} (h1 : Keeps k fd fc fe fl fb false fh fu false false fa ft s₀ x1) :
    OutKeeps k fd fc fe fl fb false fh fu false false fa ft s₀ (execDiaryFlush x0 x1) := by
  unfold execDiaryFlush
  apply keeps_whenP
  · assumption
  · apply keeps_State_flushFor; assumption

/-! Outlet -/

theorem keeps_execSend (x0 : Nat) (x1 : IWord) {x2 : State} (h2 : Keeps k fd fc false false false false fh fu false fo fa ft s₀ x2) :
    OutKeeps k fd fc false false false false fh fu false fo fa ft s₀ (execSend x0 x1 x2) := by
  unfold execSend
  apply keeps_issue
  · assumption
  · intro _ _ _
    apply keeps_legal
    extract_lets +onlyGivenNames v83 v84 v87
    clear_value v83 v84 v87
    split
    · apply keeps_busyFault
    · split
      · exact ResKeeps.fault
      · split
        · apply keeps_trayRange
        · split
          · apply keeps_badField
          · extract_lets +onlyGivenNames v104
            clear_value v104
            apply ResKeeps.go
            apply keeps_State_occupy
            apply keeps_State_modEasel; assumption

theorem keeps_execStore (x0 : Nat) (x1 : IWord) {x2 : State} (h2 : Keeps k fd fc false false false false fh fu false fo fa ft s₀ x2) :
    OutKeeps k fd fc false false false false fh fu false fo fa ft s₀ (execStore x0 x1 x2) := by
  unfold execStore
  apply keeps_issue
  · assumption
  · intro _ _ _
    apply keeps_legal
    extract_lets +onlyGivenNames v79 v80 v81
    clear_value v79 v80 v81
    split
    · apply keeps_busyFault
    · split
      · apply keeps_trayRange
      · split
        · apply keeps_badField
        · extract_lets +onlyGivenNames v91
          clear_value v91
          apply ResKeeps.go
          apply keeps_State_issueOp; assumption

theorem keeps_execStoreCompletion (x0 : Nat) (x1 : Nat) {x2 : State} (h2 : Keeps k fd fc false fl fb false fh fu false fo fa ft s₀ x2) :
    OutKeeps k fd fc false fl fb false fh fu false fo fa ft s₀ (execStoreCompletion x0 x1 x2) := by
  unfold execStoreCompletion
  apply keeps_completeOp; assumption

theorem keeps_execScatter (x0 : Nat) (x1 : IWord) {x2 : State} (h2 : Keeps k fd fc false false false false fh fu false fo fa ft s₀ x2) :
    OutKeeps k fd fc false false false false fh fu false fo fa ft s₀ (execScatter x0 x1 x2) := by
  unfold execScatter
  apply keeps_issue
  · assumption
  · intro _ _ _
    apply keeps_legal
    extract_lets +onlyGivenNames v83 v84 v85 v87
    clear_value v83 v84 v85 v87
    split
    · apply keeps_busyFault
    · split
      · apply keeps_trayRange
      · extract_lets +onlyGivenNames v93 v94
        clear_value v93 v94
        split
        · apply keeps_badField
        · extract_lets +onlyGivenNames v95
          clear_value v95
          apply ResKeeps.go
          apply keeps_State_issueOp; assumption

theorem keeps_execScatterCompletion (x0 : Nat) (x1 : Nat) (x2 : MemErr) {x3 : State} (h3 : Keeps k fd fc false fl fb false fh fu false fo fa ft s₀ x3) :
    OutKeeps k fd fc false fl fb false fh fu false fo fa ft s₀ (execScatterCompletion x0 x1 x2 x3) := by
  unfold execScatterCompletion
  apply keeps_completeOp; assumption

/-! Recovery -/

theorem keeps_State_ackTo {x0 : State} (x1 : Nat) (x2 : Nat) (x3 : Bytes) (h0 : Keeps k fd fc fe fl false fm fh fu false fo fa ft s₀ x0) :
    Keeps k fd fc fe fl false fm fh fu false fo fa ft s₀ (State.ackTo x0 x1 x2 x3) := by
  unfold State.ackTo
  split
  · assumption
  · apply keeps_State_rosterTo; assumption

theorem keeps_execAlive (x0 : Nat) {x1 : State} (h1 : Keeps k fd fc fe fl false fm fh fu false fo fa ft s₀ x1) :
    OutKeeps k fd fc fe fl false fm fh fu false fo fa ft s₀ (execAlive x0 x1) := by
  unfold execAlive
  apply keeps_onMessage
  · assumption
  · intro _ _ _
    assumption

theorem keeps_State_noteApplied {x0 : State} (x1 : Nat) (x2 : Nat × Nat × Nat × Nat) (h0 : Keeps k fd fc fe false fb fm fh fu fy fo fa ft s₀ x0) :
    Keeps k fd fc fe false fb fm fh fu fy fo fa ft s₀ (State.noteApplied x0 x1 x2) := by
  unfold State.noteApplied
  apply keeps_State_modCtx; assumption

theorem keeps_State_fenceAway {x0 : State} (x1 : Nat) (x2 : Nat) (x3 : Nat) (x4 : Option Nat) (h0 : Keeps k fd fc fe false false fm fh fu false fo fa ft s₀ x0) :
    Keeps k fd fc fe false false fm fh fu false fo fa ft s₀ (State.fenceAway x0 x1 x2 x3 x4) := by
  unfold State.fenceAway
  extract_lets +onlyGivenNames v74 v75
  clear_value v74 v75
  apply keeps_State_spread
  apply keeps_State_setCtx; assumption

theorem keeps_execFence (x0 : Nat) {x1 : State} (h1 : Keeps k fd fc false false false fm fh fu false fo fa ft s₀ x1) :
    OutKeeps k fd fc false false false fm fh fu false fo fa ft s₀ (execFence x0 x1) := by
  unfold execFence
  apply keeps_onMessage
  · assumption
  · intro _ _ _
    extract_lets +onlyGivenNames v51 v52 v53
    clear_value v51 v52 v53
    apply keeps_State_notLost
    · assumption
    · split
      · extract_lets +onlyGivenNames v59
        clear_value v59
        split
        · assumption
        · split
          · apply keeps_State_fenceRank; assumption
          · apply keeps_State_fenceAway; assumption
      · split
        · apply keeps_State_ackTo; assumption
        · apply keeps_State_ackTo
          apply keeps_State_noteApplied
          apply keeps_State_fenceRank; assumption

theorem keeps_State_rejoinReruns {x0 : State} (x1 : Nat) (x2 : Nat) (h0 : Keeps k fd fc false false false fm fh fu false fo fa ft s₀ x0) :
    Keeps k fd fc false false false fm fh fu false fo fa ft s₀ (State.rejoinReruns x0 x1 x2) := by
  unfold State.rejoinReruns
  extract_lets +onlyGivenNames v59
  clear_value v59
  apply Keeps.foldl
  · intro _ _ _
    split
    · assumption
    · apply Keeps.foldl
      · intro _ _ _
        apply keeps_State_requestRerun; assumption
      · assumption
  · assumption

theorem keeps_State_resendKept {x0 : State} (x1 : Nat) (x2 : Nat) (h0 : Keeps k fd fc fe fl false false fh fu false fo fa ft s₀ x0) :
    Keeps k fd fc fe fl false false fh fu false fo fa ft s₀ (State.resendKept x0 x1 x2) := by
  unfold State.resendKept
  extract_lets +onlyGivenNames v69
  clear_value v69
  split
  · split
    · apply Keeps.foldl
      · intro _ _ _
        apply keeps_State_originate
        apply keeps_State_accessRun; assumption
      · assumption
    · assumption
  · assumption

theorem keeps_State_setRank {x0 : State} (x1 : Nat) (x2 : Nat) (x3 : Nat) (x4 : Nat) (h0 : Keeps k fd fc fe false fb fm fh fu fy fo fa ft s₀ x0) :
    Keeps k fd fc fe false fb fm fh fu fy fo fa ft s₀ (State.setRank x0 x1 x2 x3 x4) := by
  unfold State.setRank
  extract_lets +onlyGivenNames v81
  clear_value v81
  apply keeps_State_setCtx; assumption

theorem keeps_State_rejoinHome {x0 : State} (x1 : Nat) (x2 : Nat) (x3 : Nat) (x4 : Nat) (x5 : Option Nat) (h0 : Keeps k fd fc false false false false false fu false fo fa ft s₀ x0) :
    Keeps k fd fc false false false false false fu false fo fa ft s₀ (State.rejoinHome x0 x1 x2 x3 x4 x5) := by
  unfold State.rejoinHome
  extract_lets +onlyGivenNames v78
  have h78 : Keeps k fd fc false false false false false fu false fo fa ft s₀ v78 := by
    subst v78
    apply keeps_State_fenceRank; assumption
  clear_value v78
  extract_lets +onlyGivenNames v83
  have h83 : Keeps k fd fc false false false false false fu false fo fa ft s₀ v83 := by
    subst v83
    apply keeps_State_setRank; assumption
  clear_value v83
  extract_lets +onlyGivenNames v87 v88
  clear_value v87 v88
  extract_lets +onlyGivenNames v89
  have h89 : Keeps k fd fc false false false false false fu false fo fa ft s₀ v89 := by
    subst v89
    exact Keeps.upd ‹_› (.of (.refl _))
  clear_value v89
  apply keeps_State_rejoinReruns
  apply keeps_State_resendKept
  apply keeps_State_spread; assumption

theorem keeps_execRejoin (x0 : Nat) {x1 : State} (h1 : Keeps k fd fc false false false false false fu false fo fa ft s₀ x1) :
    OutKeeps k fd fc false false false false false fu false fo fa ft s₀ (execRejoin x0 x1) := by
  unfold execRejoin
  apply keeps_onMessage
  · assumption
  · intro _ _ _
    extract_lets +onlyGivenNames v49 v50 v51 v52
    clear_value v49 v50 v51 v52
    apply keeps_State_notLost
    · assumption
    · split
      · extract_lets +onlyGivenNames v56
        clear_value v56
        split
        · assumption
        · split
          · apply keeps_State_rejoinHome; assumption
          · apply keeps_State_rejoinReruns
            apply keeps_State_spread
            apply keeps_State_setRank; assumption
      · split
        · apply keeps_State_ackTo; assumption
        · apply keeps_State_ackTo
          apply keeps_State_noteApplied
          apply keeps_State_rejoinHome; assumption

theorem keeps_State_resendAsk {x0 : State} (x1 : Nat) (x2 : Word) (x3 : List Nat) (x4 : Nat) (x5 : Nat) (x6 : Nat) (h0 : Keeps k fd fc fe fl false fm fh fu false fo fa ft s₀ x0) :
    Keeps k fd fc fe fl false fm fh fu false fo fa ft s₀ (State.resendAsk x0 x1 x2 x3 x4 x5 x6) := by
  unfold State.resendAsk
  extract_lets +onlyGivenNames v81
  clear_value v81
  apply Keeps.foldl
  · intro _ _ _
    apply keeps_State_rosterTo; assumption
  · assumption

theorem keeps_State_takeOver {x0 : State} (x1 x2 x3 x4 : Nat) (h0 : Keeps k fd fc false false false fm fh fu false fo fa ft s₀ x0) : Keeps k fd fc false false false fm fh fu false fo fa ft s₀ (x0.takeOver x1 x2 x3 x4) := by
  unfold State.takeOver
  extract_lets x ranks s1 x' s2
  have h1 : Keeps k fd fc false false false fm fh fu false fo fa ft s₀ s1 := by
    subst s1
    split
    · exact h0
    · exact Keeps.foldl _ (fun s y h => keeps_State_fenceRank _ _ _ h) h0
  have h2 : Keeps k fd fc false false false fm fh fu false fo fa ft s₀ s2 := Keeps.foldl _ (fun s y h => keeps_State_rosterTo _ _ h) h1
  clear_value s1 s2
  refine Keeps.foldl _ (fun s y h => ?_) h2
  split
  · exact h
  · exact keeps_State_pumpSummary _ _ (keeps_State_requestRerun _ _ _ _ (keeps_State_resendAsk _ _ _ _ _ _ (keeps_State_takeAccums _ _ h)))

theorem keeps_State_resummarise {x0 : State} (x1 : Nat) (x2 : List Nat) (h0 : Keeps k fd fc false false false fm fh fu false fo fa ft s₀ x0) :
    Keeps k fd fc false false false fm fh fu false fo fa ft s₀ (State.resummarise x0 x1 x2) := by
  unfold State.resummarise
  extract_lets +onlyGivenNames v59 v60
  clear_value v59 v60
  split
  · assumption
  · apply Keeps.foldl
    · intro _ _ _
      split
      · assumption
      · apply keeps_State_pumpSummary
        apply keeps_State_modGen; assumption
    · assumption

theorem keeps_State_rehost {x0 : State} (x1 : Nat) (x2 : List Nat) (h0 : Keeps k fd fc fe false fb fm fh fu fy fo fa ft s₀ x0) :
    Keeps k fd fc fe false fb fm fh fu fy fo fa ft s₀ (State.rehost x0 x1 x2) := by
  unfold State.rehost
  split
  · assumption
  · apply keeps_State_rehost
    apply keeps_State_setCtx; assumption

theorem keeps_State_unhosted {x0 : State} (x1 : Nat) (x2 : Nat) (h0 : Keeps k fd fc false false false fm fh fu false fo fa ft s₀ x0) :
    Keeps k fd fc false false false fm fh fu false fo fa ft s₀ (State.unhosted x0 x1 x2) := by
  unfold State.unhosted
  extract_lets +onlyGivenNames v68 v69
  clear_value v68 v69
  split
  · apply keeps_State_toAuthority
    apply Keeps.foldl
    · intro _ _ _
      apply keeps_State_failGen; assumption
    · assumption
  · assumption

theorem keeps_State_applyLost {x0 : State} (x1 : Nat) (x2 : Nat) (x3 : Option Nat) (x4 : Nat) (x5 : Nat) (x6 : Option Nat) (h0 : Keeps k fd fc false false false false fh false false fo fa ft s₀ x0) :
    Keeps k fd fc false false false false fh false false fo fa ft s₀ (State.applyLost x0 x1 x2 x3 x4 x5 x6) := by
  unfold State.applyLost
  extract_lets +onlyGivenNames v76
  clear_value v76
  split
  · apply keeps_State_freeCtx
    apply keeps_State_failAll; assumption
  · extract_lets +onlyGivenNames v79 v81
    clear_value v79 v81
    extract_lets +onlyGivenNames v82
    have h82 : Keeps k fd fc false false false false fh false false fo fa ft s₀ v82 := by
      subst v82
      apply keeps_State_rehost
      apply keeps_State_setCtx; assumption
    clear_value v82
    extract_lets +onlyGivenNames v83
    have h83 : Keeps k fd fc false false false false fh false false fo fa ft s₀ v83 := by
      subst v83
      apply keeps_State_freeHolds; assumption
    clear_value v83
    extract_lets +onlyGivenNames v85
    clear_value v85
    extract_lets +onlyGivenNames v86
    have h86 : Keeps k fd fc false false false false fh false false fo fa ft s₀ v86 := by
      subst v86
      apply keeps_State_spread; assumption
    clear_value v86
    extract_lets +onlyGivenNames v88 v90
    clear_value v88 v90
    extract_lets +onlyGivenNames v91
    have h91 : Keeps k fd fc false false false false fh false false fo fa ft s₀ v91 := by
      subst v91
      split
      · apply keeps_State_unhosted; assumption
      · assumption
    clear_value v91
    extract_lets +onlyGivenNames v92
    have h92 : Keeps k fd fc false false false false fh false false fo fa ft s₀ v92 := by
      subst v92
      apply Keeps.foldl
      · intro _ _ _
        apply keeps_State_takeOver; assumption
      · assumption
    clear_value v92
    extract_lets +onlyGivenNames v98
    have h98 : Keeps k fd fc false false false false fh false false fo fa ft s₀ v98 := by
      subst v98
      split
      · apply keeps_State_sendChecks; assumption
      · assumption
    clear_value v98
    apply keeps_State_resummarise; assumption

theorem keeps_execLost (x0 : Nat) {x1 : State} (h1 : Keeps k fd fc false false false false fh false false fo fa ft s₀ x1) :
    OutKeeps k fd fc false false false false fh false false fo fa ft s₀ (execLost x0 x1) := by
  unfold execLost
  apply keeps_onMessage
  · assumption
  · intro _ _ _
    extract_lets +onlyGivenNames v54 v55
    clear_value v54 v55
    apply keeps_State_notLost
    · assumption
    · split
      · assumption
      · apply keeps_State_applyLost; assumption

theorem keeps_execHost (x0 : Nat) {x1 : State} (h1 : Keeps k fd fc false false false false fh false false fo fa ft s₀ x1) :
    OutKeeps k fd fc false false false false fh false false fo fa ft s₀ (execHost x0 x1) := by
  unfold execHost
  apply keeps_onMessage
  · assumption
  · intro _ _ _
    extract_lets +onlyGivenNames v62 v63 v64
    clear_value v62 v63 v64
    apply keeps_State_notLost
    · assumption
    · split
      · apply keeps_State_ackTo; assumption
      · apply keeps_State_ackTo
        apply keeps_State_noteApplied
        apply keeps_State_applyLost; assumption

theorem keeps_execSwitchSilence (x0 : Nat) (x1 : Nat) {x2 : State} (h2 : Keeps k fd fc false false false false fh false false fo fa ft s₀ x2) :
    OutKeeps k fd fc false false false false fh false false fo fa ft s₀ (execSwitchSilence x0 x1 x2) := by
  unfold execSwitchSilence
  extract_lets +onlyGivenNames v70 v71 v72
  clear_value v70 v71 v72
  apply keeps_whenP
  · assumption
  · extract_lets +onlyGivenNames v73
    clear_value v73
    apply keeps_State_toAuthority
    apply keeps_State_applyLost; assumption

theorem keeps_State_dropRange {x0 : State} (x1 : Nat) (x2 : Nat) (x3 : Word) (x4 : Nat) (x5 : Nat) (h0 : Keeps k fd fc false fl false fm fh fu false fo fa ft s₀ x0) :
    Keeps k fd fc false fl false fm fh fu false fo fa ft s₀ (State.dropRange x0 x1 x2 x3 x4 x5) := by
  unfold State.dropRange
  extract_lets +onlyGivenNames v82 v85 v86 v88 v89
  clear_value v82 v85 v86 v88 v89
  extract_lets +onlyGivenNames v90
  have h90 : Keeps k fd fc false fl false fm fh fu false fo fa ft s₀ v90 := by
    subst v90
    apply keeps_State_setEasel; assumption
  clear_value v90
  apply Keeps.foldl
  · intro _ _ _
    apply keeps_State_freeEject; assumption
  · assumption

theorem keeps_State_dropPartials {x0 : State} (x1 : Nat) (x2 : Word) (x3 : Nat → Bool) (h0 : Keeps k fd fc fe fl false fm fh fu false fo fa ft s₀ x0) :
    Keeps k fd fc fe fl false fm fh fu false fo fa ft s₀ (State.dropPartials x0 x1 x2 x3) := by
  unfold State.dropPartials
  extract_lets +onlyGivenNames v90
  clear_value v90
  apply Keeps.foldl
  · intro _ _ _
    apply keeps_State_freeEject; assumption
  · apply keeps_State_setFab; assumption

theorem keeps_State_applyRerun {x0 : State} (x1 : Nat) (x2 : Word) (x3 : Nat) (x4 : Nat) (h0 : Keeps k fd fc false false false fm fh fu false fo fa ft s₀ x0) :
    Keeps k fd fc false false false fm fh fu false fo fa ft s₀ (State.applyRerun x0 x1 x2 x3 x4) := by
  unfold State.applyRerun
  extract_lets +onlyGivenNames v44
  clear_value v44
  split
  · assumption
  · split
    · assumption
    · extract_lets +onlyGivenNames v53
      clear_value v53
      extract_lets +onlyGivenNames v54
      have h54 : Keeps k fd fc false false false fm fh fu false fo fa ft s₀ v54 := by
        subst v54
        apply Keeps.foldl
        · intro _ _ _
          apply keeps_State_stopGroup; assumption
        · assumption
      clear_value v54
      extract_lets +onlyGivenNames v57
      have h57 : Keeps k fd fc false false false fm fh fu false fo fa ft s₀ v57 := by
        subst v57
        apply Keeps.foldl
        · intro _ _ _
          apply keeps_State_dropRange; assumption
        · assumption
      clear_value v57
      extract_lets +onlyGivenNames v60
      have h60 : Keeps k fd fc false false false fm fh fu false fo fa ft s₀ v60 := by
        subst v60
        apply keeps_State_dropPartials
        apply keeps_State_dropStaged; assumption
      clear_value v60
      extract_lets +onlyGivenNames v61
      have h61 : Keeps k fd fc false false false fm fh fu false fo fa ft s₀ v61 := by
        subst v61
        apply keeps_State_modGen; assumption
      clear_value v61
      apply keeps_State_resendAsk
      apply keeps_State_clearAccums; assumption

theorem keeps_State_rerunDown {x0 : State} (x1 : Nat) (x2 : Bytes) (h0 : Keeps k fd fc fe fl false fm fh fu false fo fa ft s₀ x0) :
    Keeps k fd fc fe fl false fm fh fu false fo fa ft s₀ (State.rerunDown x0 x1 x2) := by
  unfold State.rerunDown
  extract_lets +onlyGivenNames v89
  clear_value v89
  apply Keeps.foldl
  · intro _ _ _
    apply keeps_State_rosterNode; assumption
  · assumption

theorem keeps_execRerun (x0 : Nat) {x1 : State} (h1 : Keeps k fd fc false false false fm fh fu false fo fa ft s₀ x1) :
    OutKeeps k fd fc false false false fm fh fu false fo fa ft s₀ (execRerun x0 x1) := by
  unfold execRerun
  apply keeps_onMessage
  · assumption
  · intro _ _ _
    extract_lets +onlyGivenNames v67 v68
    clear_value v67 v68
    apply keeps_State_notLost
    · assumption
    · extract_lets +onlyGivenNames v69
      clear_value v69
      split
      · assumption
      · extract_lets +onlyGivenNames v70
        clear_value v70
        split
        · apply keeps_State_mergeRerun; assumption
        · split
          · apply keeps_State_applyRerun
            apply keeps_State_rerunDown; assumption
          · apply keeps_State_rosterNode; assumption

theorem keeps_execRerunMerge (x0 : Nat) (x1 : Word) {x2 : State} (h2 : Keeps k fd fc false false false fm fh fu false fo fa ft s₀ x2) :
    OutKeeps k fd fc false false false fm fh fu false fo fa ft s₀ (execRerunMerge x0 x1 x2) := by
  unfold execRerunMerge
  split
  · apply keeps_same; assumption
  · apply keeps_whenP
    · assumption
    · extract_lets +onlyGivenNames v61
      subst v61
      extract_lets +onlyGivenNames v63
      have h63 : Keeps k fd fc false false false fm fh fu false fo fa ft s₀ v63 := by
        subst v63
        exact Keeps.upd ‹_› (.of (.refl _))
      clear_value v63
      apply keeps_State_applyRerun
      apply keeps_State_rerunDown; assumption

theorem keeps_execMemberSilent (x0 : Nat) {x1 : State} (h1 : Keeps k fd fc false false false fm fh fu false fo fa ft s₀ x1) :
    OutKeeps k fd fc false false false fm fh fu false fo fa ft s₀ (execMemberSilent x0 x1) := by
  unfold execMemberSilent
  extract_lets +onlyGivenNames v60
  clear_value v60
  apply keeps_whenP
  · assumption
  · apply keeps_State_fenceEndpoint; assumption

theorem keeps_execHealthDecay {x0 : State} (h0 : Keeps k fd fc fe fl fb fm false fu fy fo fa ft s₀ x0) :
    OutKeeps k fd fc fe fl fb fm false fu fy fo fa ft s₀ (execHealthDecay x0) := by
  unfold execHealthDecay
  extract_lets +onlyGivenNames v71
  clear_value v71
  apply keeps_whenP
  · assumption
  · extract_lets +onlyGivenNames v72
    clear_value v72
    exact Keeps.upd ‹_› (.of (.refl _))

theorem keeps_execExpelTokenAdd {x0 : State} (h0 : Keeps k fd fc false false false fm false false false false fa ft s₀ x0) :
    OutKeeps k fd fc false false false fm false false false false fa ft s₀ (execExpelTokenAdd x0) := by
  unfold execExpelTokenAdd
  extract_lets +onlyGivenNames v77
  clear_value v77
  apply keeps_whenP
  · assumption
  · extract_lets +onlyGivenNames v78
    have h78 : Keeps k fd fc false false false fm false false false false fa ft s₀ v78 := by
      subst v78
      exact Keeps.upd ‹_› (.of (.refl _))
    clear_value v78
    split
    · apply keeps_State_expel; assumption
    · assumption

theorem keeps_execGrisailleEntry (x0 : GrisCause) {x1 : State} (h1 : Keeps k false fc false false false false false false false false fa ft s₀ x1) :
    OutKeeps k false fc false false false false false false false false fa ft s₀ (execGrisailleEntry x0 x1) := by
  unfold execGrisailleEntry
  apply OutKeeps.next
  apply keeps_State_enterGrisaille; assumption

/-! Park -/

theorem keeps_State_aheadOf {x0 : State} (x1 : Nat) (x2 : EngId) (x3 : List DWord) (h0 : Keeps k fd fc false fl fb fm fh fu fy fo fa ft s₀ x0) :
    Keeps k fd fc false fl fb fm fh fu fy fo fa ft s₀ (State.aheadOf x0 x1 x2 x3) := by
  unfold State.aheadOf
  apply keeps_State_modEngine; assumption

theorem keeps_State_parkChunk {x0 : State} (x1 : Nat) (x2 : Ctx) (x3 : Word) (x4 : Nat) (x5 : Chunk) (h0 : Keeps k fd fc false false fb fm fh fu fy fo fa ft s₀ x0) :
    Keeps k fd fc false false fb fm fh fu fy fo fa ft s₀ (State.parkChunk x0 x1 x2 x3 x4 x5) := by
  unfold State.parkChunk
  extract_lets +onlyGivenNames v77
  clear_value v77
  extract_lets +onlyGivenNames v78
  have h78 : Keeps k fd fc false false fb fm fh fu fy fo fa ft s₀ v78 := by
    subst v78
    apply Keeps.foldl
    · intro _ _ _
      apply keeps_State_aheadOf; assumption
    · assumption
  clear_value v78
  apply keeps_State_modGen; assumption

theorem keeps_execChunkStall (x0 : Nat) (x1 : Word) (x2 : Nat) {x3 : State} (h3 : Keeps k fd fc false false fb fm fh fu fy fo fa ft s₀ x3) :
    OutKeeps k fd fc false false fb fm fh fu fy fo fa ft s₀ (execChunkStall x0 x1 x2 x3) := by
  unfold execChunkStall
  extract_lets +onlyGivenNames v92
  clear_value v92
  split
  · apply keeps_same; assumption
  · extract_lets +onlyGivenNames v94
    clear_value v94
    apply keeps_whenP
    · assumption
    · apply keeps_State_parkChunk; assumption

theorem keeps_execChunkParked (x0 : Nat) (x1 : Word) (x2 : Nat) {x3 : State} (h3 : Keeps k fd fc fe false fb fm fh fu fy fo fa ft s₀ x3) :
    OutKeeps k fd fc fe false fb fm fh fu fy fo fa ft s₀ (execChunkParked x0 x1 x2 x3) := by
  unfold execChunkParked
  extract_lets +onlyGivenNames v92
  clear_value v92
  split
  · apply keeps_same; assumption
  · extract_lets +onlyGivenNames v93
    clear_value v93
    apply keeps_whenP
    · assumption
    · apply keeps_State_modGen; assumption

theorem keeps_State_resumeChunk {x0 : State} (x1 : Nat) (x2 : Ctx) (x3 : Gen) (x4 : Nat) (x5 : Chunk) (h0 : Keeps k fd fc false false fb fm fh fu fy fo fa ft s₀ x0) :
    Keeps k fd fc false false fb fm fh fu fy fo fa ft s₀ (State.resumeChunk x0 x1 x2 x3 x4 x5) := by
  unfold State.resumeChunk
  extract_lets +onlyGivenNames v46 v47
  clear_value v46 v47
  extract_lets +onlyGivenNames v48
  have h48 : Keeps k fd fc false false fb fm fh fu fy fo fa ft s₀ v48 := by
    subst v48
    apply Keeps.foldl
    · intro _ _ _
      apply keeps_State_pushStart; assumption
    · assumption
  clear_value v48
  extract_lets +onlyGivenNames v55
  have h55 : Keeps k fd fc false false fb fm fh fu fy fo fa ft s₀ v55 := by
    subst v55
    apply Keeps.foldl
    · intro _ _ _
      apply keeps_State_aheadOf; assumption
    · assumption
  clear_value v55
  apply keeps_State_modGen; assumption

theorem keeps_execChunkResume (x0 : Nat) (x1 : Word) (x2 : Nat) {x3 : State} (h3 : Keeps k fd fc false false fb fm fh fu fy fo fa ft s₀ x3) :
    OutKeeps k fd fc false false fb fm fh fu fy fo fa ft s₀ (execChunkResume x0 x1 x2 x3) := by
  unfold execChunkResume
  extract_lets +onlyGivenNames v90
  clear_value v90
  split
  · apply keeps_same; assumption
  · extract_lets +onlyGivenNames v91
    clear_value v91
    apply keeps_whenP
    · assumption
    · apply keeps_State_wakeBound
      apply keeps_State_resumeChunk; assumption

end Sys2Proof.Machine
end

