-- ==== Sys2Proof/Laws/KeepsPower.lean ====
section
/-!
SUPPORT. `Keeps` for resets, power, QoS, SMBus and transport: one lemma per operation.
-/

set_option Elab.async false

namespace Sys2Proof.Machine

variable {k fd fc fe fl fb fm fh fu fy fo fa ft : Bool} {s₀ s : State}

/-! Resets -/

theorem keeps_State_dropOwned {x0 : State} (x1 : Nat) (h0 : Keeps k fd fc false false false false fh false false fo fa ft s₀ x0) :
    Keeps k fd fc false false false false fh false false fo fa ft s₀ (State.dropOwned x0 x1) := by
  unfold State.dropOwned
  extract_lets +onlyGivenNames v72
  have h72 : Keeps k fd fc false false false false fh false false fo fa ft s₀ v72 := by
    subst v72
    apply Keeps.foldl
    · intro _ _ _
      apply keeps_State_abortCtx; assumption
    · assumption
  clear_value v72
  extract_lets +onlyGivenNames v76
  have h76 : Keeps k fd fc false false false false fh false false fo fa ft s₀ v76 := by
    subst v76
    apply Keeps.foldl
    · intro _ _ _
      apply keeps_State_setBinding; assumption
    · assumption
  clear_value v76
  apply Keeps.foldl
  · intro _ _ _
    apply keeps_State_tearNow; assumption
  · assumption

theorem keeps_State_resetFunc {x0 : State} (x1 : Nat) (h0 : Keeps k fd fc false false false false fh false false fo fa ft s₀ x0) :
    Keeps k fd fc false false false false fh false false fo fa ft s₀ (State.resetFunc x0 x1) := by
  unfold State.resetFunc
  apply keeps_State_modFunc
  apply keeps_State_dropOwned
  apply keeps_State_modFunc; assumption

theorem keeps_execFunctionLevelReset (x0 : Nat) {x1 : State} (h1 : Keeps k fd fc false false false false fh false false fo fa ft s₀ x1) :
    OutKeeps k fd fc false false false false fh false false fo fa ft s₀ (execFunctionLevelReset x0 x1) := by
  unfold execFunctionLevelReset
  apply keeps_onUnit
  apply keeps_whenP
  · assumption
  · apply keeps_State_resetFunc; assumption

theorem keeps_State_resetFuncs {x0 : State} (h0 : Keeps k fd fc false false false false fh false false fo fa ft s₀ x0) :
    Keeps k fd fc false false false false fh false false fo fa ft s₀ (State.resetFuncs x0) := by
  unfold State.resetFuncs
  apply Keeps.foldl
  · intro _ _ _
    apply keeps_State_resetFunc; assumption
  · assumption

theorem keeps_State_setBoard {x0 : State} (x1 : Board) (h0 : Keeps k fd fc fe fl fb fm fh fu fy fo false ft s₀ x0) :
    Keeps k fd fc fe fl fb fm fh fu fy fo false ft s₀ (State.setBoard x0 x1) := by
  unfold State.setBoard
  exact Keeps.upd ‹_› (.of (.refl _))

theorem keeps_execPerst {x0 : State} (h0 : Keeps k fd fc false false false false fh false false fo false ft s₀ x0) :
    OutKeeps k fd fc false false false false fh false false fo false ft s₀ (execPerst x0) := by
  unfold execPerst
  apply keeps_whenP
  · assumption
  · extract_lets +onlyGivenNames v50
    subst v50
    extract_lets +onlyGivenNames v56
    have h56 : Keeps k fd fc false false false false fh false false fo false ft s₀ v56 := by
      subst v56
      apply keeps_State_setBoard; assumption
    clear_value v56
    split
    · apply keeps_State_resetFuncs; assumption
    · assumption

theorem keeps_execPerstRise (x0 : Nat) {x1 : State} (h1 : Keeps k fd fc fe fl fb fm fh fu false fo false ft s₀ x1) :
    OutKeeps k fd fc fe fl fb fm fh fu false fo false ft s₀ (execPerstRise x0 x1) := by
  unfold execPerstRise
  apply keeps_whenP
  · assumption
  · extract_lets +onlyGivenNames v61
    subst v61
    extract_lets +onlyGivenNames v65
    have h65 : Keeps k fd fc fe fl fb fm fh fu false fo false ft s₀ v65 := by
      subst v65
      apply keeps_State_setBoard; assumption
    clear_value v65
    split
    · apply keeps_State_noteDev; assumption
    · assumption

theorem keeps_State_coldReset {x0 : State} (h0 : Keeps false false false false false false false false false false false false ft s₀ x0) : Keeps false false false false false false false false false false false false ft s₀ x0.coldReset := by
  unfold State.coldReset
  extract_lets s1
  have h1 : Keeps false false false false false false false false false false false false ft s₀ s1 :=
    keeps_State_blank (h0.of (cells := fun _ => rfl))
  exact keeps_State_setDev _ nofun (keeps_State_setBoard _ h1)

theorem keeps_execSysRstLow {x0 : State} (h0 : Keeps false false false false false false false false false false false false ft s₀ x0) :
    OutKeeps false false false false false false false false false false false false ft s₀ (execSysRstLow x0) := by
  unfold execSysRstLow
  apply keeps_whenP
  · assumption
  · extract_lets +onlyGivenNames v93
    subst v93
    extract_lets +onlyGivenNames v96
    have h96 : Keeps false false false false false false false false false false false false ft s₀ v96 := by
      subst v96
      apply keeps_State_setBoard; assumption
    clear_value v96
    split
    · assumption
    · extract_lets +onlyGivenNames v98
      have h98 : Keeps false false false false false false false false false false false false ft s₀ v98 := by
        subst v98
        apply keeps_State_coldReset; assumption
      clear_value v98
      apply keeps_State_setBoard; assumption

theorem keeps_State_finishWrites {x0 : State} (h0 : Keeps k fd fc false fl fb false fh fu fy fo fa ft s₀ x0) :
    Keeps k fd fc false fl fb false fh fu fy fo fa ft s₀ (State.finishWrites x0) := by
  unfold State.finishWrites
  extract_lets +onlyGivenNames v79
  have h79 : Keeps k fd fc false fl fb false fh fu fy fo fa ft s₀ v79 := by
    subst v79
    apply Keeps.foldl
    · intro _ _ _
      apply Keeps.foldl
      · intro _ _ _
        apply Keeps.foldl
        · intro _ _ _
          apply keeps_State_writePiece; assumption
        · assumption
      · assumption
    · assumption
  clear_value v79
  exact Keeps.upd ‹_› (.of (.refl _))

theorem keeps_State_warmEnd {x0 : State} (h0 : Keeps false false false false false false false false false false false false ft s₀ x0) : Keeps false false false false false false false false false false false false ft s₀ x0.warmEnd := by
  unfold State.warmEnd
  extract_lets s1 held kept asleep s2 s3
  have h1 : Keeps false false false false false false false false false false false false ft s₀ s1 := keeps_State_endLog h0
  clear_value s1
  have h2 : Keeps false false false false false false false false false false false false ft s₀ s2 := by
    refine keeps_State_blank (h1.of (cells := fun w => ?_))
    split
    · rfl
    · split
      · exact tcanon_filter _ w
      · exact w
  clear_value s2
  exact keeps_State_setDev _ nofun (h2.of)

theorem keeps_State_warmStart {x0 : State} (h0 : Keeps false false false false false false false false false false false false ft s₀ x0) :
    Keeps false false false false false false false false false false false false ft s₀ (State.warmStart x0) := by
  unfold State.warmStart
  split
  · apply keeps_State_warmEnd; assumption
  · split
    · apply keeps_State_warmEnd
      apply keeps_State_powerLog; assumption
    · extract_lets +onlyGivenNames v92
      have h92 : Keeps false false false false false false false false false false false false ft s₀ v92 := by
        subst v92
        apply keeps_State_finishWrites; assumption
      clear_value v92
      apply keeps_State_startFlush
      apply keeps_State_setBoard; assumption

theorem keeps_execWarmRst {x0 : State} (h0 : Keeps false false false false false false false false false false false false ft s₀ x0) :
    OutKeeps false false false false false false false false false false false false ft s₀ (execWarmRst x0) := by
  unfold execWarmRst
  apply keeps_whenP
  · assumption
  · extract_lets +onlyGivenNames v75
    subst v75
    extract_lets +onlyGivenNames v77
    have h77 : Keeps false false false false false false false false false false false false ft s₀ v77 := by
      subst v77
      apply keeps_State_setBoard; assumption
    clear_value v77
    split
    · apply keeps_State_warmStart; assumption
    · assumption

theorem keeps_execWarmRstRise {x0 : State} (h0 : Keeps k fd fc fe fl fb fm fh fu fy fo false ft s₀ x0) :
    OutKeeps k fd fc fe fl fb fm fh fu fy fo false ft s₀ (execWarmRstRise x0) := by
  unfold execWarmRstRise
  apply keeps_whenP
  · assumption
  · apply keeps_State_setBoard; assumption

theorem keeps_execDiaryFlushComplete {x0 : State} (h0 : Keeps false false false false false false false false false false false false ft s₀ x0) :
    OutKeeps false false false false false false false false false false false false ft s₀ (execDiaryFlushComplete x0) := by
  unfold execDiaryFlushComplete
  split
  · apply keeps_same; assumption
  · apply keeps_whenP
    · assumption
    · extract_lets +onlyGivenNames v61
      have h61 : Keeps false false false false false false false false false false false false ft s₀ v61 := by
        subst v61
        apply keeps_State_nextFlush
        apply keeps_State_closeFlush; assumption
      clear_value v61
      split
      · apply keeps_State_warmEnd; assumption
      · assumption

theorem keeps_State_powerLost {x0 : State} (h0 : Keeps false false false false false false false false false false false false ft s₀ x0) : Keeps false false false false false false false false false false false false ft s₀ x0.powerLost :=
  h0.of (cells := fun _ => rfl) (job := nofun)

theorem keeps_execVddAonLoss {x0 : State} (h0 : Keeps false false false false false false false false false false false false ft s₀ x0) :
    OutKeeps false false false false false false false false false false false false ft s₀ (execVddAonLoss x0) := by
  unfold execVddAonLoss
  apply keeps_whenP
  · assumption
  · apply keeps_State_powerLost; assumption

theorem keeps_execVddAonGood (x0 : Nat) {x1 : State} (h1 : Keeps false false fc fe fl fb fm fh fu fy false false ft s₀ x1) :
    OutKeeps false false fc fe fl fb fm fh fu fy false false ft s₀ (execVddAonGood x0 x1) := by
  unfold execVddAonGood
  apply keeps_whenP
  · assumption
  · apply keeps_State_setDev
    · exact fun h => Bool.noConfusion h
    · apply keeps_State_setBoard; assumption

theorem keeps_execRailsInRange {x0 : State} (h0 : Keeps k fd fc fe fl fb fm fh fu fy fo false ft s₀ x0) :
    OutKeeps k fd fc fe fl fb fm fh fu fy fo false ft s₀ (execRailsInRange x0) := by
  unfold execRailsInRange
  apply keeps_whenP
  · assumption
  · apply keeps_State_setBoard; assumption

theorem keeps_execRailFault {x0 : State} (h0 : Keeps false false false false false false false false false false false false ft s₀ x0) :
    OutKeeps false false false false false false false false false false false false ft s₀ (execRailFault x0) := by
  unfold execRailFault
  apply keeps_whenP
  · assumption
  · extract_lets +onlyGivenNames v83
    have h83 : Keeps false false false false false false false false false false false false ft s₀ v83 := by
      subst v83
      split
      · assumption
      · apply keeps_State_alertBit
        apply keeps_State_coldReset; assumption
    clear_value v83
    apply keeps_State_setBoard; assumption

theorem keeps_execPwrFail {x0 : State} (h0 : Keeps k fd fc fe fl fb fm fh fu false false false ft s₀ x0) :
    OutKeeps k fd fc fe fl fb fm fh fu false false false ft s₀ (execPwrFail x0) := by
  unfold execPwrFail
  apply keeps_whenP
  · assumption
  · extract_lets +onlyGivenNames v95
    subst v95
    extract_lets +onlyGivenNames v97
    have h97 : Keeps k fd fc fe fl fb fm fh fu false false false ft s₀ v97 := by
      subst v97
      apply keeps_State_setBoard; assumption
    clear_value v97
    split
    · extract_lets +onlyGivenNames v99
      have h99 : Keeps k fd fc fe fl fb fm fh fu false false false ft s₀ v99 := by
        subst v99
        apply keeps_State_powerLog
        apply keeps_State_noteDev; assumption
      clear_value v99
      exact Keeps.upd ‹_› (.of (.refl _))
    · assumption

theorem keeps_execPwrFailRise {x0 : State} (h0 : Keeps k fd fc fe fl fb fm fh fu fy false false ft s₀ x0) :
    OutKeeps k fd fc fe fl fb fm fh fu fy false false ft s₀ (execPwrFailRise x0) := by
  unfold execPwrFailRise
  apply keeps_whenP
  · assumption
  · extract_lets +onlyGivenNames v94
    subst v94
    extract_lets +onlyGivenNames v97
    have h97 : Keeps k fd fc fe fl fb fm fh fu fy false false ft s₀ v97 := by
      subst v97
      apply keeps_State_setBoard; assumption
    clear_value v97
    exact Keeps.upd ‹_› (.of (.refl _))

/-! Power -/

theorem keeps_State_buildMap {x0 : State} (x1 : Nat) (h0 : Keeps k fd fc fe fl fb false fh fu fy fo false ft s₀ x0) :
    Keeps k fd fc fe fl fb false fh fu fy fo false ft s₀ (State.buildMap x0 x1) := by
  unfold State.buildMap
  extract_lets +onlyGivenNames v58 v59
  clear_value v58 v59
  exact Keeps.upd ‹_› (.of (.refl _))

theorem keeps_State_resumeSpill {x0 : State} (h0 : Keeps k fd fc fe fl fb fm fh fu false fo fa ft s₀ x0) :
    Keeps k fd fc fe fl fb fm fh fu false fo fa ft s₀ (State.resumeSpill x0) := by
  unfold State.resumeSpill
  split
  · exact Keeps.upd ‹_› (.of (.refl _))
  · assumption

theorem keeps_State_recoverKept {x0 : State} (h0 : Keeps k fd fc fe false fb fm fh fu false fo fa ft s₀ x0) :
    Keeps k fd fc fe false fb fm fh fu false fo fa ft s₀ (State.recoverKept x0) := by
  unfold State.recoverKept
  split
  · extract_lets +onlyGivenNames v78
    have h78 : Keeps k fd fc fe false fb fm fh fu false fo fa ft s₀ v78 := by
      subst v78
      apply keeps_State_resumeSpill; assumption
    clear_value v78
    exact Keeps.upd ‹_› (.of (.refl _))
  · assumption

theorem keeps_State_checkMram {x0 : State} (h0 : Keeps k fd fc fe fl fb fm fh fu false false fa ft s₀ x0) : Keeps k fd fc fe fl fb fm fh fu false false fa ft s₀ x0.checkMram := by
  unfold State.checkMram
  extract_lets h
  split
  · exact h0
  · apply keeps_State_noteDev
    apply keeps_State_mramWrite
    exact h0.of (mram := fun _ => rfl)

theorem keeps_State_reportLog {x0 : State} (h0 : Keeps k fd fc fe fl fb fm fh fu false false fa ft s₀ x0) :
    Keeps k fd fc fe fl fb fm fh fu false false fa ft s₀ (State.reportLog x0) := by
  unfold State.reportLog
  split
  · split
    · apply keeps_State_noteDev
      exact Keeps.upd ‹_› (.of (.refl _))
    · assumption
  · assumption

theorem keeps_State_logBoot {x0 : State} (x1 : Nat) (x2 : Nat) (h0 : Keeps k fd fc fe fl fb fm fh fu fy false fa ft s₀ x0) :
    Keeps k fd fc fe fl fb fm fh fu fy false fa ft s₀ (State.logBoot x0 x1 x2) := by
  unfold State.logBoot
  extract_lets +onlyGivenNames v73
  clear_value v73
  extract_lets +onlyGivenNames v74
  have h74 : Keeps k fd fc fe fl fb fm fh fu fy false fa ft s₀ v74 := by
    subst v74
    apply keeps_State_mramWrite; assumption
  clear_value v74
  exact Keeps.upd ‹_› (.of (.refl _))

theorem keeps_State_bootFails {x0 : State} (x1 : Nat) (x2 : Nat) (h0 : Keeps false false fc fe fl fb fm fh fu false false false ft s₀ x0) :
    Keeps false false fc fe fl fb fm fh fu false false false ft s₀ (State.bootFails x0 x1 x2) := by
  unfold State.bootFails
  extract_lets +onlyGivenNames v80
  have h80 : Keeps false false fc fe fl fb fm fh fu false false false ft s₀ v80 := by
    subst v80
    apply keeps_State_logBoot
    apply keeps_State_noteDev; assumption
  clear_value v80
  extract_lets +onlyGivenNames v84
  subst v84
  extract_lets +onlyGivenNames v89
  subst v89
  extract_lets +onlyGivenNames v94
  have h94 : Keeps false false fc fe fl fb fm fh fu false false false ft s₀ v94 := by
    subst v94
    exact Keeps.upd ‹_› (.of (.refl _))
  clear_value v94
  apply keeps_State_setDev
  · exact fun h => Bool.noConfusion h
  · assumption

theorem keeps_State_bringUp {x0 : State} (x1 : Nat) (h0 : Keeps k fd fc fe false fb false fh fu false fo false ft s₀ x0) :
    Keeps k fd fc fe false fb false fh fu false fo false ft s₀ (State.bringUp x0 x1) := by
  unfold State.bringUp
  extract_lets +onlyGivenNames v57
  subst v57
  extract_lets +onlyGivenNames v60
  have h60 : Keeps k fd fc fe false fb false fh fu false fo false ft s₀ v60 := by
    subst v60
    exact Keeps.upd ‹_› (.of (.refl _))
  clear_value v60
  extract_lets +onlyGivenNames v62
  clear_value v62
  extract_lets +onlyGivenNames v63
  subst v63
  extract_lets +onlyGivenNames v64
  have h64 : Keeps k fd fc fe false fb false fh fu false fo false ft s₀ v64 := by
    subst v64
    split
    · apply keeps_State_buildMap
      exact Keeps.upd ‹_› (.of (.refl _))
    · assumption
  clear_value v64
  apply keeps_State_recoverKept; assumption

theorem keeps_State_bootEnds {x0 : State} (x1 : Bytes) (x2 : Nat) (h0 : Keeps false false fc false false false false false false false false false ft s₀ x0) : Keeps false false fc false false false false false false false false false ft s₀ (x0.bootEnds x1 x2) := by
  unfold State.bootEnds
  extract_lets _ _ s1 s2
  have h1 : Keeps false false fc false false false false false false false false false ft s₀ s1 :=
    h0.of
  have h2 : Keeps false false fc false false false false false false false false false ft s₀ s2 := keeps_State_setDev _ nofun (keeps_State_bringUp _ h1)
  clear_value s2
  split
  · exact keeps_State_loseHbm h2
  · exact h2

theorem keeps_bootWrite {x0 t : State} (x1 : Bytes) (h0 : Keeps false false fc false false false false false false false false false false s₀ x0) (e : x0.bootWrite x1 = some t) : Keeps false false fc false false false false false false false false false false s₀ t := by
  unfold State.bootWrite at e
  dsimp only at e
  rcases ite_some e with e | e
  · cases e
  rcases ite_some e with e | e
  · have e := Option.some.inj e; subst e; with_reducible apply keeps_State_writeFunctions; exact h0
  split at e
  · rename_i u hw
    have e := Option.some.inj e
    subst e
    have g : WrKeeps false false fc false false false false false false false false false false s₀ (.set u) := by
      rcases ite_some hw with hw | hw
      · rw [← Option.some.inj hw]
        generalize leAt x1 0 4 % 2 ^ 26 - 65536 = o
        exact keeps_State_writeFunc _ _ _ h0
      · exact keeps_writeShared _ _ _ h0 hw
    exact g
  · have e := Option.some.inj e
    subst e
    exact h0
  · cases e

theorem keeps_bootWrites {x0 t : State} (n : Nat) (x1 : Bytes) (h0 : Keeps false false fc false false false false false false false false false false s₀ x0) (e : x0.bootWrites n x1 = some t) :
    Keeps false false fc false false false false false false false false false false s₀ t := by
  induction n generalizing x0 x1 with
  | zero => cases e; exact h0
  | succ n ih =>
    unfold State.bootWrites at e
    obtain ⟨u, hu, e⟩ := Option.bind_eq_some_iff.1 e
    exact ih _ (keeps_bootWrite _ h0 hu) e

theorem keeps_formats {x0 : State} (f : Tab DWord) (h0 : Keeps false false fc false false false false false false false false false false s₀ x0) : Keeps false false fc false false false false false false false false false false s₀ { x0 with formats := f } :=
  h0.of

theorem keeps_loadTables {x0 t : State} (x1 : Bytes) (h0 : Keeps false false fc false false false false false false false false false false s₀ x0) (e : x0.loadTables x1 = some t) : Keeps false false fc false false false false false false false false false false s₀ t := by
  unfold State.loadTables at e
  dsimp only at e
  split at e
  · cases e
  · split at e
    · cases e
    · rename_i u hu
      split at e
      · cases e
        refine keeps_bootWrites _ _ ?_ hu
        generalize loadedFormats _ = f
        exact keeps_formats f h0
      · cases e

theorem keeps_State_bootUp {x0 : State} (x1 : Nat) (h0 : Keeps false false fc false false false false false false false false false false s₀ x0) : Keeps false false fc false false false false false false false false false false s₀ (x0.bootUp x1) := by
  unfold State.bootUp
  extract_lets s1 b
  have h1 : Keeps false false fc false false false false false false false false false false s₀ s1 := keeps_State_reportLog (keeps_State_checkMram h0)
  clear_value s1
  split
  · exact keeps_State_bootFails _ _ h1
  · split
    · exact keeps_State_bootFails _ _ h1
    · split
      · exact keeps_State_bootFails _ _ h1
      · apply keeps_State_bootEnds
        cases hl : s1.loadTables b with
        | none => exact h1
        | some t => exact keeps_loadTables _ h1 hl

theorem keeps_execBoot (x0 : Nat) {x1 : State} (h1 : Keeps false false fc false false false false false false false false false false s₀ x1) :
    OutKeeps false false fc false false false false false false false false false false s₀ (execBoot x0 x1) := by
  unfold execBoot
  extract_lets +onlyGivenNames v79 v80 v81
  clear_value v79 v80 v81
  apply keeps_whenP
  · assumption
  · apply keeps_State_bootUp
    apply keeps_State_setBoard; assumption

theorem keeps_State_noteSensor {x0 : State} (x1 : Nat) (x2 : Nat) (h0 : Keeps k fd fc fe fl fb fm fh fu false fo fa ft s₀ x0) :
    Keeps k fd fc fe fl fb fm fh fu false fo fa ft s₀ (State.noteSensor x0 x1 x2) := by
  unfold State.noteSensor
  split
  · apply keeps_State_note; assumption
  · apply keeps_State_noteDev; assumption

theorem keeps_execThermalWarning (x0 : Nat) (x1 : Int) {x2 : State} (h2 : Keeps k fd fc fe fl fb fm fh false false false false ft s₀ x2) :
    OutKeeps k fd fc fe fl fb fm fh false false false false ft s₀ (execThermalWarning x0 x1 x2) := by
  unfold execThermalWarning
  apply keeps_onUnit
  extract_lets +onlyGivenNames v63 v64 v65 v66
  clear_value v63 v64 v65 v66
  apply keeps_whenP
  · assumption
  · extract_lets +onlyGivenNames v67
    subst v67
    extract_lets +onlyGivenNames v69
    have h69 : Keeps k fd fc fe fl fb fm fh false false false false ft s₀ v69 := by
      subst v69
      apply keeps_State_setBoard; assumption
    clear_value v69
    apply keeps_State_noteSensor
    apply keeps_State_alertBit
    apply keeps_State_interruptAll; assumption

theorem keeps_execThermalEmergency (x0 : Nat) {x1 : State} (h1 : Keeps k false fc false false false false false false false false false ft s₀ x1) :
    OutKeeps k false fc false false false false false false false false false ft s₀ (execThermalEmergency x0 x1) := by
  unfold execThermalEmergency
  apply keeps_onUnit
  apply keeps_whenP
  · assumption
  · apply keeps_State_enterGrisaille
    apply keeps_State_setBoard; assumption

theorem keeps_execThermtrip (x0 : Nat) (x1 : Int) {x2 : State} (h2 : Keeps k fd fc fe fl fb fm fh fu fy fo false ft s₀ x2) :
    OutKeeps k fd fc fe fl fb fm fh fu fy fo false ft s₀ (execThermtrip x0 x1 x2) := by
  unfold execThermtrip
  apply keeps_onUnit
  apply keeps_whenP
  · assumption
  · apply keeps_State_setBoard; assumption

theorem keeps_execThrottleUpdate (x0 : List Int) (x1 : Nat) (x2 : Nat) {x3 : State} (h3 : Keeps k fd fc fe fl fb fm fh fu fy fo false ft s₀ x3) :
    OutKeeps k fd fc fe fl fb fm fh fu fy fo false ft s₀ (execThrottleUpdate x0 x1 x2 x3) := by
  unfold execThrottleUpdate
  extract_lets +onlyGivenNames v58
  clear_value v58
  split
  · apply keeps_whenP
    · assumption
    · extract_lets +onlyGivenNames v61
      clear_value v61
      apply keeps_State_setBoard; assumption
  · apply keeps_whenP
    · assumption
    · apply keeps_State_setBoard; assumption

/-! Qos -/

theorem keeps_execGateEntryBoundary (x0 : Nat) {x1 : State} (h1 : Keeps k fd fc fe fl false fm fh fu fy fo fa ft s₀ x1) :
    OutKeeps k fd fc fe fl false fm fh fu fy fo fa ft s₀ (execGateEntryBoundary x0 x1) := by
  unfold execGateEntryBoundary
  extract_lets +onlyGivenNames v66 v67
  clear_value v66 v67
  apply keeps_onUnit
  apply keeps_whenP
  · assumption
  · apply keeps_State_setPort; assumption

theorem keeps_execGateSwitchOver (x0 : Nat) {x1 : State} (h1 : Keeps k fd fc fe fl false fm fh fu fy fo fa ft s₀ x1) :
    OutKeeps k fd fc fe fl false fm fh fu fy fo fa ft s₀ (execGateSwitchOver x0 x1) := by
  unfold execGateSwitchOver
  extract_lets +onlyGivenNames v86
  clear_value v86
  apply keeps_onUnit
  apply keeps_whenP
  · assumption
  · apply keeps_State_setPort; assumption

theorem keeps_State_startFrame {x0 : State} (x1 : Nat) (x2 : Nat) (h0 : Keeps k fd fc fe fl false fm fh fu false fo fa false s₀ x0) :
    Keeps k fd fc fe fl false fm fh fu false fo fa false s₀ (State.startFrame x0 x1 x2) := by
  unfold State.startFrame
  extract_lets +onlyGivenNames v100 v101
  clear_value v100 v101
  split
  · assumption
  · extract_lets +onlyGivenNames v102
    clear_value v102
    apply keeps_State_drain
    apply keeps_State_commit
    apply keeps_State_setLPort; assumption

theorem keeps_execEgressDecision (x0 : Nat) {x1 : State} (h1 : Keeps k fd fc fe fl false fm fh fu false fo fa false s₀ x1) :
    OutKeeps k fd fc fe fl false fm fh fu false fo fa false s₀ (execEgressDecision x0 x1) := by
  unfold execEgressDecision
  apply keeps_onPort
  · assumption
  · extract_lets +onlyGivenNames v95
    clear_value v95
    split
    · apply keeps_State_setLPort; assumption
    · extract_lets +onlyGivenNames v99
      clear_value v99
      split
      · apply keeps_State_setLPort; assumption
      · extract_lets +onlyGivenNames v101
        clear_value v101
        extract_lets +onlyGivenNames v102
        have h102 : Keeps k fd fc fe fl false fm fh fu false fo fa false s₀ v102 := by
          subst v102
          apply keeps_State_setLPort; assumption
        clear_value v102
        split
        · apply keeps_State_startFrame
          apply keeps_State_setLPort; assumption
        · apply keeps_State_setLPort; assumption

/-! Smbus -/

theorem keeps_onBus {x0 : State} {x1 : State} (h0 : Keeps k fd fc fe fl fb fm fh fu fy fo fa ft s₀ x0) (h1 : Keeps k fd fc fe fl fb fm fh fu fy fo fa ft s₀ x1) :
    OutKeeps k fd fc fe fl fb fm fh fu fy fo fa ft s₀ (onBus x0 x1) := by
  unfold onBus
  apply keeps_whenP
  · assumption
  · assumption

theorem keeps_State_answer {x0 : State} (x1 : Bytes) (h0 : Keeps k fd fc fe fl fb fm fh fu fy fo fa false s₀ x0) :
    Keeps k fd fc fe fl fb fm fh fu fy fo fa false s₀ (State.answer x0 x1) := by
  unfold State.answer
  apply keeps_State_emit; assumption

theorem keeps_State_nack {x0 : State} (h0 : Keeps k fd fc fe fl fb fm fh fu fy fo fa false s₀ x0) :
    Keeps k fd fc fe fl fb fm fh fu fy fo fa false s₀ (State.nack x0) := by
  unfold State.nack
  apply keeps_State_emit; assumption

theorem keeps_State_blockRead {x0 : State} (x1 : Nat) (x2 : Bytes) (h0 : Keeps k fd fc fe fl fb fm fh fu fy fo fa false s₀ x0) :
    Keeps k fd fc fe fl fb fm fh fu fy fo fa false s₀ (State.blockRead x0 x1 x2) := by
  unfold State.blockRead
  extract_lets +onlyGivenNames v66
  clear_value v66
  apply keeps_State_answer; assumption

theorem keeps_execSmbState {x0 : State} (h0 : Keeps k fd fc fe fl fb fm fh fu fy fo fa false s₀ x0) :
    OutKeeps k fd fc fe fl fb fm fh fu fy fo fa false s₀ (execSmbState x0) := by
  unfold execSmbState
  apply keeps_onBus
  · assumption
  · apply keeps_State_blockRead; assumption

theorem keeps_execSmbIdent {x0 : State} (h0 : Keeps k fd fc fe fl fb fm fh fu fy fo fa false s₀ x0) :
    OutKeeps k fd fc fe fl fb fm fh fu fy fo fa false s₀ (execSmbIdent x0) := by
  unfold execSmbIdent
  apply keeps_onBus
  · assumption
  · apply keeps_State_blockRead; assumption

theorem keeps_execSmbTemp {x0 : State} (h0 : Keeps k fd fc fe fl fb fm fh fu fy fo fa false s₀ x0) :
    OutKeeps k fd fc fe fl fb fm fh fu fy fo fa false s₀ (execSmbTemp x0) := by
  unfold execSmbTemp
  apply keeps_onBus
  · assumption
  · apply keeps_State_blockRead; assumption

theorem keeps_execSmbPower {x0 : State} (h0 : Keeps k fd fc fe fl fb fm fh fu fy fo fa false s₀ x0) :
    OutKeeps k fd fc fe fl fb fm fh fu fy fo fa false s₀ (execSmbPower x0) := by
  unfold execSmbPower
  apply keeps_onBus
  · assumption
  · apply keeps_State_blockRead; assumption

theorem keeps_State_clearAlert {x0 : State} (x1 : Nat) (h0 : Keeps k fd fc fe fl fb fm fh fu fy false fa ft s₀ x0) :
    Keeps k fd fc fe fl fb fm fh fu fy false fa ft s₀ (State.clearAlert x0 x1) := by
  unfold State.clearAlert
  exact Keeps.upd ‹_› (.of (.refl _))

theorem keeps_execSmbAlert (x0 : Option (Word × Bool)) {x1 : State} (h1 : Keeps k fd fc fe fl fb fm fh fu fy false fa false s₀ x1) :
    OutKeeps k fd fc fe fl fb fm fh fu fy false fa false s₀ (execSmbAlert x0 x1) := by
  unfold execSmbAlert
  apply keeps_onBus
  · assumption
  · split
    · apply keeps_State_blockRead; assumption
    · apply keeps_State_nack; assumption
    · apply keeps_State_answer
      apply keeps_State_clearAlert; assumption

theorem keeps_execSmbDiary (x0 : Option (Word × Bool)) {x1 : State} (h1 : Keeps k fd fc fe fl fb fm fh fu fy false fa false s₀ x1) :
    OutKeeps k fd fc fe fl fb fm fh fu fy false fa false s₀ (execSmbDiary x0 x1) := by
  unfold execSmbDiary
  apply keeps_onBus
  · assumption
  · split
    · extract_lets +onlyGivenNames v103
      clear_value v103
      apply keeps_State_blockRead
      exact Keeps.upd ‹_› (.of (.refl _))
    · apply keeps_State_nack; assumption
    · apply keeps_State_answer
      exact Keeps.upd ‹_› (.of (.refl _))

theorem keeps_execSmbMramRead (x0 : Option (Word × Bool)) {x1 : State} (h1 : Keeps k fd fc fe fl fb fm fh fu fy false fa false s₀ x1) :
    OutKeeps k fd fc fe fl fb fm fh fu fy false fa false s₀ (execSmbMramRead x0 x1) := by
  unfold execSmbMramRead
  apply keeps_onBus
  · assumption
  · split
    · extract_lets +onlyGivenNames v96
      clear_value v96
      split
      · apply keeps_State_blockRead; assumption
      · extract_lets +onlyGivenNames v98
        clear_value v98
        apply keeps_State_blockRead
        apply keeps_State_draw; assumption
    · apply keeps_State_nack; assumption
    · apply keeps_State_answer
      exact Keeps.upd ‹_› (.of (.refl _))

theorem keeps_execAlertResponse {x0 : State} (h0 : Keeps k fd fc fe fl fb fm fh fu fy fo fa false s₀ x0) :
    OutKeeps k fd fc fe fl fb fm fh fu fy fo fa false s₀ (execAlertResponse x0) := by
  unfold execAlertResponse
  apply keeps_onBus
  · assumption
  · split
    · apply keeps_State_nack; assumption
    · apply keeps_State_answer; assumption

/-! Transport -/

theorem keeps_State_keepAgain {x0 : State} (x1 : Nat) (x2 : Nat) (x3 : Frame → Bool) (h0 : Keeps k fd fc fe fl false fm fh fu fy fo fa ft s₀ x0) :
    Keeps k fd fc fe fl false fm fh fu fy fo fa ft s₀ (State.keepAgain x0 x1 x2 x3) := by
  unfold State.keepAgain
  apply keeps_State_setFab; assumption

theorem keeps_State_resendFlow {x0 : State} (x1 : Nat) (x2 : Nat) (h0 : Keeps k fd fc fe fl false fm fh fu false fo fa ft s₀ x0) :
    Keeps k fd fc fe fl false fm fh fu false fo fa ft s₀ (State.resendFlow x0 x1 x2) := by
  unfold State.resendFlow
  extract_lets +onlyGivenNames v82
  clear_value v82
  split
  · assumption
  · extract_lets +onlyGivenNames v83
    have h83 : Keeps k fd fc fe fl false fm fh fu false fo fa ft s₀ v83 := by
      subst v83
      apply keeps_State_setFlow; assumption
    clear_value v83
    extract_lets +onlyGivenNames v84
    have h84 : Keeps k fd fc fe fl false fm fh fu false fo fa ft s₀ v84 := by
      subst v84
      apply keeps_State_keepAgain; assumption
    clear_value v84
    apply keeps_State_drain
    apply keeps_State_setFab; assumption

theorem keeps_State_closeTx {x0 : State} (x1 : Nat) (x2 : Nat) (h0 : Keeps k fd fc fe fl false fm fh fu fy fo fa ft s₀ x0) :
    Keeps k fd fc fe fl false fm fh fu fy fo fa ft s₀ (State.closeTx x0 x1 x2) := by
  unfold State.closeTx
  extract_lets +onlyGivenNames v67
  have h67 : Keeps k fd fc fe fl false fm fh fu fy fo fa ft s₀ v67 := by
    subst v67
    apply keeps_State_keepAgain; assumption
  clear_value v67
  extract_lets +onlyGivenNames v68
  clear_value v68
  split
  · apply keeps_State_setFlow; assumption
  · apply keeps_State_setFab; assumption

theorem keeps_State_retransmit {x0 : State} (x1 : Nat) (x2 : Nat) (h0 : Keeps k fd fc fe fl false fm fh fu false fo fa ft s₀ x0) :
    Keeps k fd fc fe fl false fm fh fu false fo fa ft s₀ (State.retransmit x0 x1 x2) := by
  unfold State.retransmit
  split
  · assumption
  · split
    · assumption
    · split
      · apply keeps_State_sendTack
        apply keeps_State_closeTx; assumption
      · apply keeps_State_resendFlow; assumption

theorem keeps_onTack (x0 : Nat) (x1 : Nat) {x2 : State} (x3 : Nat → Bytes → State → State) (h2 : Keeps k fd fc fe fl false fm fh fu fy fo fa ft s₀ x2)
    (h3 : ∀ y0 y1 y2, Keeps k fd fc fe fl false fm fh fu fy fo fa ft s₀ y2 → Keeps k fd fc fe fl false fm fh fu fy fo fa ft s₀ (x3 y0 y1 y2)) : OutKeeps k fd fc fe fl false fm fh fu fy fo fa ft s₀ (onTack x0 x1 x2 x3) := by
  unfold onTack
  split
  · exact keeps_same h2
  · exact keeps_whenP _ h2 (h3 _ _ _ (keeps_State_freeCells _ _ (keeps_State_setFab _ h2)))

theorem keeps_State_covered {x0 : State} (x1 : Nat) (x2 : Nat) (x3 : Bool) (x4 : Bytes) (h0 : Keeps k fd fc fe fl false fm fh fu fy fo fa ft s₀ x0) :
    Keeps k fd fc fe fl false fm fh fu fy fo fa ft s₀ (State.covered x0 x1 x2 x3 x4) := by
  unfold State.covered
  extract_lets +onlyGivenNames v87
  clear_value v87
  split
  · assumption
  · split
    · assumption
    · extract_lets +onlyGivenNames v95 v96
      clear_value v95 v96
      extract_lets +onlyGivenNames v97
      have h97 : Keeps k fd fc fe fl false fm fh fu fy fo fa ft s₀ v97 := by
        subst v97
        apply keeps_State_setFlow; assumption
      clear_value v97
      split
      · apply keeps_State_keepAgain; assumption
      · assumption

theorem keeps_execTackAck (x0 : Nat) {x1 : State} (h1 : Keeps k fd fc fe fl false fm fh fu false fo fa ft s₀ x1) :
    OutKeeps k fd fc fe fl false fm fh fu false fo fa ft s₀ (execTackAck x0 x1) := by
  unfold execTackAck
  apply keeps_onTack
  · assumption
  · intro _ _ _ _
    apply keeps_State_drain
    apply keeps_State_covered; assumption

theorem keeps_execTackNak (x0 : Nat) {x1 : State} (h1 : Keeps k fd fc fe fl false fm fh fu false fo fa ft s₀ x1) :
    OutKeeps k fd fc fe fl false fm fh fu false fo fa ft s₀ (execTackNak x0 x1) := by
  unfold execTackNak
  apply keeps_onTack
  · assumption
  · intro _ _ _ _
    split
    · apply keeps_State_drain
      apply keeps_State_retransmit
      apply keeps_State_covered; assumption
    · assumption

theorem keeps_execTackReset (x0 : Nat) {x1 : State} (h1 : Keeps k fd fc fe fl false fm fh fu false fo fa ft s₀ x1) :
    OutKeeps k fd fc fe fl false fm fh fu false fo fa ft s₀ (execTackReset x0 x1) := by
  unfold execTackReset
  apply keeps_onTack
  · assumption
  · intro _ _ _ _
    extract_lets +onlyGivenNames v87
    clear_value v87
    split
    · assumption
    · split
      · assumption
      · extract_lets +onlyGivenNames v88
        clear_value v88
        apply keeps_State_resendFlow
        apply keeps_State_setFlow; assumption

theorem keeps_execTackBusy (x0 : Nat) {x1 : State} (h1 : Keeps k fd fc fe fl false fm fh fu fy fo fa ft s₀ x1) :
    OutKeeps k fd fc fe fl false fm fh fu fy fo fa ft s₀ (execTackBusy x0 x1) := by
  unfold execTackBusy
  apply keeps_onTack
  · assumption
  · intro _ _ _ _
    assumption

theorem keeps_State_closeRx {x0 : State} (x1 : Nat) (x2 : Nat) (h0 : Keeps k fd fc fe fl false fm fh fu false fo fa ft s₀ x0) :
    Keeps k fd fc fe fl false fm fh fu false fo fa ft s₀ (State.closeRx x0 x1 x2) := by
  unfold State.closeRx
  extract_lets +onlyGivenNames v100
  subst v100
  extract_lets +onlyGivenNames v103
  have h103 : Keeps k fd fc fe fl false fm fh fu false fo fa ft s₀ v103 := by
    subst v103
    apply keeps_State_setFab; assumption
  clear_value v103
  split
  · assumption
  · extract_lets +onlyGivenNames v104
    have h104 : Keeps k fd fc fe fl false fm fh fu false fo fa ft s₀ v104 := by
      subst v104
      apply Keeps.foldl
      · intro _ _ _
        apply keeps_State_freeEject; assumption
      · assumption
    clear_value v104
    extract_lets +onlyGivenNames v108
    clear_value v108
    split
    · apply keeps_State_setFlow; assumption
    · apply keeps_State_setFab; assumption

theorem keeps_execTackGiveup (x0 : Nat) {x1 : State} (h1 : Keeps k fd fc false false false fm fh fu false fo fa ft s₀ x1) :
    OutKeeps k fd fc false false false fm fh fu false fo fa ft s₀ (execTackGiveup x0 x1) := by
  unfold execTackGiveup
  apply keeps_onTack
  · assumption
  · intro _ _ _ _
    split
    · assumption
    · extract_lets +onlyGivenNames v62
      clear_value v62
      extract_lets +onlyGivenNames v63
      have h63 : Keeps k fd fc false false false fm fh fu false fo fa ft s₀ v63 := by
        subst v63
        apply keeps_State_closeRx; assumption
      clear_value v63
      apply Keeps.foldl
      · intro _ _ _
        apply Keeps.foldl
        · intro _ _ _
          split
          · apply keeps_State_failGen; assumption
          · assumption
        · assumption
      · assumption

theorem keeps_onFlow {x0 : State} (x1 : Nat) (x2 : Nat) (x3 : Flow → Bool) {x4 : State} (h0 : Keeps k fd fc fe fl fb fm fh fu fy fo fa ft s₀ x0) (h4 : Keeps k fd fc fe fl fb fm fh fu fy fo fa ft s₀ x4) :
    OutKeeps k fd fc fe fl fb fm fh fu fy fo fa ft s₀ (onFlow x0 x1 x2 x3 x4) := by
  unfold onFlow
  split
  · apply keeps_same; assumption
  · apply keeps_whenP
    · assumption
    · assumption

theorem keeps_execRtoExpiry (x0 : Nat) (x1 : Nat) {x2 : State} (h2 : Keeps k fd fc fe fl false fm fh fu false fo fa ft s₀ x2) :
    OutKeeps k fd fc fe fl false fm fh fu false fo fa ft s₀ (execRtoExpiry x0 x1 x2) := by
  unfold execRtoExpiry
  apply keeps_onFlow
  · assumption
  · apply keeps_State_drain
    apply keeps_State_retransmit; assumption

theorem keeps_execAckSendTimer (x0 : Nat) (x1 : Nat) {x2 : State} (h2 : Keeps k fd fc fe fl false fm fh fu false fo fa ft s₀ x2) :
    OutKeeps k fd fc fe fl false fm fh fu false fo fa ft s₀ (execAckSendTimer x0 x1 x2) := by
  unfold execAckSendTimer
  apply keeps_onFlow
  · assumption
  · apply keeps_State_ackFlow; assumption

theorem keeps_execFlowIdleExpiry (x0 : Nat) (x1 : Nat) {x2 : State} (h2 : Keeps k fd fc fe fl false fm fh fu false fo fa ft s₀ x2) :
    OutKeeps k fd fc fe fl false fm fh fu false fo fa ft s₀ (execFlowIdleExpiry x0 x1 x2) := by
  unfold execFlowIdleExpiry
  apply keeps_onFlow
  · assumption
  · apply keeps_State_drain
    apply keeps_State_setFab; assumption

theorem keeps_execSpanIdleEnd (x0 : Nat) (x1 : Nat) {x2 : State} (h2 : Keeps k fd fc fe fl false fm fh fu false fo fa ft s₀ x2) :
    OutKeeps k fd fc fe fl false fm fh fu false fo fa ft s₀ (execSpanIdleEnd x0 x1 x2) := by
  unfold execSpanIdleEnd
  apply keeps_onFlow
  · assumption
  · apply keeps_State_endSpan; assumption

end Sys2Proof.Machine
end

