-- ==== Sys2Proof/Laws/Tiles.lean ====
section
/-!
SUPPORT. Byte strings, checks, tiles and exact images: what is formed is read back.
-/

set_option Elab.async false

namespace Sys2Proof.Machine

theorem length_toLE (n x : Nat) : (toLE n x).length = n := by
  induction n generalizing x with
  | zero => rfl
  | succ n ih => simp [toLE, ih]

theorem le_toLE (n x : Nat) : le (toLE n x) = x % 256 ^ n := by
  induction n generalizing x with
  | zero => simp [toLE, le, Nat.mod_one]
  | succ n ih =>
    simp only [toLE, le, ih, BitVec.toNat_ofNat]
    rw [show (256 : Nat) ^ (n + 1) = 256 * 256 ^ n from pow_succ' 256 n, Nat.mod_mul]

/-- A field written between `p` and `q` is read where it stands. -/
theorem leAt_toLE (p q : Bytes) (n x : Nat) : leAt (p ++ (toLE n x ++ q)) p.length n = x % 256 ^ n := by
  have h : (toLE n x).length = n := length_toLE n x
  simp [leAt, slice, h, ← le_toLE]

theorem crcBit_lt {k p c : Nat} (hp : p < 2 ^ k) (hc : c < 2 ^ k) : crcBit p c < 2 ^ k := by
  unfold crcBit
  split
  · exact Nat.xor_lt_two_pow (by omega) hp
  · omega

theorem crcRun_lt {k p : Nat} (hk : 8 ≤ k) (hp : p < 2 ^ k) (l : Bytes) : ∀ {c : Nat}, c < 2 ^ k → crcRun p c l < 2 ^ k := by
  induction l with
  | nil => intro c hc; exact hc
  | cons b l ih =>
    intro c hc
    have hb : b.toNat < 2 ^ k := lt_of_lt_of_le b.isLt (Nat.pow_le_pow_right (by decide) hk)
    apply ih
    have h0 : c ^^^ b.toNat < 2 ^ k := Nat.xor_lt_two_pow hc hb
    simp only [crcByte]
    repeat' apply crcBit_lt hp
    exact h0

theorem crc32c_lt (l : Bytes) : crc32c l < 2 ^ 32 :=
  Nat.xor_lt_two_pow (crcRun_lt (by decide) (by decide) l (by decide)) (by decide)

/-- The header of `mkTile` up to its CHECK, and its LENGTH (06 R165). -/
theorem mkTile_eq (tile chunk code form promoted count promo : Nat) (body : Bytes) :
    ∃ h : Bytes, h.length = 28 ∧
      mkTile tile chunk code form promoted count promo body = h ++ (toLE 4 (crc32c (h ++ body)) ++ body) ∧
      tLength (mkTile tile chunk code form promoted count promo body) = (32 + body.length) / 32 % 512 := by
  have hh (x : Nat) : x % 256 ^ 2 % 512 = x % 512 := Nat.mod_mod_of_dvd _ (by decide)
  refine ⟨_, ?_, List.append_assoc .., ?_⟩
  · simp [length_toLE, zeros]
  · have := leAt_toLE (toLE 4 tile ++ toLE 4 chunk ++ toLE 1 code ++ toLE 1 (form + 16 * promoted) ++ toLE 2 count)
      (toLE 2 promo ++ zeros 12 ++ (toLE 4 (crc32c (toLE 4 tile ++ toLE 4 chunk ++ toLE 1 code ++ toLE 1 (form + 16 * promoted) ++
        toLE 2 count ++ toLE 2 ((32 + body.length) / 32) ++ toLE 2 promo ++ zeros 12 ++ body)) ++ body)) 2 ((32 + body.length) / 32)
    unfold tLength mkTile
    simp only [List.append_assoc, List.length_append, length_toLE] at this ⊢
    rw [this, hh]

/-- A tile of 1 to 257 sectors that is formed by 06 R164-R166 passes its check (06 R174). -/
theorem tileCheckOk_mkTile (tile chunk code form promoted count promo : Nat) (body : Bytes)
    (h : body.length % 32 = 0) (hl : body.length ≤ 32 * 256) :
    tileCheckOk (mkTile tile chunk code form promoted count promo body) = true := by
  obtain ⟨p, hp, he, hlen⟩ := mkTile_eq tile chunk code form promoted count promo body
  have h4 : ∀ x, (toLE 4 x).length = 4 := length_toLE 4
  have hL : 32 * tLength (mkTile tile chunk code form promoted count promo body) = 32 + body.length := by rw [hlen]; omega
  have hC : tCheck (mkTile tile chunk code form promoted count promo body) = crc32c (p ++ body) := by
    have := leAt_toLE p body 4 (crc32c (p ++ body))
    rw [hp] at this
    rw [he, tCheck, this, Nat.mod_eq_of_lt]
    exact crc32c_lt _
  have hB : tileCrc (mkTile tile chunk code form promoted count promo body) = crc32c (p ++ body) := by
    unfold tileCrc
    rw [hL, he]
    have e1 : (p ++ (toLE 4 (crc32c (p ++ body)) ++ body)).take 28 = p := List.take_left' hp
    have e2 : (p ++ (toLE 4 (crc32c (p ++ body)) ++ body)).take (32 + body.length) =
        p ++ (toLE 4 (crc32c (p ++ body)) ++ body) := List.take_of_length_le (by simp only [List.length_append, hp, h4]; omega)
    have e3 : (p ++ (toLE 4 (crc32c (p ++ body)) ++ body)).drop 32 = body := by
      rw [← List.append_assoc]
      exact List.drop_left' (by simp only [List.length_append, hp, h4])
    rw [e1, e2, e3]
  have hn : (mkTile tile chunk code form promoted count promo body).length = 32 + body.length := by
    rw [he]; simp only [List.length_append, hp, h4]; omega
  simp only [tileCheckOk, hB, hC, hn, hlen, beq_self_eq_true, Bool.and_true, Bool.and_eq_true, decide_eq_true_eq]
  omega

/-- The check of an exact image holds as it is written (03 R75, R76). -/
theorem slotOfImage_imageOf (x : Slot) : (slotOfImage (imageOf x)).isSome = true := by
  unfold imageOf slotOfImage
  simp only []
  generalize hp : toLE 8 x.count ++ toLE 4 x.flags.toNat ++ toLE 1 (if x.count = 0 then 0 else x.fmt.toNat) ++ zeros 47 = p
  generalize x.all.flatMap laneBytes = r
  have hl : p.length = 60 := by rw [← hp]; simp [length_toLE, zeros]
  have h4 : ∀ y, (toLE 4 y).length = 4 := length_toLE 4
  have h := leAt_toLE p r 4 (crc32c (p ++ r))
  rw [hl, Nat.mod_eq_of_lt (show crc32c (p ++ r) < 256 ^ 4 from crc32c_lt _)] at h
  have e1 : (p ++ (toLE 4 (crc32c (p ++ r)) ++ r)).take 60 = p := List.take_left' hl
  have e2 : (p ++ (toLE 4 (crc32c (p ++ r)) ++ r)).drop 64 = r := by
    rw [← List.append_assoc]
    exact List.drop_left' (by simp only [List.length_append, hl, h4])
  simp [h, e1, e2]

/-- An image with another CHECK is refused (03 R76). -/
theorem slotOfImage_none (p r : Bytes) (k : Nat) (hl : p.length = 60) (hk : k < 2 ^ 32) (h : k ≠ crc32c (p ++ r)) :
    slotOfImage (p ++ (toLE 4 k ++ r)) = none := by
  have e0 := leAt_toLE p r 4 k
  rw [hl, Nat.mod_eq_of_lt (show k < 256 ^ 4 from hk)] at e0
  have e1 : (p ++ (toLE 4 k ++ r)).take 60 = p := List.take_left' hl
  have e2 : (p ++ (toLE 4 k ++ r)).drop 64 = r := by
    rw [← List.append_assoc]
    exact List.drop_left' (by simp only [List.length_append, hl, length_toLE])
  simp [slotOfImage, e0, e1, e2, h]

/-- Bytes put into a Tray are read where they stand (04 R104). -/
theorem Easel.read_putBytes (x : Easel) (t : Tab Byte) (a : Nat) (b : Bytes) (h : tcanon 0 t = true) (hx : x.tray = putBytes 0 t a b) :
    x.read a b.length = b := by
  apply List.ext_getElem
  · simp [Easel.read]
  · intro i h1 h2
    simp only [Easel.read, hx, List.getElem_map, List.getElem_range]
    rw [tget_putBytes_of_mem a b i h h2]

/-- A shorter read from the same address. -/
theorem Easel.read_take (x : Easel) (a n m : Nat) (h : n ≤ m) : x.read a n = (x.read a m).take n := by
  simp [Easel.read, ← List.map_take, List.take_range, Nat.min_eq_left h]

/-- The size of an exact image (03 R75). -/
theorem length_imageOf (x : Slot) (h : x.all.length = 1024) : (imageOf x).length = Config.imageBytes := by
  have h48 : ∀ l : List Lane, (l.flatMap laneBytes).length = 48 * l.length := by
    intro l
    induction l with
    | nil => rfl
    | cons y l ih =>
      simp only [List.flatMap_cons, List.length_append, ih, List.length_cons, laneBytes, length_toLE]; omega
  simp only [imageOf, List.length_append, length_toLE, zeros, List.length_replicate, h48, h, Config.imageBytes]

/-- LENGTH stands in the first sector (06 R165). -/
theorem tLength_take (b : Bytes) : tLength (b.take 32) = tLength b := by
  simp [tLength, leAt, slice, List.drop_take, List.take_take]

/-- A tile in the Tray that passes every check of 06 R175. -/
theorem consume_ok {tbl : Tab DWord} {x : Easel} {a l c : Nat} {b : Bytes} {f : Fmt} {t : Tile}
    (hl : tLength (x.read a 32) = l) (hr : 1 ≤ l ∧ l ≤ 257 ∧ a + 32 * l ≤ Config.trayBytes) (hb : x.read a (32 * l) = b)
    (hk : tileCheckOk b = true) (hf : tileFields tbl b = some f) (hc : tFormat b = c) (ht : tileElems f b = some t) :
    consume tbl x a (some c) = .ok b t := by
  have h : ¬(l < 1 ∨ 257 < l ∨ Config.trayBytes < a + 32 * l) := by omega
  simp only [consume, hl, if_neg h, hb]
  simp [hk, hf, hc, ht]

end Sys2Proof.Machine
end

