-- ==== Sys2Proof/WellFormed.lean ====
section
/-!
DEFINITION. Which commands name only units, numbers and sizes that some Iczal has. What a grade or a configuration leaves out
is judged from State.
-/

namespace Sys2Proof

/-- The command's operands lie in the ranges of the spec: Easels below 256 (00 R2), functions below 4 (14 R381), ports below
128 and logical ports below 1,024 (01 R15, 09 R236), virtual channels below 8, contexts below 4,096 (07 R184), addresses of 24
bits, one more for a switch (09 R249, R252), flits of 256 bytes (09 R243), channels below 128 and stacks below 4 (11 R307), thirteen sensors (16 R438). -/
def Instr.WellFormed : Instr → Prop
  | .nop n _ _ => n < 256
  | .endStudy n _ _ => n < 256
  | .br n _ _ => n < 256
  | .loop n _ _ => n < 256
  | .wait n _ _ => n < 256
  | .signal n _ _ => n < 256
  | .push n _ _ => n < 256
  | .take n _ _ => n < 256
  | .cset n _ _ => n < 256
  | .cadd n _ _ => n < 256
  | .cmov n _ _ => n < 256
  | .kset n _ _ => n < 256
  | .smovi n _ _ => n < 256
  | .salu n _ _ => n < 256
  | .saddi n _ _ => n < 256
  | .smov n _ _ => n < 256
  | .mode n _ _ => n < 256
  | .seed n _ _ => n < 256
  | .fclr n _ _ => n < 256
  | .easelReturnIdle n => n < 256
  | .semResolve n => n < 256
  | .tokenQueueResolve n => n < 256
  | .waitTimeout n _ => n < 256
  | .studySwitch n _ => n < 256
  | .recv n _ => n < 256
  | .load n _ => n < 256
  | .loadCompletion n _ _ => n < 256
  | .gather n _ => n < 256
  | .gatherCompletion n _ _ => n < 256
  | .vld n _ => n < 256
  | .vst n _ => n < 256
  | .vadd n _ => n < 256
  | .vsub n _ => n < 256
  | .vmul n _ => n < 256
  | .vfma n _ => n < 256
  | .vmin n _ => n < 256
  | .vmax n _ => n < 256
  | .vdiv n _ => n < 256
  | .vsqrt n _ => n < 256
  | .vcvt n _ => n < 256
  | .viadd n _ => n < 256
  | .visub n _ => n < 256
  | .xclr n _ => n < 256
  | .xadd n _ => n < 256
  | .xrnd n _ => n < 256
  | .xcnt n _ => n < 256
  | .xst n _ => n < 256
  | .xld n _ => n < 256
  | .bsfit n _ => n < 256
  | .bsmax n _ => n < 256
  | .thdr n _ => n < 256
  | .sort n _ => n < 256
  | .merge n _ => n < 256
  | .topk n _ => n < 256
  | .fsel n _ => n < 256
  | .dense n _ => n < 256
  | .cmpct n _ => n < 256
  | .filt n _ => n < 256
  | .recs n _ => n < 256
  | .twrap n _ => n < 256
  | .send n _ => n < 256
  | .sendCompletion n => n < 256
  | .store n _ => n < 256
  | .storeCompletion n _ => n < 256
  | .scatter n _ => n < 256
  | .scatterCompletion n _ _ => n < 256
  | .easelLowPowerEntry n => n < 256
  | .easelWake n => n < 256
  | .easelCtrlWrite f n _ => f < 4 ∧ n < 256
  | .ingressStagePlace n => n < 256
  | .startEntryPush n => n < 256
  | .openCtx f => f < 4
  | .reservationGranted => True
  | .openWaitExpiry c => c < 4096
  | .roster f => f < 4
  | .commit f => f < 4
  | .close f => f < 4
  | .abort f => f < 4
  | .cmdLoad f => f < 4
  | .group f => f < 4
  | .start f => f < 4
  | .bind f => f < 4
  | .unbind f => f < 4
  | .grant f => f < 4
  | .circuit f => f < 4
  | .tear f => f < 4
  | .capture f => f < 4
  | .captureClear f => f < 4
  | .replay f => f < 4
  | .replayFinish => True
  | .hbmRetry f => f < 4
  | .assign f => f < 4
  | .attest f => f < 4
  | .imageWrite f => f < 4
  | .cmdNop f => f < 4
  | .commandTake f => f < 4
  | .retire f slot _ => f < 4 ∧ slot < 256
  | .ftimeLoRead f => f < 4
  | .cmdNextLoRead f => f < 4
  | .registerWrite f off _ _ => f < 4 ∧ off < 2 ^ 26
  | .bar2Access f off len _ _ _ => f < 4 ∧ off < 2 ^ 36 ∧ len ≤ 4096
  | .hbmMapoutWrite f _ => f < 4
  | .diaryCtrlFlush f _ => f < 4
  | .gateArm f port _ => f < 4 ∧ port < 128
  | .shapeCfgWrite f port vc _ _ => f < 4 ∧ port < 128 ∧ vc < 8
  | .schedCfgWrite f port _ _ => f < 4 ∧ port < 128
  | .bufLimitWrite f port cls _ => f < 4 ∧ port < 128 ∧ cls < 16
  | .routeEntryWrite f idx _ => f < 4 ∧ idx < 131072
  | .groupEntryValidWrite f g _ => f < 4 ∧ g < 16384
  | .portCfgWrite f port _ _ => f < 4 ∧ port < 128
  | .gessoModeWrite f _ _ => f < 4
  | .detCtrlWrite f _ => f < 4
  | .apertureWrite f _ => f < 4
  | .enter src vc => src < 2 ^ 25 ∧ vc < 8
  | .enterWaitRelease c => c < 4096
  | .hairlineEnter src => src < 2 ^ 25
  | .contributionTile src vc => src < 2 ^ 25 ∧ vc < 8
  | .genTimeout c _ => c < 4096
  | .chunkRetire c _ _ => c < 4096
  | .generationRetire c => c < 4096
  | .stageCheck src => src < 2 ^ 25
  | .checkResendTimer c => c < 4096
  | .summary src => src < 2 ^ 25
  | .verdict src => src < 2 ^ 25
  | .fail src => src < 2 ^ 25
  | .poseRelease c _ => c < 4096
  | .linkDownTimer p => p < 1024
  | .trainingSuccess p => p < 1024
  | .trainingTimeout p => p < 1024
  | .helloSend p => p < 1024
  | .linkUp p => p < 1024
  | .linkFlitSend p => p < 1024
  | .linkFlit p flit => p < 1024 ∧ flit.length = 256
  | .dataFlit p flit => p < 1024 ∧ flit.length = 256
  | .ackTimeoutResend p => p < 1024
  | .linkDown p _ => p < 1024
  | .timeMeasure p => p < 1024
  | .fabricTimeTick => True
  | .frameReceive p _ => p < 1024
  | .linkHoldExpiry p vc => p < 1024 ∧ vc < 8
  | .egressDecision p => p < 1024
  | .gateEntryBoundary port => port < 128
  | .gateSwitchOver port => port < 128
  | .csetup p => p < 1024
  | .cready p => p < 1024
  | .cfail p => p < 1024
  | .ctear p => p < 1024
  | .cbroken p => p < 1024
  | .circuitTimeout id => id < 4096
  | .tackAck src => src < 2 ^ 25
  | .tackNak src => src < 2 ^ 25
  | .tackReset src => src < 2 ^ 25
  | .tackBusy src => src < 2 ^ 25
  | .tackGiveup src => src < 2 ^ 25
  | .rtoExpiry peer vc => peer < 2 ^ 25 ∧ vc < 8
  | .ackSendTimer peer vc => peer < 2 ^ 25 ∧ vc < 8
  | .flowIdleExpiry peer vc => peer < 2 ^ 25 ∧ vc < 8
  | .spanIdleEnd peer vc => peer < 2 ^ 25 ∧ vc < 8
  | .alive src => src < 2 ^ 25
  | .fence src => src < 2 ^ 25
  | .rejoin src => src < 2 ^ 25
  | .host src => src < 2 ^ 25
  | .lost src => src < 2 ^ 25
  | .rerun src => src < 2 ^ 25
  | .rerunMerge c _ => c < 4096
  | .memberSilent ep => ep < 2 ^ 24
  | .switchSilence c sw => c < 4096 ∧ sw < 2 ^ 24
  | .chunkStall c _ _ => c < 4096
  | .chunkParked c _ _ => c < 4096
  | .chunkResume c _ _ => c < 4096
  | .healthDecay => True
  | .expelTokenAdd => True
  | .grisailleEntry _ => True
  | .runtimeMapout ch _ => ch < 128
  | .spareTakeover => True
  | .backgroundScrub _ => True
  | .hbmPowerDown h => h < 4
  | .hbmSelfRefreshEntry h => h < 4
  | .diaryFlush cause => 1 ≤ cause ∧ cause ≤ 5
  | .diaryFlushComplete => True
  | .sysRstLow => True
  | .boot _ => True
  | .warmRst => True
  | .vddAonLoss => True
  | .railFault => True
  | .pwrFail => True
  | .perst => True
  | .functionLevelReset f => f < 4
  | .thermalWarning sensor _ => sensor < 13
  | .thermalEmergency sensor => sensor < 13
  | .thermtrip sensor _ => sensor < 13
  | .throttleUpdate temps _ _ => temps.length = 13
  | .smbState => True
  | .smbIdent => True
  | .smbTemp => True
  | .smbPower => True
  | .smbAlert _ => True
  | .smbDiary _ => True
  | .smbMramRead _ => True
  | .alertResponse => True
  | .vddAonGood addr => addr < 4
  | .railsInRange => True
  | .warmRstRise => True
  | .perstRise strap => strap < 4
  | .pwrFailRise => True
  | .hostReadCompletion f _ => f < 4
  | .norProgramComplete _ _ => True
  | .msixUnmask f _ => f < 4
  | .bar0AccessRefused f off len => f < 4 ∧ off < 2 ^ 26 ∧ len ≤ 4096

/-- The same as a test. -/
def Instr.wf (i : Instr) : Bool :=
  match i with
  | .nop n _ _ => decide (n < 256)
  | .endStudy n _ _ => decide (n < 256)
  | .br n _ _ => decide (n < 256)
  | .loop n _ _ => decide (n < 256)
  | .wait n _ _ => decide (n < 256)
  | .signal n _ _ => decide (n < 256)
  | .push n _ _ => decide (n < 256)
  | .take n _ _ => decide (n < 256)
  | .cset n _ _ => decide (n < 256)
  | .cadd n _ _ => decide (n < 256)
  | .cmov n _ _ => decide (n < 256)
  | .kset n _ _ => decide (n < 256)
  | .smovi n _ _ => decide (n < 256)
  | .salu n _ _ => decide (n < 256)
  | .saddi n _ _ => decide (n < 256)
  | .smov n _ _ => decide (n < 256)
  | .mode n _ _ => decide (n < 256)
  | .seed n _ _ => decide (n < 256)
  | .fclr n _ _ => decide (n < 256)
  | .easelReturnIdle n => decide (n < 256)
  | .semResolve n => decide (n < 256)
  | .tokenQueueResolve n => decide (n < 256)
  | .waitTimeout n _ => decide (n < 256)
  | .studySwitch n _ => decide (n < 256)
  | .recv n _ => decide (n < 256)
  | .load n _ => decide (n < 256)
  | .loadCompletion n _ _ => decide (n < 256)
  | .gather n _ => decide (n < 256)
  | .gatherCompletion n _ _ => decide (n < 256)
  | .vld n _ => decide (n < 256)
  | .vst n _ => decide (n < 256)
  | .vadd n _ => decide (n < 256)
  | .vsub n _ => decide (n < 256)
  | .vmul n _ => decide (n < 256)
  | .vfma n _ => decide (n < 256)
  | .vmin n _ => decide (n < 256)
  | .vmax n _ => decide (n < 256)
  | .vdiv n _ => decide (n < 256)
  | .vsqrt n _ => decide (n < 256)
  | .vcvt n _ => decide (n < 256)
  | .viadd n _ => decide (n < 256)
  | .visub n _ => decide (n < 256)
  | .xclr n _ => decide (n < 256)
  | .xadd n _ => decide (n < 256)
  | .xrnd n _ => decide (n < 256)
  | .xcnt n _ => decide (n < 256)
  | .xst n _ => decide (n < 256)
  | .xld n _ => decide (n < 256)
  | .bsfit n _ => decide (n < 256)
  | .bsmax n _ => decide (n < 256)
  | .thdr n _ => decide (n < 256)
  | .sort n _ => decide (n < 256)
  | .merge n _ => decide (n < 256)
  | .topk n _ => decide (n < 256)
  | .fsel n _ => decide (n < 256)
  | .dense n _ => decide (n < 256)
  | .cmpct n _ => decide (n < 256)
  | .filt n _ => decide (n < 256)
  | .recs n _ => decide (n < 256)
  | .twrap n _ => decide (n < 256)
  | .send n _ => decide (n < 256)
  | .sendCompletion n => decide (n < 256)
  | .store n _ => decide (n < 256)
  | .storeCompletion n _ => decide (n < 256)
  | .scatter n _ => decide (n < 256)
  | .scatterCompletion n _ _ => decide (n < 256)
  | .easelLowPowerEntry n => decide (n < 256)
  | .easelWake n => decide (n < 256)
  | .easelCtrlWrite f n _ => decide (f < 4 ∧ n < 256)
  | .ingressStagePlace n => decide (n < 256)
  | .startEntryPush n => decide (n < 256)
  | .openCtx f => decide (f < 4)
  | .reservationGranted => decide (True)
  | .openWaitExpiry c => decide (c < 4096)
  | .roster f => decide (f < 4)
  | .commit f => decide (f < 4)
  | .close f => decide (f < 4)
  | .abort f => decide (f < 4)
  | .cmdLoad f => decide (f < 4)
  | .group f => decide (f < 4)
  | .start f => decide (f < 4)
  | .bind f => decide (f < 4)
  | .unbind f => decide (f < 4)
  | .grant f => decide (f < 4)
  | .circuit f => decide (f < 4)
  | .tear f => decide (f < 4)
  | .capture f => decide (f < 4)
  | .captureClear f => decide (f < 4)
  | .replay f => decide (f < 4)
  | .replayFinish => decide (True)
  | .hbmRetry f => decide (f < 4)
  | .assign f => decide (f < 4)
  | .attest f => decide (f < 4)
  | .imageWrite f => decide (f < 4)
  | .cmdNop f => decide (f < 4)
  | .commandTake f => decide (f < 4)
  | .retire f slot _ => decide (f < 4 ∧ slot < 256)
  | .ftimeLoRead f => decide (f < 4)
  | .cmdNextLoRead f => decide (f < 4)
  | .registerWrite f off _ _ => decide (f < 4 ∧ off < 2 ^ 26)
  | .bar2Access f off len _ _ _ => decide (f < 4 ∧ off < 2 ^ 36 ∧ len ≤ 4096)
  | .hbmMapoutWrite f _ => decide (f < 4)
  | .diaryCtrlFlush f _ => decide (f < 4)
  | .gateArm f port _ => decide (f < 4 ∧ port < 128)
  | .shapeCfgWrite f port vc _ _ => decide (f < 4 ∧ port < 128 ∧ vc < 8)
  | .schedCfgWrite f port _ _ => decide (f < 4 ∧ port < 128)
  | .bufLimitWrite f port cls _ => decide (f < 4 ∧ port < 128 ∧ cls < 16)
  | .routeEntryWrite f idx _ => decide (f < 4 ∧ idx < 131072)
  | .groupEntryValidWrite f g _ => decide (f < 4 ∧ g < 16384)
  | .portCfgWrite f port _ _ => decide (f < 4 ∧ port < 128)
  | .gessoModeWrite f _ _ => decide (f < 4)
  | .detCtrlWrite f _ => decide (f < 4)
  | .apertureWrite f _ => decide (f < 4)
  | .enter src vc => decide (src < 2 ^ 25 ∧ vc < 8)
  | .enterWaitRelease c => decide (c < 4096)
  | .hairlineEnter src => decide (src < 2 ^ 25)
  | .contributionTile src vc => decide (src < 2 ^ 25 ∧ vc < 8)
  | .genTimeout c _ => decide (c < 4096)
  | .chunkRetire c _ _ => decide (c < 4096)
  | .generationRetire c => decide (c < 4096)
  | .stageCheck src => decide (src < 2 ^ 25)
  | .checkResendTimer c => decide (c < 4096)
  | .summary src => decide (src < 2 ^ 25)
  | .verdict src => decide (src < 2 ^ 25)
  | .fail src => decide (src < 2 ^ 25)
  | .poseRelease c _ => decide (c < 4096)
  | .linkDownTimer p => decide (p < 1024)
  | .trainingSuccess p => decide (p < 1024)
  | .trainingTimeout p => decide (p < 1024)
  | .helloSend p => decide (p < 1024)
  | .linkUp p => decide (p < 1024)
  | .linkFlitSend p => decide (p < 1024)
  | .linkFlit p flit => decide (p < 1024 ∧ flit.length = 256)
  | .dataFlit p flit => decide (p < 1024 ∧ flit.length = 256)
  | .ackTimeoutResend p => decide (p < 1024)
  | .linkDown p _ => decide (p < 1024)
  | .timeMeasure p => decide (p < 1024)
  | .fabricTimeTick => decide (True)
  | .frameReceive p _ => decide (p < 1024)
  | .linkHoldExpiry p vc => decide (p < 1024 ∧ vc < 8)
  | .egressDecision p => decide (p < 1024)
  | .gateEntryBoundary port => decide (port < 128)
  | .gateSwitchOver port => decide (port < 128)
  | .csetup p => decide (p < 1024)
  | .cready p => decide (p < 1024)
  | .cfail p => decide (p < 1024)
  | .ctear p => decide (p < 1024)
  | .cbroken p => decide (p < 1024)
  | .circuitTimeout id => decide (id < 4096)
  | .tackAck src => decide (src < 2 ^ 25)
  | .tackNak src => decide (src < 2 ^ 25)
  | .tackReset src => decide (src < 2 ^ 25)
  | .tackBusy src => decide (src < 2 ^ 25)
  | .tackGiveup src => decide (src < 2 ^ 25)
  | .rtoExpiry peer vc => decide (peer < 2 ^ 25 ∧ vc < 8)
  | .ackSendTimer peer vc => decide (peer < 2 ^ 25 ∧ vc < 8)
  | .flowIdleExpiry peer vc => decide (peer < 2 ^ 25 ∧ vc < 8)
  | .spanIdleEnd peer vc => decide (peer < 2 ^ 25 ∧ vc < 8)
  | .alive src => decide (src < 2 ^ 25)
  | .fence src => decide (src < 2 ^ 25)
  | .rejoin src => decide (src < 2 ^ 25)
  | .host src => decide (src < 2 ^ 25)
  | .lost src => decide (src < 2 ^ 25)
  | .rerun src => decide (src < 2 ^ 25)
  | .rerunMerge c _ => decide (c < 4096)
  | .memberSilent ep => decide (ep < 2 ^ 24)
  | .switchSilence c sw => decide (c < 4096 ∧ sw < 2 ^ 24)
  | .chunkStall c _ _ => decide (c < 4096)
  | .chunkParked c _ _ => decide (c < 4096)
  | .chunkResume c _ _ => decide (c < 4096)
  | .healthDecay => decide (True)
  | .expelTokenAdd => decide (True)
  | .grisailleEntry _ => decide (True)
  | .runtimeMapout ch _ => decide (ch < 128)
  | .spareTakeover => decide (True)
  | .backgroundScrub _ => decide (True)
  | .hbmPowerDown h => decide (h < 4)
  | .hbmSelfRefreshEntry h => decide (h < 4)
  | .diaryFlush cause => decide (1 ≤ cause ∧ cause ≤ 5)
  | .diaryFlushComplete => decide (True)
  | .sysRstLow => decide (True)
  | .boot _ => decide (True)
  | .warmRst => decide (True)
  | .vddAonLoss => decide (True)
  | .railFault => decide (True)
  | .pwrFail => decide (True)
  | .perst => decide (True)
  | .functionLevelReset f => decide (f < 4)
  | .thermalWarning sensor _ => decide (sensor < 13)
  | .thermalEmergency sensor => decide (sensor < 13)
  | .thermtrip sensor _ => decide (sensor < 13)
  | .throttleUpdate temps _ _ => decide (temps.length = 13)
  | .smbState => decide (True)
  | .smbIdent => decide (True)
  | .smbTemp => decide (True)
  | .smbPower => decide (True)
  | .smbAlert _ => decide (True)
  | .smbDiary _ => decide (True)
  | .smbMramRead _ => decide (True)
  | .alertResponse => decide (True)
  | .vddAonGood addr => decide (addr < 4)
  | .railsInRange => decide (True)
  | .warmRstRise => decide (True)
  | .perstRise strap => decide (strap < 4)
  | .pwrFailRise => decide (True)
  | .hostReadCompletion f _ => decide (f < 4)
  | .norProgramComplete _ _ => decide (True)
  | .msixUnmask f _ => decide (f < 4)
  | .bar0AccessRefused f off len => decide (f < 4 ∧ off < 2 ^ 26 ∧ len ≤ 4096)

theorem Instr.wf_iff (i : Instr) : i.wf = true ↔ i.WellFormed := by
  cases i <;> simp [Instr.wf, Instr.WellFormed]

end Sys2Proof
end

