-- ==== Sys2Proof/Tests/Slice0.lean ====
section
/-!
SUPPORT. Tests: an ill-formed term for every kind of check of WellFormed, and for each clause of the statements a state and
operands that meet its hypotheses. Every number is written out from the rule its clause cites.
-/

set_option Elab.async false

namespace Sys2Proof.Tests
open Sys2Proof Sys2Proof.Machine Sys2Proof.Claims

/-- RUNNING after 5,000,000 ACLK, with PF0 presented. -/
def run0 : State := { State.reset with
  dev := .running, clock := { cycle := 5000000, ftime := 5000000 }, boot := { State.reset.boot with presented := true } }
/-- Logical port 8, the one of P1. -/
def onP (x : LPort) : State := run0.setLPort 8 x
def edge0 : BitVec 12 := 0x001
def anEdge : LPort := { cfg := edge0, st := .up, ver := 1 }
/-- An instruction word below the opcode, from (lowest bit, value) pairs (05 R139). -/
def fw (l : List (Nat × Nat)) : IWord := BitVec.ofNat 56 ((l.map (fun x => x.2 * 2 ^ x.1)).foldl (· + ·) 0)
/-- Engine `e` of Easel 0 runs a study of eight instructions, the first of which is the given word. -/
def engOn (e : EngId) (op : Nat) (w : IWord) (g : Engine) : State :=
  run0.setEngine 0 e { g with st := .run, imem := [(0, wordOf op w)], studies := [(0, { base := 0, len := 8, valid := true })] }
def eng (e : EngId) (op : Nat) (w : IWord) : State := engOn e op w {}

theorem allOpt {α : Type} {p : α → Prop} [DecidablePred p] {o : Option α} (h : o.all (fun t => decide (p t)) = true) :
    ∀ t, o = some t → p t := by
  intro t e; subst e; simpa using h
theorem allEng {p : EngId → Prop} (h : ∀ e ∈ EngId.all, p e) : ∀ e, p e :=
  fun e => h e (by cases e <;> decide)
theorem allEngOpt {α : Type} {f : EngId → Option α} {p : EngId → α → Prop} [∀ e, DecidablePred (p e)]
    (h : ∀ e ∈ EngId.all, (f e).all (fun t => decide (p e t)) = true) : ∀ e t, f e = some t → p e t :=
  fun e => allOpt (h e (by cases e <;> decide))
theorem allEngNeOpt {α : Type} {x : EngId} {f : EngId → Option α} {p : EngId → α → Prop} [∀ e, DecidablePred (p e)]
    (h : ∀ e ∈ EngId.all, e ≠ x → (f e).all (fun t => decide (p e t)) = true) : ∀ e, e ≠ x → ∀ t, f e = some t → p e t :=
  fun e he => allOpt (h e (by cases e <;> decide) he)

/-! ## WellFormed refuses -/

theorem test_refuses_easel_1 : ([
    .nop 256 .blend 0, .endStudy 256 .blend 0, .br 256 .blend 0, .loop 256 .blend 0,
    .wait 256 .blend 0, .signal 256 .blend 0, .push 256 .blend 0, .take 256 .blend 0,
    .cset 256 .blend 0, .cadd 256 .blend 0, .cmov 256 .blend 0, .kset 256 .blend 0,
    .smovi 256 .blend 0, .salu 256 .blend 0, .saddi 256 .blend 0, .smov 256 .blend 0,
    .mode 256 .blend 0, .seed 256 .blend 0, .fclr 256 .blend 0, .easelReturnIdle 256,
    .semResolve 256, .tokenQueueResolve 256, .waitTimeout 256 .blend, .studySwitch 256 .blend] : List Instr).all (fun i => !i.wf) = true := by decide
theorem test_refuses_easel_2 : ([
    .recv 256 0, .load 256 0, .loadCompletion 256 0 .clean, .gather 256 0,
    .gatherCompletion 256 0 .clean, .vld 256 0, .vst 256 0, .vadd 256 0,
    .vsub 256 0, .vmul 256 0, .vfma 256 0, .vmin 256 0,
    .vmax 256 0, .vdiv 256 0, .vsqrt 256 0, .vcvt 256 0,
    .viadd 256 0, .visub 256 0, .xclr 256 0, .xadd 256 0,
    .xrnd 256 0, .xcnt 256 0, .xst 256 0, .xld 256 0] : List Instr).all (fun i => !i.wf) = true := by decide
theorem test_refuses_easel_3 : ([
    .bsfit 256 0, .bsmax 256 0, .thdr 256 0, .sort 256 0,
    .merge 256 0, .topk 256 0, .fsel 256 0, .dense 256 0,
    .cmpct 256 0, .filt 256 0, .recs 256 0, .twrap 256 0,
    .send 256 0, .sendCompletion 256, .store 256 0, .storeCompletion 256 0,
    .scatter 256 0, .scatterCompletion 256 0 .clean, .easelLowPowerEntry 256, .easelWake 256,
    .easelCtrlWrite 0 256 0, .ingressStagePlace 256, .startEntryPush 256, .retire 0 256 0] : List Instr).all (fun i => !i.wf) = true := by decide
theorem test_refuses_function_or_stack_1 : ([
    .easelCtrlWrite 4 0 0, .openCtx 4, .roster 4, .commit 4,
    .close 4, .abort 4, .cmdLoad 4, .group 4,
    .start 4, .bind 4, .unbind 4, .grant 4,
    .circuit 4, .tear 4, .capture 4, .captureClear 4,
    .replay 4, .hbmRetry 4, .assign 4, .attest 4,
    .imageWrite 4, .cmdNop 4, .commandTake 4, .retire 4 0 0] : List Instr).all (fun i => !i.wf) = true := by decide
theorem test_refuses_function_or_stack_2 : ([
    .ftimeLoRead 4, .cmdNextLoRead 4, .registerWrite 4 0 [] false, .bar2Access 4 0 0 none .clean false,
    .hbmMapoutWrite 4 0, .diaryCtrlFlush 4 0, .gateArm 4 0 0, .shapeCfgWrite 4 0 0 false 0,
    .schedCfgWrite 4 0 none 0, .bufLimitWrite 4 0 0 0, .routeEntryWrite 4 0 0, .groupEntryValidWrite 4 0 0,
    .portCfgWrite 4 0 .portCfg 0, .gessoModeWrite 4 false 0, .detCtrlWrite 4 0, .apertureWrite 4 0,
    .hbmPowerDown 4, .hbmSelfRefreshEntry 4, .functionLevelReset 4, .vddAonGood 4,
    .perstRise 4, .hostReadCompletion 4 none, .msixUnmask 4 none, .bar0AccessRefused 4 0 0] : List Instr).all (fun i => !i.wf) = true := by decide
theorem test_refuses_length : ([
    .openWaitExpiry 4096, .bar2Access 0 0 (4096 + 1) none .clean false, .enterWaitRelease 4096, .genTimeout 4096 0,
    .chunkRetire 4096 0 0, .generationRetire 4096, .checkResendTimer 4096, .poseRelease 4096 0,
    .circuitTimeout 4096, .rerunMerge 4096 0, .switchSilence 4096 0, .chunkStall 4096 0 0,
    .chunkParked 4096 0 0, .chunkResume 4096 0 0, .bar0AccessRefused 0 0 (4096 + 1)] : List Instr).all (fun i => !i.wf) = true := by decide
theorem test_refuses_bar0_offset : ([
    .registerWrite 0 (2 ^ 26) [] false, .bar0AccessRefused 0 (2 ^ 26) 0] : List Instr).all (fun i => !i.wf) = true := by decide
theorem test_refuses_bar2_offset : ([
    .bar2Access 0 (2 ^ 36) 0 none .clean false] : List Instr).all (fun i => !i.wf) = true := by decide
theorem test_refuses_port_or_channel : ([
    .gateArm 0 128 0, .shapeCfgWrite 0 128 0 false 0, .schedCfgWrite 0 128 none 0, .bufLimitWrite 0 128 0 0,
    .portCfgWrite 0 128 .portCfg 0, .gateEntryBoundary 128, .gateSwitchOver 128, .runtimeMapout 128 .ueLimit] : List Instr).all (fun i => !i.wf) = true := by decide
theorem test_refuses_virtual_channel : ([
    .shapeCfgWrite 0 0 8 false 0, .enter 0 8, .contributionTile 0 8, .linkHoldExpiry 0 8,
    .rtoExpiry 0 8, .ackSendTimer 0 8, .flowIdleExpiry 0 8, .spanIdleEnd 0 8] : List Instr).all (fun i => !i.wf) = true := by decide
theorem test_refuses_sixteen : ([
    .bufLimitWrite 0 0 16 0] : List Instr).all (fun i => !i.wf) = true := by decide
theorem test_refuses_route : ([
    .routeEntryWrite 0 131072 0] : List Instr).all (fun i => !i.wf) = true := by decide
theorem test_refuses_group : ([
    .groupEntryValidWrite 0 16384 0] : List Instr).all (fun i => !i.wf) = true := by decide
theorem test_refuses_address : ([
    .enter (2 ^ 25) 0, .hairlineEnter (2 ^ 25), .contributionTile (2 ^ 25) 0, .stageCheck (2 ^ 25),
    .summary (2 ^ 25), .verdict (2 ^ 25), .fail (2 ^ 25), .tackAck (2 ^ 25),
    .tackNak (2 ^ 25), .tackReset (2 ^ 25), .tackBusy (2 ^ 25), .tackGiveup (2 ^ 25),
    .rtoExpiry (2 ^ 25) 0, .ackSendTimer (2 ^ 25) 0, .flowIdleExpiry (2 ^ 25) 0, .spanIdleEnd (2 ^ 25) 0,
    .alive (2 ^ 25), .fence (2 ^ 25), .rejoin (2 ^ 25), .host (2 ^ 25),
    .lost (2 ^ 25), .rerun (2 ^ 25)] : List Instr).all (fun i => !i.wf) = true := by decide
theorem test_refuses_logical_port : ([
    .linkDownTimer 1024, .trainingSuccess 1024, .trainingTimeout 1024, .helloSend 1024,
    .linkUp 1024, .linkFlitSend 1024, .linkFlit 1024 [], .dataFlit 1024 [],
    .ackTimeoutResend 1024, .linkDown 1024 .fecLoss, .timeMeasure 1024, .frameReceive 1024 .spoilt,
    .linkHoldExpiry 1024 0, .egressDecision 1024, .csetup 1024, .cready 1024,
    .cfail 1024, .ctear 1024, .cbroken 1024] : List Instr).all (fun i => !i.wf) = true := by decide
theorem test_refuses_list_length : ([
    .linkFlit 0 [], .dataFlit 0 [], .throttleUpdate [] 0 0] : List Instr).all (fun i => !i.wf) = true := by decide
theorem test_refuses_endpoint : ([
    .memberSilent (2 ^ 24), .switchSilence 0 (2 ^ 24)] : List Instr).all (fun i => !i.wf) = true := by decide
theorem test_refuses_cause : ([
    .diaryFlush 0] : List Instr).all (fun i => !i.wf) = true := by decide
theorem test_refuses_five : ([
    .diaryFlush (5 + 1)] : List Instr).all (fun i => !i.wf) = true := by decide
theorem test_refuses_sensor : ([
    .thermalWarning 13 0, .thermalEmergency 13, .thermtrip 13 0] : List Instr).all (fun i => !i.wf) = true := by decide

/-! ## The hypotheses of each statement are met -/

namespace A

def noEng : State := { run0 with boot := { run0.boot with fuses := { run0.boot.fuses with grade := 2 } } }
def offStudy : State := run0.setEngine 0 .blend { st := .run }
def badOp : State := eng .blend 0x7F 0
def nopHere : State := eng .intake 0 0
def badBits : State := eng .intake 0 1
def rSort : Row := ⟨0, .order, 0x40, 0, [(51, 5), (16, 5), (21, 5), (0, 1), (46, 5), (45, 1), (26, 19)]⟩
def rNop (e : EngId) (w : IWord) : Row := ⟨0, e, 0, w, []⟩

def wCset := fw [(51, 7), (0, 0xFFFFFFFF)]
def wCadd := fw [(51, 7), (0, 1)]
def wCmov := fw [(51, 7), (46, 15)]
def wKset := fw [(51, 3), (46, 15), (43, 5), (41, 2), (40, 1), (0, 0xFFFF)]
def kReg : Cmp := { rel := 5, a := .scalar 15, b := .imm 0xFFFF }

def x1 : Word := 1
def x12 : Word := 12
def x33 : Word := 33
def xMin : Word := 0x80000000
def xSra : Word := 0xC0000000
def xOnes : Word := 0xFFFFFFFF
def wSmovi := fw [(51, 15), (0, 0xFFFFFFFF)]
def wSaddi := fw [(51, 15), (46, 15), (0, 0xFFFFFFFF)]
def wSalu (f : Nat) := fw [(51, 15), (46, 15), (41, 14), (16, f)]
def wSmov (x : Nat) := fw [(51, 15), (46, x)]
def gSra : Engine := { s := [(14, 33), (15, 0x80000000)] }
def gMax : Engine := { s := [(14, 1), (15, 0xFFFFFFFF)] }

def strict0 : State := { eng .blend 16 5 with coll := { (eng .blend 16 5).coll with strict := true } }

def wBr (c : Nat) := fw [(54, 3), (52, c), (0, 7)]
def wLoop := fw [(50, 2), (45, 15), (0, 7)]
def full : List Level := List.replicate 4 { first := 0, last := 1, left := 2, idx := 0 }

theorem wit_eng_absent : row (Instr.sort 0 0) = some rSort ∧ (noEng.isEasel rSort.n && noEng.hasEngine rSort.e) = false := by decide
theorem wit_eng_idle : row (Instr.nop 0 EngId.mask 0) = some (rNop EngId.mask 0) ∧ run0.isEasel (rNop EngId.mask 0).n = true ∧
    run0.hasEngine (rNop EngId.mask 0).e = true ∧ run0.canIssue (rNop EngId.mask 0).n (rNop EngId.mask 0).e = false := by decide
theorem wit_eng_pc_range : row (Instr.nop 0 EngId.blend 0) = some (rNop EngId.blend 0) ∧
    offStudy.isEasel (rNop EngId.blend 0).n = true ∧ offStudy.hasEngine (rNop EngId.blend 0).e = true ∧
    offStudy.canIssue (rNop EngId.blend 0).n (rNop EngId.blend 0).e = true ∧
    (offStudy.engine (rNop EngId.blend 0).n (rNop EngId.blend 0).e).inStudy (offStudy.engine (rNop EngId.blend 0).n (rNop EngId.blend 0).e).pc = false := by decide
theorem wit_eng_bad_op : row (Instr.nop 0 EngId.blend 0) = some (rNop EngId.blend 0) ∧
    Ready badOp (rNop EngId.blend 0).n (rNop EngId.blend 0).e ∧
    opListed (rNop EngId.blend 0).e (tget 0 (badOp.engine (rNop EngId.blend 0).n (rNop EngId.blend 0).e).imem (badOp.engine (rNop EngId.blend 0).n (rNop EngId.blend 0).e).pc >>> 56).toNat = false := by decide
theorem wit_eng_other_word : row (Instr.nop 0 EngId.intake 1) = some (rNop EngId.intake 1) ∧
    Ready nopHere (rNop EngId.intake 1).n (rNop EngId.intake 1).e ∧
    opListed (rNop EngId.intake 1).e (tget 0 (nopHere.engine (rNop EngId.intake 1).n (rNop EngId.intake 1).e).imem (nopHere.engine (rNop EngId.intake 1).n (rNop EngId.intake 1).e).pc >>> 56).toNat = true ∧
    tget 0 (nopHere.engine (rNop EngId.intake 1).n (rNop EngId.intake 1).e).imem (nopHere.engine (rNop EngId.intake 1).n (rNop EngId.intake 1).e).pc ≠ wordOf (rNop EngId.intake 1).op (rNop EngId.intake 1).w := by decide
theorem wit_eng_reserved : row (Instr.nop 0 EngId.intake 1) = some (rNop EngId.intake 1) ∧
    Ready badBits (rNop EngId.intake 1).n (rNop EngId.intake 1).e ∧
    tget 0 (badBits.engine (rNop EngId.intake 1).n (rNop EngId.intake 1).e).imem (badBits.engine (rNop EngId.intake 1).n (rNop EngId.intake 1).e).pc = wordOf (rNop EngId.intake 1).op (rNop EngId.intake 1).w ∧
    reservedOk (rNop EngId.intake 1).w (rNop EngId.intake 1).used = false := by decide
theorem wit_nop : Issues nopHere 0 EngId.intake 0 0 [] := by decide
theorem wit_cset : Issues (eng EngId.order 8 wCset) 0 EngId.order 8 wCset [(51, 5), (0, 32)] ∧ bits wCset 55 51 < 8 := by decide
theorem wit_cadd : Issues (engOn EngId.mask 9 wCadd { c := [(7, 4294967295)] }) 0 EngId.mask 9 wCadd [(51, 5), (0, 32)] ∧
    bits wCadd 55 51 < 8 := by decide
theorem wit_cmov : Issues (engOn EngId.outlet 10 wCmov { s := [(15, 5)] }) 0 EngId.outlet 10 wCmov [(51, 5), (46, 5)] ∧
    bits wCmov 55 51 < 8 ∧ bits wCmov 50 46 < 16 := by decide
theorem wit_kset : Issues (eng EngId.blend 11 wKset) 0 EngId.blend 11 wKset [(51, 5), (46, 5), (40, 6), (0, 16)] ∧
    bits wKset 55 51 < 4 ∧ kReg.rel = bits wKset 45 43 ∧ kReg.rel ≤ 5 ∧ (bits wKset 40 40 = 0 ∧ bits wKset 50 46 < 8 ∧
    kReg.a = CmpSrc.ctr (bits wKset 50 46) ∨ bits wKset 40 40 = 1 ∧ bits wKset 50 46 < 16 ∧ kReg.a = CmpSrc.scalar (bits wKset 50 46)) ∧
    (bits wKset 42 41 = 0 ∧ bits wKset 4 0 < 8 ∧ kReg.b = CmpSrc.ctr (bits wKset 4 0) ∨ bits wKset 42 41 = 1 ∧ bits wKset 4 0 < 16 ∧
    kReg.b = CmpSrc.scalar (bits wKset 4 0) ∨ bits wKset 42 41 = 2 ∧
    kReg.b = CmpSrc.imm (BitVec.ofNat 32 (bits wKset 15 0))) := by decide
theorem wit_smovi : Issues (eng EngId.blend 12 wSmovi) 0 EngId.blend 12 wSmovi [(51, 5), (0, 32)] ∧ bits wSmovi 55 51 < 16 := by decide
theorem wit_saddi : Issues (engOn EngId.blend 14 wSaddi { s := [(15, 0)] }) 0 EngId.blend 14 wSaddi [(51, 5), (46, 5), (0, 32)] ∧
    bits wSaddi 55 51 < 16 ∧ bits wSaddi 50 46 < 16 := by decide
theorem wit_salu_sra : Issues (engOn EngId.blend 13 (wSalu 7) gSra) 0 EngId.blend 13 (wSalu 7) [(51, 5), (46, 5), (41, 5), (16, 4)] ∧
    bits (wSalu 7) 55 51 < 16 ∧ bits (wSalu 7) 50 46 < 16 ∧ bits (wSalu 7) 45 41 < 16 ∧
    xMin = ((engOn EngId.blend 13 (wSalu 7) gSra).engine 0 EngId.blend).s' (bits (wSalu 7) 50 46) ∧
    x33 = ((engOn EngId.blend 13 (wSalu 7) gSra).engine 0 EngId.blend).s' (bits (wSalu 7) 45 41) ∧ (bits (wSalu 7) 19 16 = 0 ∧
    xSra = xMin + x33 ∨ bits (wSalu 7) 19 16 = 1 ∧ xSra = xMin - x33 ∨ bits (wSalu 7) 19 16 = 2 ∧
    xSra = xMin &&& x33 ∨ bits (wSalu 7) 19 16 = 3 ∧ xSra = xMin ||| x33 ∨ bits (wSalu 7) 19 16 = 4 ∧
    xSra = xMin ^^^ x33 ∨ bits (wSalu 7) 19 16 = 5 ∧ xSra = xMin <<< (BitVec.toNat x33 % 32) ∨ bits (wSalu 7) 19 16 = 6 ∧
    xSra = xMin >>> (BitVec.toNat x33 % 32) ∨ bits (wSalu 7) 19 16 = 7 ∧
    xSra = BitVec.sshiftRight xMin (BitVec.toNat x33 % 32) ∨ bits (wSalu 7) 19 16 = 8 ∧ xSra = xMin * x33 ∨ (bits (wSalu 7) 19 16 = 9 ∧
    xSra = if BitVec.toInt xMin < BitVec.toInt x33 then xMin else x33) ∨ bits (wSalu 7) 19 16 = 10 ∧
    xSra = if BitVec.toInt xMin < BitVec.toInt x33 then x33 else xMin) := by decide
theorem wit_salu_max : Issues (engOn EngId.blend 13 (wSalu 10) gMax) 0 EngId.blend 13 (wSalu 10) [(51, 5), (46, 5), (41, 5), (16, 4)] ∧
    bits (wSalu 10) 55 51 < 16 ∧ bits (wSalu 10) 50 46 < 16 ∧ bits (wSalu 10) 45 41 < 16 ∧
    xOnes = ((engOn EngId.blend 13 (wSalu 10) gMax).engine 0 EngId.blend).s' (bits (wSalu 10) 50 46) ∧
    x1 = ((engOn EngId.blend 13 (wSalu 10) gMax).engine 0 EngId.blend).s' (bits (wSalu 10) 45 41) ∧ (bits (wSalu 10) 19 16 = 0 ∧
    x1 = xOnes + x1 ∨ bits (wSalu 10) 19 16 = 1 ∧ x1 = xOnes - x1 ∨ bits (wSalu 10) 19 16 = 2 ∧
    x1 = xOnes &&& x1 ∨ bits (wSalu 10) 19 16 = 3 ∧ x1 = xOnes ||| x1 ∨ bits (wSalu 10) 19 16 = 4 ∧
    x1 = xOnes ^^^ x1 ∨ bits (wSalu 10) 19 16 = 5 ∧ x1 = xOnes <<< (BitVec.toNat x1 % 32) ∨ bits (wSalu 10) 19 16 = 6 ∧
    x1 = xOnes >>> (BitVec.toNat x1 % 32) ∨ bits (wSalu 10) 19 16 = 7 ∧
    x1 = BitVec.sshiftRight xOnes (BitVec.toNat x1 % 32) ∨ bits (wSalu 10) 19 16 = 8 ∧ x1 = xOnes * x1 ∨ (bits (wSalu 10) 19 16 = 9 ∧
    x1 = if BitVec.toInt xOnes < BitVec.toInt x1 then xOnes else x1) ∨ bits (wSalu 10) 19 16 = 10 ∧
    x1 = if BitVec.toInt xOnes < BitVec.toInt x1 then x1 else xOnes) := by decide
theorem wit_smov : Issues (engOn EngId.blend 15 (wSmov 16) { rmode := 4, flush := true }) 0 EngId.blend 15 (wSmov 16) [(51, 5), (46, 5)] ∧
    bits (wSmov 16) 55 51 < 16 ∧ (bits (wSmov 16) 50 46 < 8 ∧
    x12 = ((engOn EngId.blend 15 (wSmov 16) { rmode := 4, flush := true }).engine 0 EngId.blend).c' (bits (wSmov 16) 50 46) ∨ (8 ≤ bits (wSmov 16) 50 46 ∧
    bits (wSmov 16) 50 46 < 12 ∧
    x12 = match ((engOn EngId.blend 15 (wSmov 16) { rmode := 4, flush := true }).engine 0 EngId.blend).loops[bits (wSmov 16) 50 46 - 8]? with | some l => BitVec.ofNat 32 l.idx | none => 0) ∨ bits (wSmov 16) 50 46 = 12 ∧
    x12 = BitVec.ofNat 32 ((engOn EngId.blend 15 (wSmov 16) { rmode := 4, flush := true }).engine 0 EngId.blend).ctx ∨ bits (wSmov 16) 50 46 = 13 ∧
    x12 = ((engOn EngId.blend 15 (wSmov 16) { rmode := 4, flush := true }).engine 0 EngId.blend).gen ∨ bits (wSmov 16) 50 46 = 14 ∧
    x12 = ((engOn EngId.blend 15 (wSmov 16) { rmode := 4, flush := true }).engine 0 EngId.blend).chunk ∨ bits (wSmov 16) 50 46 = 15 ∧
    x12 = BitVec.setWidth 32 ((engOn EngId.blend 15 (wSmov 16) { rmode := 4, flush := true }).engine 0 EngId.blend).fstat ∨ bits (wSmov 16) 50 46 = 16 ∧
    x12 = BitVec.ofNat 32 (((engOn EngId.blend 15 (wSmov 16) { rmode := 4, flush := true }).engine 0 EngId.blend).rmode.toNat + 8 * b2n ((engOn EngId.blend 15 (wSmov 16) { rmode := 4, flush := true }).engine 0 EngId.blend).flush)) := by decide
theorem wit_smov_unlisted : Issues (eng EngId.blend 15 (wSmov 17)) 0 EngId.blend 15 (wSmov 17) [(51, 5), (46, 5)] ∧
    bits (wSmov 17) 55 51 < 16 ∧ 17 ≤ bits (wSmov 17) 50 46 := by decide
theorem wit_mode : Issues (eng EngId.blend 16 13) 0 EngId.blend 16 13 [(0, 4)] ∧ bits 13 2 0 ≤ 5 ∧
    (bits 13 2 0 = 5 → (eng EngId.blend 16 13).coll.strict = false) := by decide
theorem wit_mode_strict : Issues strict0 0 EngId.blend 16 5 [(0, 4)] ∧ bits 5 2 0 = 5 ∧ strict0.coll.strict = true := by decide
theorem wit_seed : Issues (engOn EngId.blend 17 (fw [(46, 14)]) { s := [(14, 2), (15, 1)] }) 0 EngId.blend 17 (fw [(46, 14)]) [(46, 5)] ∧
    bits (fw [(46, 14)]) 50 46 < 16 ∧ bits (fw [(46, 14)]) 50 46 % 2 = 0 := by decide
theorem wit_fclr : Issues (eng EngId.blend 18 127) 0 EngId.blend 18 127 [(0, 7)] := by decide
theorem wit_br : Issues (eng EngId.blend 2 (wBr 1)) 0 EngId.blend 2 (wBr 1) [(54, 2), (52, 2), (0, 12)] ∧ bits (wBr 1) 53 52 ≠ 3 ∧
    ((eng EngId.blend 2 (wBr 1)).engine 0 EngId.blend).inStudy (bits (wBr 1) 11 0) = true := by decide
theorem wit_br_range : Issues (eng EngId.blend 2 8) 0 EngId.blend 2 8 [(54, 2), (52, 2), (0, 12)] ∧ bits 8 53 52 ≠ 3 ∧
    ((eng EngId.blend 2 8).engine 0 EngId.blend).inStudy (bits 8 11 0) = false := by decide
theorem wit_loop_skip : Issues (eng EngId.blend 3 wLoop) 0 EngId.blend 3 wLoop [(50, 2), (45, 5), (29, 16), (0, 12)] ∧
    bits wLoop 49 45 < 16 ∧ (bits wLoop 51 50 = 0 ∧ 0 = bits wLoop 44 29 ∨ bits wLoop 51 50 = 1 ∧ bits wLoop 49 45 < 8 ∧
    0 = BitVec.toNat (((eng EngId.blend 3 wLoop).engine 0 EngId.blend).c' (bits wLoop 49 45)) ∨ bits wLoop 51 50 = 2 ∧
    0 = BitVec.toNat (((eng EngId.blend 3 wLoop).engine 0 EngId.blend).s' (bits wLoop 49 45))) ∧
    ((eng EngId.blend 3 wLoop).engine 0 EngId.blend).pc < bits wLoop 11 0 ∧
    ((eng EngId.blend 3 wLoop).engine 0 EngId.blend).inStudy (bits wLoop 11 0) = true ∧ 0 = 0 := by decide
theorem wit_loop : Issues (engOn EngId.blend 3 wLoop { s := [(15, 9)] }) 0 EngId.blend 3 wLoop [(50, 2), (45, 5), (29, 16), (0, 12)] ∧
    bits wLoop 49 45 < 16 ∧ (bits wLoop 51 50 = 0 ∧ 9 = bits wLoop 44 29 ∨ bits wLoop 51 50 = 1 ∧ bits wLoop 49 45 < 8 ∧
    9 = BitVec.toNat (((engOn EngId.blend 3 wLoop { s := [(15, 9)] }).engine 0 EngId.blend).c' (bits wLoop 49 45)) ∨ bits wLoop 51 50 = 2 ∧
    9 = BitVec.toNat (((engOn EngId.blend 3 wLoop { s := [(15, 9)] }).engine 0 EngId.blend).s' (bits wLoop 49 45))) ∧
    ((engOn EngId.blend 3 wLoop { s := [(15, 9)] }).engine 0 EngId.blend).pc < bits wLoop 11 0 ∧
    ((engOn EngId.blend 3 wLoop { s := [(15, 9)] }).engine 0 EngId.blend).inStudy (bits wLoop 11 0) = true ∧ 0 < 9 ∧
    ((engOn EngId.blend 3 wLoop { s := [(15, 9)] }).engine 0 EngId.blend).loops.length < 4 := by decide
theorem wit_loop_depth : Issues (engOn EngId.blend 3 wLoop { s := [(15, 9)], loops := full }) 0 EngId.blend 3 wLoop [(50, 2), (45, 5), (29, 16), (0, 12)] ∧
    bits wLoop 49 45 < 16 ∧ (bits wLoop 51 50 = 0 ∧ 9 = bits wLoop 44 29 ∨ bits wLoop 51 50 = 1 ∧ bits wLoop 49 45 < 8 ∧
    9 = BitVec.toNat (((engOn EngId.blend 3 wLoop { s := [(15, 9)], loops := full }).engine 0 EngId.blend).c' (bits wLoop 49 45)) ∨ bits wLoop 51 50 = 2 ∧
    9 = BitVec.toNat (((engOn EngId.blend 3 wLoop { s := [(15, 9)], loops := full }).engine 0 EngId.blend).s' (bits wLoop 49 45))) ∧
    ((engOn EngId.blend 3 wLoop { s := [(15, 9)], loops := full }).engine 0 EngId.blend).pc < bits wLoop 11 0 ∧
    ((engOn EngId.blend 3 wLoop { s := [(15, 9)], loops := full }).engine 0 EngId.blend).inStudy (bits wLoop 11 0) = true ∧ 0 < 9 ∧
    4 ≤ ((engOn EngId.blend 3 wLoop { s := [(15, 9)], loops := full }).engine 0 EngId.blend).loops.length := by decide

end A

namespace B

def tB : Used := [(51, 5), (46, 5), (41, 5), (36, 5), (31, 5), (26, 5)]
def f32 : Fmt := { width := 32, exp := 8, frac := 23, bias := 127, ieee := true, nan := true }
def f16 : Fmt := { width := 16, exp := 5, frac := 10, bias := 15, ieee := true, nan := true }
def f64 : Fmt := { width := 64, exp := 11, frac := 52, bias := 1023, ieee := true, nan := true }
def i32 : Fmt := { width := 32, int := true }
def lane (b v : Nat) : BitVec 2048 := BitVec.ofNat 2048 ((List.range (2048 / b)).foldl (fun a k => a + v * 2 ^ (b * k)) 0)
/-- V1 holds 1.0 and V2 holds 3.0 in FP32; the mode is `m`. -/
def gVec (m : BitVec 3) : Engine := { rmode := m, v := [(1, lane 32 0x3F800000), (2, lane 32 0x40400000)] }
def wVec (fa fd : Nat) : IWord := fw [(51, 31), (46, 1), (41, 2), (36, 15), (31, fa), (26, fd)]
def wFma (fd : Nat) : IWord := fw [(51, 31), (46, 1), (41, 2), (36, 2), (31, 1), (26, fd), (16, 15)]
def wSqrt : IWord := fw [(51, 31), (46, 2), (36, 15), (31, 1), (26, 1)]
def vecOn (op fa fd : Nat) (m : BitVec 3) : State := engOn .blend op (wVec fa fd) (gVec m)
def wTop : IWord := fw [(51, 31), (21, 1), (26, 0x1F800 / 32)]
def aTop : Nat := ((eng .blend 0x40 wTop).engine 0 .blend).trayAddr wTop
def wCvt (fa fd p : Nat) : IWord := fw [(51, 31), (46, 1), (36, 15), (31, fa), (26, fd), (16, p)]
def wInt (s : Nat) : IWord := fw [(51, 31), (46, 1), (41, 2), (31, 6), (26, 6), (16, s)]

theorem wit_vld : (eng EngId.blend 64 wTop).vfmt (bits wTop 25 21) = some f32 ∧ bits wTop 50 46 < 16 ∧
    trayOk (((eng EngId.blend 64 wTop).engine 0 EngId.blend).trayAddr wTop) (if f32.width = 6 then 192 else 256) = true ∧
    Issues (eng EngId.blend 64 wTop) 0 EngId.blend 64 wTop [(51, 5), (21, 5), (46, 5), (45, 1), (26, 19)] := by decide
theorem wit_vst : (engOn EngId.blend 65 wTop (gVec 0)).vfmt (bits wTop 25 21) = some f32 ∧ bits wTop 50 46 < 16 ∧
    trayOk (((engOn EngId.blend 65 wTop (gVec 0)).engine 0 EngId.blend).trayAddr wTop) (if f32.width = 6 then 192 else 256) = true ∧
    Issues (engOn EngId.blend 65 wTop (gVec 0)) 0 EngId.blend 65 wTop [(51, 5), (21, 5), (46, 5), (45, 1), (26, 19)] := by decide
theorem wit_vadd : (vecOn 66 1 1 3).vfmt (bits (wVec 1 1) 35 31) = some f32 ∧ (vecOn 66 1 1 3).vfmt (bits (wVec 1 1) 30 26) = some f32 ∧
    f32.width = f32.width ∧ (4 ≤ ((vecOn 66 1 1 3).engine 0 EngId.blend).rmode.toNat → f32.stochastic = true) ∧
    Issues (vecOn 66 1 1 3) 0 EngId.blend 66 (wVec 1 1) [(51, 5), (46, 5), (41, 5), (36, 5), (31, 5), (26, 5)] ∧
    bits (wVec 1 1) 40 36 < 16 := by decide
theorem wit_vsub : (vecOn 67 1 1 0).vfmt (bits (wVec 1 1) 35 31) = some f32 ∧ (vecOn 67 1 1 0).vfmt (bits (wVec 1 1) 30 26) = some f32 ∧
    f32.width = f32.width ∧ (4 ≤ ((vecOn 67 1 1 0).engine 0 EngId.blend).rmode.toNat → f32.stochastic = true) ∧
    Issues (vecOn 67 1 1 0) 0 EngId.blend 67 (wVec 1 1) [(51, 5), (46, 5), (41, 5), (36, 5), (31, 5), (26, 5)] ∧
    bits (wVec 1 1) 40 36 < 16 := by decide
theorem wit_vmul : (vecOn 68 2 2 5).vfmt (bits (wVec 2 2) 35 31) = some f16 ∧ (vecOn 68 2 2 5).vfmt (bits (wVec 2 2) 30 26) = some f16 ∧
    f16.width = f16.width ∧ (4 ≤ ((vecOn 68 2 2 5).engine 0 EngId.blend).rmode.toNat → f16.stochastic = true) ∧
    Issues (vecOn 68 2 2 5) 0 EngId.blend 68 (wVec 2 2) [(51, 5), (46, 5), (41, 5), (36, 5), (31, 5), (26, 5)] ∧
    bits (wVec 2 2) 40 36 < 16 := by decide
theorem wit_vfma : (engOn EngId.blend 69 (wFma 1) (gVec 2)).vfmt (bits (wFma 1) 35 31) = some f32 ∧
    (engOn EngId.blend 69 (wFma 1) (gVec 2)).vfmt (bits (wFma 1) 30 26) = some f32 ∧ f32.width = f32.width ∧
    (4 ≤ ((engOn EngId.blend 69 (wFma 1) (gVec 2)).engine 0 EngId.blend).rmode.toNat → f32.stochastic = true) ∧
    Issues (engOn EngId.blend 69 (wFma 1) (gVec 2)) 0 EngId.blend 69 (wFma 1) [(16, 4), (51, 5), (46, 5), (41, 5), (36, 5), (31, 5), (26, 5)] := by decide
theorem wit_vdiv : (vecOn 72 1 1 0).vfmt (bits (wVec 1 1) 35 31) = some f32 ∧ (vecOn 72 1 1 0).vfmt (bits (wVec 1 1) 30 26) = some f32 ∧
    f32.width = f32.width ∧ (4 ≤ ((vecOn 72 1 1 0).engine 0 EngId.blend).rmode.toNat → f32.stochastic = true) ∧
    Issues (vecOn 72 1 1 0) 0 EngId.blend 72 (wVec 1 1) [(51, 5), (46, 5), (41, 5), (36, 5), (31, 5), (26, 5)] ∧
    bits (wVec 1 1) 40 36 < 16 ∧ (vecOn 72 1 1 0).unitBusy 0 EngId.blend UnitId.div = false := by decide
theorem wit_vsqrt : (engOn EngId.blend 73 wSqrt (gVec 0)).vfmt (bits wSqrt 35 31) = some f32 ∧
    (engOn EngId.blend 73 wSqrt (gVec 0)).vfmt (bits wSqrt 30 26) = some f32 ∧ f32.width = f32.width ∧
    (4 ≤ ((engOn EngId.blend 73 wSqrt (gVec 0)).engine 0 EngId.blend).rmode.toNat → f32.stochastic = true) ∧
    Issues (engOn EngId.blend 73 wSqrt (gVec 0)) 0 EngId.blend 73 wSqrt [(51, 5), (46, 5), (36, 5), (31, 5), (26, 5)] ∧
    bits wSqrt 40 36 < 16 ∧ (engOn EngId.blend 73 wSqrt (gVec 0)).unitBusy 0 EngId.blend UnitId.div = false := by decide
theorem wit_vmin : (vecOn 70 1 1 0).vfmt (bits (wVec 1 1) 35 31) = some f32 ∧ (vecOn 70 1 1 0).vfmt (bits (wVec 1 1) 30 26) = some f32 ∧
    f32.width = f32.width ∧ bits (wVec 1 1) 40 36 < 16 ∧
    Issues (vecOn 70 1 1 0) 0 EngId.blend (if false = true then 71 else 70) (wVec 1 1) [(51, 5), (46, 5), (41, 5), (36, 5), (31, 5), (26, 5)] ∧
    bits (wVec 1 1) 35 31 = bits (wVec 1 1) 30 26 := by decide
theorem wit_vmax_into : (vecOn 71 1 6 0).vfmt (bits (wVec 1 6) 35 31) = some f32 ∧
    (vecOn 71 1 6 0).vfmt (bits (wVec 1 6) 30 26) = some i32 ∧ f32.width = i32.width ∧ bits (wVec 1 6) 40 36 < 16 ∧
    Issues (vecOn 71 1 6 0) 0 EngId.blend (if true = true then 71 else 70) (wVec 1 6) [(51, 5), (46, 5), (41, 5), (36, 5), (31, 5), (26, 5)] ∧
    bits (wVec 1 6) 35 31 ≠ bits (wVec 1 6) 30 26 ∧
    (4 ≤ ((vecOn 71 1 6 0).engine 0 EngId.blend).rmode.toNat → i32.stochastic = true) := by decide
theorem wit_vcvt_widen : (engOn EngId.blend 74 (wCvt 2 0 3) (gVec 0)).vfmt (bits (wCvt 2 0 3) 35 31) = some f16 ∧
    (engOn EngId.blend 74 (wCvt 2 0 3) (gVec 0)).vfmt (bits (wCvt 2 0 3) 30 26) = some f64 ∧ bits (wCvt 2 0 3) 40 36 < 16 ∧
    bits (wCvt 2 0 3) 17 16 < max (f16.lanes / f64.lanes) (f64.lanes / f16.lanes) ∧
    (4 ≤ ((engOn EngId.blend 74 (wCvt 2 0 3) (gVec 0)).engine 0 EngId.blend).rmode.toNat → f64.stochastic = true) ∧
    Issues (engOn EngId.blend 74 (wCvt 2 0 3) (gVec 0)) 0 EngId.blend 74 (wCvt 2 0 3) [(51, 5), (46, 5), (36, 5), (31, 5), (26, 5), (16, 2)] := by decide
theorem wit_vcvt_narrow : (engOn EngId.blend 74 (wCvt 0 2 3) (gVec 0)).vfmt (bits (wCvt 0 2 3) 35 31) = some f64 ∧
    (engOn EngId.blend 74 (wCvt 0 2 3) (gVec 0)).vfmt (bits (wCvt 0 2 3) 30 26) = some f16 ∧ bits (wCvt 0 2 3) 40 36 < 16 ∧
    bits (wCvt 0 2 3) 17 16 < max (f64.lanes / f16.lanes) (f16.lanes / f64.lanes) ∧
    (4 ≤ ((engOn EngId.blend 74 (wCvt 0 2 3) (gVec 0)).engine 0 EngId.blend).rmode.toNat → f16.stochastic = true) ∧
    Issues (engOn EngId.blend 74 (wCvt 0 2 3) (gVec 0)) 0 EngId.blend 74 (wCvt 0 2 3) [(51, 5), (46, 5), (36, 5), (31, 5), (26, 5), (16, 2)] := by decide
theorem wit_viadd_wrap : (engOn EngId.blend 75 (wInt 0) (gVec 0)).vfmt (bits (wInt 0) 35 31) = some i32 ∧
    bits (wInt 0) 30 26 = bits (wInt 0) 35 31 ∧ i32.int = true ∧
    Issues (engOn EngId.blend 75 (wInt 0) (gVec 0)) 0 EngId.blend (if false = true then 76 else 75) (wInt 0) [(51, 5), (46, 5), (41, 5), (31, 5), (26, 5), (16, 1)] ∧
    bits (wInt 0) 16 16 = 0 := by decide
theorem wit_visub_saturate : (engOn EngId.blend 76 (wInt 1) (gVec 0)).vfmt (bits (wInt 1) 35 31) = some i32 ∧
    bits (wInt 1) 30 26 = bits (wInt 1) 35 31 ∧ i32.int = true ∧
    Issues (engOn EngId.blend 76 (wInt 1) (gVec 0)) 0 EngId.blend (if true = true then 76 else 75) (wInt 1) [(51, 5), (46, 5), (41, 5), (31, 5), (26, 5), (16, 1)] ∧
    bits (wInt 1) 16 16 = 1 := by decide

end B

namespace C

def c16 : Fmt := { width := 16, exp := 5, frac := 10, bias := 15, ieee := true, nan := true }
def c32 : Fmt := { width := 32, exp := 8, frac := 23, bias := 127, ieee := true, nan := true }
def c64 : Fmt := { width := 64, exp := 11, frac := 52, bias := 1023, ieee := true, nan := true }
/-- Engine `e` issues the word with the given registers and the given bytes in the Tray. -/
def onTray (e : EngId) (op : Nat) (w : IWord) (g : Engine) (a : Nat) (b : Bytes) : State :=
  (engOn e op w g).modEasel 0 (fun x => { x with tray := putBytes 0 [] a b })
/-- A FP16 tile without a stored element, and its contents. -/
def bare : Bytes := mkTile 5 7 2 fValidx 0 0 0 []
def bareTile : Tile := { code := 2, fmt := c16, elems := List.replicate 1024 0, scales := [] }

/-- The first block-scaled format of the factory table. -/
def blockCode : Nat := 15
def blockFmt : Fmt := (fmtOf factoryFormats blockCode).getD c16
def blockBytes : Bytes := denseTile 5 7 blockCode blockFmt (List.replicate 1024 1) (List.replicate 32 127) 0 0

def wX (d f b m : Nat) : IWord := fw [(51, d), (21, f), (16, b), (0, m), (26, 64)]
def gX : Engine := { s := [(12, 9), (13, 4096), (14, 3), (15, 1)] }
def xBusy : Engine := { slots := [(3, { count := 2 ^ 32 })] }
def xaddOk : State := onTray .blend 0x61 (wX 3 2 0 0) {} 64 bare
def xaddBad : State := onTray .blend 0x61 (wX 3 1 0 0) {} 64 bare
def wBs (b f m : Nat) : IWord := wX 0 f b m
def bsfit0 : State := onTray .blend 0x68 (wBs 13 blockCode 15) gX 64 bare
def bsmax0 : State := onTray .blend 0x69 (wBs 13 blockCode 0) gX 64 blockBytes
def bsmax1 : State := onTray .blend 0x69 (wBs 13 2 1) gX 64 bare
def thdr4 : State := onTray .blend 0x6A (wBs 13 0 4) gX 64 bare

def record (k : Nat) : Bytes := toLE 32 k
def gO : Engine := { s := [(10, 2), (11, 1), (12, 256), (13, 2), (14, 1), (15, 4096)] }
def sort0 : State := onTray .order 0x40 (wX 15 6 13 1) gO 64 (record 5 ++ record 9)
def merge0 : State := onTray .order 0x41 (wX 15 6 10 0) gO 64 (record 5 ++ record 9)
def topk0 : State := onTray .order 0x42 (wX 15 6 13 0) gO 64 (record 5 ++ record 9)
def iKey : Fmt := { width := 32, int := true }

def wM (op d b f m : Nat) (g : Engine) (t : Bytes) : State := onTray .mask op (wX d f b m) g 64 t
def gM : Engine := { s := [(0, 2), (12, 9), (13, 4096), (14, 3)] }
def word4 : IWord := fw [(51, 13), (26, 64)]
def cmpctW : IWord := fw [(51, 13), (16, 12), (26, 64)]
def fsel0 : State := onTray .mask 0x40 word4 gM 64 bare
def dense0 : State := onTray .mask 0x41 word4 gM 64 bare
def cmpct0 : State := onTray .mask 0x42 cmpctW { s := [(12, 8192), (13, 4096)] } 64 bare
def fselBad : State := onTray .mask 0x40 word4 gM 64 (bare.set 0 6)
def gF : Engine := { s := [(0, 2), (1, 7), (13, 4096)] }
def filt0 : State := onTray .mask 0x43 (wX 13 6 0 4) gF 64 (record 5 ++ record 9)
def recs1 : State := onTray .mask 0x44 (fw [(51, 13), (21, 2), (16, 12), (26, 64)]) { s := [(12, 9), (13, 4096)] } 64 bare
def twrap0 : State := onTray .mask 0x45 (fw [(51, 13), (21, 2), (16, 12), (26, 64)]) { s := [(12, 9), (13, 4096)] } 64 []
def kept0 : List Bytes := [record 5]

theorem wit_xclr : 3 = bits (fw [(51, 3)]) 55 51 ∧ 3 < 4 ∧
    (eng EngId.blend 96 (fw [(51, 3)])).unitBusy 0 EngId.blend UnitId.xau = false ∧
    Issues (eng EngId.blend 96 (fw [(51, 3)])) 0 EngId.blend 96 (fw [(51, 3)]) [(51, 5)] := by decide +kernel
theorem wit_xcnt : 3 = bits (fw [(51, 3), (16, 15)]) 55 51 ∧ 3 < 4 ∧
    (engOn EngId.blend 99 (fw [(51, 3), (16, 15)]) xBusy).unitBusy 0 EngId.blend UnitId.xau = false ∧
    Issues (engOn EngId.blend 99 (fw [(51, 3), (16, 15)]) xBusy) 0 EngId.blend 99 (fw [(51, 3), (16, 15)]) [(51, 5), (16, 5)] ∧
    bits (fw [(51, 3), (16, 15)]) 20 16 < 16 := by decide +kernel
theorem wit_xst : 3 = bits (fw [(51, 3), (26, 64)]) 55 51 ∧ 3 < 4 ∧
    (eng EngId.blend 100 (fw [(51, 3), (26, 64)])).unitBusy 0 EngId.blend UnitId.xau = false ∧
    Issues (eng EngId.blend 100 (fw [(51, 3), (26, 64)])) 0 EngId.blend 100 (fw [(51, 3), (26, 64)]) [(51, 5), (46, 5), (45, 1), (26, 19)] ∧
    bits (fw [(51, 3), (26, 64)]) 50 46 < 16 ∧
    trayOk (((eng EngId.blend 100 (fw [(51, 3), (26, 64)])).engine 0 EngId.blend).trayAddr (fw [(51, 3), (26, 64)])) Config.imageBytes = true := by decide +kernel
theorem wit_xadd_full : 3 = bits (wX 3 2 0 0) 55 51 ∧ 3 < 4 ∧ bits (wX 3 2 0 0) 50 46 < 16 ∧
    fmtOf (engOn EngId.blend 97 (wX 3 2 0 0) xBusy).formats (bits (wX 3 2 0 0) 25 21) = some c16 ∧
    (16 = if c16.width = 32 then 32 else if c16.width = 16 then 16 else 8) ∧
    Issues (engOn EngId.blend 97 (wX 3 2 0 0) xBusy) 0 EngId.blend 97 (wX 3 2 0 0) [(51, 5), (21, 5), (46, 5), (45, 1), (26, 19)] ∧
    (engOn EngId.blend 97 (wX 3 2 0 0) xBusy).unitBusy 0 EngId.blend UnitId.xau = false ∧
    trayOk (((engOn EngId.blend 97 (wX 3 2 0 0) xBusy).engine 0 EngId.blend).trayAddr (wX 3 2 0 0)) 32 = true ∧
    (c16.width = 64 ∨ 2 ^ 32 ≤ (((engOn EngId.blend 97 (wX 3 2 0 0) xBusy).engine 0 EngId.blend).slot 3).count) := by decide +kernel
theorem wit_xadd : 3 = bits (wX 3 2 0 0) 55 51 ∧ 3 < 4 ∧ bits (wX 3 2 0 0) 50 46 < 16 ∧
    fmtOf xaddOk.formats (bits (wX 3 2 0 0) 25 21) = some c16 ∧ (16 = if c16.width = 32 then 32 else if c16.width = 16 then 16 else 8) ∧
    Issues xaddOk 0 EngId.blend 97 (wX 3 2 0 0) [(51, 5), (21, 5), (46, 5), (45, 1), (26, 19)] ∧
    xaddOk.unitBusy 0 EngId.blend UnitId.xau = false ∧ trayOk ((xaddOk.engine 0 EngId.blend).trayAddr (wX 3 2 0 0)) 32 = true ∧
    c16.width ≠ 64 ∧ ((xaddOk.engine 0 EngId.blend).slot 3).count < 2 ^ 32 ∧
    consume xaddOk.formats (xaddOk.easel 0) ((xaddOk.engine 0 EngId.blend).trayAddr (wX 3 2 0 0)) (some (bits (wX 3 2 0 0) 25 21)) = Use.ok bare bareTile ∧
    scalesOk c16 bareTile.scales = true := by decide +kernel
theorem wit_xadd_other_format : 3 = bits (wX 3 1 0 0) 55 51 ∧ 3 < 4 ∧ bits (wX 3 1 0 0) 50 46 < 16 ∧
    fmtOf xaddBad.formats (bits (wX 3 1 0 0) 25 21) = some c32 ∧
    (32 = if c32.width = 32 then 32 else if c32.width = 16 then 16 else 8) ∧
    Issues xaddBad 0 EngId.blend 97 (wX 3 1 0 0) [(51, 5), (21, 5), (46, 5), (45, 1), (26, 19)] ∧
    xaddBad.unitBusy 0 EngId.blend UnitId.xau = false ∧ trayOk ((xaddBad.engine 0 EngId.blend).trayAddr (wX 3 1 0 0)) 32 = true ∧
    c32.width ≠ 64 ∧ ((xaddBad.engine 0 EngId.blend).slot 3).count < 2 ^ 32 ∧
    consume xaddBad.formats (xaddBad.easel 0) ((xaddBad.engine 0 EngId.blend).trayAddr (wX 3 1 0 0)) (some (bits (wX 3 1 0 0) 25 21)) = Use.field := by decide +kernel
theorem wit_xrnd : 3 = bits (wX 3 2 12 2) 55 51 ∧ 3 < 4 ∧ bits (wX 3 2 12 2) 50 46 < 16 ∧ bits (wX 3 2 12 2) 20 16 < 16 ∧
    fmtOf (engOn EngId.blend 98 (wX 3 2 12 2) { gX with rmode := 4 }).formats (bits (wX 3 2 12 2) 25 21) = some c16 ∧ c16.width ≠ 64 ∧
    bits (wX 3 2 12 2) 0 0 = 0 ∧
    (4 ≤ ((engOn EngId.blend 98 (wX 3 2 12 2) { gX with rmode := 4 }).engine 0 EngId.blend).rmode.toNat → c16.stochastic = true) ∧
    Issues (engOn EngId.blend 98 (wX 3 2 12 2) { gX with rmode := 4 }) 0 EngId.blend 98 (wX 3 2 12 2) [(51, 5), (16, 5), (21, 5), (0, 2), (46, 5), (45, 1), (26, 19)] ∧
    (engOn EngId.blend 98 (wX 3 2 12 2) { gX with rmode := 4 }).unitBusy 0 EngId.blend UnitId.xau = false ∧
    trayOk (((engOn EngId.blend 98 (wX 3 2 12 2) { gX with rmode := 4 }).engine 0 EngId.blend).trayAddr (wX 3 2 12 2)) (denseSize c16) = true := by decide +kernel
theorem wit_xrnd_transit : 3 = bits (wX 3 2 12 1) 55 51 ∧ 3 < 4 ∧ bits (wX 3 2 12 1) 50 46 < 16 ∧ 12 = bits (wX 3 2 12 1) 20 16 ∧
    12 < 16 ∧ fmtOf (engOn EngId.blend 98 (wX 3 2 12 1) gX).formats (bits (wX 3 2 12 1) 25 21) = some c16 ∧ c16.width ≠ 64 ∧
    bits (wX 3 2 12 1) 0 0 = 1 ∧
    Issues (engOn EngId.blend 98 (wX 3 2 12 1) gX) 0 EngId.blend 98 (wX 3 2 12 1) [(51, 5), (16, 5), (21, 5), (0, 2), (46, 5), (45, 1), (26, 19)] ∧
    (engOn EngId.blend 98 (wX 3 2 12 1) gX).unitBusy 0 EngId.blend UnitId.xau = false ∧
    trayOk (((engOn EngId.blend 98 (wX 3 2 12 1) gX).engine 0 EngId.blend).trayAddr (wX 3 2 12 1)) (denseSize c16) = true ∧
    c16.block = false := by decide +kernel
theorem wit_xrnd_transit_block : 3 = bits (wX 3 blockCode 12 3) 55 51 ∧ 3 < 4 ∧ bits (wX 3 blockCode 12 3) 50 46 < 16 ∧
    12 = bits (wX 3 blockCode 12 3) 20 16 ∧ 12 < 16 ∧
    fmtOf (engOn EngId.blend 98 (wX 3 blockCode 12 3) gX).formats (bits (wX 3 blockCode 12 3) 25 21) = some blockFmt ∧
    blockFmt.width ≠ 64 ∧ bits (wX 3 blockCode 12 3) 0 0 = 1 ∧
    Issues (engOn EngId.blend 98 (wX 3 blockCode 12 3) gX) 0 EngId.blend 98 (wX 3 blockCode 12 3) [(51, 5), (16, 5), (21, 5), (0, 2), (46, 5), (45, 1), (26, 19)] ∧
    (engOn EngId.blend 98 (wX 3 blockCode 12 3) gX).unitBusy 0 EngId.blend UnitId.xau = false ∧
    trayOk (((engOn EngId.blend 98 (wX 3 blockCode 12 3) gX).engine 0 EngId.blend).trayAddr (wX 3 blockCode 12 3)) (denseSize blockFmt) = true ∧
    blockFmt.block = true ∧ 12 + 2 < 16 ∧
    trayOk (((engOn EngId.blend 98 (wX 3 blockCode 12 3) gX).engine 0 EngId.blend).sAddr (12 + 1)) 32 = true ∧
    (∀ (c : Nat), c ∈ List.map (fun x ↦ x.toNat) (((engOn EngId.blend 98 (wX 3 blockCode 12 3) gX).easel 0).read (((engOn EngId.blend 98 (wX 3 blockCode 12 3) gX).engine 0 EngId.blend).sAddr (12 + 1)) 32) → blockFmt.scaleOk c = true) := by decide +kernel
theorem wit_bsfit : bits (wBs 13 blockCode 15) 50 46 < 16 ∧ bits (wBs 13 blockCode 15) 20 16 < 16 ∧
    trayOk ((bsfit0.engine 0 EngId.blend).trayAddr (wBs 13 blockCode 15)) 32 = true ∧
    Issues bsfit0 0 EngId.blend 104 (wBs 13 blockCode 15) [(16, 5), (21, 5), (0, 4), (46, 5), (45, 1), (26, 19)] ∧
    bsfit0.unitBusy 0 EngId.blend UnitId.scale = false ∧
    trayOk ((bsfit0.engine 0 EngId.blend).sAddr (bits (wBs 13 blockCode 15) 20 16)) 32 = true ∧
    fmtOf bsfit0.formats (bits (wBs 13 blockCode 15) 25 21) = some blockFmt ∧ blockFmt.block = true ∧
    consume bsfit0.formats (bsfit0.easel 0) ((bsfit0.engine 0 EngId.blend).trayAddr (wBs 13 blockCode 15)) none = Use.ok bare bareTile ∧
    scalesOk bareTile.fmt bareTile.scales = true := by decide +kernel
theorem wit_bsmax_areas : bits (wBs 13 2 1) 50 46 < 16 ∧ bits (wBs 13 2 1) 20 16 < 16 ∧
    trayOk ((bsmax1.engine 0 EngId.blend).trayAddr (wBs 13 2 1)) 32 = true ∧
    Issues bsmax1 0 EngId.blend 105 (wBs 13 2 1) [(16, 5), (21, 5), (0, 1), (46, 5), (45, 1), (26, 19)] ∧
    bsmax1.unitBusy 0 EngId.blend UnitId.scale = false ∧
    trayOk ((bsmax1.engine 0 EngId.blend).sAddr (bits (wBs 13 2 1) 20 16)) 32 = true ∧
    fmtOf bsmax1.formats (bits (wBs 13 2 1) 25 21) = some c16 ∧ bits (wBs 13 2 1) 0 0 = 1 ∧
    (c16.block = true → ∀ (c : BitVec 8), c ∈ (bsmax1.easel 0).read ((bsmax1.engine 0 EngId.blend).trayAddr (wBs 13 2 1)) 32 ++ (bsmax1.easel 0).read ((bsmax1.engine 0 EngId.blend).sAddr (bits (wBs 13 2 1) 20 16)) 32 → c16.scaleOk c.toNat = true) := by decide +kernel
theorem wit_thdr : bits (wBs 13 0 4) 50 46 < 16 ∧ bits (wBs 13 0 4) 20 16 < 16 ∧
    trayOk ((thdr4.engine 0 EngId.blend).trayAddr (wBs 13 0 4)) 32 = true ∧
    Issues thdr4 0 EngId.blend 106 (wBs 13 0 4) [(16, 5), (0, 3), (46, 5), (45, 1), (26, 19)] ∧ (bits (wBs 13 0 4) 2 0 = 0 ∧
    0 = tTile ((thdr4.easel 0).read ((thdr4.engine 0 EngId.blend).trayAddr (wBs 13 0 4)) 32) ∨ bits (wBs 13 0 4) 2 0 = 1 ∧
    0 = tFormat ((thdr4.easel 0).read ((thdr4.engine 0 EngId.blend).trayAddr (wBs 13 0 4)) 32) ∨ bits (wBs 13 0 4) 2 0 = 2 ∧
    0 = tForm ((thdr4.easel 0).read ((thdr4.engine 0 EngId.blend).trayAddr (wBs 13 0 4)) 32) ∨ bits (wBs 13 0 4) 2 0 = 3 ∧
    0 = tPromo ((thdr4.easel 0).read ((thdr4.engine 0 EngId.blend).trayAddr (wBs 13 0 4)) 32) ∨ bits (wBs 13 0 4) 2 0 = 4 ∧
    0 = if tForm ((thdr4.easel 0).read ((thdr4.engine 0 EngId.blend).trayAddr (wBs 13 0 4)) 32) = fValidx then tCount ((thdr4.easel 0).read ((thdr4.engine 0 EngId.blend).trayAddr (wBs 13 0 4)) 32) else 1024) := by decide +kernel
theorem wit_sort : bits (wX 15 6 13 1) 50 46 < 16 ∧ 13 = bits (wX 15 6 13 1) 20 16 ∧ 13 < 16 ∧ bits (wX 15 6 13 1) 55 51 < 16 ∧
    sort0.keyFmt (bits (wX 15 6 13 1) 25 21) = some iKey ∧ sort0.unitBusy 0 EngId.order UnitId.order = false ∧
    trayOk ((sort0.engine 0 EngId.order).trayAddr (wX 15 6 13 1)) (32 * BitVec.toNat ((sort0.engine 0 EngId.order).s' 13)) = true ∧
    Issues sort0 0 EngId.order 64 (wX 15 6 13 1) [(51, 5), (16, 5), (21, 5), (0, 1), (46, 5), (45, 1), (26, 19)] ∧
    BitVec.toNat ((sort0.engine 0 EngId.order).s' 13) ≤ 8192 ∧
    trayOk ((sort0.engine 0 EngId.order).sAddr (bits (wX 15 6 13 1) 55 51)) (32 * BitVec.toNat ((sort0.engine 0 EngId.order).s' 13)) = true ∧
    areasOk ((sort0.engine 0 EngId.order).sAddr (bits (wX 15 6 13 1) 55 51)) (32 * BitVec.toNat ((sort0.engine 0 EngId.order).s' 13)) [((sort0.engine 0 EngId.order).trayAddr (wX 15 6 13 1), 32 * BitVec.toNat ((sort0.engine 0 EngId.order).s' 13))] = true := by decide +kernel
theorem wit_merge : bits (wX 15 6 10 0) 50 46 < 16 ∧ 10 = bits (wX 15 6 10 0) 20 16 ∧ 10 < 16 ∧ bits (wX 15 6 10 0) 55 51 < 16 ∧
    merge0.keyFmt (bits (wX 15 6 10 0) 25 21) = some iKey ∧ merge0.unitBusy 0 EngId.order UnitId.order = false ∧
    trayOk ((merge0.engine 0 EngId.order).trayAddr (wX 15 6 10 0)) (32 * BitVec.toNat ((merge0.engine 0 EngId.order).s' 10)) = true ∧
    Issues merge0 0 EngId.order 65 (wX 15 6 10 0) [(51, 5), (16, 5), (21, 5), (0, 1), (46, 5), (45, 1), (26, 19)] ∧ 10 + 2 < 16 ∧
    1 = BitVec.toNat ((merge0.engine 0 EngId.order).s' (10 + 1)) ∧ BitVec.toNat ((merge0.engine 0 EngId.order).s' 10) + 1 ≤ 8192 ∧
    trayOk ((merge0.engine 0 EngId.order).sAddr (10 + 2)) (32 * 1) = true ∧
    trayOk ((merge0.engine 0 EngId.order).sAddr (bits (wX 15 6 10 0) 55 51)) (32 * (BitVec.toNat ((merge0.engine 0 EngId.order).s' 10) + 1)) = true ∧
    areasOk ((merge0.engine 0 EngId.order).sAddr (bits (wX 15 6 10 0) 55 51)) (32 * (BitVec.toNat ((merge0.engine 0 EngId.order).s' 10) + 1)) [((merge0.engine 0 EngId.order).trayAddr (wX 15 6 10 0), 32 * BitVec.toNat ((merge0.engine 0 EngId.order).s' 10)), ((merge0.engine 0 EngId.order).sAddr (10 + 2), 32 * 1)] = true := by decide +kernel
theorem wit_topk : bits (wX 15 6 13 0) 50 46 < 16 ∧ 13 = bits (wX 15 6 13 0) 20 16 ∧ 13 < 16 ∧ bits (wX 15 6 13 0) 55 51 < 16 ∧
    topk0.keyFmt (bits (wX 15 6 13 0) 25 21) = some iKey ∧ topk0.unitBusy 0 EngId.order UnitId.order = false ∧
    trayOk ((topk0.engine 0 EngId.order).trayAddr (wX 15 6 13 0)) (32 * BitVec.toNat ((topk0.engine 0 EngId.order).s' 13)) = true ∧
    Issues topk0 0 EngId.order 66 (wX 15 6 13 0) [(51, 5), (16, 5), (21, 5), (0, 1), (46, 5), (45, 1), (26, 19)] ∧ 13 + 1 < 16 ∧
    1 = BitVec.toNat ((topk0.engine 0 EngId.order).s' (13 + 1)) ∧ BitVec.toNat ((topk0.engine 0 EngId.order).s' 13) ≤ 8192 ∧ 0 < 1 ∧
    1 ≤ BitVec.toNat ((topk0.engine 0 EngId.order).s' 13) ∧ 1 ≤ 1024 ∧
    trayOk ((topk0.engine 0 EngId.order).sAddr (bits (wX 15 6 13 0) 55 51)) (32 * 1) = true := by decide +kernel
theorem wit_fsel : bits word4 50 46 < 16 ∧ bits word4 55 51 < 16 ∧ fsel0.unitBusy 0 EngId.mask UnitId.mask = false ∧
    trayOk ((fsel0.engine 0 EngId.mask).trayAddr word4) 32 = true ∧
    trayOk ((fsel0.engine 0 EngId.mask).sAddr (bits word4 55 51)) 32 = true ∧
    consume fsel0.formats (fsel0.easel 0) ((fsel0.engine 0 EngId.mask).trayAddr word4) none = Use.ok bare bareTile ∧
    Issues fsel0 0 EngId.mask 64 word4 [(51, 5), (46, 5), (45, 1), (26, 19)] ∧
    trayOk ((fsel0.engine 0 EngId.mask).sAddr (bits word4 55 51)) (List.length (smallestForm bare bareTile)) = true := by decide +kernel
theorem wit_dense : bits word4 50 46 < 16 ∧ bits word4 55 51 < 16 ∧ dense0.unitBusy 0 EngId.mask UnitId.mask = false ∧
    trayOk ((dense0.engine 0 EngId.mask).trayAddr word4) 32 = true ∧
    trayOk ((dense0.engine 0 EngId.mask).sAddr (bits word4 55 51)) 32 = true ∧
    consume dense0.formats (dense0.easel 0) ((dense0.engine 0 EngId.mask).trayAddr word4) none = Use.ok bare bareTile ∧
    Issues dense0 0 EngId.mask 65 word4 [(51, 5), (46, 5), (45, 1), (26, 19)] ∧
    trayOk ((dense0.engine 0 EngId.mask).sAddr (bits word4 55 51)) (List.length (asDense bare bareTile)) = true := by decide +kernel
theorem wit_cmpct : bits cmpctW 50 46 < 16 ∧ bits cmpctW 55 51 < 16 ∧ cmpct0.unitBusy 0 EngId.mask UnitId.mask = false ∧
    trayOk ((cmpct0.engine 0 EngId.mask).trayAddr cmpctW) 32 = true ∧
    trayOk ((cmpct0.engine 0 EngId.mask).sAddr (bits cmpctW 55 51)) 32 = true ∧
    consume cmpct0.formats (cmpct0.easel 0) ((cmpct0.engine 0 EngId.mask).trayAddr cmpctW) none = Use.ok bare bareTile ∧
    Issues cmpct0 0 EngId.mask 66 cmpctW [(51, 5), (16, 5), (46, 5), (45, 1), (26, 19)] ∧ bits cmpctW 20 16 < 16 ∧
    trayOk ((cmpct0.engine 0 EngId.mask).sAddr (bits cmpctW 20 16)) 128 = true ∧
    trayOk ((cmpct0.engine 0 EngId.mask).sAddr (bits cmpctW 55 51)) (List.length (compact bare bareTile (le ((cmpct0.easel 0).read ((cmpct0.engine 0 EngId.mask).sAddr (bits cmpctW 20 16)) 128)))) = true := by decide +kernel
theorem wit_fsel_check : bits word4 50 46 < 16 ∧ bits word4 55 51 < 16 ∧ fselBad.unitBusy 0 EngId.mask UnitId.mask = false ∧
    trayOk ((fselBad.engine 0 EngId.mask).trayAddr word4) 32 = true ∧
    trayOk ((fselBad.engine 0 EngId.mask).sAddr (bits word4 55 51)) 32 = true ∧
    Issues fselBad 0 EngId.mask 64 word4 [(51, 5), (46, 5), (45, 1), (26, 19)] ∧
    consume fselBad.formats (fselBad.easel 0) ((fselBad.engine 0 EngId.mask).trayAddr word4) none = Use.check := by decide +kernel
theorem wit_filt : bits (wX 13 6 0 4) 50 46 < 16 ∧ bits (wX 13 6 0 4) 55 51 < 16 ∧ 0 = bits (wX 13 6 0 4) 20 16 ∧ 0 < 16 ∧
    filt0.unitBusy 0 EngId.mask UnitId.mask = false ∧
    Issues filt0 0 EngId.mask 67 (wX 13 6 0 4) [(51, 5), (16, 5), (21, 5), (0, 3), (46, 5), (45, 1), (26, 19)] ∧
    filt0.keyFmt (bits (wX 13 6 0 4) 25 21) = some iKey ∧ 0 + 2 < 16 ∧ bits (wX 13 6 0 4) 55 51 + 1 < 16 ∧ bits (wX 13 6 0 4) 2 0 ≤ 5 ∧
    BitVec.toNat ((filt0.engine 0 EngId.mask).s' 0) ≤ 8192 ∧
    trayOk ((filt0.engine 0 EngId.mask).trayAddr (wX 13 6 0 4)) (32 * BitVec.toNat ((filt0.engine 0 EngId.mask).s' 0)) = true ∧
    (trayOk ((filt0.engine 0 EngId.mask).sAddr (bits (wX 13 6 0 4) 55 51)) (32 * (List.filter (fun r ↦ keyIn (bits (wX 13 6 0 4) 2 0) (keyCmp false (recKey iKey r) (iKey.value (BitVec.toNat ((filt0.engine 0 EngId.mask).pair (0 + 1)))))) ((filt0.easel 0).records ((filt0.engine 0 EngId.mask).trayAddr (wX 13 6 0 4)) (BitVec.toNat ((filt0.engine 0 EngId.mask).s' 0)))).length) = true) := by decide +kernel
theorem wit_recs : bits (fw [(51, 13), (21, 2), (16, 12), (26, 64)]) 50 46 < 16 ∧
    bits (fw [(51, 13), (21, 2), (16, 12), (26, 64)]) 55 51 < 16 ∧ 12 = bits (fw [(51, 13), (21, 2), (16, 12), (26, 64)]) 20 16 ∧
    12 < 16 ∧ recs1.unitBusy 0 EngId.mask UnitId.mask = false ∧
    Issues recs1 0 EngId.mask 68 (fw [(51, 13), (21, 2), (16, 12), (26, 64)]) [(51, 5), (16, 5), (21, 5), (46, 5), (45, 1), (26, 19)] ∧
    recs1.keyFmt (bits (fw [(51, 13), (21, 2), (16, 12), (26, 64)]) 25 21) = some c16 ∧ 12 + 1 < 16 ∧
    trayOk ((recs1.engine 0 EngId.mask).trayAddr (fw [(51, 13), (21, 2), (16, 12), (26, 64)])) 32 = true ∧
    trayOk ((recs1.engine 0 EngId.mask).sAddr (bits (fw [(51, 13), (21, 2), (16, 12), (26, 64)]) 55 51)) 32768 = true ∧
    consume recs1.formats (recs1.easel 0) ((recs1.engine 0 EngId.mask).trayAddr (fw [(51, 13), (21, 2), (16, 12), (26, 64)])) (some (bits (fw [(51, 13), (21, 2), (16, 12), (26, 64)]) 25 21)) = Use.ok bare bareTile := by decide +kernel
theorem wit_twrap : bits (fw [(51, 13), (21, 2), (16, 12), (26, 64)]) 50 46 < 16 ∧
    bits (fw [(51, 13), (21, 2), (16, 12), (26, 64)]) 55 51 < 16 ∧ 12 = bits (fw [(51, 13), (21, 2), (16, 12), (26, 64)]) 20 16 ∧
    12 < 16 ∧ twrap0.unitBusy 0 EngId.mask UnitId.mask = false ∧
    Issues twrap0 0 EngId.mask 69 (fw [(51, 13), (21, 2), (16, 12), (26, 64)]) [(51, 5), (16, 5), (21, 5), (46, 5), (45, 1), (26, 19)] ∧
    fmtOf twrap0.formats (bits (fw [(51, 13), (21, 2), (16, 12), (26, 64)]) 25 21) = some c16 ∧
    (trayOk ((twrap0.engine 0 EngId.mask).trayAddr (fw [(51, 13), (21, 2), (16, 12), (26, 64)])) (128 * c16.width + if c16.block = true then 32 else 0) = true) ∧
    trayOk ((twrap0.engine 0 EngId.mask).sAddr (bits (fw [(51, 13), (21, 2), (16, 12), (26, 64)]) 55 51)) (denseSize c16) = true ∧
    (scalesOk c16 (if c16.block = true then List.map (fun x ↦ x.toNat) ((twrap0.easel 0).read ((twrap0.engine 0 EngId.mask).trayAddr (fw [(51, 13), (21, 2), (16, 12), (26, 64)]) + 128 * c16.width) 32) else []) = true) := by decide +kernel

def blockBody : Bytes := pack blockFmt.width (List.replicate 1024 1) ++ (List.replicate 32 127).map (BitVec.ofNat 8)
theorem block_body : blockBody.length = 544 := by decide +kernel
theorem block_length : blockBytes.length = 576 := by decide +kernel
def aTile : Nat := (bsmax0.engine 0 .blend).trayAddr (wBs 13 blockCode 0)
def aMax : Nat := (bsmax0.engine 0 .blend).sAddr (bits (wBs 13 blockCode 0) 20 16)
theorem onTray_read (e : EngId) (op : Nat) (w : IWord) (g : Engine) (a : Nat) (b : Bytes) :
    ((onTray e op w g a b).easel 0).read a b.length = b :=
  Easel.read_putBytes _ [] a b rfl (by simp [onTray, State.modEasel, State.easel])
theorem block_reads : (bsmax0.easel 0).read aTile (32 * 18) = blockBytes := by
  rw [show aTile = 64 by decide +kernel, show 32 * 18 = blockBytes.length by rw [block_length]]
  exact onTray_read ..
theorem block_beyond : (bsmax0.easel 0).read aMax 32 = zeros 32 := by
  have h : (bsmax0.easel 0).tray = putBytes 0 [] 64 blockBytes := by simp [bsmax0, onTray, State.modEasel, State.easel]
  apply List.ext_getElem
  · simp [Easel.read, zeros]
  · intro i h1 _
    simp only [Easel.read, h, List.getElem_map, List.getElem_range, zeros, List.getElem_replicate]
    rw [tget_putBytes_of_not 64 blockBytes _ rfl (.inr (by rw [block_length, show aMax = 4096 by decide +kernel]; omega))]
    rfl
theorem block_check : tileCheckOk blockBytes = true :=
  tileCheckOk_mkTile 5 7 blockCode fBlock 0 0 0 blockBody (by decide +kernel) (by decide +kernel)
def blockTile : Tile := (tileElems blockFmt blockBytes).getD bareTile
theorem block_tile : tileElems blockFmt blockBytes = some blockTile := by
  unfold blockTile
  cases h : tileElems blockFmt blockBytes with
  | some t => rfl
  | none => exact absurd (congrArg Option.isSome h) (by decide +kernel)
theorem wit_bsmax_tile : (bits (wBs 13 blockCode 0) 50 46 < 16 ∧ bits (wBs 13 blockCode 0) 20 16 < 16 ∧ trayOk aTile 32 = true ∧
    Issues bsmax0 0 .blend 0x69 (wBs 13 blockCode 0) [(16, 5), (21, 5), (0, 1), (46, 5), (45, 1), (26, 19)] ∧
    bsmax0.unitBusy 0 .blend .scale = false ∧ trayOk aMax 32 = true ∧
    fmtOf bsmax0.formats (bits (wBs 13 blockCode 0) 25 21) = some blockFmt ∧ bits (wBs 13 blockCode 0) 0 0 = 0 ∧ blockFmt.block = true ∧
    scalesOk blockFmt (blockTile.scales ++ ((bsmax0.easel 0).read aMax 32).map (·.toNat)) = true) ∧
    consume bsmax0.formats (bsmax0.easel 0) aTile (some (bits (wBs 13 blockCode 0) 25 21)) = .ok blockBytes blockTile :=
  ⟨by rw [block_beyond]; decide +kernel, by
    have hl : tLength ((bsmax0.easel 0).read aTile 32) = 18 := by
      rw [Easel.read_take _ aTile 32 (32 * 18) (by decide), block_reads, tLength_take]
      obtain ⟨_, _, _, h⟩ := mkTile_eq 5 7 blockCode fBlock 0 0 0 blockBody
      exact h.trans (by rw [block_body])
    exact consume_ok hl (by decide +kernel) block_reads block_check (by decide +kernel) (by decide +kernel) block_tile⟩

/-- XLD finds the image of the cleared slot in the Tray. -/
def wXld : IWord := fw [(51, 3), (26, 64)]
def aXld : Nat := ((eng .blend 0x65 wXld).engine 0 .blend).trayAddr wXld
def xldOk : State := onTray .blend 0x65 wXld {} aXld (imageOf {})
theorem xld_reads : (xldOk.easel 0).read aXld Config.imageBytes = imageOf {} := by
  rw [← length_imageOf {} (by decide +kernel)]
  exact onTray_read ..
theorem wit_xld : Issues xldOk 0 .blend 0x65 wXld [(51, 5), (46, 5), (45, 1), (26, 19)] ∧ xldOk.unitBusy 0 .blend .xau = false ∧
    bits wXld 55 51 < 4 ∧ bits wXld 50 46 < 16 ∧ trayOk aXld Config.imageBytes = true ∧
    ∃ x, slotOfImage ((xldOk.easel 0).read aXld Config.imageBytes) = some x :=
  ⟨by decide +kernel, by decide +kernel, by decide +kernel, by decide +kernel, by decide +kernel, by
    rw [xld_reads]; exact Option.isSome_iff_exists.mp (slotOfImage_imageOf {})⟩

/-- The same image with another CHECK. -/
def recs0 : Bytes := (({} : Slot).all).flatMap laneBytes
def badCheck : Nat := if crc32c (zeros 60 ++ recs0) = 0 then 1 else 0
def xldBad : State := onTray .blend 0x65 wXld {} aXld (zeros 60 ++ (toLE 4 badCheck ++ recs0))
theorem xld_bad_reads : (xldBad.easel 0).read aXld Config.imageBytes = zeros 60 ++ (toLE 4 badCheck ++ recs0) := by
  have h : (zeros 60 ++ (toLE 4 badCheck ++ recs0)).length = Config.imageBytes := by
    have := length_imageOf {} (by decide +kernel)
    simp only [imageOf, List.length_append, length_toLE, zeros, List.length_replicate, recs0] at this ⊢
    omega
  rw [← h]
  exact onTray_read ..
theorem wit_xld_bad : Issues xldBad 0 .blend 0x65 wXld [(51, 5), (46, 5), (45, 1), (26, 19)] ∧ xldBad.unitBusy 0 .blend .xau = false ∧
    bits wXld 55 51 < 4 ∧ bits wXld 50 46 < 16 ∧ trayOk aXld Config.imageBytes = true ∧
    slotOfImage ((xldBad.easel 0).read aXld Config.imageBytes) = none :=
  ⟨by decide +kernel, by decide +kernel, by decide +kernel, by decide +kernel, by decide +kernel, by
    rw [xld_bad_reads]
    refine slotOfImage_none _ _ _ (by decide) ?_ ?_ <;> unfold badCheck <;> split <;> omega⟩

end C

namespace D

def wWait : IWord := fw [(51, 31), (43, 255)]
def wPair : IWord := fw [(30, 14)]
def wPush : IWord := fw [(40, 4), (30, 14)]
def wSig (scope : Nat) : IWord := fw [(51, 31), (43, 255), (38, scope)]
def grouped : State := { eng .blend 5 (wSig 2) with coll := { (eng .blend 5 (wSig 2)).coll with groups := [⟨0, 1, [1]⟩] } }
def endLeft : State := (engOn .blend 1 0 { test := true }).modEasel 0 (fun x => { x with sems := [(3, 1)], serving := [⟨0, 0, [.blend], [.blend]⟩] })
def wRecv : IWord := fw [(51, 14), (26, 64)]
def tile1 : InTile := { bytes := zeros 32, ctx := 0, gen := 0, chunk := 0, from' := 0, src := 0, vc := 2, cells := 1 }
def staged : State := (eng .intake 0x40 wRecv).modEasel 0 (fun x => { x with stage := [tile1] })
def wSend : IWord := fw [(16, 15), (11, 31), (26, 64)]
def out1 : OutTile := { bytes := zeros 32, sel := 0, sem := 0, ctx := 0, gen := 0, chunk := 0, test := false, pc := 0 }
def sendFull : State := (eng .outlet 0x40 wSend).modEasel 0 (fun x => { x with egress := List.replicate 8 out1 })
def sendOk : State := (eng .outlet 0x40 wSend).modEasel 0 (fun x => { x with egress := List.replicate 7 out1, tray := [(64 + 12, 1)] })
def wMem (b m : Nat) : IWord := fw [(51, 13), (16, b), (11, 31), (0, m), (26, 64)]
def gMem : Engine := { s := [(2, 8192), (13, 64), (14, 32)] }
def rows0 : Engine := { s := [(2, 8192), (13, 1), (15, 8192)] }
def ctx0 : Ctx := { sketchBase := 0, mib := 1 }
/-- A binding of two rows of one unit at address 0x100. -/
def bound : Binding := { raw := toLE 8 0x100 ++ toLE 4 2 ++ toLE 1 1 ++ zeros 19, st := 1 }
def withMem (s : State) : State := { s with coll := { s.coll with ctxs := [(0, ctx0)], bindings := [(15, bound)] } }
def load0 : State := withMem (engOn .intake 0x41 (wMem 14 1) gMem)
def gather0 : State := withMem (engOn .intake 0x42 (wMem 15 15) rows0)
def store0 : State := withMem (engOn .outlet 0x41 (wMem 14 0) gMem)
def scatter0 : State := withMem (engOn .outlet 0x42 (wMem 0 15) rows0)
def anOp (k : MemKind) : MemOp := { id := 3, kind := k, eng := if k = .load || k = .gather then .intake else .outlet, pc := 4, sem := 31, check := false, tray := 64, len := 32, todo := [], data := [], ctx := 0, gen := 0, chunk := 0, issued := 7 }
def busyMem : State := load0.modEasel 0 (fun x => { x with ops := List.replicate 8 (anOp .load) })
def loading : MemOp := { anOp .gather with todo := [(0, 64)] }
/-- A LOAD that verifies the tile at 0x100, which is sound, and one that finds 32 zero bytes there. -/
def verifying : MemOp := { anOp .load with check := true, todo := [(0x100, 64)] }
def soundTile : State := { run0.modEasel 0 (fun x => { x with ops := [verifying] }) with mem := run0.mem.write 0x100 C.bare }
def storing : MemOp := { anOp .store with data := [(0x100, List.replicate 32 9)] }
def opOn (o : MemOp) : State := run0.modEasel 0 (fun x => { x with ops := [o] })

theorem wit_wait : Issues (eng EngId.blend 4 wWait) 0 EngId.blend 4 wWait [(51, 5), (43, 8)] ∧ bits wWait 50 43 ≠ 0 := by decide +kernel
theorem wit_take : Issues (eng EngId.blend 7 wPair) 0 EngId.blend 7 wPair [(30, 4)] ∧ bits wPair 33 30 % 2 = 0 := by decide +kernel
theorem wit_push : Issues (engOn EngId.blend 6 wPush { s := [(14, 1), (15, 2)] }) 0 EngId.blend 6 wPush [(40, 3), (30, 4)] ∧
    bits wPush 33 30 % 2 = 0 ∧ bits wPush 42 40 = EngId.outlet.id ∧ EngId.outlet ≠ EngId.blend ∧
    (engOn EngId.blend 6 wPush { s := [(14, 1), (15, 2)] }).hasEngine EngId.outlet = true := by decide +kernel
theorem wit_signal : Issues (eng EngId.blend 5 (wSig 0)) 0 EngId.blend 5 (wSig 0) [(51, 5), (43, 8), (38, 2), (35, 3)] ∧
    bits (wSig 0) 50 43 ≠ 0 ∧ bits (wSig 0) 39 38 = 0 ∧ bits (wSig 0) 37 35 = 0 := by decide +kernel
theorem wit_signal_group : Issues grouped 0 EngId.blend 5 (wSig 2) [(51, 5), (43, 8), (38, 2), (35, 3)] ∧ bits (wSig 2) 50 43 ≠ 0 ∧
    (bits (wSig 2) 39 38 = 1 ∨ bits (wSig 2) 39 38 = 2) ∧
    grouped.signalTargets 0 (bits (wSig 2) 39 38) (bits (wSig 2) 37 35) = some [0, 1] := by decide +kernel
theorem wit_end_unbalanced : Issues endLeft 0 EngId.blend 1 0 [] ∧
    (List.filter (fun v ↦ !endLeft.servingDone 0 v) (if (endLeft.engine 0 EngId.blend).test = true then (endLeft.easel 0).serving else endLeft.noteEnd 0 EngId.blend (endLeft.engine 0 EngId.blend)) = [] ∧
    (∃ v, (v ∈ if (endLeft.engine 0 EngId.blend).test = true then (endLeft.easel 0).serving else endLeft.noteEnd 0 EngId.blend (endLeft.engine 0 EngId.blend)) ∧
    endLeft.servingDone 0 v = true) ∧ endLeft.semLeft 0 = true) := by decide +kernel
theorem wit_end_study : Issues (eng EngId.blend 1 0) 0 EngId.blend 1 0 [] ∧
    (¬(List.filter (fun v ↦ !(eng EngId.blend 1 0).servingDone 0 v) (if ((eng EngId.blend 1 0).engine 0 EngId.blend).test = true then ((eng EngId.blend 1 0).easel 0).serving else (eng EngId.blend 1 0).noteEnd 0 EngId.blend ((eng EngId.blend 1 0).engine 0 EngId.blend)) = [] ∧
    (∃ v, (v ∈ if ((eng EngId.blend 1 0).engine 0 EngId.blend).test = true then ((eng EngId.blend 1 0).easel 0).serving else (eng EngId.blend 1 0).noteEnd 0 EngId.blend ((eng EngId.blend 1 0).engine 0 EngId.blend)) ∧
    (eng EngId.blend 1 0).servingDone 0 v = true) ∧ (eng EngId.blend 1 0).semLeft 0 = true)) := by decide +kernel
theorem wit_recv_empty : bits wRecv 50 46 < 16 ∧ bits wRecv 55 51 < 16 ∧ bits wRecv 55 51 % 2 = 0 ∧
    (eng EngId.intake 64 wRecv).unitBusy 0 EngId.intake UnitId.rx = false ∧
    Issues (eng EngId.intake 64 wRecv) 0 EngId.intake 64 wRecv [(51, 5), (46, 5), (45, 1), (26, 19)] ∧
    ((eng EngId.intake 64 wRecv).easel 0).stage = [] := by decide +kernel
theorem wit_recv : bits wRecv 50 46 < 16 ∧ bits wRecv 55 51 < 16 ∧ bits wRecv 55 51 % 2 = 0 ∧
    staged.unitBusy 0 EngId.intake UnitId.rx = false ∧ Issues staged 0 EngId.intake 64 wRecv [(51, 5), (46, 5), (45, 1), (26, 19)] ∧
    (staged.easel 0).stage = [tile1] ∧
    trayOk ((staged.engine 0 EngId.intake).trayAddr wRecv) (List.length tile1.bytes) = true := by decide +kernel
theorem wit_send_full : bits wSend 50 46 < 16 ∧ bits wSend 20 16 < 16 ∧ sendFull.unitBusy 0 EngId.outlet UnitId.tx = false ∧
    Issues sendFull 0 EngId.outlet 64 wSend [(16, 5), (11, 5), (46, 5), (45, 1), (26, 19)] ∧
    8 ≤ (sendFull.easel 0).egress.length := by decide +kernel
theorem wit_send_length : bits wSend 50 46 < 16 ∧ bits wSend 20 16 < 16 ∧
    (eng EngId.outlet 64 wSend).unitBusy 0 EngId.outlet UnitId.tx = false ∧
    Issues (eng EngId.outlet 64 wSend) 0 EngId.outlet 64 wSend [(16, 5), (11, 5), (46, 5), (45, 1), (26, 19)] ∧
    ((eng EngId.outlet 64 wSend).easel 0).egress.length < 8 ∧
    trayOk (((eng EngId.outlet 64 wSend).engine 0 EngId.outlet).trayAddr wSend) 32 = true ∧
    (tLength (((eng EngId.outlet 64 wSend).easel 0).read (((eng EngId.outlet 64 wSend).engine 0 EngId.outlet).trayAddr wSend) 32) = 0 ∨ 257 < tLength (((eng EngId.outlet 64 wSend).easel 0).read (((eng EngId.outlet 64 wSend).engine 0 EngId.outlet).trayAddr wSend) 32) ∨ Config.trayBytes < ((eng EngId.outlet 64 wSend).engine 0 EngId.outlet).trayAddr wSend + 32 * tLength (((eng EngId.outlet 64 wSend).easel 0).read (((eng EngId.outlet 64 wSend).engine 0 EngId.outlet).trayAddr wSend) 32)) := by decide +kernel
theorem wit_send : bits wSend 50 46 < 16 ∧ bits wSend 20 16 < 16 ∧ sendOk.unitBusy 0 EngId.outlet UnitId.tx = false ∧
    Issues sendOk 0 EngId.outlet 64 wSend [(16, 5), (11, 5), (46, 5), (45, 1), (26, 19)] ∧ (sendOk.easel 0).egress.length < 8 ∧
    trayOk ((sendOk.engine 0 EngId.outlet).trayAddr wSend) 32 = true ∧
    1 ≤ tLength ((sendOk.easel 0).read ((sendOk.engine 0 EngId.outlet).trayAddr wSend) 32) ∧
    tLength ((sendOk.easel 0).read ((sendOk.engine 0 EngId.outlet).trayAddr wSend) 32) ≤ 257 ∧
    (sendOk.engine 0 EngId.outlet).trayAddr wSend + 32 * tLength ((sendOk.easel 0).read ((sendOk.engine 0 EngId.outlet).trayAddr wSend) 32) ≤ Config.trayBytes := by decide +kernel
theorem wit_load : bits (wMem 14 1) 50 46 < 16 ∧ 14 = bits (wMem 14 1) 20 16 ∧ bits (wMem 14 1) 55 51 < 16 ∧
    64 = BitVec.toNat ((load0.engine 0 EngId.intake).s' (bits (wMem 14 1) 55 51)) ∧ 31 = bits (wMem 14 1) 15 11 ∧
    (load0.easel 0).outstanding true < 8 ∧ 14 < 16 ∧
    Issues load0 0 EngId.intake 65 (wMem 14 1) [(51, 5), (16, 5), (11, 5), (0, 1), (46, 5), (45, 1), (26, 19)] ∧ 14 % 2 = 0 ∧
    trayOk ((load0.engine 0 EngId.intake).trayAddr (wMem 14 1)) 64 = true ∧ lenOk 64 = true ∧
    32 = BitVec.toNat ((load0.engine 0 EngId.intake).pair 14) ∧ 32 % 32 = 0 ∧
    load0.inRegions (load0.engine 0 EngId.intake).ctx 32 64 = true := by decide +kernel
theorem wit_gather : bits (wMem 15 15) 50 46 < 16 ∧ 15 = bits (wMem 15 15) 20 16 ∧ bits (wMem 15 15) 55 51 < 16 ∧
    1 = BitVec.toNat ((gather0.engine 0 EngId.intake).s' (bits (wMem 15 15) 55 51)) ∧ 31 = bits (wMem 15 15) 15 11 ∧
    (gather0.easel 0).outstanding true < 8 ∧ 15 < 16 ∧
    Issues gather0 0 EngId.intake 66 (wMem 15 15) [(51, 5), (16, 5), (11, 5), (0, 4), (46, 5), (45, 1), (26, 19)] ∧
    bound = gather0.binding (bits (wMem 15 15) 3 0) ∧ trayOk ((gather0.engine 0 EngId.intake).trayAddr (wMem 15 15)) (4 * 1) = true ∧
    trayOk ((gather0.engine 0 EngId.intake).sAddr 15) (1 * bound.rowBytes) = true ∧
    [0] = (gather0.easel 0).indices ((gather0.engine 0 EngId.intake).trayAddr (wMem 15 15)) 1 ∧ bound.st = 1 ∧
    (∀ (r : Nat), r ∈ [0] → r < bound.rows) := by decide +kernel
theorem wit_load_busy : bits (wMem 14 1) 50 46 < 16 ∧ 14 = bits (wMem 14 1) 20 16 ∧ bits (wMem 14 1) 55 51 < 16 ∧
    64 = BitVec.toNat ((busyMem.engine 0 EngId.intake).s' (bits (wMem 14 1) 55 51)) ∧ 31 = bits (wMem 14 1) 15 11 ∧
    8 ≤ (busyMem.easel 0).outstanding true ∧ 14 < 16 ∧ 14 % 2 = 0 ∧
    Issues busyMem 0 EngId.intake 65 (wMem 14 1) [(51, 5), (16, 5), (11, 5), (0, 1), (46, 5), (45, 1), (26, 19)] := by decide +kernel
theorem wit_store : bits (wMem 14 0) 50 46 < 16 ∧ 14 = bits (wMem 14 0) 20 16 ∧ bits (wMem 14 0) 55 51 < 16 ∧
    64 = BitVec.toNat ((store0.engine 0 EngId.outlet).s' (bits (wMem 14 0) 55 51)) ∧ 31 = bits (wMem 14 0) 15 11 ∧
    (store0.easel 0).outstanding false < 8 ∧
    Issues store0 0 EngId.outlet 65 (wMem 14 0) [(51, 5), (16, 5), (11, 5), (46, 5), (45, 1), (26, 19)] ∧ 14 < 16 ∧ 14 % 2 = 0 ∧
    trayOk ((store0.engine 0 EngId.outlet).trayAddr (wMem 14 0)) 64 = true ∧ lenOk 64 = true ∧
    32 = BitVec.toNat ((store0.engine 0 EngId.outlet).pair 14) ∧ 32 % 32 = 0 ∧
    store0.inRegions (store0.engine 0 EngId.outlet).ctx 32 64 = true := by decide +kernel
theorem wit_scatter : bits (wMem 0 15) 50 46 < 16 ∧ 0 = bits (wMem 0 15) 20 16 ∧ bits (wMem 0 15) 55 51 < 16 ∧
    1 = BitVec.toNat ((scatter0.engine 0 EngId.outlet).s' (bits (wMem 0 15) 55 51)) ∧ 31 = bits (wMem 0 15) 15 11 ∧
    (scatter0.easel 0).outstanding false < 8 ∧
    Issues scatter0 0 EngId.outlet 66 (wMem 0 15) [(51, 5), (16, 5), (11, 5), (0, 4), (46, 5), (45, 1), (26, 19)] ∧ 0 + 2 < 16 ∧
    bound = scatter0.binding (bits (wMem 0 15) 3 0) ∧ trayOk ((scatter0.engine 0 EngId.outlet).trayAddr (wMem 0 15)) (4 * 1) = true ∧
    trayOk ((scatter0.engine 0 EngId.outlet).sAddr (0 + 2)) (1 * bound.rowBytes) = true ∧
    [0] = (scatter0.easel 0).indices ((scatter0.engine 0 EngId.outlet).trayAddr (wMem 0 15)) 1 ∧ bound.st = 1 ∧
    (∀ (r : Nat), r ∈ [0] → r < bound.rows) := by decide +kernel
theorem wit_gather_completion : (opOn loading).isEasel 0 = true ∧ (opOn loading).computing = true ∧
    (opOn loading).board.warmSeq = false ∧ (opOn loading).mem.takeover = [] ∧ loading.id = 3 ∧ loading.issued < (opOn loading).now ∧ loading.spoilt = none ∧ (∀ w ∈ ((opOn loading).easel 0).wrote, w.at' ≠ (opOn loading).now) ∧
    (loading.kind = if true = true then MemKind.gather else MemKind.load) ∧ loading.check = false ∧ loading.data = [] ∧
    (List.find? (fun p ↦ p.id == 3 && p.kind == loading.kind) ((opOn loading).easel 0).ops = some loading) := by decide +kernel
theorem wit_load_completion : (opOn (anOp MemKind.load)).isEasel 0 = true ∧ (opOn (anOp MemKind.load)).computing = true ∧
    (opOn (anOp MemKind.load)).board.warmSeq = false ∧ (opOn (anOp MemKind.load)).mem.takeover = [] ∧ (anOp MemKind.load).id = 3 ∧
    (anOp MemKind.load).issued < (opOn (anOp MemKind.load)).now ∧ (anOp MemKind.load).spoilt = none ∧ (∀ w ∈ ((opOn (anOp MemKind.load)).easel 0).wrote, w.at' ≠ (opOn (anOp MemKind.load)).now) ∧
    ((anOp MemKind.load).kind = if false = true then MemKind.gather else MemKind.load) ∧ (anOp MemKind.load).check = false ∧
    (anOp MemKind.load).data = [] ∧
    (List.find? (fun p ↦ p.id == 3 && p.kind == (anOp MemKind.load).kind) ((opOn (anOp MemKind.load)).easel 0).ops = some (anOp MemKind.load)) := by decide +kernel
theorem wit_store_completion : (opOn storing).isEasel 0 = true ∧ (opOn storing).computing = true ∧
    (opOn storing).board.warmSeq = false ∧ (opOn storing).mem.takeover = [] ∧ storing.id = 3 ∧ storing.issued < (opOn storing).now ∧ storing.spoilt = none ∧
    (storing.kind = if false = true then MemKind.scatter else MemKind.store) ∧ storing.check = false ∧ storing.todo = [] ∧
    (List.find? (fun p ↦ p.id == 3 && p.kind == storing.kind) ((opOn storing).easel 0).ops = some storing) := by decide +kernel
theorem wit_scatter_completion : (opOn (anOp MemKind.scatter)).isEasel 0 = true ∧ (opOn (anOp MemKind.scatter)).computing = true ∧
    (opOn (anOp MemKind.scatter)).board.warmSeq = false ∧ (opOn (anOp MemKind.scatter)).mem.takeover = [] ∧
    (anOp MemKind.scatter).id = 3 ∧ (anOp MemKind.scatter).issued < (opOn (anOp MemKind.scatter)).now ∧ (anOp MemKind.scatter).spoilt = none ∧
    ((anOp MemKind.scatter).kind = if true = true then MemKind.scatter else MemKind.store) ∧ (anOp MemKind.scatter).check = false ∧
    (anOp MemKind.scatter).todo = [] ∧
    (List.find? (fun p ↦ p.id == 3 && p.kind == (anOp MemKind.scatter).kind) ((opOn (anOp MemKind.scatter)).easel 0).ops = some (anOp MemKind.scatter)) := by decide +kernel
theorem wit_load_verified : soundTile.isEasel 0 = true ∧ soundTile.computing = true ∧ soundTile.board.warmSeq = false ∧ soundTile.mem.takeover = [] ∧
    verifying.id = 3 ∧ verifying.issued < soundTile.now ∧ verifying.spoilt = none ∧
    verifying.kind = .load ∧ verifying.check = true ∧ verifying.data = [] ∧ (∀ w ∈ (soundTile.easel 0).wrote, w.at' ≠ soundTile.now) ∧
    (soundTile.easel 0).ops.find? (fun p => p.id == 3 && p.kind == .load) = some verifying ∧
    (badTile 2048 (verifying.keep soundTile.mem verifying.todo).area).isNone = true := by decide +kernel
theorem wit_load_bad_tile : (opOn verifying).isEasel 0 = true ∧ (opOn verifying).computing = true ∧ (opOn verifying).board.warmSeq = false ∧ (opOn verifying).mem.takeover = [] ∧
    verifying.id = 3 ∧ verifying.issued < (opOn verifying).now ∧ verifying.spoilt = none ∧
    verifying.kind = .load ∧ verifying.check = true ∧ verifying.data = [] ∧ (∀ w ∈ ((opOn verifying).easel 0).wrote, w.at' ≠ (opOn verifying).now) ∧
    ((opOn verifying).easel 0).ops.find? (fun p => p.id == 3 && p.kind == .load) = some verifying ∧
    (badTile 2048 (verifying.keep (opOn verifying).mem verifying.todo).area).isNone = false := by decide +kernel
theorem wit_load_uncorrected : (opOn verifying).isEasel 0 = true ∧ (opOn verifying).computing = true ∧ (opOn verifying).board.warmSeq = false ∧ (opOn verifying).mem.takeover = [] ∧
    verifying.id = 3 ∧ verifying.issued < (opOn verifying).now ∧ verifying.spoilt = none ∧
    verifying.kind = (if false then .gather else .load) ∧ verifying.eng = .intake ∧ verifying.data = [] ∧ (∀ w ∈ ((opOn verifying).easel 0).wrote, w.at' ≠ (opOn verifying).now) ∧
    ((opOn verifying).easel 0).ops.find? (fun p => p.id == 3 && p.kind == verifying.kind) = some verifying := by decide +kernel
theorem wit_gather_uncorrected : (opOn loading).isEasel 0 = true ∧ (opOn loading).computing = true ∧ (opOn loading).board.warmSeq = false ∧ (opOn loading).mem.takeover = [] ∧
    loading.id = 3 ∧ loading.issued < (opOn loading).now ∧ loading.spoilt = none ∧
    loading.kind = (if true then .gather else .load) ∧ loading.eng = .intake ∧ loading.data = [] ∧ (∀ w ∈ ((opOn loading).easel 0).wrote, w.at' ≠ (opOn loading).now) ∧
    ((opOn loading).easel 0).ops.find? (fun p => p.id == 3 && p.kind == loading.kind) = some loading := by decide +kernel
theorem wit_scatter_uncorrected : (opOn (anOp .scatter)).isEasel 0 = true ∧ (opOn (anOp .scatter)).computing = true ∧ (opOn (anOp .scatter)).board.warmSeq = false ∧ (opOn (anOp .scatter)).mem.takeover = [] ∧
    (anOp .scatter).id = 3 ∧ (anOp .scatter).issued < (opOn (anOp .scatter)).now ∧ (anOp .scatter).spoilt = none ∧
    (anOp .scatter).kind = .scatter ∧ (anOp .scatter).eng = .outlet ∧ (anOp .scatter).todo = [] ∧
    ((opOn (anOp .scatter)).easel 0).ops.find? (fun p => p.id == 3 && p.kind == .scatter) = some (anOp .scatter) := by decide +kernel

end D

namespace E

def onEng (e : EngId) (g : Engine) : State := run0.setEngine 0 e g
/-- A write of three cycles issued before one of one cycle, and one that is due. -/
def landing : State := onEng .order { pend := [⟨5000002, .sreg 3 1, 0⟩, ⟨5000000, .sreg 3 7, 4999999⟩, ⟨5000000, .creg 2 4, 4999999⟩] }
def sig1 : Sig := { due := 5000000, sem := 31, amt := 255, sender := (0, .order, 4) }
def sig2 : Sig := { due := 5000001, sem := 31, amt := 1, sender := (0, .mask, 9) }
def wait1 : Hold := ⟨.wait 31 255, 10, 4⟩
def signalled : State := run0.modEasel 0 (fun x => { x with sigs := [sig1, sig2], sems := [(31, 65280)] })
def waiting0 : State := (onEng .mask { st := .hold, hold := some ⟨.wait 31 255, 10, 4⟩ }).modEasel 0 (fun x => { x with sems := [(31, 255)] })
def pushing : Hold := ⟨.push .outlet 0x0000000200000001, 4999999, 4⟩
def taking : Hold := ⟨.take 14, 10, 4⟩
def pushOk : State := onEng .blend { st := .hold, hold := some pushing }
def pushFull : State := pushOk.setEngine 0 .outlet { tokenq := List.replicate 16 5 }
def takeOk : State := onEng .outlet { st := .hold, hold := some taking, tokenq := [0x0000000200000001, 3] }
def waits : Hold := ⟨.wait 31 255, 3951424, 4⟩
def takes : Hold := ⟨.take 14, 3951424, 4⟩
def timed (x : Hold) : State := onEng .mask { st := .hold, hold := some x }
def entry1 : StartEntry := { study := 3, ctx := 5, gen := 9, chunk := 2, a0 := 1, a1 := 2, a2 := 3, a3 := 4, arrived := 77, test := false }
def queued (g : Engine) : State := onEng .order { g with startq := [entry1], studies := [(3, { base := 40, len := 8, valid := true })] }
def stopped : State := (queued { st := .idle }).modEasel 0 (fun x => { x with stopAt := some 4999999, sems := [(3, 1)] })
def restSince (k : Nat) : State := run0.modEasel 0 (fun x => { x with idleSince := k })
def doze1 : State := (restSince 4998976).modEasel 0 (fun x => { x with sigs := [sig2] })
def heldAwake : State := run0.modEasel 0 (fun x => { x with holdAwake := true })
def wakes : State := run0.modEasel 0 (fun x => { x with power := .sleep, wakeBy := some 4999999 })

def gen9 : Gen := { num := 9, ref := { rank := 0, raw := [], src := 0 }, enters := [], t0 := 0, path := .tree }
/-- A template with all five units, OP 0. -/
def tmplAll : Bytes := (zeros 64).set 18 31
def ctx5 : Ctx := { st := .ready, tmpl := tmplAll, gens := [gen9] }
def tile9 : InTile := { bytes := zeros 32, ctx := 5, gen := 9, chunk := 0, from' := 0, src := 0, vc := 2, cells := 1 }
def covered9 : InTile := { tile9 with covered := true }
def withCtx (s : State) : State := { s with coll := { s.coll with ctxs := [(5, ctx5)] } }
def placing : State := withCtx (run0.modEasel 0 (fun x => { x with waiting := [tile9], stage := List.replicate 7 tile9 }))
/-- A chunk whose tile entered the stage of Easel 0, and whose Blend entry is owed. -/
def owed9 : Gen := { gen9 with chunks := [(0, { entry := true, entered := [(0, 0)], came := [(0, 4999990)] })] }
def ctxOwed : Ctx := { ctx5 with tmpl := (zeros 64).set 18 3, gens := [owed9] }
def owing : State := { run0 with coll := { run0.coll with ctxs := [(5, ctxOwed)] } }
def asleep0 : State := run0.modEasel 0 (fun x => { x with power := .doze })
def covering : State := withCtx (run0.modEasel 0 (fun x => { x with stage := [tile9, covered9] }))

theorem wit_sem_resolve : signalled.isEasel 0 = true ∧ signalled.computing = true ∧ (signalled.easel 0).power = Power.awake ∧
    (signalled.easel 0).stopAt = none ∧ (∀ (e : EngId) (h : Hold), (signalled.engine 0 e).hold = some h → h.kind.isWait = false) ∧
    tcanon 0 (signalled.easel 0).sems = true ∧
    (∀ (k : Nat), k < 32 → tget 0 (signalled.easel 0).sems k + (List.map (fun x ↦ x.amt) (List.filter (fun g ↦ g.sem == k && decide (g.due ≤ signalled.now)) (signalled.easel 0).sigs)).sum ≤ 65535) := ⟨by decide +kernel, by decide +kernel, by decide +kernel, by decide +kernel, allEngOpt (by decide +kernel), by decide +kernel, by decide +kernel⟩
theorem wit_sem_wait : waiting0.isEasel 0 = true ∧ waiting0.computing = true ∧ (waiting0.easel 0).power = Power.awake ∧
    (waiting0.easel 0).stopAt = none ∧ (waiting0.easel 0).sigs = [] ∧ (waiting0.engine 0 EngId.mask).hold = some wait1 ∧
    wait1.kind = HoldKind.wait 31 255 ∧ 255 ≤ tget 0 (waiting0.easel 0).sems 31 ∧
    (∀ (d : EngId), d ≠ EngId.mask → ∀ (z : Hold), (waiting0.engine 0 d).hold = some z → z.kind.isWait = false) := ⟨by decide +kernel, by decide +kernel, by decide +kernel, by decide +kernel, by decide +kernel, by decide +kernel, by decide +kernel, by decide +kernel, allEngNeOpt (by decide +kernel)⟩
theorem wit_push_resolve : EngId.blend ≠ EngId.outlet ∧ pushOk.isEasel 0 = true ∧ pushOk.computing = true ∧
    (pushOk.easel 0).power = Power.awake ∧ (pushOk.easel 0).stopAt = none ∧ (∀ (e : EngId), (pushOk.engine 0 e).ahead = []) ∧
    (∀ (e : EngId), e ≠ EngId.blend → e ≠ EngId.outlet → (pushOk.engine 0 e).hold = none) ∧
    (pushOk.engine 0 EngId.blend).hold = some pushing ∧ pushing.kind = HoldKind.push EngId.outlet 8589934593 ∧
    pushing.since < pushOk.now ∧ (pushOk.engine 0 EngId.outlet).hold = none ∧ (pushOk.engine 0 EngId.outlet).tokenCycle ≠ pushOk.now ∧
    (pushOk.engine 0 EngId.outlet).tokenq.length < 16 := ⟨by decide +kernel, by decide +kernel, by decide +kernel, by decide +kernel, by decide +kernel, allEng (by decide +kernel), allEng (by decide +kernel), by decide +kernel, by decide +kernel, by decide +kernel, by decide +kernel, by decide +kernel, by decide +kernel⟩
theorem wit_push_full : EngId.blend ≠ EngId.outlet ∧ pushFull.isEasel 0 = true ∧ pushFull.computing = true ∧
    (pushFull.easel 0).power = Power.awake ∧ (pushFull.easel 0).stopAt = none ∧ (∀ (e : EngId), (pushFull.engine 0 e).ahead = []) ∧
    (∀ (e : EngId), e ≠ EngId.blend → e ≠ EngId.outlet → (pushFull.engine 0 e).hold = none) ∧
    (pushFull.engine 0 EngId.blend).hold = some pushing ∧ pushing.kind = HoldKind.push EngId.outlet 8589934593 ∧
    pushing.since < pushFull.now ∧ (pushFull.engine 0 EngId.outlet).hold = none ∧
    (pushFull.engine 0 EngId.outlet).tokenCycle ≠ pushFull.now ∧
    16 ≤ (pushFull.engine 0 EngId.outlet).tokenq.length := ⟨by decide +kernel, by decide +kernel, by decide +kernel, by decide +kernel, by decide +kernel, allEng (by decide +kernel), allEng (by decide +kernel), by decide +kernel, by decide +kernel, by decide +kernel, by decide +kernel, by decide +kernel, by decide +kernel⟩
theorem wit_take_resolve : EngId.blend ≠ EngId.outlet ∧ takeOk.isEasel 0 = true ∧ takeOk.computing = true ∧
    (takeOk.easel 0).power = Power.awake ∧ (takeOk.easel 0).stopAt = none ∧ (∀ (e : EngId), (takeOk.engine 0 e).ahead = []) ∧
    (∀ (e : EngId), e ≠ EngId.blend → e ≠ EngId.outlet → (takeOk.engine 0 e).hold = none) ∧
    (takeOk.engine 0 EngId.outlet).hold = some taking ∧ taking.kind = HoldKind.take 14 ∧ (takeOk.engine 0 EngId.blend).hold = none ∧
    (takeOk.engine 0 EngId.outlet).tokenq = [8589934593, 3] := ⟨by decide +kernel, by decide +kernel, by decide +kernel, by decide +kernel, by decide +kernel, allEng (by decide +kernel), allEng (by decide +kernel), by decide +kernel, by decide +kernel, by decide +kernel, by decide +kernel⟩
theorem wit_wait_timeout : (timed waits).isEasel 0 = true ∧ (timed waits).hasEngine EngId.mask = true ∧
    ((timed waits).engine 0 EngId.mask).hold = some waits ∧ (timed waits).computing = true ∧
    ((timed waits).engine 0 EngId.mask).wdog ≠ 0 ∧
    ((waits.since + BitVec.toNat ((timed waits).engine 0 EngId.mask).wdog + if waits.kind.isWait = true then 0 else 1) ≤ (timed waits).now) ∧
    ((timed waits).easel 0).stopAt = none := by decide +kernel
theorem wit_take_no_timeout : (timed takes).isEasel 0 = true ∧ (timed takes).hasEngine EngId.mask = true ∧
    ((timed takes).engine 0 EngId.mask).hold = some takes ∧
    (((timed takes).now < takes.since + BitVec.toNat ((timed takes).engine 0 EngId.mask).wdog + if takes.kind.isWait = true then 0 else 1) ∨ ((timed takes).engine 0 EngId.mask).wdog = 0) := by decide +kernel
theorem wit_study_switch : (queued { }).isEasel 0 = true ∧ (queued { }).hasEngine EngId.order = true ∧
    ((queued { }).engine 0 EngId.order).startq = [entry1] ∧ 77 = max ((queued { }).engine 0 EngId.order).nextIssue entry1.arrived ∧
    1 ≤ 77 ∧ 77 ≤ (queued { }).now ∧ (queued { }).computing = true ∧ (queued { }).aclk = true ∧
    ((queued { }).easel 0).power = Power.awake ∧
    (((queued { }).engine 0 EngId.order).st = EngSt.idle ∨ ((queued { }).engine 0 EngId.order).st = EngSt.ended) ∧
    ((queued { }).easel 0).stopAt = none := by decide +kernel
theorem wit_study_switch_again : (queued { st := EngSt.ended, served := some (5, 9), nextIssue := 5000000 }).isEasel 0 = true ∧
    (queued { st := EngSt.ended, served := some (5, 9), nextIssue := 5000000 }).hasEngine EngId.order = true ∧
    ((queued { st := EngSt.ended, served := some (5, 9), nextIssue := 5000000 }).engine 0 EngId.order).startq = [entry1] ∧
    5000000 = max ((queued { st := EngSt.ended, served := some (5, 9), nextIssue := 5000000 }).engine 0 EngId.order).nextIssue entry1.arrived ∧
    1 ≤ 5000000 ∧ 5000000 ≤ (queued { st := EngSt.ended, served := some (5, 9), nextIssue := 5000000 }).now ∧
    (queued { st := EngSt.ended, served := some (5, 9), nextIssue := 5000000 }).computing = true ∧
    (queued { st := EngSt.ended, served := some (5, 9), nextIssue := 5000000 }).aclk = true ∧
    ((queued { st := EngSt.ended, served := some (5, 9), nextIssue := 5000000 }).easel 0).power = Power.awake ∧
    (((queued { st := EngSt.ended, served := some (5, 9), nextIssue := 5000000 }).engine 0 EngId.order).st = EngSt.idle ∨ ((queued { st := EngSt.ended, served := some (5, 9), nextIssue := 5000000 }).engine 0 EngId.order).st = EngSt.ended) ∧
    ((queued { st := EngSt.ended, served := some (5, 9), nextIssue := 5000000 }).easel 0).stopAt = none := by decide +kernel
theorem wit_return_idle : stopped.isEasel 0 = true ∧ stopped.computing = true ∧ (stopped.easel 0).stopAt = some 4999999 ∧
    4999999 < stopped.now ∧ stopped.settled 0 = true ∧ stopped.incomplete 0 = [] := by decide +kernel
theorem wit_low_power : (restSince 4998976).isEasel 0 = true ∧ (restSince 4998976).computing = true ∧
    ((restSince 4998976).easel 0).power = Power.awake ∧ ((restSince 4998976).easel 0).holdAwake = false ∧
    ((restSince 4998976).easel 0).stopAt = none ∧ ((restSince 4998976).easel 0).resting = true ∧
    ((restSince 4998976).easel 0).idleSince + 64 * max 1 ((restSince 4998976).easel 0).idleDelay ≤ (restSince 4998976).now := by decide +kernel
theorem wit_low_power_signal : doze1.isEasel 0 = true ∧ doze1.computing = true ∧ (doze1.easel 0).power = Power.awake ∧
    (doze1.easel 0).holdAwake = false ∧ (doze1.easel 0).stopAt = none ∧ (doze1.easel 0).resting = true ∧
    (doze1.easel 0).idleSince + 64 * max 1 (doze1.easel 0).idleDelay ≤ doze1.now ∧ (doze1.easel 0).sigs = [sig2] := by decide +kernel
theorem wit_hold_awake : heldAwake.isEasel 0 = true ∧ heldAwake.computing = true ∧ (heldAwake.easel 0).holdAwake = true := by decide +kernel
theorem wit_wake : wakes.isEasel 0 = true ∧ wakes.computing = true ∧ (wakes.easel 0).wakeBy = some 4999999 := by decide +kernel
theorem wit_stage_place : placing.isEasel 0 = true ∧ placing.computing = true ∧ (placing.easel 0).power = Power.awake ∧
    (placing.easel 0).stopAt = none ∧ (placing.easel 0).waiting = [] ++ [tile9] ∧
    (∀ (u : InTile), u ∈ [] → placing.mayEnter 0 u = false) ∧ placing.mayEnter 0 tile9 = true ∧ (placing.easel 0).stage.length < 8 ∧
    tcanon 0 placing.fab.ejected = true := by decide +kernel
theorem wit_start_entry : covering.isEasel 0 = true ∧ covering.computing = true ∧ (covering.easel 0).power = Power.awake ∧
    (covering.easel 0).stopAt = none ∧ covering.pushCycle = true ∧ covering.owedChunks 0 = [] ∧
    (∀ (d : Nat), d ∈ covering.boundTo 0 → ∀ (z : Gen), z ∈ (covering.ctx d).gens → z.path ≠ Path.ring) ∧
    (covering.easel 0).stage.find? (fun t => !t.covered) = some tile9 ∧ ctx5 = covering.ctx tile9.ctx ∧
    ctx5.gen? tile9.gen = some gen9 ∧ gen9.failed = none ∧ EngId.intake ∈ ctx5.engines ∧
    (covering.engine 0 EngId.intake).startq = [] ∧
    (∃ t ∈ (covering.easel 0).stage, (!t.covered && t.ctx == tile9.ctx && t.gen == tile9.gen && t.chunk == 0) = true) ∧
    (∀ t ∈ (covering.easel 0).stage, t.covered = false → t.ctx = tile9.ctx → t.gen = tile9.gen →
      t.chunk = 0 ∨ 0 % 2 ^ 32 * 2 ^ 32 + 0 / 2 ^ 32 < t.chunk % 2 ^ 32 * 2 ^ 32 + t.chunk / 2 ^ 32) := by decide +kernel
/-- A tile of chunk 1 of position 0 stands before one of chunk 0 of another position, which is covered first (05 R148). -/
def coveringTwo : State := withCtx (run0.modEasel 0 (fun x => { x with stage := [{ tile9 with chunk := 1 }, { tile9 with chunk := 2 ^ 32 }] }))
theorem wit_start_entry_two : coveringTwo.isEasel 0 = true ∧ coveringTwo.computing = true ∧ (coveringTwo.easel 0).power = Power.awake ∧
    (coveringTwo.easel 0).stopAt = none ∧ coveringTwo.pushCycle = true ∧ coveringTwo.owedChunks 0 = [] ∧
    (∀ (d : Nat), d ∈ coveringTwo.boundTo 0 → ∀ (z : Gen), z ∈ (coveringTwo.ctx d).gens → z.path ≠ Path.ring) ∧
    (coveringTwo.easel 0).stage.find? (fun t => !t.covered) = some { tile9 with chunk := 1 } ∧ ctx5 = coveringTwo.ctx tile9.ctx ∧
    ctx5.gen? tile9.gen = some gen9 ∧ gen9.failed = none ∧ EngId.intake ∈ ctx5.engines ∧
    (coveringTwo.engine 0 EngId.intake).startq = [] ∧
    (∃ t ∈ (coveringTwo.easel 0).stage, (!t.covered && t.ctx == tile9.ctx && t.gen == tile9.gen && t.chunk == 2 ^ 32) = true) ∧
    (∀ t ∈ (coveringTwo.easel 0).stage, t.covered = false → t.ctx = tile9.ctx → t.gen = tile9.gen →
      t.chunk = 2 ^ 32 ∨ 2 ^ 32 % 2 ^ 32 * 2 ^ 32 + 2 ^ 32 / 2 ^ 32 < t.chunk % 2 ^ 32 * 2 ^ 32 + t.chunk / 2 ^ 32) := by decide +kernel
theorem wit_start_entry_other : owing.isEasel 0 = true ∧ owing.computing = true ∧ (owing.easel 0).power = Power.awake ∧
    (owing.easel 0).stopAt = none ∧ owing.pushCycle = true ∧ owing.owedChunks 0 = [(4999990, 5, 9, 0)] ∧
    (∀ (d : Nat), d ∈ owing.boundTo 0 → ∀ (z : Gen), z ∈ (owing.ctx d).gens → z.path ≠ Path.ring) ∧
    (∀ t ∈ (owing.easel 0).stage, t.covered = true) ∧ (owing.ctx 5).gen? 9 = some owed9 ∧ owed9.failed = none ∧
    (owing.ctx 5).engines.filter (· != .intake) = [EngId.blend] ∧ (0, EngId.blend) ∉ (owed9.chunk 0).pushed ∧
    (owing.engine 0 EngId.blend).startq.length < 16 := by decide +kernel
theorem wit_no_place : run0.isEasel 0 = true ∧ (∀ t ∈ (run0.easel 0).waiting, run0.mayEnter 0 t = false) := by decide +kernel
theorem wit_no_push : run0.isEasel 0 = true ∧ (asleep0.easel 0).power ≠ .awake ∧ asleep0.isEasel 0 = true := by decide +kernel

/-- R107: the later write of one cycle lands, and the earlier one waits. -/
theorem test_landing : ((landing.landEngine 0 .order).engine 0 .order).s = [(3, 7)] ∧
    ((landing.landEngine 0 .order).engine 0 .order).c = [(2, 4)] ∧
    ((landing.landEngine 0 .order).engine 0 .order).pend = [⟨5000002, .sreg 3 1, 0⟩] := by decide +kernel

end E

namespace F

def onPort (x : Port) : State := run0.setPort 127 x
def enabledPort : State := onPort { cfg := 4 }
def v0 : Word := 0
def v1 : Word := 1
def v5 : Word := 5
def v24 : Word := 24
def vTop : Word := 0xFFFFFFFF

def vSched : Word := 0x0008D008
def vRatio : Word := 0x00023000
def vQ : Word := 256
def vCells : Word := 0x7FFF
def crowded : State := (List.range 128).foldl (fun s p => s.setPort p { bufLimit := [(0, 8192)] }) run0
def vLen : Word := 0x8100

def inGris : State := { run0 with dev := .grisaille }
def heldMask : State := { run0 with fab := { run0.fab with groupHeld := [(16383, 5)] } }
def v5x : Word := 4

def vMap (k : Nat) : Word := BitVec.ofNat 32 (2 ^ 31 + k)
def isOut : State := { run0 with mem := { run0.mem with inService := 2 ^ 127 - 1 } }
def openCtx : State := { run0 with coll := { run0.coll with ctxs := [(5, { st := .ready })] } }
def someScratch : Word := 64
def vEasel : Word := 0x00200001
def onF1 : State := { run0 with boot := { run0.boot with functions := 15 } }

def doneSlot : State := run0.modFunc 0 (fun x => { x with results := [(255, { gen := 7, st := 2 })] })
def gen7 : Word := 7
def held3 : State := onF1.modFunc 3 (fun x => { x with msixMasked := false, msixPend := 0x8000, msix := [(15, BitVec.ofNat 128 (2 ^ 96))] })
def bar2 : State := run0.modFunc 0 (fun x => { x with aperture := 1 })
def bar2Out : State := run0.modFunc 0 (fun x => { x with aperture := 0xFFF })

theorem wit_port_cfg : Writes run0 run0 0 ∧ 127 < 128 ∧ 0 < 8 ∧ (run0.port 127).enabled = false ∧
    BitVec.toNat v5 / 8 % 4 ≠ 3 := by decide +kernel
theorem wit_port_cfg_breakout : Writes enabledPort enabledPort 0 ∧ 127 < 128 ∧ 0 < 8 ∧ (enabledPort.port 127).enabled = true ∧
    (enabledPort.port 127).breakout ≠ BitVec.toNat v1 % 4 := by decide +kernel
theorem wit_port_cfg_rsvd : Writes run0 run0 0 ∧ 127 < 128 ∧ 0 < 8 ∧ BitVec.toNat v24 / 8 % 4 = 3 ∧
    ((run0.port 127).enabled = false ∨ (run0.port 127).breakout = BitVec.toNat v24 % 4) := by decide +kernel
theorem wit_port_cfg_rsvd_enabled : Writes enabledPort enabledPort 0 ∧ 127 < 128 ∧ 0 < 8 ∧ BitVec.toNat v24 / 8 % 4 = 3 ∧
    ((enabledPort.port 127).enabled = false ∨ (enabledPort.port 127).breakout = BitVec.toNat v24 % 4) := by decide +kernel
theorem wit_lport_cfg : Writes run0 run0 0 ∧ 127 < 128 ∧ 0 < 8 ∧ run0.fab.exists' (8 * 127 + 0) = true ∧ BitVec.toNat v1 % 8 < 5 ∧
    (BitVec.toNat v1 % 8 = roleExpress → BitVec.toNat v1 / 64 % 64 < 4) ∧ (run0.port 127).enabled = false := by decide +kernel
theorem wit_lport_cfg_enabled : Writes enabledPort enabledPort 0 ∧ 127 < 128 ∧ 0 < 8 ∧ enabledPort.fab.exists' (8 * 127 + 0) = true ∧
    (enabledPort.port 127).enabled = true ∧
    BitVec.ofNat 12 (BitVec.toNat v1) ≠ (enabledPort.lport (8 * 127 + 0)).cfg := by decide +kernel
theorem wit_lport_cfg_role : Writes run0 run0 0 ∧ 127 < 128 ∧ 0 < 8 ∧ run0.fab.exists' (8 * 127 + 0) = true ∧ 5 ≤ BitVec.toNat v5 % 8 ∧
    (run0.port 127).enabled = false := by decide +kernel
theorem wit_lport_absent : Writes run0 run0 0 ∧ 127 < 128 ∧ 7 < 8 ∧ run0.fab.exists' (8 * 127 + 7) = false := by decide +kernel
theorem wit_lpeer_enabled : Writes enabledPort enabledPort 0 ∧ 127 < 128 ∧ 0 < 8 ∧ enabledPort.fab.exists' (8 * 127 + 0) = true ∧
    (enabledPort.port 127).enabled = true ∧
    BitVec.ofNat 24 (BitVec.toNat v1) ≠ (enabledPort.lport (8 * 127 + 0)).peer := by decide +kernel
theorem wit_lpeer : Writes run0 run0 0 ∧ 127 < 128 ∧ 0 < 8 ∧ run0.fab.exists' (8 * 127 + 0) = true ∧
    (run0.port 127).enabled = false := by decide +kernel
theorem wit_sched_cfg : Writes run0 run0 0 ∧ 0 < 128 ∧ 7 < 8 ∧ 4 = BitVec.toNat vSched / 2 % 8 ∧ 1 ≤ 4 ∧ 4 ≤ 4 ∧
    ([0, 2, 3, 4] = List.map (fun i ↦ BitVec.toNat vSched / 2 ^ (8 + 3 * i) % 8) (List.range 4)) ∧ ¬1 ∈ [0, 2, 3, 4] ∧
    [0, 2, 3, 4].Nodup := by decide +kernel
theorem wit_sched_cfg_bad : Writes run0 run0 0 ∧ 0 < 128 ∧ 7 < 8 ∧
    (BitVec.toNat v0 / 2 % 8 = 0 ∨ 4 < BitVec.toNat v0 / 2 % 8) := by decide +kernel
theorem wit_quantum : Writes run0 run0 0 ∧ 0 < 128 ∧ 7 < 8 ∧ 7 ≠ 1 ∧ 1 ≤ BitVec.toNat vQ % 512 ∧
    BitVec.toNat vQ % 512 ≤ 256 := by decide +kernel
theorem wit_shape_cfg : Writes run0 run0 0 ∧ 0 < 128 ∧ 7 < 8 ∧ 7 ≠ 1 := by decide +kernel
theorem wit_burst : Writes run0 run0 0 ∧ 0 < 128 ∧ 7 < 8 ∧ 7 ≠ 1 ∧ BitVec.toNat v1 % 65536 ≠ 0 := by decide +kernel
theorem wit_buf_limit : Writes run0 run0 0 ∧ 127 < 128 ∧ 7 < 8 ∧ 15 < 16 ∧ 15 ≠ 2 ∧ 15 ≠ 3 ∧ (run0.port 127).enabled = false ∧
    run0.fab.claimed - (run0.port 127).bufLimitOf 15 + BitVec.toNat v1 % 2 ^ 15 ≤ Config.bufferCells := by decide +kernel
theorem wit_buf_limit_enabled : Writes enabledPort enabledPort 0 ∧ 127 < 128 ∧ 7 < 8 ∧ 15 < 16 ∧ 15 ≠ 2 ∧ 15 ≠ 3 ∧
    (enabledPort.port 127).enabled = true := by decide +kernel
theorem wit_buf_limit_space : Writes crowded crowded 0 ∧ 127 < 128 ∧ 7 < 8 ∧ 15 < 16 ∧ 15 ≠ 2 ∧ 15 ≠ 3 ∧ (crowded.port 127).enabled = false ∧
    Config.bufferCells < crowded.fab.claimed - (crowded.port 127).bufLimitOf 15 + BitVec.toNat vCells % 2 ^ 15 := by decide +kernel
theorem wit_gate_arm : Writes run0 run0 0 ∧ 127 < 128 ∧ 7 < 8 ∧ BitVec.toNat v1 / 256 % 256 ≤ 128 ∧ BitVec.toNat v1 / 65536 % 256 ≤ 128 ∧
    (BitVec.toNat v1).testBit 1 = false ∧ (run0.port 127).gatePending = false ∧ (run0.port 127).active = false ∧
    BitVec.toNat v1 / 256 % 256 = (run0.port 127).listA.len := by decide +kernel
def armed (a len : Nat) : State := run0.setPort 127 { switchAt := BitVec.ofNat 64 a, listA := { len := 1, ents := [(0, (255, 7))] },
                                                      listB := { len := len, ents := [(0, (255, 7))] } }
/-- GATE_ARM with ARM, lists of 1 and `len` entries. -/
def vArm (len : Nat) : Word := BitVec.ofNat 32 (3 + 256 + 65536 * len)
abbrev armable (s : State) (v : Word) : Prop := Writes s s 0 ∧ v.toNat / 256 % 256 ≤ 128 ∧ v.toNat / 65536 % 256 ≤ 128 ∧
    (s.port 127).active = false ∧ (s.port 127).gatePending = false ∧ v.toNat / 256 % 256 = (s.port 127).listA.len
abbrev runsB (s : State) (v : Word) : Prop := 0 < v.toNat / 65536 % 256 ∧
    ∀ i, i < v.toNat / 65536 % 256 → (tget (0, 0) (s.port 127).listB.ents i).2 ≠ 0
theorem wit_gate_arm_ahead : armable (armed 5000001 1) (vArm 1) ∧ (vArm 1).toNat.testBit 1 = true ∧ runsB (armed 5000001 1) (vArm 1) ∧
    (armed 5000001 1).clock.ftime.toNat < ((armed 5000001 1).port 127).switchAt.toNat := by decide +kernel
theorem wit_gate_arm_late : armable (armed 0 1) (vArm 1) ∧ (vArm 1).toNat.testBit 1 = true ∧ runsB (armed 0 1) (vArm 1) ∧
    ((armed 0 1).port 127).switchAt.toNat ≤ (armed 0 1).clock.ftime.toNat := by decide +kernel
theorem wit_gate_arm_empty : armable (armed 0 0) (vArm 0) ∧ (vArm 0).toNat.testBit 1 = true ∧ ¬runsB (armed 0 0) (vArm 0) := by decide +kernel
theorem test_gate_arm_late : (match exec (.gateArm 0 127 (vArm 1)) (armed 0 1) with
    | .next t => (t.port 127).active && (t.port 127).late && !(t.port 127).gatePending
    | _ => false) = true := by decide +kernel
theorem wit_gate_arm_bad : Writes run0 run0 0 ∧ 127 < 128 ∧ 7 < 8 ∧
    (128 < BitVec.toNat vLen / 256 % 256 ∨ 128 < BitVec.toNat vLen / 65536 % 256) := by decide +kernel
theorem wit_tables_frozen : Writes inGris inGris 0 ∧ 0 < 131072 ∧ 16383 < 16384 ∧ inGris.dev = DevSt.grisaille := by decide +kernel
theorem wit_route_entry : Writes run0 run0 0 ∧ 0 < 131072 ∧ 16383 < 16384 ∧ run0.dev ≠ DevSt.grisaille ∧ 0 < run0.fab.switches ∧
    run0.fab.routeBad 0 (BitVec.toNat v5x) = false := by decide +kernel
theorem wit_route_bad : Writes run0 run0 0 ∧ 0 < 131072 ∧ 16383 < 16384 ∧ run0.dev ≠ DevSt.grisaille ∧
    run0.fab.routeBad 0 (BitVec.toNat v1) = true := by decide +kernel
theorem wit_group_entry : Writes heldMask heldMask 0 ∧ 0 < 131072 ∧ 16383 < 16384 ∧ heldMask.dev ≠ DevSt.grisaille ∧
    tget? heldMask.fab.groupHeld 16383 = some 5 := by decide +kernel
theorem wit_mapout : Writes run0 run0 0 ∧ 0 = 0 ∧ (BitVec.toNat (vMap 127)).testBit 31 = true ∧
    run0.mem.serves (BitVec.toNat (vMap 127) % 128) = true := by decide +kernel
theorem wit_mapout_again : Writes isOut isOut 0 ∧ 0 = 0 ∧ (BitVec.toNat (vMap 127)).testBit 31 = true ∧
    isOut.mem.serves (BitVec.toNat (vMap 127) % 128) = false ∧ isOut.mem.isSpare (BitVec.toNat (vMap 127) % 128) = false ∧
    isOut.mem.takeover = [] := by decide +kernel
theorem wit_diary_flush : Writes run0 run0 0 ∧ 0 = 0 ∧ (BitVec.toNat v1).testBit 0 = true ∧ run0.mem.lostHbm = false ∧
    (run0.dev = DevSt.running ∨ run0.dev = DevSt.grisaille) := by decide +kernel
theorem wit_gesso_open : Writes openCtx openCtx 0 ∧ 0 = 0 ∧ openCtx.openCtxs ≠ [] := by decide +kernel
theorem wit_gesso : Writes run0 run0 0 ∧ 0 = 0 ∧ run0.openCtxs = [] ∧ run0.mem.scratch = 0 ∧ someScratch ≠ 0 := by decide +kernel
theorem wit_det_ctrl : Writes run0 run0 0 ∧ 0 = 0 ∧ (BitVec.toNat v1).testBit 0 ≠ run0.coll.strict ∧ run0.openCtxs = [] := by decide +kernel
theorem wit_det_ctrl_open : Writes openCtx openCtx 0 ∧ 0 = 0 ∧ (BitVec.toNat v1).testBit 0 ≠ openCtx.coll.strict ∧
    openCtx.openCtxs ≠ [] := by decide +kernel
theorem wit_aperture : Writes onF1 onF1 3 := by decide +kernel
theorem wit_easel_ctrl : Writes run0 run0 0 ∧ 255 < 256 ∧ run0.isEasel 255 = true ∧ (run0.easel 255).owner = 0 := by decide +kernel
theorem wit_easel_ctrl_other : Writes onF1 onF1 3 ∧ 255 < 256 ∧ onF1.isEasel 255 = true ∧ (onF1.easel 255).owner ≠ 3 := by decide +kernel
theorem wit_write_poisoned : Writes onF1 onF1 3 := by decide +kernel
theorem wit_write_refused : Writes onF1 onF1 3 ∧ writeOk 2 [1, 2, 3, 4].length = false := by decide +kernel
theorem wit_int_enable : Writes onF1 onF1 3 := by decide +kernel
theorem wit_slot_write : Writes onF1 onF1 3 ∧ 0x2_0000 ≤ 147452 ∧ 147452 + [1, 2, 3, 4].length ≤ 0x2_4000 ∧
    ([1, 2, 3, 4].length = 1 ∨ [1, 2, 3, 4].length = 2 ∧ 147452 % 2 = 0 ∨
      [1, 2, 3, 4].length ≠ 0 ∧ [1, 2, 3, 4].length % 4 = 0 ∧ 147452 % 4 = 0) ∧
    147452 / 64 = (147452 + [1, 2, 3, 4].length - 1) / 64 := by decide +kernel
theorem wit_slot_write_byte : Writes onF1 onF1 3 ∧ 0x2_0000 ≤ 147455 ∧ 147455 + [9].length ≤ 0x2_4000 ∧
    ([9].length = 1 ∨ [9].length = 2 ∧ 147455 % 2 = 0 ∨ [9].length ≠ 0 ∧ [9].length % 4 = 0 ∧ 147455 % 4 = 0) ∧
    147455 / 64 = (147455 + [9].length - 1) / 64 := by decide +kernel
theorem wit_slot_write_half : Writes onF1 onF1 3 ∧ 0x2_0000 ≤ 131074 ∧ 131074 + [8, 9].length ≤ 0x2_4000 ∧
    ([8, 9].length = 1 ∨ [8, 9].length = 2 ∧ 131074 % 2 = 0 ∨ [8, 9].length ≠ 0 ∧ [8, 9].length % 4 = 0 ∧ 131074 % 4 = 0) ∧
    131074 / 64 = (131074 + [8, 9].length - 1) / 64 := by decide +kernel
theorem wit_retire : Writes doneSlot doneSlot 0 ∧ 255 < 256 ∧ ((doneSlot.func 0).result 255).st = 2 ∧
    ((doneSlot.func 0).result 255).gen = gen7 := by decide +kernel
theorem wit_retire_other : Writes doneSlot doneSlot 0 ∧ 254 < 256 ∧
    (((doneSlot.func 0).result 254).st ≠ 2 ∨ ((doneSlot.func 0).result 254).gen ≠ gen7) := by decide +kernel
theorem wit_retire_gen : Writes doneSlot doneSlot 0 ∧ 255 < 256 ∧
    (((doneSlot.func 0).result 255).st ≠ 2 ∨ ((doneSlot.func 0).result 255).gen ≠ gen7 + 1) := by decide +kernel
theorem wit_ftime_read : Writes onF1 onF1 3 := by decide +kernel
theorem wit_next_read : Writes onF1 onF1 3 := by decide +kernel
theorem wit_read_refused : Writes onF1 onF1 3 ∧ readOk 2 4 = false := by decide +kernel
theorem wit_msix_unmask : Writes held3 held3 3 ∧ 15 < 16 := by decide +kernel
theorem wit_msix_unmask_all : Writes onF1 onF1 3 ∧ 15 < 16 := by decide +kernel
theorem wit_bar2_read : Reaches bar2 0 ∧ bar2.board.warmSeq = false ∧ bar2.mem.takeover = [] ∧ 64 + 32 ≤ 2 ^ 36 ∧
    bar2.apertureOk 0 ((bar2.func 0).aperture.toNat * 2 ^ 30 + 64) 32 = true := by decide +kernel
theorem wit_bar2_read_refused : Reaches bar2Out 0 ∧ bar2Out.board.warmSeq = false ∧ bar2Out.mem.takeover = [] ∧ 64 + 32 ≤ 2 ^ 36 ∧
    bar2Out.apertureOk 0 ((bar2Out.func 0).aperture.toNat * 2 ^ 30 + 64) 32 = false := by decide +kernel
theorem wit_bar2_write : Reaches bar2 0 ∧ bar2.board.warmSeq = false ∧ bar2.mem.takeover = [] ∧ 64 + [9].length ≤ 2 ^ 36 ∧
    bar2.apertureOk 0 ((bar2.func 0).aperture.toNat * 2 ^ 30 + 64) [9].length = true := by decide +kernel
theorem wit_bar2_write_refused : Reaches bar2Out 0 ∧ bar2Out.board.warmSeq = false ∧ bar2Out.mem.takeover = [] ∧
    64 + [9].length ≤ 2 ^ 36 ∧
    bar2Out.apertureOk 0 ((bar2Out.func 0).aperture.toNat * 2 ^ 30 + 64) [9].length = false := by decide +kernel

end F

namespace G

/-- Bytes `off` onward of `b` are the `len` bytes of `v`, for each triple. -/
def fields (n : Nat) (l : List (Nat × Nat × Nat)) : Bytes := l.foldl (fun b x => splice b x.1 (toLE x.2.1 x.2.2)) (zeros n)
def cmd (op : Nat) (l : List (Nat × Nat × Nat)) (got : Option (Option Bytes)) : Taken :=
  { slot := 9, seq := 7, bytes := fields 56 ((0, 1, op) :: l), at' := 100, wants := none, got }
def taking (t : Taken) : State := run0.modFunc 0 (fun x => { x with taken := [t] })
def withCtxs (s : State) (l : Tab Ctx) : State := { s with coll := { s.coll with ctxs := l } }

def slotOf (seq : Nat) : Bytes := fields 64 [(0, 1, 0), (56, 8, seq)]
def slotIn (seq : Nat) (r : Tab Result) : State := run0.modFunc 0 (fun x => { x with slots := putBytes 0 [] 64 (slotOf seq), results := r })
def nextIs : Bytes := slotOf 1
def q5 : DWord := 5
def q0 : DWord := 0
def reading : Taken := { cmd 1 [] none with wants := some (64, 64) }

def aNop : Taken := cmd 0 [] none
def rsvd : Taken := cmd 0x15 [] none
def lostRead : Taken := cmd 0x13 [] (some none)
def aCommit : Taken := cmd 3 [] none
def aGrant0 : Taken := cmd 0xB [(2, 2, 5)] none
def inHold : State := { taking aCommit with dev := .hold }
def inGris : State := { withCtxs (taking aGrant0) [(5, { st := .loading })] with dev := .grisaille }

/-- A template: OP 1 on FP32, one chunk, one rank, GEN_TIMEOUT 1. -/
def aTemplate : Bytes := fields 64 [(0, 1, 1), (1, 1, 1), (2, 1, 1), (3, 1, 1), (6, 1, 2), (8, 4, 1024), (14, 2, 1), (24, 2, 1), (48, 4, 1)]
def tCtx : Ctx := { tmpl := aTemplate, owner := 0, strictAtOpen := false }
def anOpen : Taken := cmd 1 [(2, 2, 4095)] (some (some aTemplate))
def aClose : Taken := cmd 4 [(2, 2, 4095)] none
def anAbort : Taken := cmd 5 [(2, 2, 4095)] none
def gen0 : Gen := { num := 9, ref := { rank := 0, raw := [], src := 0 }, enters := [], t0 := 0, path := .tree }
def opened (k : Nat) (w : Nat) : State :=
  { run0 with coll := { run0.coll with ctxs := [(4095, { tCtx with st := .granting })], opens := [⟨4095, k, w⟩] } }
def wait1 (k : Nat) : OpenWait := ⟨4095, k, 4⟩
def sketch0 : Nat := run0.mem.sketchBase

def loadingCtx (r : Tab Rank) (w : List Nat) : Ctx := { tCtx with st := .loading, tmpl := aTemplate, roster := r, written := w }
def aRoster (n : Nat) : Taken := cmd 2 [(2, 2, 5), (8, 4, n)] (some (some (toLE 8 0x0000000700000001)))
def roster1 : Bytes := toLE 8 0x0000000700000001
def rostering (t : Taken) : State := withCtxs (taking t) [(5, loadingCtx [] [])]
def commit5 : Taken := cmd 3 [(2, 2, 5)] none
def committing (w : List Nat) : State := withCtxs (taking commit5) [(5, loadingCtx [(0, { endpoint := 1, epoch := 7 })] w)]

/-- An image with one study of one instruction for Intake, and its CHECK. -/
def imgBody : Bytes := fields 60 [(0, 4, 0x4D494E58), (4, 1, 1), (5, 1, 1), (16, 4, 64), (20, 2, 1), (22, 1, 1)]
def anImage : Bytes := imgBody ++ toLE 4 (crc32c imgBody) ++ toLE 4 (2 ^ 16) ++ toLE 8 (2 ^ 56)
def aLoad : Taken := cmd 6 [(4, 1, 255), (8, 4, 76)] (some (some anImage))
def aGroup : Taken := cmd 7 [(4, 1, 4), (5, 1, 2), (8, 4, 0x21)] none
def ungroup : Taken := cmd 7 [(4, 1, 4)] none
def withGroup (s : State) : State := { s with coll := { s.coll with groups := [⟨4, 2, [2]⟩] } }
def aStart : Taken := cmd 8 [(4, 1, 255), (5, 1, 2), (6, 1, 15), (8, 4, 1), (12, 4, 2)] none
def startable : State := (taking aStart).setEngine 255 .order { studies := [(15, { base := 0, len := 8, valid := true })] }
def anAssign : Taken := cmd 0x12 [(4, 1, 254), (5, 2, 2), (7, 1, 1)] none
def assigning : State := { taking anAssign with boot := { run0.boot with functions := 3 } }

def aBinding : Bytes := toLE 8 (run0.mem.paletteBase) ++ toLE 4 2 ++ toLE 1 1 ++ toLE 1 1 ++ zeros 2 ++ toLE 4 1 ++ zeros 12
def aBind : Taken := cmd 9 [(4, 1, 15), (8, 32, le aBinding)] none
def bound1 : Binding := { raw := aBinding, st := 1, owner := 0 }

def unbind1 : Taken := cmd 0xA [(4, 1, 15)] none
def isBound : State := (taking unbind1).setBinding 15 bound1
def pool0 : Nat := run0.mem.poolBase
def aGrant : Taken := cmd 0xB [(2, 2, 5), (4, 1, 3), (8, 8, pool0), (16, 4, 1)] none
def granting : State := withCtxs (taking aGrant) [(5, loadingCtx [] [])]
def aRetry : Taken := cmd 0x11 [(4, 1, 127)] none
def exRec : Bytes := toLE 12 1 ++ toLE 4 (crc32c (toLE 12 1))
def retrying : State := (taking aRetry).mramWrite (exclusionAt 127) exRec
def aCircuit : Taken := cmd 0xC [(4, 2, 4095), (8, 3, 0), (12, 3, 64)] none
def circuiting : State := (taking aCircuit).setLPort 8 { cfg := edge0, st := .up, ver := 1 }
def aTear : Taken := cmd 0xD [(4, 2, 4095)] none
def aCirc : Circuit := { ent := BitVec.ofNat 64 1 }
def tearing : State := { taking aTear with fab := { run0.fab with circuits := [(4095, aCirc)] } }

def aCapture : Taken := cmd 0xE [(2, 2, 5), (4, 4, 9), (8, 4, 1), (12, 4, 1)] none
def g9 : Word := 9
def capturing : State := { withCtxs (taking aCapture) [(5, { tCtx with st := .ready })] with
  mem := { run0.mem with layout := 0x110410 } }
def aClear : Taken := cmd 0xF [] none
def oneCapture : Capture := { base := 0, len := 4096, st := 1, ctx := 5, gen := 9, first := 0, last := 0, owner := 0 }
def clearing : State := { taking aClear with coll := { run0.coll with captures := [oneCapture] } }
def aReplay : Replay := { ctx := 5, out := 0x1000, shuffle := false, captured := [] }
def failedGen : Gen := { gen0 with failed := some 12 }
def replaying : State := { withCtxs run0 [(5, { tCtx with st := .ready, replay := true, gens := [failedGen] })] with
  coll := { run0.coll with replays := [aReplay], ctxs := [(5, { tCtx with st := .ready, replay := true, gens := [failedGen] })] } }

def anAttest : Taken := cmd 0x13 [(8, 8, 0x1000)] none
def anImageWrite : Taken := cmd 0x14 [(8, 4, 1088), (16, 8, 0x1000)] (some (some (zeros 1088)))
def aJob : NorJob := { f := 0, haddr := 0x1000, len := 0, digest := imgDigest [] }
def jobbing : State := { run0 with boot := { run0.boot with norJob := some aJob } }
/-- An image of firmware 0x42 with the factory tables, signed: its signed part, the modulus and the signature. The modulus is
three times one more than the encoded message M, so that M^65537 = M modulo it, and M is its own signature. -/
def imgSignedNum : Nat :=
  0x410000000010000031000000001000001100000000100000000011204010000000003230601000000010F2508010000000007340801000000017F7810010000000000000000000000000000000000000000000000000000000000000000F55A0BCC000000800000008000000002000000000000000000000000000000010000000000000000000000000000000000000000000000000000000000000000000000000000000000000000000000000000004200000100000200015A435A49
def imgModulus : Nat :=
  0xD23CCDA30AE76CFBE8D076443FB163C4A4D103999758CB952594BA971C139A904A53425877D59F9EAB89A55FE6F9C946A9A9429EF4E11235ACD4AD89A16AA581001297B3EC39B94CB30B2250A5773407EF8F9FCECACDD49362FA6BD939BBBEA9DBC8748C57B07EB716D2A954AEB4F49A87C2A628FFBA2E0366B269E71E8609F2F28F1B7F6B1477282E98BF82389784D338712DFF94E0B4C9107C7E4083A486EBE8BFDAE44387AAAC39A2183C1BBDEF09EBDEC2EB237D97D69E05CA8F68DBF85A07E596D5A748C26865DB49893AC0F7C09ED41A91B284D39E1F97FBE46C7289D0B102499E05CB225B26304900CF515B9707C64E9F73A95B46BE5E2382D18125558E760BABA0F6A74830F9318BFE17FF12D32520CFACD17DEB13BD97F65D4E9D88707D587644B0F19E1676A5B1A021F30E8E405394D4CBAE2FCF5B05DD5BDA3965782B4FE2C6950827E6068A7D6E7475A0E1F291A1297FB2F549A9ED49232D16DB391AE1F491B957D67BD19C85352432486DF6F826D577F51A4769721DEE7C2A37
def imgSignature : Nat :=
  0x4614448BAE4D2453F8457CC16A907696E19B01333272EE870C86E8DD095BDE3018C66B72D29C8A8A392DE1CAA25343178DE31634FC4B0611E446E48335CE372B000632914EBDE86EE6590B703727BC02A52FDFEF98EF46DBCBA8CE9DBDE93F8DF3ED7C2EC7E57F925CF0E31C3A3C5188D7EB8CB8553E0F567790CDF7B4D758A650DA5E7FCE5C27B80F883FD612DD2C466825B9FFDC4AE6EDB0297F6AD68C2CF94D9548F6C12D38E413360814093F4FADF94A40F90BD487F234AC98DA784952C8AD4C879C8D1840CD774918831395A7EADF9C08DB3B819BDF5FDD53F6CED0D89AE5AB6DDF5743B61E621018559A7073DD02976F8A7BE31E6CEA1F612B9B2B0C71DA27593935A78D1810531083FF5D55064661B59A8EF07F4E5BE9DD521F1A3482D029C8276C3AFB34B2278C908AB5FBAF84C01BDC46EE8F65451E5749C948BDCC7D63C54B978702B7F757837F24D17C8AF5FB85E0632A90FC6DE34F18610F079E685E4B5185E8729CD3F08981BC61661824A7A80CF1D2A708C2787B5F4F7EB8BC
def goodImage : Bytes := toLE 256 imgSignedNum ++ toBE 384 imgModulus ++ toBE 4 65537 ++ zeros 124 ++ toBE 384 imgSignature ++ zeros 128
def goodFuses : Fuses := { run0.boot.fuses with keyHash := toBE 32 0xB070A0A65CB51B104BC69F108F3F7A05C8F0F22E0C426854F01602BC778368C2 }
def goodWrite : Taken := cmd 0x14 [(8, 4, 1280), (16, 8, 0x1000)] (some (some goodImage))
def goodState : State := { taking goodWrite with boot := { run0.boot with fuses := goodFuses } }

theorem wit_take_cmd : 0 < 4 ∧ (slotIn 1 []).hostWorks = true ∧ (slotIn 1 []).enabled 0 = true ∧
    1 = BitVec.toNat ((slotIn 1 []).func 0).next % 256 ∧
    leAt (((slotIn 1 []).func 0).slotBytes 1) 56 8 = BitVec.toNat ((slotIn 1 []).func 0).next ∧
    (((slotIn 1 []).func 0).result 1).st = 0 := by decide +kernel
def openSlot : Bytes := fields 64 [(0, 1, 1), (2, 2, 5), (8, 8, 0x1000), (56, 8, 1)]
def slotOpen : State := run0.modFunc 0 (fun x => { x with slots := putBytes 0 [] 64 openSlot })
theorem wit_take_read : 0 < 4 ∧ slotOpen.hostWorks = true ∧ slotOpen.enabled 0 = true ∧ 1 = (slotOpen.func 0).next.toNat % 256 ∧
    leAt ((slotOpen.func 0).slotBytes 1) 56 8 = (slotOpen.func 0).next.toNat ∧ ((slotOpen.func 0).result 1).st = 0 ∧
    wantsOf ((slotOpen.func 0).slotBytes 1) = some (0x1000, 64) := by decide +kernel
theorem wit_take_busy : 0 < 4 ∧ (slotIn 1 [(1, { st := 2 })]).hostWorks = true ∧ (slotIn 1 [(1, { st := 2 })]).enabled 0 = true ∧
    1 = BitVec.toNat ((slotIn 1 [(1, { st := 2 })]).func 0).next % 256 ∧
    leAt (((slotIn 1 [(1, { st := 2 })]).func 0).slotBytes 1) 56 8 = BitVec.toNat ((slotIn 1 [(1, { st := 2 })]).func 0).next ∧
    (((slotIn 1 [(1, { st := 2 })]).func 0).result 1).st ≠ 0 := by decide +kernel
theorem wit_take_seq : 0 < 4 ∧ (slotIn 5 []).hostWorks = true ∧ (slotIn 5 []).enabled 0 = true ∧
    1 = BitVec.toNat ((slotIn 5 []).func 0).next % 256 ∧ BitVec.toNat q5 = leAt (((slotIn 5 []).func 0).slotBytes 1) 56 8 ∧
    q5 ≠ ((slotIn 5 []).func 0).next ∧ q5 ≠ 0 ∧ q5 ≠ ((slotIn 5 []).func 0).next - 256 ∧
    tget? ((slotIn 5 []).func 0).errLast 1 ≠ some q5 := by decide +kernel
def seqAgain : State := (slotIn 5 []).modFunc 0 (fun x => { x with errLast := [(1, q5)] })
theorem wit_take_seq_again : 0 < 4 ∧ seqAgain.hostWorks = true ∧ seqAgain.enabled 0 = true ∧ 1 = (seqAgain.func 0).next.toNat % 256 ∧
    q5.toNat = leAt ((seqAgain.func 0).slotBytes 1) 56 8 ∧ q5 ≠ (seqAgain.func 0).next ∧ q5 ≠ 0 ∧ q5 ≠ (seqAgain.func 0).next - 256 ∧
    tget? (seqAgain.func 0).errLast 1 = some q5 := by decide +kernel
theorem wit_take_seq_room : (slotIn 5 []).diary.queue.length < 64 := by decide +kernel
theorem wit_take_empty : 0 < 4 ∧ (slotIn 0 []).hostWorks = true ∧ (slotIn 0 []).enabled 0 = true ∧
    1 = BitVec.toNat ((slotIn 0 []).func 0).next % 256 ∧ BitVec.toNat q0 = leAt (((slotIn 0 []).func 0).slotBytes 1) 56 8 ∧
    q0 ≠ ((slotIn 0 []).func 0).next ∧
    (q0 = 0 ∨ q0 = ((slotIn 0 []).func 0).next - 256) := by decide +kernel
theorem wit_host_read : 0 < 4 ∧ (taking reading).hostWorks = true ∧ (taking reading).enabled 0 = true ∧
    1 = BitVec.toNat ((taking reading).func 0).next % 256 ∧ ((taking reading).func 0).taken = [] ++ [reading] ∧
    (∀ (x : Taken), x ∈ [] → x.ready = true) ∧ reading.ready = false := by decide +kernel
theorem wit_nop_completes : 0 < 4 ∧ AtEffect (taking aNop) 0 0 aNop [] ∧ aNop.failedRead = false := by decide +kernel
theorem wit_nop_none : 0 < 4 ∧ (run0.func 0).taken = [] := by decide +kernel
theorem wit_nop_other : 0 < 4 ∧ ((taking aCommit).func 0).taken = [aCommit] ∧
    (0 < leAt aCommit.bytes 0 1 ∧ leAt aCommit.bytes 0 1 ≤ 0x14 ∨ (taking aCommit).turnOf 0 aCommit = false ∨ (taking aCommit).norBusy 0 = true) := by
  decide +kernel
/-- PF1 took its command before PF0 took its own. -/
def earlierPf1 : State := { (taking aNop).modFunc 1 (fun x => { x with taken := [{ aNop with at' := 99 }] }) with boot := { run0.boot with functions := 3 } }
theorem wit_nop_turn : 0 < 4 ∧ (earlierPf1.func 0).taken = [aNop] ∧ earlierPf1.turnOf 0 aNop = false := by decide +kernel
/-- An IMAGE_WRITE of PF0 has not completed. -/
def norWaits : State := { taking aNop with boot := { run0.boot with norJob := some { f := 0, haddr := 0x1000, len := 0, digest := [] } } }
theorem wit_nop_nor : 0 < 4 ∧ (norWaits.func 0).taken = [aNop] ∧ norWaits.norBusy 0 = true := by decide +kernel
theorem wit_cmd_nop : Accepted (taking aNop) 0 0 aNop [] := by decide +kernel
theorem wit_cmd_reserved : AtEffect (taking rsvd) 0 21 rsvd [] ∧ 20 < 21 ∧ (taking rsvd).dev = DevSt.running ∧
    rsvd.failedRead = false := by decide +kernel
theorem wit_cmd_lost_read : AtEffect (taking lostRead) 0 19 lostRead [] ∧ (taking lostRead).dev = DevSt.running ∧
    lostRead.failedRead = true ∧ leAt lostRead.bytes 8 8 % 64 = 0 := by decide +kernel
theorem wit_cmd_hold : AtEffect inHold 0 3 aCommit [] ∧ inHold.dev = DevSt.hold := by decide +kernel
theorem wit_cmd_degraded : AtEffect inGris 0 11 aGrant0 [] ∧ inGris.dev = DevSt.grisaille ∧ aGrant0.failedRead = false ∧
    foreign (inGris.ctx aGrant0.ctx) 0 = false ∧ (inGris.ctx aGrant0.ctx).replay = false ∧ (inGris.ctx aGrant0.ctx).st = CtxSt.loading ∧
    leAt aGrant0.bytes 16 4 = 0 := by decide +kernel
theorem wit_open_ctx : 4095 = leAt anOpen.bytes 2 2 % 4096 ∧ Accepted (taking anOpen) 0 1 anOpen [] ∧ leAt anOpen.bytes 8 8 % 64 = 0 ∧
    anOpen.got = some (some aTemplate) ∧ ((taking anOpen).ctx 4095).st = CtxSt.free ∧
    tCtx = { tmpl := aTemplate, strictAtOpen := (taking anOpen).coll.strict } ∧
    lowest ((took (taking anOpen) 0 []).openChecks 0 4095 tCtx) = none := by decide +kernel
theorem wit_close : 4095 = leAt aClose.bytes 2 2 % 4096 ∧
    Accepted (withCtxs (taking aClose) [(4095, { tCtx with st := CtxSt.ready })]) 0 4 aClose [] ∧
    ((withCtxs (taking aClose) [(4095, { tCtx with st := CtxSt.ready })]).ctx 4095).st ≠ CtxSt.free ∧
    ((withCtxs (taking aClose) [(4095, { tCtx with st := CtxSt.ready })]).ctx 4095).owner = 0 ∧
    ((withCtxs (taking aClose) [(4095, { tCtx with st := CtxSt.ready })]).ctx 4095).st ≠ CtxSt.draining := by decide +kernel
theorem wit_close_busy : 4095 = leAt aClose.bytes 2 2 % 4096 ∧
    Accepted (withCtxs (taking aClose) [(4095, { tCtx with st := CtxSt.ready, gens := [gen0] })]) 0 4 aClose [] ∧
    ((withCtxs (taking aClose) [(4095, { tCtx with st := CtxSt.ready, gens := [gen0] })]).ctx 4095).st ≠ CtxSt.free ∧
    ((withCtxs (taking aClose) [(4095, { tCtx with st := CtxSt.ready, gens := [gen0] })]).ctx 4095).owner = 0 ∧
    ((withCtxs (taking aClose) [(4095, { tCtx with st := CtxSt.ready, gens := [gen0] })]).ctx 4095).st ≠ CtxSt.draining := by decide +kernel
theorem wit_abort : 4095 = leAt anAbort.bytes 2 2 % 4096 ∧
    Accepted (withCtxs (taking anAbort) [(4095, { tCtx with st := CtxSt.draining })]) 0 5 anAbort [] ∧
    ((withCtxs (taking anAbort) [(4095, { tCtx with st := CtxSt.draining })]).ctx 4095).st ≠ CtxSt.free ∧
    ((withCtxs (taking anAbort) [(4095, { tCtx with st := CtxSt.draining })]).ctx 4095).owner = 0 := by decide +kernel
theorem wit_granted : 4095 = leAt anAbort.bytes 2 2 % 4096 ∧ (opened 100 4).coll.opens = [wait1 100] ∧
    (opened 100 4).grantAt ((opened 100 4).ctx (wait1 100).ctx) = some sketch0 ∧ (opened 100 4).aclk = true ∧
    (opened 100 4).dev = DevSt.running ∧ ((opened 100 4).ctx (wait1 100).ctx).replay = false := by decide +kernel
theorem wit_open_wait : 4095 = leAt anAbort.bytes 2 2 % 4096 ∧
    (List.find? (fun o ↦ o.ctx == 4095) (opened 0 4).coll.opens = some (wait1 0)) ∧ (opened 0 4).aclk = true ∧ 0 < (wait1 0).limit ∧
    (wait1 0).accepted + (wait1 0).limit * Config.msAclk ≤ (opened 0 4).now := by decide +kernel
theorem wit_open_wait_early : 4095 = leAt anAbort.bytes 2 2 % 4096 ∧
    (List.find? (fun o ↦ o.ctx == 4095) (opened 1 4).coll.opens = some (wait1 1)) ∧ 0 < (wait1 1).limit ∧
    (opened 1 4).now < (wait1 1).accepted + (wait1 1).limit * Config.msAclk := by decide +kernel
theorem wit_roster : 5 = leAt (aRoster 1).bytes 2 2 % 4096 ∧ ((rostering (aRoster 1)).ctx 5).owner = 0 ∧
    ((rostering (aRoster 1)).ctx 5).st = CtxSt.loading ∧ ((rostering (aRoster 1)).ctx 5).replay = false ∧
    0 = leAt (aRoster 1).bytes 4 4 % 2 ^ 20 ∧ 1 = leAt (aRoster 1).bytes 8 4 ∧ Accepted (rostering (aRoster 1)) 0 2 (aRoster 1) [] ∧
    leAt (aRoster 1).bytes 16 8 % 64 = 0 ∧ 1 ≤ 1 ∧ 1 ≤ 2 ^ 20 ∧ 0 + 1 ≤ ((rostering (aRoster 1)).ctx 5).rosterN ∧
    (aRoster 1).got = some (some roster1) := by decide +kernel
theorem wit_roster_range : 5 = leAt (aRoster 2).bytes 2 2 % 4096 ∧ ((rostering (aRoster 2)).ctx 5).owner = 0 ∧
    ((rostering (aRoster 2)).ctx 5).st = CtxSt.loading ∧ ((rostering (aRoster 2)).ctx 5).replay = false ∧
    0 = leAt (aRoster 2).bytes 4 4 % 2 ^ 20 ∧ 2 = leAt (aRoster 2).bytes 8 4 ∧ Accepted (rostering (aRoster 2)) 0 2 (aRoster 2) [] ∧
    leAt (aRoster 2).bytes 16 8 % 64 = 0 ∧ 1 ≤ 2 ∧ 2 ≤ 2 ^ 20 ∧ ((rostering (aRoster 2)).ctx 5).rosterN < 0 + 2 := by decide +kernel
theorem wit_commit : 5 = leAt commit5.bytes 2 2 % 4096 ∧ ((committing [0]).ctx 5).owner = 0 ∧
    ((committing [0]).ctx 5).st = CtxSt.loading ∧ ((committing [0]).ctx 5).replay = false ∧ 0 = leAt commit5.bytes 4 4 % 2 ^ 20 ∧
    0 = leAt commit5.bytes 8 4 ∧ Accepted (committing [0]) 0 3 commit5 [] ∧
    (took (committing [0]) 0 []).commitBad ((committing [0]).ctx 5) = false := by decide +kernel
theorem wit_commit_bad : 5 = leAt commit5.bytes 2 2 % 4096 ∧ ((committing []).ctx 5).owner = 0 ∧
    ((committing []).ctx 5).st = CtxSt.loading ∧ ((committing []).ctx 5).replay = false ∧ 0 = leAt commit5.bytes 4 4 % 2 ^ 20 ∧
    0 = leAt commit5.bytes 8 4 ∧ Accepted (committing []) 0 3 commit5 [] ∧
    (took (committing []) 0 []).commitBad ((committing []).ctx 5) = true := by decide +kernel
theorem wit_cmd_load : 255 = leAt aLoad.bytes 4 1 ∧ 0 = leAt aLoad.bytes 5 1 % 16 ∧ Accepted (taking aLoad) 0 6 aLoad [] ∧
    leAt aLoad.bytes 16 8 % 64 = 0 ∧ 64 ≤ leAt aLoad.bytes 8 4 ∧ leAt aLoad.bytes 8 4 ≤ 1048576 ∧ aLoad.got = some (some anImage) ∧
    255 + 2 ^ 0 ≤ (taking aLoad).easelCount ∧ (taking aLoad).foreignEasel 0 255 (2 ^ 0) = false ∧
    lowest ((took (taking aLoad) 0 []).loadChecks anImage 255 0) = none := by decide +kernel
theorem wit_group : 4 = leAt aGroup.bytes 4 1 ∧ 2 = leAt aGroup.bytes 5 1 % 16 ∧ Accepted (taking aGroup) 0 7 aGroup [] ∧
    lowest ((took (taking aGroup) 0 []).groupChecks 0 4 2 (leAt aGroup.bytes 8 4)) = none := by decide +kernel
theorem wit_ungroup : 4 = leAt ungroup.bytes 4 1 ∧ 0 = leAt ungroup.bytes 5 1 % 16 ∧
    Accepted (withGroup (taking ungroup)) 0 7 ungroup [] ∧
    lowest ((took (withGroup (taking ungroup)) 0 []).groupChecks 0 4 0 (leAt ungroup.bytes 8 4)) = none := by decide +kernel
theorem wit_start : 255 = leAt aStart.bytes 4 1 ∧ 2 = leAt aStart.bytes 5 1 % 16 ∧ Accepted startable 0 8 aStart [] ∧
    startable.isEasel 255 = true ∧ (startable.easel 255).owner = 0 ∧ startable.boundTo 255 = [] ∧
    EngId.ofId? (leAt aStart.bytes 5 1 % 8) = some EngId.order ∧ startable.hasEngine EngId.order = true ∧
    (startable.engine 255 EngId.order).st = EngSt.idle ∧ (startable.easel 255).stopAt = none ∧ 15 = leAt aStart.bytes 6 1 % 16 ∧
    ((startable.engine 255 EngId.order).studyAt 15).valid = true ∧ startable.pushCycle = true ∧
    (startable.engine 255 EngId.order).startq.length < 16 := by decide +kernel
def anEntry : StartEntry := { study := 15, ctx := 0, gen := 0, chunk := 0, a0 := 0, a1 := 0, a2 := 0, a3 := 0, arrived := 0, test := true }
/-- A full start queue, and a power share of which this cycle pushes nothing. -/
def startFull : State := startable.setEngine 255 .order { startable.engine 255 .order with startq := List.replicate 16 anEntry }
def startSlow : State := { startable with board := { startable.board with share := 8192 } }
abbrev startsAt (s : State) : Prop := 255 = leAt aStart.bytes 4 1 ∧ 2 = leAt aStart.bytes 5 1 % 16 ∧ Accepted s 0 8 aStart [] ∧
    s.isEasel 255 = true ∧ (s.easel 255).owner = 0 ∧ s.boundTo 255 = [] ∧
    EngId.ofId? (leAt aStart.bytes 5 1 % 8) = some EngId.order ∧ s.hasEngine EngId.order = true ∧
    (s.engine 255 EngId.order).st = EngSt.idle ∧ (s.easel 255).stopAt = none ∧ 15 = leAt aStart.bytes 6 1 % 16 ∧
    ((s.engine 255 EngId.order).studyAt 15).valid = true
theorem wit_start_full : startsAt startFull ∧ (startFull.pushCycle = false ∨ 16 ≤ (startFull.engine 255 .order).startq.length) := by decide +kernel
theorem wit_start_slow : startsAt startSlow ∧ startSlow.pushCycle = false := by decide +kernel
theorem wit_bind : 15 = leAt aBind.bytes 4 1 % 16 ∧ 0 = leAt aBind.bytes 2 2 % 4096 ∧ 15 = leAt aBind.bytes 4 2 ∧
    bound1 = { raw := slice aBind.bytes 8 32, st := 1, owner := 0 } ∧ Accepted (taking aBind) 0 9 aBind [] ∧
    (((taking aBind).binding 15).st = 0 ∨ ((taking aBind).binding 15).owner = 0) ∧ (taking aBind).bindingNamed 15 = false ∧
    (taking aBind).bindingBad 15 bound1 = false := by decide +kernel
theorem wit_unbind : 15 = leAt unbind1.bytes 4 1 % 16 ∧ 0 = leAt unbind1.bytes 2 2 % 4096 ∧ 15 = leAt unbind1.bytes 4 2 ∧
    Accepted isBound 0 10 unbind1 [] ∧ (isBound.binding 15).st ≠ 0 ∧ (isBound.binding 15).owner = 0 := by decide +kernel
theorem wit_unbind_none : 15 = leAt unbind1.bytes 4 1 % 16 ∧ 0 = leAt unbind1.bytes 2 2 % 4096 ∧ 15 = leAt unbind1.bytes 4 2 ∧
    Accepted (taking unbind1) 0 10 unbind1 [] ∧ ((taking unbind1).binding 15).st = 0 := by decide +kernel
abbrev grants (s : State) : Prop := 3 = leAt aGrant.bytes 4 1 % 16 ∧ 5 = leAt aGrant.bytes 2 2 % 4096 ∧ 3 = leAt aGrant.bytes 4 2 ∧
    pool0 = leAt aGrant.bytes 8 8 ∧ 1 = leAt aGrant.bytes 16 4 ∧ 3 = leAt aGrant.bytes 4 1 % 4 ∧ Accepted s 0 11 aGrant [] ∧
    (s.ctx 5).owner = 0 ∧ (s.ctx 5).replay = false ∧ ((s.ctx 5).st = .loading ∨ (s.ctx 5).st = .ready ∧ (s.ctx 5).inflight = 0) ∧ 0 < 1 ∧
    pool0 % 4096 = 0 ∧ s.mem.grantable pool0 (1 * 4096) = true ∧
    (∀ (g : Nat × Nat), g ∈ s.othersGrants 0 → meets (pool0, 1 * 4096) g = false)
theorem wit_grant : grants granting := by decide +kernel
theorem wit_grant_ready : grants (withCtxs (taking aGrant) [(5, { tCtx with st := .ready })]) := by decide +kernel
theorem wit_hbm_retry : 15 = leAt aRetry.bytes 4 1 % 16 ∧ 0 = leAt aRetry.bytes 2 2 % 4096 ∧ 127 = leAt aRetry.bytes 4 2 ∧
    Accepted retrying 0 17 aRetry [] ∧ retrying.excluded (leAt aRetry.bytes 4 1 % 128) = true := by decide +kernel
theorem wit_circuit : 15 = leAt aCircuit.bytes 4 1 % 16 ∧ 0 = leAt aCircuit.bytes 2 2 % 4096 ∧ 4095 = leAt aCircuit.bytes 4 2 ∧
    0 = leAt aCircuit.bytes 8 3 ∧ 64 = leAt aCircuit.bytes 12 3 ∧ Accepted circuiting 0 12 aCircuit [] ∧ 4095 < 4096 ∧
    (circuiting.edgePort 0).isSome = true ∧ circuiting.circuit? 4095 = none := by decide +kernel
theorem wit_tear : 15 = leAt aTear.bytes 4 1 % 16 ∧ 0 = leAt aTear.bytes 2 2 % 4096 ∧ 4095 = leAt aTear.bytes 4 2 ∧
    Accepted tearing 0 13 aTear [] ∧ 4095 < 4096 ∧ tearing.circuit? 4095 = some aCirc ∧
    (aCirc.orig = true → aCirc.owner = 0) := by decide +kernel
theorem wit_capture : 5 = leAt aCapture.bytes 2 2 % 4096 ∧ g9 = BitVec.ofNat 32 (leAt aCapture.bytes 4 4) ∧
    1 = leAt aCapture.bytes 8 4 ∧ 1 = leAt aCapture.bytes 12 4 ∧ Accepted capturing 0 14 aCapture [] ∧ (capturing.ctx 5).owner = 0 ∧
    (capturing.ctx 5).st = CtxSt.ready ∧ dist32 (BitVec.toNat (capturing.ctx 5).gLow) (BitVec.toNat g9) < 2 ^ 31 ∧ 1 ≤ 1 ∧
    capturing.mem.captureGib ≠ 0 ∧ (∀ (k : Capture), k ∈ capturing.coll.captures → k.st = 1) := by decide +kernel
theorem wit_capture_clear : 0 = leAt aClear.bytes 2 2 % 4096 ∧ clearing.board.warmSeq = false ∧ Accepted clearing 0 15 aClear [] ∧
    clearing.coll.armed = none ∧ (∀ (k : Capture), k ∈ clearing.coll.captures → k.st ≠ 0) := by decide +kernel
/-- The sequence of a warm reset runs. -/
def warming (s : State) : State := { s with board := { s.board with warmSeq := true, warmRst := false } }
theorem wit_capture_warm : (warming clearing).board.warmSeq = true := by decide +kernel
theorem wit_replay_finish : 0 = leAt aClear.bytes 2 2 % 4096 ∧ replaying.replayEnded = some (aReplay, failedGen) ∧
    replaying.computing = true ∧ replaying.board.warmSeq = false := by decide +kernel
theorem wit_replay_none : 0 = leAt aClear.bytes 2 2 % 4096 ∧ (run0.replayEnded = none ∨ run0.board.warmSeq = true) := by decide +kernel
theorem wit_replay_warm : (warming replaying).replayEnded = none ∨ (warming replaying).board.warmSeq = true := by decide +kernel

/-- A COMPLETE capture of generation 9 at position 0 on one Easel, chunk 0: a template of one rank, its roster, the format table and the
thresholds, one image, no inputs and no outputs (13 R375). -/
def capFields : Bytes := fields 64 [(0, 4, 0x56524E43), (4, 1, 1), (5, 1, 1), (8, 4, 9), (32, 4, 4096), (36, 4, 224), (40, 4, 4320), (44, 4, 76),
  (48, 4, 4396), (56, 4, 4396)]
def capHead : Bytes := capFields ++ zeros 4028
def capRest : Bytes := toLE 4 0xCA4F418E ++ (aTemplate ++ roster1 ++ toLE 4 1 ++ tableBytes run0.formats ++ zeros 20) ++ anImage
def capB : Bytes := capHead ++ capRest
def aReplayCmd : Taken := cmd 0x10 [(2, 2, 4095), (4, 1, 255), (8, 8, captureBase), (16, 8, pool0)] none
/-- Memory with a capture region of 1 GiB. -/
def capMem : Mem := { run0.mem with layout := 0x110410 }
def capturedState : State := { taking aReplayCmd with mem := capMem.write captureBase capB }
theorem cap_length : capB.length = 4396 := by decide +kernel
theorem replay_read : (took capturedState 0 []).readCapture captureBase = capB := by
  have h : (took capturedState 0 []).mem.read captureBase 4396 = capB := by
    have := Mem.read_write capMem captureBase capB (by decide +kernel)
    rwa [cap_length] at this
  have h0 : (took capturedState 0 []).mem.read captureBase 4096 = capB.take 4096 := by
    rw [← h]; simp [Mem.read, ← List.map_take, List.take_range]
  have h1 : min (capEnd (capB.take 4096)) (max 4096 (if captureBase ≤ captureBase && captureBase < (took capturedState 0 []).mem.sketchBase
      then (took capturedState 0 []).mem.sketchBase - captureBase else (took capturedState 0 []).mem.hbmEnd - captureBase)) = 4396 := by decide +kernel
  unfold State.readCapture
  simp only [h0]
  rw [h1, h]
def replayU : State := (took capturedState 0 []).accessRun false captureBase 4396
def replayX : Ctx := replayU.replayCtx 0 255 capB
theorem crcRun_append (poly c : Nat) (a b : Bytes) : crcRun poly c (a ++ b) = crcRun poly (crcRun poly c a) b := by
  induction a generalizing c with
  | nil => rfl
  | cons x a ih => exact ih _
theorem zeros_add (a b : Nat) : zeros (a + b) = zeros a ++ zeros b := by simp [zeros]
/-- The CRC register after the first 64 bytes of the header and after each further 64 zeros. -/
def crcMarks : List Nat := [
  0x11B62CC7, 0x64E0C841, 0xF20CA01D, 0xEE72CC4F, 0xBD981465, 0x1BD2DE79, 0xA03AE6B8, 0x296FE9AE, 0x059CDA12, 0x71CE6E7F,
  0xDCB82422, 0x73E8C485, 0x0CC11733, 0xAB7DCD79, 0x9531AB3B, 0x153692EC, 0x2CDD0275, 0xFF6917E3, 0x2AA13919, 0xC6A6EE40,
  0x0B6199B0, 0x5B207186, 0xAD181817, 0x81D5E4F9, 0x1A4D5699, 0xA6336E56, 0x4C766A2A, 0x6E1953FE, 0x46BF3326, 0xB2FEFCE8,
  0x096117F3, 0x11B18D76, 0x5D8A2E54, 0xC486C3DF, 0x14899356, 0x7C54DE0D, 0x701826BA, 0x174BF09E, 0xAAF2C4BA, 0xF0626ECB,
  0xF965E23E, 0x89D7FD1A, 0x0262527D, 0x4CE2BF79, 0x29907FD5, 0x8CC7EC03, 0x4E211D19, 0xE45AD238, 0x08D95E39, 0x5D58F735,
  0xB07E06B4, 0xA3E24F21, 0xB8992E08, 0xB018F074, 0xB0150787, 0x8BE03C03, 0x647218C6, 0x2F7AD628, 0xB2F4E2ED, 0x933674CD,
  0xBAE178F9, 0xEEC99847, 0xA94B2574]
theorem crc_marks : (crcMarks.zip crcMarks.tail).all (fun p => crcRun 0x82F63B78 p.1 (zeros 64) == p.2) = true := by decide +kernel
theorem crc_chain (l : List Nat) (a : Nat) (h : ((a :: l).zip l).all (fun p => crcRun 0x82F63B78 p.1 (zeros 64) == p.2) = true) :
    crcRun 0x82F63B78 a (zeros (64 * l.length)) = l.getLast?.getD a := by
  induction l generalizing a with
  | nil => rfl
  | cons b l ih =>
    simp only [List.zip_cons_cons, List.all_cons, Bool.and_eq_true, beq_iff_eq] at h
    rw [show 64 * (b :: l).length = 64 + 64 * l.length by simp [Nat.mul_succ, Nat.add_comm], zeros_add, crcRun_append, h.1, ih b h.2]
    cases l <;> simp [List.getLast?_cons]
theorem slice_front (a b : Bytes) : slice (a ++ b) 0 a.length = a := by simp [slice]
theorem cap_crc_1 : crcRun 0x82F63B78 0xFFFFFFFF capFields = 0x11B62CC7 := by decide +kernel
theorem cap_crc_2 : crcRun 0x82F63B78 0x11B62CC7 (zeros (64 * 62)) = 0xA94B2574 := crc_chain crcMarks.tail 0x11B62CC7 crc_marks
theorem cap_crc_3 : crcRun 0x82F63B78 0xA94B2574 (zeros 60) = 0x35B0BE71 := by decide +kernel
theorem cap_crc_4 : crcRun 0x82F63B78 0xFFFFFFFF (capFields ++ (zeros (64 * 62) ++ zeros 60)) = 0x35B0BE71 := by
  rw [crcRun_append, cap_crc_1, crcRun_append, cap_crc_2, cap_crc_3]
theorem cap_head : capHead = capFields ++ (zeros (64 * 62) ++ zeros 60) := by rw [← zeros_add]; rfl
theorem crc32c_of {bs : Bytes} {r : Nat} (h : crcRun 0x82F63B78 0xFFFFFFFF bs = r) : crc32c bs = r ^^^ 0xFFFFFFFF := by rw [← h]; rfl
theorem cap_crc : crc32c capHead = 0xCA4F418E := by
  rw [cap_head, crc32c_of cap_crc_4]
  rfl
theorem cap_magic : (leAt capB 0 4 == 0x56524E43 && leAt capB 4 1 == 1) = true := by decide +kernel
theorem cap_check : leAt capB 4092 4 = 0xCA4F418E := by decide +kernel
theorem cap_front : slice capB 0 4092 = capHead := by
  have hl : capHead.length = 4092 := by decide +kernel
  have := slice_front capHead capRest
  rwa [hl] at this
theorem cap_headed : capHeaded capB = true := by
  unfold capHeaded
  rw [cap_magic, cap_front, cap_crc, cap_check]
  decide
theorem replay_checks : lowest (replayU.replayRange 0 4095 255 0 ++ replayU.captureChecks 0 255 0 capB replayX) = none := by
  unfold State.captureChecks
  rw [cap_headed]
  decide +kernel
theorem wit_replay : 4095 = leAt aReplayCmd.bytes 2 2 % 4096 ∧ 255 = leAt aReplayCmd.bytes 4 1 ∧ 0 = leAt aReplayCmd.bytes 5 1 % 16 ∧
    captureBase = leAt aReplayCmd.bytes 8 8 ∧ pool0 = leAt aReplayCmd.bytes 16 8 ∧ capturedState.board.warmSeq = false ∧
    Accepted capturedState 0 0x10 aReplayCmd [] ∧ capB = (took capturedState 0 []).readCapture captureBase ∧
    replayU = (took capturedState 0 []).accessRun false captureBase capB.length ∧ replayX = replayU.replayCtx 0 255 capB ∧
    foreign (replayU.ctx 4095) 0 = false ∧ replayU.mem.mapped captureBase 4096 = true ∧ replayU.mem.mapped pool0 32 = true ∧
    lowest (replayU.replayRange 0 4095 255 0 ++ replayU.captureChecks 0 255 0 capB replayX) = none :=
  ⟨by decide +kernel, by decide +kernel, by decide +kernel, by decide +kernel, by decide +kernel, by decide +kernel, by decide +kernel,
    replay_read.symm, by rw [cap_length]; rfl, rfl, by decide +kernel, by decide +kernel, by decide +kernel, replay_checks⟩
theorem wit_attest : 4096 = leAt anAttest.bytes 8 8 ∧ Accepted (taking anAttest) 0 19 anAttest [] ∧ 4096 % 64 = 0 := by decide +kernel
theorem wit_image_refused : 4096 = leAt anImageWrite.bytes 16 8 ∧ 1088 = leAt anImageWrite.bytes 8 4 ∧
    Accepted (taking anImageWrite) 0 20 anImageWrite [] ∧ 1088 % 64 = 0 ∧ 1088 ≤ 1088 ∧ 1088 ≤ 66060288 ∧ 4096 % 64 = 0 ∧
    anImageWrite.got = some (some (zeros 1088)) ∧
    (took (taking anImageWrite) 0 []).imageFault (took (taking anImageWrite) 0 []).blank (zeros 1088) ≠ none := by decide +kernel
theorem wit_nor_done : jobbing.boot.norJob = some aJob ∧ jobbing.hostWorks = true ∧ jobbing.boot.norAnswers = true ∧
    imgDigest (slice [] 0 aJob.len) = aJob.digest := by decide +kernel
/-- The digest of the second read is another one. -/
def otherJob : NorJob := { aJob with digest := zeros 32 }
def mismatch : State := { run0 with boot := { run0.boot with norJob := some otherJob } }
theorem wit_nor_mismatch : mismatch.boot.norJob = some otherJob ∧ mismatch.hostWorks = true ∧
    imgDigest (slice [] 0 otherJob.len) ≠ otherJob.digest := by decide +kernel
def norSilent : State := { jobbing with boot := { jobbing.boot with norAnswers := false } }
theorem wit_nor_silent : norSilent.boot.norJob = some aJob ∧ norSilent.hostWorks = true ∧ norSilent.boot.norAnswers = false := by decide +kernel
theorem wit_nor_none : run0.boot.norJob = none := by decide +kernel

theorem wit_assign : 254 = leAt anAssign.bytes 4 1 ∧ Accepted assigning 0 18 anAssign [] ∧ 2 = leAt anAssign.bytes 5 2 ∧
    1 = leAt anAssign.bytes 7 1 % 4 ∧ assigning.enabled 1 = true ∧ 254 + 2 ≤ assigning.easelCount ∧
    ∀ k, 254 ≤ k → k < 254 + 2 → assigning.groupOf k = none ∧ assigning.boundTo k = [] := by
  refine ⟨by decide +kernel, by decide +kernel, by decide +kernel, by decide +kernel, by decide +kernel, by decide +kernel, ?_⟩
  intro k h1 h2
  obtain rfl | rfl : k = 254 ∨ k = 255 := by omega
  · decide +kernel
  · decide +kernel
theorem image_format : imgFormatOk goodImage = true := by decide +kernel
theorem image_signature : sigOk goodImage = true := by decide +kernel
/-- The image passes where the fuses hold the digest of its key and its tables load. -/
theorem image_passes {s blank : State} (hk : s.keyOk goodImage = true) (hl : (blank.loadTables goodImage).isSome = true) :
    s.imageFault blank goodImage = none := by
  have h1 : (leAt goodImage 0 4 != 0x5A435A49) = false := by decide +kernel
  have h2 : (blank.loadTables goodImage).isNone = false := by
    cases h : blank.loadTables goodImage with
    | none => rw [h] at hl; cases hl
    | some v => rfl
  simp [State.imageFault, h1, h2, image_format, hk, image_signature]
theorem wit_image_write : 0x1000 = leAt goodWrite.bytes 16 8 ∧ 1280 = leAt goodWrite.bytes 8 4 ∧ Accepted goodState 0 20 goodWrite [] ∧
    1280 % 64 = 0 ∧ 0x1000 % 64 = 0 ∧ goodWrite.got = some (some goodImage) ∧
    (took goodState 0 []).imageFault (took goodState 0 []).blank goodImage = none :=
  ⟨by decide +kernel, by decide +kernel, by decide +kernel, by decide, by decide, rfl, image_passes (by decide +kernel) (by decide +kernel)⟩

end G

namespace H

def fields (n : Nat) (l : List (Nat × Nat × Nat)) : Bytes := l.foldl (fun b x => splice b x.1 (toLE x.2.1 x.2.2)) (zeros n)
/-- Two switches in dimension 0: 0, which is here, and 64. -/
def two : State := { run0 with fab := { run0.fab with shape := 0x20204082 } }
/-- A template: OP 1 on FP32, two ranks. -/
def tmpl2 : Bytes := fields 64 [(0, 1, 1), (1, 1, 1), (2, 1, 1), (3, 1, 1), (6, 1, 2), (8, 4, 1024), (14, 2, 1), (18, 1, 31), (24, 2, 1), (48, 4, 2)]
def roster2 : Tab Rank := [(0, { endpoint := 1, epoch := 7, home := 0 }), (1, { endpoint := 65, epoch := 7, home := 64 })]
def ctxR : Ctx := { st := .ready, tmpl := tmpl2, roster := roster2, gLow := 9, treeMax := 0x100000, fabricDigest := zeros 32, confirmed := [64] }
/-- An ENTER of a rank, with its epoch. -/
def enterBody (gen rank epoch : Nat) : Bytes := fields 64 [(0, 1, 1), (2, 2, 5), (4, 4, gen), (8, 4, rank), (12, 4, epoch), (16, 1, 1), (17, 1, 1), (20, 4, 1024)]
def ent0 (gen : Nat) : Entered := enteredOf 1 (enterBody gen 0 7)
def gen9 : Gen := { num := 9, ref := ent0 9, enters := [ent0 9], t0 := 0, path := .tree }
def late9 : Gen := { gen9 with t0 := 4000000 }
def failed9 : Gen := { gen9 with failed := some 12 }
def onCtx (s : State) (x : Ctx) : State := { s with coll := { s.coll with ctxs := [(5, x)] } }
def ctxG (y : Gen) : Ctx := { ctxR with gens := [y] }
def arrive (s : State) (a : Arrived) : State := { s with fab := { s.fab with inbox := [a] } }

def w32 (n : Nat) : Word := BitVec.ofNat 32 n
def outTile (sel : Nat) (test : Bool) : OutTile :=
  { bytes := mkTile 0 0 1 0 0 0 0 [], sel := w32 sel, sem := 31, ctx := 5, gen := 9, chunk := 0, test, pc := 4 }
def sends (t : OutTile) (x : Ctx) : State := (onCtx two x).modEasel 0 (fun e => { e with egress := [t] })
def mid (sel : Nat) (y : Gen) : State := sends (outTile sel false) (ctxG y)
def busyOut : State := { mid 0 gen9 with fab := { two.fab with outbox := [{ dest := 1, vc := 2, ftype := 0, body := [], bucket := 0 }] } }
def replayCtx : Ctx := { ctxG gen9 with replay := true }
def toRank0 : List Move := [.rank 0]
/-- Where the tile of `outTile 0 false` goes, and whether it may leave. -/
def goesTo (s : State) : Option (List Move) :=
  s.movesOf (s.ctx 5) gen9 ((s.geo (s.ctx 5)).node 0) 0 0 (outTile 0 false).sel
def mayGo (s : State) (l : List Move) : Bool :=
  s.clearFor ((s.ctx 5).vcOf gen9) (l.flatMap (s.peersOf (s.ctx 5) gen9 0)) (s.bodiesOf (s.ctx 5) gen9 0 l) (outTile 0 false).bytes

def enterOf (gen rank epoch : Nat) : Arrived :=
  { src := 1, vc := 2, ftype := 1, body := enterBody gen rank epoch, cells := 1, port := some 8, assoc := none }
def hairOf : Arrived := { src := 1, vc := 1, ftype := 2, body := enterBody 9 0 7 ++ zeros 32, cells := 1, port := some 8, assoc := none }
def enters (x : Ctx) (a : Arrived) : State := arrive (onCtx two x) a

def waitEnter (gen : Nat) : WaitEnter := { src := 1, vc := 2, body := enterBody gen 0 7, cells := 1 }

def tileBody (t ch : Nat) : Bytes := mkTile t ch 1 fValidx 0 0 0 []
def tileIn (t ch : Nat) : Arrived := { src := 1, vc := 2, ftype := 0, body := tileBody t ch, cells := 1, port := some 8, assoc := none }
def rxOf (r : Nat) : FlowRx := { enter := some (some (5, 9, r)) }
def flowOf (r : Nat) : Flow := { peer := 1, vc := 2, rx := some (rxOf r) }
def tiling (x : Ctx) (r : Nat) (a : Arrived) : State :=
  let s := enters x a
  { s with fab := { s.fab with flows := [flowOf r] } }
def fullCtx : Ctx := { ctxR with gens := [{ gen9 with chunks := [(1, { entry := true })] }] }
def num9 : Word := 9


def overCtx : Ctx := ctxG { gen9 with chunks := [(0, { entry := true, entered := [(0, 0)] })] }
def over9 : Gen := { gen9 with chunks := [(0, { entry := true })], path := .direct, failed := none }
def doneGen : Gen := { gen9 with failed := some 12, verdict := some (12, noFields) }


def msg (body : Bytes) : Arrived := { src := swKey 64, vc := 0, ftype := 3, body, cells := 1, port := some 8, assoc := none }
def checkMsg (d : Nat) : Arrived := msg (fields 64 [(0, 1, 0x11), (2, 2, 5), (16, 1, d)])
def sentAt (k : Nat) : State := onCtx two { ctxR with checkSent := k }
def mBody (ty st : Nat) : Bytes := fields 64 [(0, 1, ty), (1, 1, st), (2, 2, 5), (4, 4, 9), (12, 1, 1), (13, 1, 1), (16, 4, 1024)]
def theFields : Fields := { rank := 0, op := 1, fmt := 1, elements := 1024, root := 0, shift := 0 }
def told9 : Gen := { gen9 with verdict := some (0, theFields) }
def pose9 (r : Nat) : Gen := { gen9 with release := some r }
def there : State := { two with fab := { two.fab with here := 64 } }
def thereFail : State := arrive (onCtx there (ctxG gen9)) (msg (mBody 0x14 12))
def over1 : Gen := { gen9 with chunks := [(0, { entry := true, entered := [(0, 0), (0, 4294967360)], ended := EngId.all.map (fun e => (0, e)) })] }
def twoEntries : Gen := { gen9 with chunks := [(1, { entry := true })] }

theorem wit_send_test : (sends (outTile 0 true) ctxR).isEasel 0 = true ∧ (sends (outTile 0 true) ctxR).computing = true ∧
    ((sends (outTile 0 true) ctxR).easel 0).egress = [outTile 0 true] ∧ (outTile 0 true).test = true := by decide +kernel
theorem wit_send_failed : (mid 0 failed9).isEasel 0 = true ∧ (mid 0 failed9).computing = true ∧
    ((mid 0 failed9).easel 0).egress = [outTile 0 false] ∧
    ((mid 0 failed9).ctx (outTile 0 false).ctx).gen? (outTile 0 false).gen = some failed9 ∧
    failed9.failed.isSome = true := by decide +kernel
theorem wit_send_bad : (mid 16 gen9).isEasel 0 = true ∧ (mid 16 gen9).computing = true ∧
    ((mid 16 gen9).easel 0).egress = [outTile 16 false] ∧ (outTile 16 false).test = false ∧
    ((mid 16 gen9).ctx (outTile 16 false).ctx).gen? (outTile 16 false).gen = some gen9 ∧ gen9.failed = none ∧
    (mid 16 gen9).movesOf ((mid 16 gen9).ctx (outTile 16 false).ctx) gen9 (((mid 16 gen9).geo ((mid 16 gen9).ctx (outTile 16 false).ctx)).node ((outTile 16 false).chunk / 2 ^ 32)) (tTile (outTile 16 false).bytes / 2 ^ ((mid 16 gen9).ctx (outTile 16 false).ctx).ctLog2) (tTile (outTile 16 false).bytes) (outTile 16 false).sel = none := by decide +kernel
theorem wit_send_rank : (mid 0 gen9).isEasel 0 = true ∧ (mid 0 gen9).computing = true ∧
    ((mid 0 gen9).easel 0).egress = [outTile 0 false] ∧ (outTile 0 false).test = false ∧
    ((mid 0 gen9).ctx (outTile 0 false).ctx).gen? (outTile 0 false).gen = some gen9 ∧ gen9.failed = none ∧
    ((mid 0 gen9).ctx (outTile 0 false).ctx).replay = false ∧ BitVec.toNat (outTile 0 false).sel = 8 * 0 ∧
    0 < ((mid 0 gen9).ctx (outTile 0 false).ctx).rosterN ∧ 0 < 2 ^ 20 ∧
    (let s := mid 0 gen9
     let x := s.ctx 5
     s.clearFor (x.vcOf gen9) (s.peersOf x gen9 (tTile (outTile 0 false).bytes / 2 ^ x.ctLog2) (.rank 0))
       (s.bodiesOf x gen9 (tTile (outTile 0 false).bytes / 2 ^ x.ctLog2) [.rank 0]) (outTile 0 false).bytes = true) := by decide +kernel
theorem wit_send_waits : busyOut.isEasel 0 = true ∧ busyOut.computing = true ∧ (busyOut.easel 0).egress = [outTile 0 false] ∧
    (outTile 0 false).test = false ∧ (busyOut.ctx (outTile 0 false).ctx).gen? (outTile 0 false).gen = some gen9 ∧ gen9.failed = none ∧
    (busyOut.ctx (outTile 0 false).ctx).replay = false ∧ goesTo busyOut = some toRank0 ∧ mayGo busyOut toRank0 = false := by decide +kernel
theorem wit_send_moves : (mid 0 gen9).isEasel 0 = true ∧ (mid 0 gen9).computing = true ∧
    ((mid 0 gen9).easel 0).egress = [outTile 0 false] ∧ (outTile 0 false).test = false ∧
    ((mid 0 gen9).ctx 5).gen? 9 = some gen9 ∧ gen9.failed = none ∧ ((mid 0 gen9).ctx 5).replay = false ∧
    goesTo (mid 0 gen9) = some toRank0 ∧ mayGo (mid 0 gen9) toRank0 = true := by decide +kernel
theorem wit_send_no_gen : (mid 0 { gen9 with num := 8 }).isEasel 0 = true ∧ (mid 0 { gen9 with num := 8 }).computing = true ∧
    ((mid 0 { gen9 with num := 8 }).easel 0).egress = [outTile 0 false] ∧
    ((mid 0 { gen9 with num := 8 }).ctx 5).gen? (outTile 0 false).gen = none := by decide +kernel
theorem wit_send_replay : (sends (outTile 0 false) replayCtx).isEasel 0 = true ∧ (sends (outTile 0 false) replayCtx).computing = true ∧
    ((sends (outTile 0 false) replayCtx).easel 0).egress = [outTile 0 false] ∧ (outTile 0 false).test = false ∧
    ((sends (outTile 0 false) replayCtx).ctx (outTile 0 false).ctx).gen? (outTile 0 false).gen = some gen9 ∧ gen9.failed = none ∧
    ((sends (outTile 0 false) replayCtx).ctx (outTile 0 false).ctx).replay = true ∧
    (sends (outTile 0 false) replayCtx).movesOf ((sends (outTile 0 false) replayCtx).ctx (outTile 0 false).ctx) gen9 (((sends (outTile 0 false) replayCtx).geo ((sends (outTile 0 false) replayCtx).ctx (outTile 0 false).ctx)).node ((outTile 0 false).chunk / 2 ^ 32)) (tTile (outTile 0 false).bytes / 2 ^ ((sends (outTile 0 false) replayCtx).ctx (outTile 0 false).ctx).ctLog2) (tTile (outTile 0 false).bytes) (outTile 0 false).sel = some toRank0 := by decide +kernel
theorem wit_enter_state : (enters { ctxR with st := CtxSt.loading } (enterOf 9 0 7)).fabricUp = true ∧
    (enters { ctxR with st := CtxSt.loading } (enterOf 9 0 7)).front 1 2 = some (enterOf 9 0 7) ∧
    (enters { ctxR with st := CtxSt.loading } (enterOf 9 0 7)).flowWaits 1 2 = false ∧ (false = false → (enterOf 9 0 7).ftype = 1 ∧
    leAt (enterOf 9 0 7).body 0 1 = 1 ∧ List.length (enterOf 9 0 7).body = 64) ∧ (false = true → 2 = 1 ∧ (enterOf 9 0 7).ftype = 2 ∧
    64 < List.length (enterOf 9 0 7).body ∧
    (enters { ctxR with st := CtxSt.loading } (enterOf 9 0 7)).hairBlocked 1 (enterOf 9 0 7).body = false) ∧
    ((enters { ctxR with st := CtxSt.loading } (enterOf 9 0 7)).ctx (msgCtx (enterOf 9 0 7).body)).st ≠ CtxSt.ready ∧
    ((enters { ctxR with st := CtxSt.loading } (enterOf 9 0 7)).ctx (msgCtx (enterOf 9 0 7).body)).st ≠ CtxSt.draining := by decide +kernel
theorem wit_enter_field : (enters ctxR (enterOf 9 2 7)).fabricUp = true ∧
    (enters ctxR (enterOf 9 2 7)).front 1 2 = some (enterOf 9 2 7) ∧ (enters ctxR (enterOf 9 2 7)).flowWaits 1 2 = false ∧
    (false = false → (enterOf 9 2 7).ftype = 1 ∧ leAt (enterOf 9 2 7).body 0 1 = 1 ∧ List.length (enterOf 9 2 7).body = 64) ∧
    (false = true → 2 = 1 ∧ (enterOf 9 2 7).ftype = 2 ∧ 64 < List.length (enterOf 9 2 7).body ∧
    (enters ctxR (enterOf 9 2 7)).hairBlocked 1 (enterOf 9 2 7).body = false) ∧
    (((enters ctxR (enterOf 9 2 7)).ctx (msgCtx (enterOf 9 2 7).body)).st = CtxSt.ready ∧
    (enterReserved (slice (enterOf 9 2 7).body 0 64) = true ∨ ((enters ctxR (enterOf 9 2 7)).ctx (msgCtx (enterOf 9 2 7).body)).rosterN ≤ (enteredOf 1 (slice (enterOf 9 2 7).body 0 64)).rank)) := by decide +kernel
theorem wit_enter_fenced : (enters ctxR (enterOf 9 0 6)).fabricUp = true ∧
    (enters ctxR (enterOf 9 0 6)).front 1 2 = some (enterOf 9 0 6) ∧ (enters ctxR (enterOf 9 0 6)).flowWaits 1 2 = false ∧
    (false = false → (enterOf 9 0 6).ftype = 1 ∧ leAt (enterOf 9 0 6).body 0 1 = 1 ∧ List.length (enterOf 9 0 6).body = 64) ∧
    (false = true → 2 = 1 ∧ (enterOf 9 0 6).ftype = 2 ∧ 64 < List.length (enterOf 9 0 6).body ∧
    (enters ctxR (enterOf 9 0 6)).hairBlocked 1 (enterOf 9 0 6).body = false) ∧
    (((enters ctxR (enterOf 9 0 6)).ctx (msgCtx (enterOf 9 0 6).body)).st = CtxSt.ready ∧
    enterReserved (slice (enterOf 9 0 6).body 0 64) = false ∧
    (enteredOf 1 (slice (enterOf 9 0 6).body 0 64)).rank < ((enters ctxR (enterOf 9 0 6)).ctx (msgCtx (enterOf 9 0 6).body)).rosterN ∧
    (enters ctxR (enterOf 9 0 6)).isLocal ((enters ctxR (enterOf 9 0 6)).ctx (msgCtx (enterOf 9 0 6).body)) (enteredOf 1 (slice (enterOf 9 0 6).body 0 64)).rank = true) ∧
    ¬((enteredOf 1 (slice (enterOf 9 0 6).body 0 64)).epoch = (((enters ctxR (enterOf 9 0 6)).ctx (msgCtx (enterOf 9 0 6).body)).rank (enteredOf 1 (slice (enterOf 9 0 6).body 0 64)).rank).epoch ∧
    (((enters ctxR (enterOf 9 0 6)).ctx (msgCtx (enterOf 9 0 6).body)).rank (enteredOf 1 (slice (enterOf 9 0 6).body 0 64)).rank).live = true) := by decide +kernel
theorem wit_enter_sequence : (enters ctxR (enterOf 8 0 7)).fabricUp = true ∧
    (enters ctxR (enterOf 8 0 7)).front 1 2 = some (enterOf 8 0 7) ∧ (enters ctxR (enterOf 8 0 7)).flowWaits 1 2 = false ∧
    (false = false → (enterOf 8 0 7).ftype = 1 ∧ leAt (enterOf 8 0 7).body 0 1 = 1 ∧ List.length (enterOf 8 0 7).body = 64) ∧
    (false = true → 2 = 1 ∧ (enterOf 8 0 7).ftype = 2 ∧ 64 < List.length (enterOf 8 0 7).body ∧
    (enters ctxR (enterOf 8 0 7)).hairBlocked 1 (enterOf 8 0 7).body = false) ∧
    (((enters ctxR (enterOf 8 0 7)).ctx (msgCtx (enterOf 8 0 7).body)).st = CtxSt.ready ∧
    enterReserved (slice (enterOf 8 0 7).body 0 64) = false ∧
    (enteredOf 1 (slice (enterOf 8 0 7).body 0 64)).rank < ((enters ctxR (enterOf 8 0 7)).ctx (msgCtx (enterOf 8 0 7).body)).rosterN ∧
    (enters ctxR (enterOf 8 0 7)).isLocal ((enters ctxR (enterOf 8 0 7)).ctx (msgCtx (enterOf 8 0 7).body)) (enteredOf 1 (slice (enterOf 8 0 7).body 0 64)).rank = true) ∧
    ((enteredOf 1 (slice (enterOf 8 0 7).body 0 64)).epoch = (((enters ctxR (enterOf 8 0 7)).ctx (msgCtx (enterOf 8 0 7).body)).rank (enteredOf 1 (slice (enterOf 8 0 7).body 0 64)).rank).epoch ∧
    (((enters ctxR (enterOf 8 0 7)).ctx (msgCtx (enterOf 8 0 7).body)).rank (enteredOf 1 (slice (enterOf 8 0 7).body 0 64)).rank).live = true) ∧
    2 ^ 31 ≤ dist32 (BitVec.toNat ((enters ctxR (enterOf 8 0 7)).ctx (msgCtx (enterOf 8 0 7).body)).gLow) (BitVec.toNat (msgGen (enterOf 8 0 7).body)) := by decide +kernel
theorem wit_enter_waits : (enters ctxR (enterOf 17 0 7)).fabricUp = true ∧
    (enters ctxR (enterOf 17 0 7)).front 1 2 = some (enterOf 17 0 7) ∧ (enters ctxR (enterOf 17 0 7)).flowWaits 1 2 = false ∧
    (false = false → (enterOf 17 0 7).ftype = 1 ∧ leAt (enterOf 17 0 7).body 0 1 = 1 ∧ List.length (enterOf 17 0 7).body = 64) ∧
    (false = true → 2 = 1 ∧ (enterOf 17 0 7).ftype = 2 ∧ 64 < List.length (enterOf 17 0 7).body ∧
    (enters ctxR (enterOf 17 0 7)).hairBlocked 1 (enterOf 17 0 7).body = false) ∧
    (((enters ctxR (enterOf 17 0 7)).ctx (msgCtx (enterOf 17 0 7).body)).st = CtxSt.ready ∧
    enterReserved (slice (enterOf 17 0 7).body 0 64) = false ∧
    (enteredOf 1 (slice (enterOf 17 0 7).body 0 64)).rank < ((enters ctxR (enterOf 17 0 7)).ctx (msgCtx (enterOf 17 0 7).body)).rosterN ∧
    (enters ctxR (enterOf 17 0 7)).isLocal ((enters ctxR (enterOf 17 0 7)).ctx (msgCtx (enterOf 17 0 7).body)) (enteredOf 1 (slice (enterOf 17 0 7).body 0 64)).rank = true) ∧
    ((enteredOf 1 (slice (enterOf 17 0 7).body 0 64)).epoch = (((enters ctxR (enterOf 17 0 7)).ctx (msgCtx (enterOf 17 0 7).body)).rank (enteredOf 1 (slice (enterOf 17 0 7).body 0 64)).rank).epoch ∧
    (((enters ctxR (enterOf 17 0 7)).ctx (msgCtx (enterOf 17 0 7).body)).rank (enteredOf 1 (slice (enterOf 17 0 7).body 0 64)).rank).live = true) ∧
    ((enters ctxR (enterOf 17 0 7)).ctx (msgCtx (enterOf 17 0 7).body)).gen? (msgGen (enterOf 17 0 7).body) = none ∧
    8 ≤ dist32 (BitVec.toNat ((enters ctxR (enterOf 17 0 7)).ctx (msgCtx (enterOf 17 0 7).body)).gLow) (BitVec.toNat (msgGen (enterOf 17 0 7).body)) ∧
    dist32 (BitVec.toNat ((enters ctxR (enterOf 17 0 7)).ctx (msgCtx (enterOf 17 0 7).body)).gLow) (BitVec.toNat (msgGen (enterOf 17 0 7).body)) < 2 ^ 31 := by decide +kernel
theorem wit_enter : (enters ctxR (enterOf 16 0 7)).fabricUp = true ∧ (enters ctxR (enterOf 16 0 7)).front 1 2 = some (enterOf 16 0 7) ∧
    (enters ctxR (enterOf 16 0 7)).flowWaits 1 2 = false ∧ (false = false → (enterOf 16 0 7).ftype = 1 ∧
    leAt (enterOf 16 0 7).body 0 1 = 1 ∧ List.length (enterOf 16 0 7).body = 64) ∧ (false = true → 2 = 1 ∧ (enterOf 16 0 7).ftype = 2 ∧
    64 < List.length (enterOf 16 0 7).body ∧ (enters ctxR (enterOf 16 0 7)).hairBlocked 1 (enterOf 16 0 7).body = false) ∧
    (((enters ctxR (enterOf 16 0 7)).ctx (msgCtx (enterOf 16 0 7).body)).st = CtxSt.ready ∧
    enterReserved (slice (enterOf 16 0 7).body 0 64) = false ∧
    (enteredOf 1 (slice (enterOf 16 0 7).body 0 64)).rank < ((enters ctxR (enterOf 16 0 7)).ctx (msgCtx (enterOf 16 0 7).body)).rosterN ∧
    (enters ctxR (enterOf 16 0 7)).isLocal ((enters ctxR (enterOf 16 0 7)).ctx (msgCtx (enterOf 16 0 7).body)) (enteredOf 1 (slice (enterOf 16 0 7).body 0 64)).rank = true) ∧
    ((enteredOf 1 (slice (enterOf 16 0 7).body 0 64)).epoch = (((enters ctxR (enterOf 16 0 7)).ctx (msgCtx (enterOf 16 0 7).body)).rank (enteredOf 1 (slice (enterOf 16 0 7).body 0 64)).rank).epoch ∧
    (((enters ctxR (enterOf 16 0 7)).ctx (msgCtx (enterOf 16 0 7).body)).rank (enteredOf 1 (slice (enterOf 16 0 7).body 0 64)).rank).live = true) ∧
    ((enters ctxR (enterOf 16 0 7)).ctx (msgCtx (enterOf 16 0 7).body)).gen? (msgGen (enterOf 16 0 7).body) = none ∧
    dist32 (BitVec.toNat ((enters ctxR (enterOf 16 0 7)).ctx (msgCtx (enterOf 16 0 7).body)).gLow) (BitVec.toNat (msgGen (enterOf 16 0 7).body)) < 8 := by decide +kernel
theorem wit_hairline_enter : (enters { ctxR with hairMax := 4096 } hairOf).fabricUp = true ∧
    (enters { ctxR with hairMax := 4096 } hairOf).front 1 1 = some hairOf ∧
    (enters { ctxR with hairMax := 4096 } hairOf).flowWaits 1 1 = false ∧ (true = false → hairOf.ftype = 1 ∧ leAt hairOf.body 0 1 = 1 ∧
    List.length hairOf.body = 64) ∧ (true = true → 1 = 1 ∧ hairOf.ftype = 2 ∧ 64 < List.length hairOf.body ∧
    (enters { ctxR with hairMax := 4096 } hairOf).hairBlocked 1 hairOf.body = false) ∧
    (((enters { ctxR with hairMax := 4096 } hairOf).ctx (msgCtx hairOf.body)).st = CtxSt.ready ∧
    enterReserved (slice hairOf.body 0 64) = false ∧
    (enteredOf 1 (slice hairOf.body 0 64)).rank < ((enters { ctxR with hairMax := 4096 } hairOf).ctx (msgCtx hairOf.body)).rosterN ∧
    (enters { ctxR with hairMax := 4096 } hairOf).isLocal ((enters { ctxR with hairMax := 4096 } hairOf).ctx (msgCtx hairOf.body)) (enteredOf 1 (slice hairOf.body 0 64)).rank = true) ∧
    ((enteredOf 1 (slice hairOf.body 0 64)).epoch = (((enters { ctxR with hairMax := 4096 } hairOf).ctx (msgCtx hairOf.body)).rank (enteredOf 1 (slice hairOf.body 0 64)).rank).epoch ∧
    (((enters { ctxR with hairMax := 4096 } hairOf).ctx (msgCtx hairOf.body)).rank (enteredOf 1 (slice hairOf.body 0 64)).rank).live = true) ∧
    ((enters { ctxR with hairMax := 4096 } hairOf).ctx (msgCtx hairOf.body)).gen? (msgGen hairOf.body) = none ∧
    dist32 (BitVec.toNat ((enters { ctxR with hairMax := 4096 } hairOf).ctx (msgCtx hairOf.body)).gLow) (BitVec.toNat (msgGen hairOf.body)) < 8 := by decide +kernel
theorem wit_enter_again : (enters (ctxG gen9) (enterOf 9 0 7)).fabricUp = true ∧
    (enters (ctxG gen9) (enterOf 9 0 7)).front 1 2 = some (enterOf 9 0 7) ∧ (enters (ctxG gen9) (enterOf 9 0 7)).flowWaits 1 2 = false ∧
    (false = false → (enterOf 9 0 7).ftype = 1 ∧ leAt (enterOf 9 0 7).body 0 1 = 1 ∧ List.length (enterOf 9 0 7).body = 64) ∧
    (false = true → 2 = 1 ∧ (enterOf 9 0 7).ftype = 2 ∧ 64 < List.length (enterOf 9 0 7).body ∧
    (enters (ctxG gen9) (enterOf 9 0 7)).hairBlocked 1 (enterOf 9 0 7).body = false) ∧
    (((enters (ctxG gen9) (enterOf 9 0 7)).ctx (msgCtx (enterOf 9 0 7).body)).st = CtxSt.ready ∧
    enterReserved (slice (enterOf 9 0 7).body 0 64) = false ∧
    (enteredOf 1 (slice (enterOf 9 0 7).body 0 64)).rank < ((enters (ctxG gen9) (enterOf 9 0 7)).ctx (msgCtx (enterOf 9 0 7).body)).rosterN ∧
    (enters (ctxG gen9) (enterOf 9 0 7)).isLocal ((enters (ctxG gen9) (enterOf 9 0 7)).ctx (msgCtx (enterOf 9 0 7).body)) (enteredOf 1 (slice (enterOf 9 0 7).body 0 64)).rank = true) ∧
    ((enteredOf 1 (slice (enterOf 9 0 7).body 0 64)).epoch = (((enters (ctxG gen9) (enterOf 9 0 7)).ctx (msgCtx (enterOf 9 0 7).body)).rank (enteredOf 1 (slice (enterOf 9 0 7).body 0 64)).rank).epoch ∧
    (((enters (ctxG gen9) (enterOf 9 0 7)).ctx (msgCtx (enterOf 9 0 7).body)).rank (enteredOf 1 (slice (enterOf 9 0 7).body 0 64)).rank).live = true) ∧
    dist32 (BitVec.toNat ((enters (ctxG gen9) (enterOf 9 0 7)).ctx (msgCtx (enterOf 9 0 7).body)).gLow) (BitVec.toNat (msgGen (enterOf 9 0 7).body)) < 8 ∧
    ((enters (ctxG gen9) (enterOf 9 0 7)).ctx (msgCtx (enterOf 9 0 7).body)).gen? (msgGen (enterOf 9 0 7).body) = some gen9 ∧
    (List.find? (fun o ↦ o.rank == (enteredOf 1 (slice (enterOf 9 0 7).body 0 64)).rank) gen9.enters = some (ent0 9)) ∧
    (ent0 9).raw = (enteredOf 1 (slice (enterOf 9 0 7).body 0 64)).raw := by decide +kernel
theorem wit_enter_release : (onCtx two { ctxR with waits := [waitEnter 16] }).fabricUp = true ∧
    ((onCtx two { ctxR with waits := [waitEnter 16] }).ctx 5).waits = [] ++ [waitEnter 16] ∧
    (∀ (v : WaitEnter), v ∈ [] → (onCtx two { ctxR with waits := [waitEnter 16] }).judge v.src (slice v.body 0 64) = Judge.hold) ∧
    (onCtx two { ctxR with waits := [waitEnter 16] }).judge (waitEnter 16).src (slice (waitEnter 16).body 0 64) ≠ Judge.hold ∧
    List.length (waitEnter 16).body ≤ 64 := by decide +kernel
theorem wit_enter_hold : (onCtx two { ctxR with waits := [waitEnter 17] }).fabricUp = true ∧
    (∀ (v : WaitEnter), v ∈ ((onCtx two { ctxR with waits := [waitEnter 17] }).ctx 5).waits → (onCtx two { ctxR with waits := [waitEnter 17] }).judge v.src (slice v.body 0 64) = Judge.hold) := by decide +kernel
theorem wit_tile_fenced : (tiling (ctxG gen9) 1 (tileIn 0 0)).fabricUp = true ∧
    (tiling (ctxG gen9) 1 (tileIn 0 0)).front 1 2 = some (tileIn 0 0) ∧ (tileIn 0 0).ftype = 0 ∧
    (tiling (ctxG gen9) 1 (tileIn 0 0)).flowWaits 1 2 = false ∧ keySw 1 = false ∧
    (tiling (ctxG gen9) 1 (tileIn 0 0)).flow? 1 2 = some (flowOf 1) ∧ (flowOf 1).rx = some (rxOf 1) ∧
    (rxOf 1).enter = some (some (5, num9, 1)) ∧ ((tiling (ctxG gen9) 1 (tileIn 0 0)).ctx 5).st = CtxSt.ready ∧
    (((tiling (ctxG gen9) 1 (tileIn 0 0)).ctx 5).rank 1).endpoint ≠ 1 := by decide +kernel
theorem wit_tile_field : (tiling (ctxG gen9) 0 (tileIn 0 1)).fabricUp = true ∧
    (tiling (ctxG gen9) 0 (tileIn 0 1)).front 1 2 = some (tileIn 0 1) ∧ (tileIn 0 1).ftype = 0 ∧
    (tiling (ctxG gen9) 0 (tileIn 0 1)).flowWaits 1 2 = false ∧ keySw 1 = false ∧
    (tiling (ctxG gen9) 0 (tileIn 0 1)).flow? 1 2 = some (flowOf 0) ∧ (flowOf 0).rx = some (rxOf 0) ∧
    (rxOf 0).enter = some (some (5, num9, 0)) ∧ ((tiling (ctxG gen9) 0 (tileIn 0 1)).ctx 5).st = CtxSt.ready ∧
    (((tiling (ctxG gen9) 0 (tileIn 0 1)).ctx 5).rank 0).endpoint = 1 ∧
    (((tiling (ctxG gen9) 0 (tileIn 0 1)).ctx 5).rank 0).live = true ∧
    ((tiling (ctxG gen9) 0 (tileIn 0 1)).ctx 5).gen? num9 = some gen9 ∧ gen9.failed = none ∧ 
    ((tiling (ctxG gen9) 0 (tileIn 0 1)).ctx 5).op ≠ 0 ∧
    (tChunk (tileIn 0 1).body ≠ tTile (tileIn 0 1).body / 2 ^ ((tiling (ctxG gen9) 0 (tileIn 0 1)).ctx 5).ctLog2 ∨ (tiling (ctxG gen9) 0 (tileIn 0 1)).contributes ((tiling (ctxG gen9) 0 (tileIn 0 1)).ctx 5) gen9.ref 0 (tTile (tileIn 0 1).body) = false) := by decide +kernel
theorem wit_gen_timeout : (onCtx two (ctxG gen9)).computing = true ∧ ((onCtx two (ctxG gen9)).ctx 5).st = CtxSt.ready ∧
    ((onCtx two (ctxG gen9)).ctx 5).gen? num9 = some gen9 ∧ gen9.failed = none ∧ gen9.enters ≠ [] ∧
    gen9.t0 + ((onCtx two (ctxG gen9)).ctx 5).genTimeout * Config.msAclk ≤ (onCtx two (ctxG gen9)).now := by decide +kernel
theorem wit_gen_timeout_early : (onCtx two (ctxG late9)).computing = true ∧ ((onCtx two (ctxG late9)).ctx 5).st = CtxSt.ready ∧
    ((onCtx two (ctxG late9)).ctx 5).gen? num9 = some late9 ∧
    (onCtx two (ctxG late9)).now < late9.t0 + ((onCtx two (ctxG late9)).ctx 5).genTimeout * Config.msAclk := by decide +kernel
theorem wit_gen_retire : (onCtx two (ctxG doneGen)).computing = true ∧ ((onCtx two (ctxG doneGen)).ctx 5).st = CtxSt.ready ∧
    ((onCtx two (ctxG doneGen)).ctx 5).gen? ((onCtx two (ctxG doneGen)).ctx 5).gLow = some doneGen ∧
    (onCtx two (ctxG doneGen)).mayRetire 5 doneGen = true := by decide +kernel
theorem wit_gen_no_retire : (onCtx two (ctxG gen9)).computing = true ∧ ((onCtx two (ctxG gen9)).ctx 5).st = CtxSt.ready ∧
    ((onCtx two (ctxG gen9)).ctx 5).gen? ((onCtx two (ctxG gen9)).ctx 5).gLow = some gen9 ∧ gen9.failed = none ∧
    gen9.verdict = none := by decide +kernel
theorem wit_check_agrees : Message (enters ctxR (checkMsg 0)) (swKey 64) 0 3 17 (checkMsg 0) ∧ 5 = msgCtx (checkMsg 0).body ∧
    ((enters ctxR (checkMsg 0)).ctx 5).st = CtxSt.ready ∧ ((enters ctxR (checkMsg 0)).ctx 5).lost = [] ∧
    slice (checkMsg 0).body 16 32 = slice ((enters ctxR (checkMsg 0)).ctx 5).fabricDigest 0 32 := by decide +kernel
theorem wit_check_differs : Message (enters ctxR (checkMsg 1)) (swKey 64) 0 3 17 (checkMsg 1) ∧ 5 = msgCtx (checkMsg 1).body ∧
    ((enters ctxR (checkMsg 1)).ctx 5).st = CtxSt.ready ∧ ((enters ctxR (checkMsg 1)).ctx 5).lost = [] ∧
    slice (checkMsg 1).body 16 32 ≠ slice ((enters ctxR (checkMsg 1)).ctx 5).fabricDigest 0 32 := by decide +kernel
theorem wit_check_resend : (sentAt 3750000).fabricUp = true ∧ ((sentAt 3750000).ctx 5).st = CtxSt.ready ∧
    ((sentAt 3750000).ctx 5).checkSent + Config.msAclk ≤ (sentAt 3750000).now ∧ (∃ h, h ∈ (sentAt 3750000).neighbourSw 5 ∧
    ¬h ∈ ((sentAt 3750000).ctx 5).checked) := by decide +kernel
theorem wit_check_early : ((sentAt 3750001).now < ((sentAt 3750001).ctx 5).checkSent + Config.msAclk ∨ ∀ (h : Nat), h ∈ (sentAt 3750001).neighbourSw 5 → h ∈ ((sentAt 3750001).ctx 5).checked) := by decide +kernel
/-- The child at 64 sends the SUMMARY of `theFields` to the generation `y`. -/
def summing (y : Gen) : State := enters (ctxG y) (msg (mBody 18 0))
abbrev sums (y : Gen) : Prop := ((summing y).ctx 5).st = CtxSt.ready ∧ ((summing y).ctx 5).lost = [] ∧ ((summing y).ctx 5).gen? num9 = some y ∧
    y.enters ≠ [] ∧ Message (summing y) (swKey 64) 0 3 18 (msg (mBody 18 0)) ∧ 5 = msgCtx (msg (mBody 18 0)).body ∧
    num9 = msgGen (msg (mBody 18 0)).body
abbrev isTold (y : Gen) : Prop := ∃ m ∈ y.summaries, ((summing y).geo ((summing y).ctx 5)).holder m.1 = keyAddr (swKey 64) ∧
    m.2.1 = msgFields (msg (mBody 18 0)).body ∧ m.2.2 = bitAt (leAt (msg (mBody 18 0)).body 14 1) 0
abbrev sumsFrom (y : Gen) (k : Nat) : Prop := let g := (summing y).geo ((summing y).ctx 5)
    (g.held.flatMap g.feeding).find? (fun k => g.holder k == keyAddr (swKey 64) && !y.summaries.any (fun m => m.1 == k)) = some k
def summed9 : Gen := { gen9 with summaries := [(64, theFields, false)] }
/-- A summary of another child is held already. -/
def other9 : Gen := { gen9 with summaries := [(128, theFields, false)] }
theorem wit_summary : sums gen9 ∧ ¬isTold gen9 ∧ sumsFrom gen9 64 := by decide +kernel
theorem wit_summary_second : sums other9 ∧ ¬isTold other9 ∧ sumsFrom other9 64 := by decide +kernel
theorem wit_summary_again : sums summed9 ∧ isTold summed9 := by decide +kernel
theorem wit_verdict : ((enters (ctxG gen9) (msg (mBody 19 0))).ctx 5).st = CtxSt.ready ∧
    ((enters (ctxG gen9) (msg (mBody 19 0))).ctx 5).lost = [] ∧ ((enters (ctxG gen9) (msg (mBody 19 0))).ctx 5).gen? num9 = some gen9 ∧
    gen9.enters ≠ [] ∧ Message (enters (ctxG gen9) (msg (mBody 19 0))) (swKey 64) 0 3 19 (msg (mBody 19 0)) ∧
    5 = msgCtx (msg (mBody 19 0)).body ∧ num9 = msgGen (msg (mBody 19 0)).body ∧
    gen9.verdict ≠ some (leAt (msg (mBody 19 0)).body 1 1, msgFields (msg (mBody 19 0)).body) := by decide +kernel
theorem wit_verdict_again : ((enters (ctxG told9) (msg (mBody 19 0))).ctx 5).st = CtxSt.ready ∧
    ((enters (ctxG told9) (msg (mBody 19 0))).ctx 5).lost = [] ∧
    ((enters (ctxG told9) (msg (mBody 19 0))).ctx 5).gen? num9 = some told9 ∧ told9.enters ≠ [] ∧
    Message (enters (ctxG told9) (msg (mBody 19 0))) (swKey 64) 0 3 19 (msg (mBody 19 0)) ∧ 5 = msgCtx (msg (mBody 19 0)).body ∧
    num9 = msgGen (msg (mBody 19 0)).body ∧
    told9.verdict = some (leAt (msg (mBody 19 0)).body 1 1, msgFields (msg (mBody 19 0)).body) := by decide +kernel
theorem wit_fail_anchor : ((enters (ctxG gen9) (msg (mBody 20 12))).ctx 5).st = CtxSt.ready ∧
    ((enters (ctxG gen9) (msg (mBody 20 12))).ctx 5).lost = [] ∧
    ((enters (ctxG gen9) (msg (mBody 20 12))).ctx 5).gen? num9 = some gen9 ∧ gen9.enters ≠ [] ∧
    Message (enters (ctxG gen9) (msg (mBody 20 12))) (swKey 64) 0 3 20 (msg (mBody 20 12)) ∧ 5 = msgCtx (msg (mBody 20 12)).body ∧
    num9 = msgGen (msg (mBody 20 12)).body ∧
    ((enters (ctxG gen9) (msg (mBody 20 12))).geo ((enters (ctxG gen9) (msg (mBody 20 12))).ctx 5)).held.contains ((enters (ctxG gen9) (msg (mBody 20 12))).geo ((enters (ctxG gen9) (msg (mBody 20 12))).ctx 5)).anchor = true ∧
    (∀ (v : Nat × Fields), gen9.verdict = some v → v.fst = stOk ∨ leAt (msg (mBody 20 12)).body 1 1 < v.fst) := ⟨by decide +kernel, by decide +kernel, by decide +kernel, by decide +kernel, by decide +kernel, by decide +kernel, by decide +kernel, by decide +kernel, allOpt (by decide +kernel)⟩
theorem wit_fail_up : (thereFail.ctx 5).st = CtxSt.ready ∧ (thereFail.ctx 5).lost = [] ∧ (thereFail.ctx 5).gen? num9 = some gen9 ∧
    gen9.enters ≠ [] ∧ Message thereFail (swKey 64) 0 3 20 (msg (mBody 20 12)) ∧ 5 = msgCtx (msg (mBody 20 12)).body ∧
    num9 = msgGen (msg (mBody 20 12)).body ∧
    (thereFail.geo (thereFail.ctx 5)).held.contains (thereFail.geo (thereFail.ctx 5)).anchor = false ∧
    (thereFail.geo (thereFail.ctx 5)).up = some 0 := by decide +kernel
theorem wit_pose : ((onCtx two (ctxG (pose9 5000000))).ctx 5).st = CtxSt.ready ∧ ((onCtx two (ctxG (pose9 5000000))).ctx 5).lost = [] ∧
    ((onCtx two (ctxG (pose9 5000000))).ctx 5).gen? num9 = some (pose9 5000000) ∧ (pose9 5000000).enters ≠ [] ∧
    (onCtx two (ctxG (pose9 5000000))).computing = true ∧ (pose9 5000000).posed = false ∧ (pose9 5000000).failed = none ∧
    (pose9 5000000).release = some 5000000 ∧ 5000000 ≤ BitVec.toNat (onCtx two (ctxG (pose9 5000000))).clock.ftime ∧
    (∀ n ∈ ((onCtx two (ctxG (pose9 5000000))).ctx 5).bound, ((onCtx two (ctxG (pose9 5000000))).easel n).stopAt = none ∧
      ∀ e ∈ ((onCtx two (ctxG (pose9 5000000))).ctx 5).engines, (onCtx two (ctxG (pose9 5000000))).startRoom n e = true) := by decide +kernel
theorem wit_pose_early : ((onCtx two (ctxG (pose9 5000001))).ctx 5).st = CtxSt.ready ∧
    ((onCtx two (ctxG (pose9 5000001))).ctx 5).lost = [] ∧ ((onCtx two (ctxG (pose9 5000001))).ctx 5).gen? num9 = some (pose9 5000001) ∧
    (pose9 5000001).enters ≠ [] ∧ (pose9 5000001).release = some 5000001 ∧
    BitVec.toNat (onCtx two (ctxG (pose9 5000001))).clock.ftime < 5000001 := by decide +kernel
theorem wit_chunk_retire : (onCtx two (ctxG over1)).computing = true ∧ ((onCtx two (ctxG over1)).ctx 5).st = CtxSt.ready ∧
    ((onCtx two (ctxG over1)).ctx 5).gen? num9 = some over1 ∧ over1.failed = none ∧ (over1.chunk 0).entry = true ∧
    (over1.chunk 0).parking = false ∧ (over1.chunk 0).parked = false ∧
    (onCtx two (ctxG over1)).chunkOver ((onCtx two (ctxG over1)).ctx 5) 5 over1 0 = true := by decide +kernel
theorem wit_tile_waits : (tiling (ctxG twoEntries) 0 (tileIn 0 0)).fabricUp = true ∧
    (tiling (ctxG twoEntries) 0 (tileIn 0 0)).front 1 2 = some (tileIn 0 0) ∧ (tileIn 0 0).ftype = 0 ∧
    (tiling (ctxG twoEntries) 0 (tileIn 0 0)).flowWaits 1 2 = false ∧ keySw 1 = false ∧
    (tiling (ctxG twoEntries) 0 (tileIn 0 0)).flow? 1 2 = some (flowOf 0) ∧ (flowOf 0).rx = some (rxOf 0) ∧
    (rxOf 0).enter = some (some (5, num9, 0)) ∧ ((tiling (ctxG twoEntries) 0 (tileIn 0 0)).ctx 5).st = CtxSt.ready ∧
    (tiling (ctxG twoEntries) 0 (tileIn 0 0)).tileAs (tileIn 0 0) = TileAs.place 5 num9 0 0 (some (0, 0)) ∧
    (tiling (ctxG twoEntries) 0 (tileIn 0 0)).entryRoom 5 num9 0 = false := by decide +kernel

theorem wit_tile_no_enter : Arrived.ftype (tileIn 0 0) = 0 ∧ (enters ctxR (tileIn 0 0)).front 1 2 = some (tileIn 0 0) ∧
    (enters ctxR (tileIn 0 0)).flow? 1 2 = none := by decide +kernel
theorem wit_tile : (tiling (ctxG gen9) 0 (tileIn 0 0)).front 1 2 = some (tileIn 0 0) ∧
    (tiling (ctxG gen9) 0 (tileIn 0 0)).flow? 1 2 = some (flowOf 0) ∧ ((tiling (ctxG gen9) 0 (tileIn 0 0)).ctx 5).st = .ready ∧
    (tiling (ctxG gen9) 0 (tileIn 0 0)).tileAs (tileIn 0 0) = .place 5 num9 0 0 (some (0, 0)) ∧
    (tiling (ctxG gen9) 0 (tileIn 0 0)).entryRoom 5 num9 0 = true ∧
    ((tiling (ctxG gen9) 0 (tileIn 0 0)).ctx 5).gen? num9 = some gen9 := by decide +kernel

end H

namespace I

def down0 : State := onP { st := .down, since := 3750000 }
def down1 : State := onP { st := .down, since := 3750001 }
def train0 : State := onP { st := .training, since := 10 }
def train1 : State := { train0 with clock := { cycle := 125000010 } }
def hello0 : State := onP { st := .hello, helloAt := some 4998976 }
def hello1 : State := onP { cfg := edge0, st := .hello }
def hi : Hello := { versions := 2, address := 0, role := 0, dim := 0, dir := 0, endpoint := true, epoch := 7 }
def hello2 : State := onP { cfg := edge0, st := .hello, hello := some hi, epoch := 65535 }
/-- A RING port that names what its peer's HELLO names; a frame has waited at the port since before its link went down. -/
def hiRing : Hello := { versions := 2, address := run0.fab.nextAddr 0 0, role := roleRing, dim := 0, dir := 1, endpoint := false, epoch := 7 }
def waiting4 : Queued := { frame := Frame.mk 0 (zeros 32), body := 0, src := none, entry := false, group := false, since := 0 }
def hello3 : State := onP { cfg := 2, st := .hello, hello := some hiRing, queues := [(4, [waiting4])] }
def up0 : State := onP anEdge
def upEvents : State := onP { anEdge with events := List.replicate 9 4975001 }
def upSilent : State := onP { anEdge with goodAt := 4990000 }

def upLink : State := onP { anEdge with linkAt := 4999744, rxAny := true }
def upLinkEarly : State := onP { anEdge with linkAt := 4999745 }
def upMeasure : State := onP { anEdge with treq := some 4934464, peerLocked := true, heard := true }
def upAlone : State :=
  let s := onP { anEdge with heard := true }
  { s with fab := { s.fab with here := 0x1000000 }, clock := { s.clock with locked := false } }
def downOff : State := down0
def downOn : State := (onP { cfg := edge0, st := .down, since := 3750000 }).setPort 1 { cfg := 4 }
def upMeasureEarly : State := onP { anEdge with treq := some 4934465 }
def aFlit : Bytes := flitOf (2 ^ 17 * 2) (toLE 2 0 ++ toLE 2 0 ++ (List.range 16).flatMap (fun c => toLE 2 (100 * c)))

def dFlit (sof eof q len : Nat) : Bytes := flitOf (q + 2 ^ 15 * sof + 2 ^ 16 * eof + 2 ^ 17 + 2 ^ 19 * (len / 8)) (List.replicate 248 1)
def upLast : State := onP { anEdge with rxSeq := 4095 }
def upFull : State := onP { anEdge with used := [(0, 96)] }
/-- A frame of which one flit has come. -/
def upPart (k : Nat) : State := onP { anEdge with rxPart := some (0, 0, List.replicate 248 1), used := [(0, k)] }
abbrev accepted (s : State) (flit : Bytes) : Prop := PortRuns s 8 ∧ (s.lport 8).st = .up ∧ lcrcOk flit = true ∧ flitKind flit = 1 ∧
    flitLseq flit = (s.lport 8).rxSeq
/-- The first flit of a frame, in class 0. -/
abbrev starts (s : State) (flit : Bytes) : Prop := accepted s flit ∧ (flitHdr flit).testBit 15 = true ∧ flitHdr flit / 4096 % 8 = 0 ∧
    flitHdr flit / 2 ^ 24 % 2 = 0 ∧ tcanon 0 ((s.dropPart 8).lport 8).used = true
/-- A later flit of a frame, in class 0. -/
abbrev goesOn (s : State) (flit : Bytes) : Prop := accepted s flit ∧ (flitHdr flit).testBit 15 = false ∧
    (s.lport 8).rxPart = some (0, 0, List.replicate 248 1) ∧ 0 < 2 ∧ tcanon 0 (s.lport 8).used = true
abbrev hasRoom (s : State) : Prop := tget 0 ((s.dropPart 8).lport 8).used 0 < s.fab.share 8 0
def upAsked : State := onP { anEdge with rxWant := some 0 }
def oneSent : Sent := { lseq := 5, flit := List.replicate 256 3, frame := 0 }
def upRing : State := onP { cfg := 2, st := .up, ver := 1, txBuf := [oneSent], ackAt := 4995904 }
def upRingEarly : State := onP { cfg := 2, st := .up, ver := 1, txBuf := [oneSent], ackAt := 4995905 }

def runDue : State := { run0 with funcs := [(0, { intStatus := 4, intEnable := 4, msixMasked := false, msix := [(2, 0)] })] }

def aFrame : Frame := Frame.mk 0 (zeros 32)
def toHere : Frame := (Frame.mk (BitVec.ofNat 256 1) (zeros 32))
def upFrame (f : Frame) : State := onP { cfg := 2, st := .up, ver := 1, rxVer := 1, rxFrames := [(f, 1, .ingress 8 0)] }
def q0 (t : Nat) : Queued := { frame := aFrame, body := 0, src := none, entry := false, group := false, since := t }
def held0 : State := onP { st := .down, queues := [(4, [q0 0])] }
def held1 : State := { held0 with clock := { cycle := 12500000000 } }

def msgHere : Frame := run0.frameOf { dest := swKey 0, vc := 0, ftype := 7, body := zeros 32, bucket := 0 } 0 0
def msgAway : Frame := run0.frameOf { dest := 5, vc := 0, ftype := 7, body := zeros 32, bucket := 0 } 0 0
def msgNew : Frame := (msgHere.put 0 4 2).sealed

def qOf (f : Frame) : Queued := { frame := f, body := 0, src := none, entry := false, group := false, since := 0 }
def upBusy : State := onP { anEdge with busy := 2048 }
def credits : Tab Nat := (List.range 16).map (fun c => (c, 50))
def upHair : State := onP { anEdge with credit := credits, queues := [(1, [qOf msgHere]), (4, [qOf msgHere])] }
def upStrict : State := onP { anEdge with credit := credits, queues := [(0, [qOf msgHere]), (4, [qOf msgHere])] }
def upDrr : State := (onP { anEdge with credit := credits, queues := [(4, [qOf msgHere, qOf msgHere])] }).setPort 1 { sched := 1 }
def upShaped : State := (onP { anEdge with credit := credits, queues := [(4, [qOf msgHere])], shaper := [(4, -1)] }).setPort 1 { shapeCfg := [(4, 0x10000)] }

def gated : Port := { listA := { len := 2, ents := [(0, (255, 100)), (1, (1, 50))] }, listB := { len := 1, ents := [(0, (255, 7))] } }
def gate0 : State := run0.setPort 1 { gated with entry := 1 }
def gate1 : State := run0.setPort 1 gated
def gate2 : State := run0.setPort 1 { gated with gatePending := true, armedAt := 5000000 }

theorem wit_link_down_timer : PortRuns downOn 8 ∧ (downOn.lport 8).st = LinkSt.down ∧
    (downOn.lport 8).since + 1250000 ≤ downOn.now ∧ downOn.portOn 8 = true := by decide +kernel
theorem wit_link_down_timer_early : PortRuns down1 8 ∧ (down1.lport 8).st = LinkSt.down ∧
    down1.now < (down1.lport 8).since + 1250000 := by decide +kernel
theorem wit_training_success : PortRuns train0 8 ∧ (train0.lport 8).st = LinkSt.training := by decide +kernel
theorem wit_training_timeout : PortRuns train1 8 ∧ (train1.lport 8).st = LinkSt.training ∧
    (train1.lport 8).since + 125000000 ≤ train1.now := by decide +kernel
theorem wit_hello_send : PortRuns hello0 8 ∧ (hello0.lport 8).st = LinkSt.hello ∧
    (∀ (t : Nat), (hello0.lport 8).helloAt = some t → t + 1024 ≤ hello0.now) := ⟨by decide +kernel, by decide +kernel, allOpt (by decide +kernel)⟩
theorem wit_link_up_refused : PortRuns hello1 8 ∧ (hello1.lport 8).st = LinkSt.hello ∧ hello1.helloPasses 8 = false := by decide +kernel
theorem wit_link_up : PortRuns hello2 8 ∧ (hello2.lport 8).st = LinkSt.hello ∧ (hello2.lport 8).hello = some hi ∧
    hello2.helloFaults 8 hi = [] := by decide +kernel
theorem wit_link_up_ring : PortRuns hello3 8 ∧ (hello3.lport 8).st = LinkSt.hello ∧ (hello3.lport 8).hello = some hiRing ∧
    hello3.helloFaults 8 hiRing = [] ∧ (hello3.lport 8).queues ≠ [] := by decide +kernel
theorem wit_link_down_fec : PortRuns up0 8 ∧ (up0.lport 8).st = LinkSt.up ∧ (DownCause.fecLoss = DownCause.replayBudget ∧
    9 ≤ (List.filter (fun t ↦ decide (up0.now < t + 25000)) (up0.lport 8).events).length ∨ DownCause.fecLoss = DownCause.fecLoss ∨ DownCause.fecLoss = DownCause.lcrcSilence ∧
    (up0.lport 8).goodAt + 10000 ≤ up0.now ∨ DownCause.fecLoss = DownCause.disabled ∧
    (up0.port (8 / 8)).enabled = false) := by decide +kernel
theorem wit_link_down_events : PortRuns upEvents 8 ∧ (upEvents.lport 8).st = LinkSt.up ∧
    (DownCause.replayBudget = DownCause.replayBudget ∧
    9 ≤ (List.filter (fun t ↦ decide (upEvents.now < t + 25000)) (upEvents.lport 8).events).length ∨ DownCause.replayBudget = DownCause.fecLoss ∨ DownCause.replayBudget = DownCause.lcrcSilence ∧
    (upEvents.lport 8).goodAt + 10000 ≤ upEvents.now ∨ DownCause.replayBudget = DownCause.disabled ∧
    (upEvents.port (8 / 8)).enabled = false) := by decide +kernel
theorem wit_link_down_silence : PortRuns upSilent 8 ∧ (upSilent.lport 8).st = LinkSt.up ∧
    (DownCause.lcrcSilence = DownCause.replayBudget ∧
    9 ≤ (List.filter (fun t ↦ decide (upSilent.now < t + 25000)) (upSilent.lport 8).events).length ∨ DownCause.lcrcSilence = DownCause.fecLoss ∨ DownCause.lcrcSilence = DownCause.lcrcSilence ∧
    (upSilent.lport 8).goodAt + 10000 ≤ upSilent.now ∨ DownCause.lcrcSilence = DownCause.disabled ∧
    (upSilent.port (8 / 8)).enabled = false) := by decide +kernel
theorem wit_link_down_disabled : PortRuns up0 8 ∧ (up0.lport 8).st = LinkSt.up ∧ (DownCause.disabled = DownCause.replayBudget ∧
    9 ≤ (List.filter (fun t ↦ decide (up0.now < t + 25000)) (up0.lport 8).events).length ∨ DownCause.disabled = DownCause.fecLoss ∨ DownCause.disabled = DownCause.lcrcSilence ∧
    (up0.lport 8).goodAt + 10000 ≤ up0.now ∨ DownCause.disabled = DownCause.disabled ∧
    (up0.port (8 / 8)).enabled = false) := by decide +kernel
theorem wit_link_down_not_up : PortRuns down0 8 ∧ (down0.lport 8).st ≠ LinkSt.up := by decide +kernel
theorem wit_link_flit_send : PortRuns upLink 8 ∧ (upLink.lport 8).st = LinkSt.up ∧
    ((upLink.lport 8).report = true ∨ (upLink.lport 8).answer ≠ none ∨ (upLink.lport 8).linkAt + 256 ≤ upLink.now) := by decide +kernel
theorem wit_link_flit_early : PortRuns upLinkEarly 8 ∧ (upLinkEarly.lport 8).st = LinkSt.up ∧ (upLinkEarly.lport 8).report = false ∧
    (upLinkEarly.lport 8).answer = none ∧ upLinkEarly.now < (upLinkEarly.lport 8).linkAt + 256 := by decide +kernel
theorem wit_link_flit_bad : PortRuns up0 8 ∧ (up0.lport 8).st = LinkSt.up ∧ lcrcOk [] = false := by decide +kernel
theorem wit_link_flit_good : PortRuns up0 8 ∧ (up0.lport 8).st = LinkSt.up ∧ lcrcOk aFlit = true ∧ flitKind aFlit = 2 ∧
    (leAt aFlit 6 2).testBit 15 = false ∧ (leAt aFlit 60 1).testBit 1 = false := by decide +kernel
theorem wit_time_measure : PortRuns upMeasure 8 ∧ (upMeasure.lport 8).st = LinkSt.up ∧
    (∀ (t : Nat), (upMeasure.lport 8).treq = some t → t + 65536 ≤ upMeasure.now) ∧
    upMeasure.rootAlone = false ∧ upMeasure.timeSource = some 8 := ⟨by decide +kernel, by decide +kernel, allOpt (by decide +kernel), by decide +kernel, by decide +kernel⟩
theorem wit_time_alone : PortRuns upAlone 8 ∧ (upAlone.lport 8).st = LinkSt.up ∧
    (∀ (t : Nat), (upAlone.lport 8).treq = some t → t + 65536 ≤ upAlone.now) ∧ upAlone.rootAlone = true := ⟨by decide +kernel, by decide +kernel, allOpt (by decide +kernel), by decide +kernel⟩
theorem wit_time_other : PortRuns up0 8 ∧ (up0.lport 8).st = LinkSt.up ∧ up0.rootAlone = false ∧ up0.timeSource ≠ some 8 := by decide +kernel
theorem wit_link_down_off : PortRuns downOff 8 ∧ (downOff.lport 8).st = LinkSt.down ∧ (downOff.lport 8).since + 1250000 ≤ downOff.now ∧
    downOff.portOn 8 = false := by decide +kernel
theorem wit_time_measure_early : PortRuns upMeasureEarly 8 ∧ (upMeasureEarly.lport 8).st = LinkSt.up ∧
    (upMeasureEarly.lport 8).treq = some 4934465 ∧ upMeasureEarly.now < 4934465 + 65536 := by decide +kernel
theorem wit_data_flit : accepted upLast (dFlit 1 0 4095 0) := by decide +kernel
theorem wit_data_flit_sof : starts upLast (dFlit 1 0 4095 0) ∧ hasRoom upLast ∧ (flitHdr (dFlit 1 0 4095 0)).testBit 16 = false := by decide +kernel
/-- A frame that breaks off gives back its cell before the next one takes its own. -/
theorem wit_data_flit_sof_part : starts (upPart 96) (dFlit 1 0 0 0) ∧ hasRoom (upPart 96) := by decide +kernel
theorem wit_data_flit_whole : starts up0 (dFlit 1 1 0 64) ∧ hasRoom up0 ∧ (flitHdr (dFlit 1 1 0 64)).testBit 16 = true := by decide +kernel
theorem wit_data_flit_full : starts upFull (dFlit 1 1 0 64) ∧ upFull.fab.share 8 0 ≤ tget 0 ((upFull.dropPart 8).lport 8).used 0 := by decide +kernel
theorem wit_data_flit_on : goesOn (upPart 1) (dFlit 0 0 0 0) ∧ tget 0 ((upPart 1).lport 8).used 0 < (upPart 1).fab.share 8 0 ∧
    (flitHdr (dFlit 0 0 0 0)).testBit 16 = false := by decide +kernel
theorem wit_data_flit_eof : goesOn (upPart 1) (dFlit 0 1 0 64) ∧ tget 0 ((upPart 1).lport 8).used 0 < (upPart 1).fab.share 8 0 ∧
    (flitHdr (dFlit 0 1 0 64)).testBit 16 = true := by decide +kernel
theorem wit_data_flit_on_full : goesOn (upPart 96) (dFlit 0 1 0 64) ∧
    (upPart 96).fab.share 8 0 ≤ tget 0 ((upPart 96).lport 8).used 0 := by decide +kernel
theorem wit_data_flit_no_part : accepted up0 (dFlit 0 0 0 0) ∧ (flitHdr (dFlit 0 0 0 0)).testBit 15 = false ∧ (up0.lport 8).rxPart = none := by
  decide +kernel
theorem wit_data_flit_again : PortRuns upAsked 8 ∧ (upAsked.lport 8).st = LinkSt.up ∧ lcrcOk (dFlit 1 1 9 64) = true ∧
    flitKind (dFlit 1 1 9 64) = 1 ∧ flitLseq (dFlit 1 1 9 64) ≠ (upAsked.lport 8).rxSeq ∧
    (upAsked.lport 8).rxWant = some (upAsked.lport 8).rxSeq := by decide +kernel
theorem wit_data_flit_bad : PortRuns upRing 8 ∧ (upRing.lport 8).st = LinkSt.up ∧ lcrcOk [] = false ∧
    (upRing.lport 8).rxWant ≠ some (upRing.lport 8).rxSeq ∧ (upRing.lport 8).role ≠ roleEdge ∧
    ((List.filter (fun t ↦ decide (upRing.now < t + 25000)) (upRing.lport 8).events).length < 8) := by decide +kernel
theorem wit_ack_timeout : PortRuns upRing 8 ∧ (upRing.lport 8).st = LinkSt.up ∧ (upRing.lport 8).unacked = [oneSent] ∧
    (upRing.lport 8).ackAt + 4096 ≤ upRing.now ∧ (upRing.lport 8).role ≠ roleEdge ∧
    ((List.filter (fun t ↦ decide (upRing.now < t + 25000)) (upRing.lport 8).events).length < 8) ∧
    oneSent ∈ (upRing.lport 8).txBuf := by decide +kernel
theorem wit_ack_timeout_early : PortRuns upRingEarly 8 ∧ (upRingEarly.lport 8).st = LinkSt.up ∧
    upRingEarly.now < (upRingEarly.lport 8).ackAt + 4096 := by decide +kernel
theorem wit_tick : run0.aclk = true := by decide +kernel
theorem wit_no_frame : 8 < 1024 ∧ (run0.lport 8).rxFrames = [] := by decide +kernel
theorem wit_frame_bad : 8 < 1024 ∧ (upFrame aFrame).fabricUp = true ∧ (upFrame aFrame).aclk = true ∧
    ((upFrame aFrame).lport 8).rxFrames = [(aFrame, 1, .ingress 8 0)] ∧ aFrame.whole = false := by decide +kernel
theorem wit_hold_expiry : 8 < 1024 ∧ 4 < 8 ∧ held1.fabricUp = true ∧ held1.aclk = true ∧ (held1.lport 8).st ≠ LinkSt.up ∧
    (held1.lport 8).queue 4 = [q0 0] ∧ (q0 0).since + held1.fab.linkHold * 1250000 ≤ held1.now := by decide +kernel
theorem wit_hold_early : 8 < 1024 ∧ 4 < 8 ∧ held0.fabricUp = true ∧ held0.aclk = true ∧ (held0.lport 8).st ≠ LinkSt.up ∧
    (held0.lport 8).queue 4 = [q0 0] ∧ held0.now < (q0 0).since + held0.fab.linkHold * 1250000 := by decide +kernel
theorem wit_frame_discard : 8 < 1024 ∧ (upFrame msgNew).fabricUp = true ∧ (upFrame msgNew).aclk = true ∧
    ((upFrame msgNew).lport 8).rxFrames = [(msgNew, 1, .ingress 8 0)] ∧ msgNew.whole = true ∧
    msgNew.discard ((upFrame msgNew).lport 8).rxVer = some (241, stVersion, 4) := by decide +kernel
theorem wit_egress_down : PortRuns down0 8 ∧ (down0.lport 8).st ≠ LinkSt.up := by decide +kernel
theorem wit_egress_busy : PortRuns upBusy 8 ∧ (upBusy.lport 8).st = LinkSt.up ∧
    125 * upBusy.fab.lanes 8 < (upBusy.lport 8).busy := by decide +kernel
theorem wit_egress_vc1 : PortRuns upHair 8 ∧ (upHair.lport 8).st = LinkSt.up ∧ (upHair.lport 8).busy = 0 ∧
    (upHair.lport 8).clearDrr = false ∧
    (upHair.setLPort 8 ((upHair.lport 8).shape (upHair.port (8 / 8)))).eligible 8 1 = true := by decide +kernel
theorem wit_egress_strict : PortRuns upStrict 8 ∧ (upStrict.lport 8).st = LinkSt.up ∧ (upStrict.lport 8).busy = 0 ∧
    (upStrict.lport 8).clearDrr = false ∧
    (upStrict.setLPort 8 ((upStrict.lport 8).shape (upStrict.port (8 / 8)))).eligible 8 1 = false ∧
    (upStrict.port (8 / 8)).strict = [] ++ [0] ∧
    (∀ (z : Nat), z ∈ [] → (upStrict.setLPort 8 ((upStrict.lport 8).shape (upStrict.port (8 / 8)))).eligible 8 z = false) ∧
    (upStrict.setLPort 8 ((upStrict.lport 8).shape (upStrict.port (8 / 8)))).eligible 8 0 = true := by decide +kernel
theorem wit_egress_none : PortRuns up0 8 ∧ (up0.lport 8).st = LinkSt.up ∧ (up0.lport 8).busy = 0 ∧ (up0.lport 8).clearDrr = false ∧
    (∀ (v : Nat), v < 8 → (up0.setLPort 8 ((up0.lport 8).shape (up0.port (8 / 8)))).eligible 8 v = false) := by decide +kernel
theorem wit_egress_drr : PortRuns upDrr 8 ∧ (upDrr.lport 8).st = LinkSt.up ∧ (upDrr.lport 8).busy = 0 ∧
    (upDrr.lport 8).clearDrr = false ∧ (upDrr.port (8 / 8)).sched = 1 ∧ 4 < 8 ∧ 4 ≠ 1 ∧
    ((upDrr.lport 8).shape (upDrr.port (8 / 8))).queue 4 = [qOf msgHere, qOf msgHere] ∧
    (∀ (z : Nat), z < 8 → (upDrr.setLPort 8 ((upDrr.lport 8).shape (upDrr.port (8 / 8)))).eligible 8 z = (z == 4)) ∧
    (upDrr.lport 8).cur = none ∧ (upDrr.lport 8).deficit = [] ∧
    (qOf msgHere).frame.flits ≤ (upDrr.port (8 / 8)).quantumOf 4 := by decide +kernel
theorem wit_egress_shaped : PortRuns upShaped 8 ∧ ((upShaped.lport 8).shape (upShaped.port (8 / 8))).queue 4 = [qOf msgHere] ∧ 4 ≠ 1 ∧
    (upShaped.port (8 / 8)).shaped 4 = true ∧
    tget 0 ((upShaped.lport 8).shape (upShaped.port (8 / 8))).shaper 4 < 0 := by decide +kernel
theorem wit_gate_boundary : 1 < 128 ∧ gate0.fabricUp = true ∧ gate0.aclk = true ∧
    (gate0.port 1).list.entryAt (gate0.port 1).t0 (BitVec.toNat gate0.clock.ftime) ≠ (gate0.port 1).entry := by decide +kernel
theorem wit_gate_same : 1 < 128 ∧ gate1.fabricUp = true ∧ gate1.aclk = true ∧
    (gate1.port 1).list.entryAt (gate1.port 1).t0 (BitVec.toNat gate1.clock.ftime) = (gate1.port 1).entry := by decide +kernel
theorem wit_gate_switch : 1 < 128 ∧ gate2.fabricUp = true ∧ gate2.aclk = true ∧ (gate2.port 1).gatePending = true ∧
    BitVec.toNat (gate2.port 1).armedAt ≤ BitVec.toNat gate2.clock.ftime := by decide +kernel
theorem wit_gate_none : 1 < 128 ∧ gate1.fabricUp = true ∧ gate1.aclk = true ∧
    ((gate1.port 1).gatePending = false ∨ BitVec.toNat gate1.clock.ftime < BitVec.toNat (gate1.port 1).armedAt) := by decide +kernel

theorem wit_frame_on : (upFrame msgAway).fabricUp = true ∧ (upFrame msgAway).aclk = true ∧
    ((upFrame msgAway).lport 8).rxFrames = [(msgAway, 1, .ingress 8 0)] ∧ msgAway.whole = true ∧
    msgAway.discard ((upFrame msgAway).lport 8).rxVer = none ∧ msgAway.dkind < 2 ∧
    ((upFrame msgAway).lport 8).role ≠ roleEdge ∧ (∀ g, Hop.drop 261 ≠ .here g) ∧
    nextHop (((upFrame msgAway).setLPort 8 { (upFrame msgAway).lport 8 with rxFrames := [] }).heard 8 msgAway).fab (some 8) msgAway = .drop 261 := by
  refine ⟨by decide +kernel, by decide +kernel, by decide +kernel, by decide +kernel, by decide +kernel, by decide +kernel,
    by decide +kernel, ?_, by decide +kernel⟩
  intro g e
  cases e
theorem wit_frame_here : (upFrame msgHere).fabricUp = true ∧ (upFrame msgHere).aclk = true ∧
    ((upFrame msgHere).lport 8).rxFrames = [(msgHere, 1, .ingress 8 0)] ∧ msgHere.whole = true ∧
    msgHere.discard ((upFrame msgHere).lport 8).rxVer = none ∧ msgHere.dkind < 2 ∧
    ((upFrame msgHere).lport 8).role ≠ roleEdge ∧
    nextHop (((upFrame msgHere).setLPort 8 { (upFrame msgHere).lport 8 with rxFrames := [] }).heard 8 msgHere).fab (some 8) msgHere =
      .here msgHere := by decide +kernel

end I

namespace J

def cmsg (op id src dst : Nat) : Arrived := { src := swKey 64, vc := 0, ftype := 5, body := cctlBody op 0 id src dst, cells := 1, port := some 8, assoc := none }
def other : Arrived := { src := swKey 64, vc := 2, ftype := 0, body := [], cells := 1, port := some 8, assoc := none }
def edge3 : BitVec 12 := 0x0C1
/-- Port 8 leads along dimension 0 to switch 64; port 16 is the edge port of endpoint 3. -/
def cnet (a : Arrived) (l : Tab Circuit) : State :=
  let s := (onP { cfg := 2, st := .up, ver := 1 }).setLPort 16 { cfg := edge3, st := .up, ver := 1 }
  { s with fab := { s.fab with shape := 0x20204082, inbox := [other, a], circuits := l } }
def outCirc (st : Nat) : Circuit := { ent := circuitEnt st false false 16 8 64, source := 3 }
def origCirc (st : Nat) : Circuit := { ent := circuitEnt st true false 16 8 64, source := 3 }
def atOrig (st k : Nat) : State := cnet other [(4095, { origCirc st with sentAt := k })]
/-- A set-up message that goes on, with the frame it came in. -/
def cameFrame : Frame := Frame.mk 0 []
def passing : Arrived := { cmsg 1 4095 3 64 with frame := some cameFrame }
def grisC : State := { cnet (cmsg 1 4095 64 3) [] with dev := .grisaille }
def oth : List Arrived := [other]
def onC (op st : Nat) : State := cnet (cmsg op 4095 3 64) [(4095, outCirc st)]
def elsewhere : Circuit := { ent := circuitEnt 1 false false 8 16 3, source := 64 }

def outOfTime : State := { cnet (cmsg 2 4095 3 64) [(4095, origCirc 1)] with clock := { cycle := 12500000 } }

def tack (kind epoch seq : Nat) : Arrived :=
  { src := 1, vc := 0, ftype := 4, body := toLE 1 kind ++ toLE 1 2 ++ toLE 2 epoch ++ toLE 4 seq ++ toLE 2 512 ++ zeros 6, cells := 0, port := none, assoc := none }
def otherTack : Arrived := { tack 0 0 0 with src := 3 }
def ots : List Arrived := [otherTack]
def kept1 (q : Nat) : Kept := { frame := (Frame.mk 0 (zeros 32)).put 128 32 q, at' := 4750000 }
def tx0 : FlowTx := { epoch := 3, seq := 9, kept := [kept1 7, kept1 8], window := some 1024 }
def keptMax : Kept := { kept1 7 with resends := 8 }
def txMax : FlowTx := { tx0 with kept := [keptMax, kept1 8] }
def txDone : FlowTx := { tx0 with kept := [] }
def rx0 : FlowRx := { epoch := 3, unacked := 2 }
def rxIdle : FlowRx := { epoch := 3 }
def flowTx (t : FlowTx) : Flow := { peer := 1, vc := 2, tx := some t }
def flowRx (r : FlowRx) : Flow := { peer := 1, vc := 2, rx := some r }
def acked (a : Arrived) (f : Flow) : State := { run0 with fab := { run0.fab with tacks := [otherTack, a], flows := [f] } }

def withFlow (f : Flow) : State := { run0 with fab := { run0.fab with flows := [f] } }
def keptAt (k : Nat) : Kept := { kept1 7 with at' := k }
def txAt (k : Nat) : FlowTx := { tx0 with kept := [keptAt k] }
def heldOrig : Orig := { dest := 1, vc := 2, ftype := 0, body := zeros 32, bucket := 0 }
def txHeld : FlowTx := { tx0 with kept := [], held := some (heldOrig, 4000000) }
def rest1 : List Kept := [kept1 8]
def idleState : State := { withFlow (flowRx rxIdle) with clock := { cycle := 1250000000 } }

theorem wit_csetup_busy : 4095 = leAt (cmsg 1 4095 64 3).body 2 2 % 4096 ∧
    CircuitMessage (cnet (cmsg 1 4095 64 3) [(4095, outCirc 1)]) 8 1 (cmsg 1 4095 64 3) oth [] ∧
    (cnet (cmsg 1 4095 64 3) [(4095, outCirc 1)]).circuit? 4095 ≠ none := by decide +kernel
theorem wit_csetup_degraded : 4095 = leAt (cmsg 1 4095 64 3).body 2 2 % 4096 ∧ CircuitMessage grisC 8 1 (cmsg 1 4095 64 3) oth [] ∧
    grisC.circuit? 4095 = none ∧ grisC.dev = DevSt.grisaille := by decide +kernel
theorem wit_csetup_end : 4095 = leAt (cmsg 1 4095 64 3).body 2 2 % 4096 ∧
    CircuitMessage (cnet (cmsg 1 4095 64 3) []) 8 1 (cmsg 1 4095 64 3) oth [] ∧ (cnet (cmsg 1 4095 64 3) []).circuit? 4095 = none ∧
    (cnet (cmsg 1 4095 64 3) []).dev = DevSt.running ∧
    switchOf (leAt (cmsg 1 4095 64 3).body 8 3) = (cnet (cmsg 1 4095 64 3) []).fab.hereAddr ∧
    (cnet (cmsg 1 4095 64 3) []).edgePort (leAt (cmsg 1 4095 64 3).body 8 3) = some 16 := by decide +kernel
theorem wit_csetup_on : 4095 = leAt passing.body 2 2 % 4096 ∧ CircuitMessage (cnet passing []) 8 1 passing oth [] ∧
    (cnet passing []).circuit? 4095 = none ∧ (cnet passing []).dev = DevSt.running ∧
    switchOf (leAt passing.body 8 3) ≠ (cnet passing []).fab.hereAddr ∧ passing.frame = some cameFrame ∧
    ((consumed (cnet passing []) passing oth []).circuitOn 8 cameFrame (leAt passing.body 4 3) (leAt passing.body 8 3)).isSome = true := by decide +kernel
theorem wit_cready : 4095 = leAt (cmsg 2 4095 3 64).body 2 2 % 4096 ∧ (onC 2 1).circuit? 4095 = some (outCirc 1) ∧
    (outCirc 1).outPort = 8 ∧ (outCirc 1).term = false ∧ CircuitMessage (onC 2 1) 8 2 (cmsg 2 4095 3 64) oth [] ∧ (outCirc 1).st = 1 ∧
    (onC 2 1).dev = DevSt.running := by decide +kernel
theorem wit_cready_late : 4095 = leAt (cmsg 2 4095 3 64).body 2 2 % 4096 ∧ (onC 2 2).circuit? 4095 = some (outCirc 2) ∧
    (outCirc 2).outPort = 8 ∧ (outCirc 2).term = false ∧ CircuitMessage (onC 2 2) 8 2 (cmsg 2 4095 3 64) oth [] ∧
    (outCirc 2).st ≠ 1 := by decide +kernel
theorem wit_cfail : 4095 = leAt (cmsg 3 4095 3 64).body 2 2 % 4096 ∧ (onC 3 1).circuit? 4095 = some (outCirc 1) ∧
    (outCirc 1).outPort = 8 ∧ (outCirc 1).term = false ∧ CircuitMessage (onC 3 1) 8 3 (cmsg 3 4095 3 64) oth [] ∧
    (onC 3 1).dev = DevSt.running := by decide +kernel
theorem wit_ctear : 4095 = leAt (cmsg 4 4095 3 64).body 2 2 % 4096 ∧ (onC 4 2).circuit? 4095 = some (outCirc 2) ∧
    (outCirc 2).outPort = 8 ∧ (outCirc 2).term = false ∧ CircuitMessage (onC 4 2) 8 4 (cmsg 4 4095 3 64) oth [] ∧
    (onC 4 2).dev = DevSt.running := by decide +kernel
theorem wit_cbroken : 4095 = leAt (cmsg 5 4095 3 64).body 2 2 % 4096 ∧ (onC 5 2).circuit? 4095 = some (outCirc 2) ∧
    (outCirc 2).outPort = 8 ∧ (outCirc 2).term = false ∧ CircuitMessage (onC 5 2) 8 5 (cmsg 5 4095 3 64) oth [] ∧
    (onC 5 2).dev = DevSt.running := by decide +kernel
theorem wit_circuit_elsewhere : 4095 = leAt (cmsg 3 4095 3 64).body 2 2 % 4096 ∧ 3 ∈ [2, 3, 5] ∧
    CircuitMessage (cnet (cmsg 3 4095 3 64) [(4095, elsewhere)]) 8 3 (cmsg 3 4095 3 64) oth [] ∧
    (cnet (cmsg 3 4095 3 64) [(4095, elsewhere)]).circuit? 4095 = some elsewhere ∧ elsewhere.outPort ≠ 8 := by decide +kernel
theorem wit_circuit_timeout : 4095 = leAt (cmsg 2 4095 3 64).body 2 2 % 4096 ∧ outOfTime.circuit? 4095 = some (origCirc 1) ∧
    outOfTime.fabricUp = true ∧ outOfTime.aclk = true ∧ (origCirc 1).orig = true ∧ (origCirc 1).st = 1 ∧
    (origCirc 1).sentAt + 12500000 ≤ outOfTime.now := by decide +kernel
theorem wit_circuit_in_time : 4095 = leAt (cmsg 2 4095 3 64).body 2 2 % 4096 ∧
    (cnet (cmsg 2 4095 3 64) [(4095, origCirc 1)]).circuit? 4095 = some (origCirc 1) ∧
    (cnet (cmsg 2 4095 3 64) [(4095, origCirc 1)]).fabricUp = true ∧ (cnet (cmsg 2 4095 3 64) [(4095, origCirc 1)]).aclk = true ∧
    (cnet (cmsg 2 4095 3 64) [(4095, origCirc 1)]).now < (origCirc 1).sentAt + 12500000 := by decide +kernel
theorem wit_tack_ack : 2 = leAt (tack 0 3 8).body 1 1 % 8 ∧ Acknowledged (acked (tack 0 3 8) (flowTx tx0)) 1 0 (tack 0 3 8) ots [] ∧
    (acked (tack 0 3 8) (flowTx tx0)).flow? 1 2 = some (flowTx tx0) ∧ (flowTx tx0).tx = some tx0 ∧
    leAt (tack 0 3 8).body 2 2 = tx0.epoch ∧ 8 = leAt (tack 0 3 8).body 4 4 := by decide +kernel
theorem wit_tack_nak_all : 2 = leAt (tack 1 3 7).body 1 1 % 8 ∧ Acknowledged (acked (tack 1 3 7) (flowTx txDone)) 1 1 (tack 1 3 7) ots [] ∧
    (acked (tack 1 3 7) (flowTx txDone)).flow? 1 2 = some (flowTx txDone) ∧ (flowTx txDone).tx = some txDone ∧
    leAt (tack 1 3 7).body 2 2 = txDone.epoch ∧ txDone.kept = [] := by decide +kernel
theorem wit_tack_nak_none : 2 = leAt (tack 1 3 7).body 1 1 % 8 ∧ Acknowledged (acked (tack 1 3 7) (flowTx tx0)) 1 1 (tack 1 3 7) ots [] ∧
    (acked (tack 1 3 7) (flowTx tx0)).flow? 1 2 = some (flowTx tx0) ∧ (flowTx tx0).tx = some tx0 ∧
    leAt (tack 1 3 7).body 2 2 = tx0.epoch ∧ tx0.kept = kept1 7 :: rest1 ∧
    (kept1 7).resends < (acked (tack 1 3 7) (flowTx tx0)).fab.maxRetx := by decide +kernel
theorem wit_tack_nak_giveup : 2 = leAt (tack 1 3 7).body 1 1 % 8 ∧ Acknowledged (acked (tack 1 3 7) (flowTx txMax)) 1 1 (tack 1 3 7) ots [] ∧
    (acked (tack 1 3 7) (flowTx txMax)).flow? 1 2 = some (flowTx txMax) ∧ (flowTx txMax).tx = some txMax ∧
    leAt (tack 1 3 7).body 2 2 = txMax.epoch ∧ txMax.kept = keptMax :: rest1 ∧
    (acked (tack 1 3 7) (flowTx txMax)).fab.maxRetx ≤ keptMax.resends := by decide +kernel
theorem wit_tack_nak_old : 2 = leAt (tack 1 2 7).body 1 1 % 8 ∧ Acknowledged (acked (tack 1 2 7) (flowTx tx0)) 1 1 (tack 1 2 7) ots [] ∧
    (acked (tack 1 2 7) (flowTx tx0)).flow? 1 2 = some (flowTx tx0) ∧ (flowTx tx0).tx = some tx0 ∧
    leAt (tack 1 2 7).body 2 2 ≠ tx0.epoch := by decide +kernel
theorem wit_tack_reset : 2 = leAt (tack 2 3 7).body 1 1 % 8 ∧ Acknowledged (acked (tack 2 3 7) (flowTx tx0)) 1 2 (tack 2 3 7) ots [] ∧
    (acked (tack 2 3 7) (flowTx tx0)).flow? 1 2 = some (flowTx tx0) ∧ (flowTx tx0).tx = some tx0 ∧
    leAt (tack 2 3 7).body 2 2 = tx0.epoch := by decide +kernel
theorem wit_tack_busy : 2 = leAt (tack 3 3 7).body 1 1 % 8 ∧
    Acknowledged (acked (tack 3 3 7) (flowTx tx0)) 1 3 (tack 3 3 7) ots [] := by decide +kernel
theorem wit_tack_giveup : 2 = leAt (tack 4 3 7).body 1 1 % 8 ∧ Acknowledged (acked (tack 4 3 7) (flowRx rx0)) 1 4 (tack 4 3 7) ots [] ∧
    (acked (tack 4 3 7) (flowRx rx0)).flow? 1 2 = some (flowRx rx0) ∧ (flowRx rx0).rx = some rx0 ∧ rx0.span = [] ∧
    rx0.epoch ≤ leAt (tack 4 3 7).body 2 2 ∧ (flowRx rx0).tx = none ∧
    (acked (tack 4 3 7) (flowRx rx0)).openCtxs = [] := by decide +kernel
theorem wit_tack_giveup_old : 2 = leAt (tack 4 2 7).body 1 1 % 8 ∧
    Acknowledged (acked (tack 4 2 7) (flowRx rx0)) 1 4 (tack 4 2 7) ots [] ∧
    (acked (tack 4 2 7) (flowRx rx0)).flow? 1 2 = some (flowRx rx0) ∧ (flowRx rx0).rx = some rx0 ∧
    leAt (tack 4 2 7).body 2 2 < rx0.epoch := by decide +kernel
theorem wit_rto : (withFlow (flowTx tx0)).fabricUp = true ∧ (withFlow (flowTx tx0)).aclk = true ∧
    (withFlow (flowTx tx0)).flow? 1 2 = some (flowTx tx0) ∧ (flowTx tx0).tx = some tx0 ∧ tx0.kept = kept1 7 :: rest1 ∧
    (kept1 7).at' + (withFlow (flowTx tx0)).fab.rto ≤ (withFlow (flowTx tx0)).now ∧
    (kept1 7).resends < (withFlow (flowTx tx0)).fab.maxRetx := by decide +kernel
theorem wit_rto_giveup : (withFlow (flowTx txMax)).fabricUp = true ∧ (withFlow (flowTx txMax)).aclk = true ∧
    (withFlow (flowTx txMax)).flow? 1 2 = some (flowTx txMax) ∧ (flowTx txMax).tx = some txMax ∧ txMax.kept = keptMax :: rest1 ∧
    keptMax.at' + (withFlow (flowTx txMax)).fab.rto ≤ (withFlow (flowTx txMax)).now ∧
    (withFlow (flowTx txMax)).fab.maxRetx ≤ keptMax.resends := by decide +kernel
theorem wit_rto_early : (withFlow (flowTx (txAt 4750001))).fabricUp = true ∧ (withFlow (flowTx (txAt 4750001))).aclk = true ∧
    (withFlow (flowTx (txAt 4750001))).flow? 1 2 = some (flowTx (txAt 4750001)) ∧ (flowTx (txAt 4750001)).tx = some (txAt 4750001) ∧
    (txAt 4750001).kept = [keptAt 4750001] ∧
    (withFlow (flowTx (txAt 4750001))).now < (keptAt 4750001).at' + (withFlow (flowTx (txAt 4750001))).fab.rto := by decide +kernel
theorem wit_ack_timer : (withFlow (flowRx rx0)).fabricUp = true ∧ (withFlow (flowRx rx0)).aclk = true ∧
    (withFlow (flowRx rx0)).flow? 1 2 = some (flowRx rx0) ∧ (flowRx rx0).rx = some rx0 ∧ 0 < rx0.unacked := by decide +kernel
theorem wit_ack_timer_none : (withFlow (flowRx rxIdle)).fabricUp = true ∧ (withFlow (flowRx rxIdle)).aclk = true ∧
    (withFlow (flowRx rxIdle)).flow? 1 2 = some (flowRx rxIdle) ∧ (flowRx rxIdle).rx = some rxIdle ∧
    rxIdle.unacked = 0 := by decide +kernel
theorem wit_flow_idle : idleState.fabricUp = true ∧ idleState.aclk = true ∧ idleState.flow? 1 2 = some (flowRx rxIdle) ∧
    (∀ (t : FlowTx), (flowRx rxIdle).tx = some t → t.kept = [] ∧ t.held = none) ∧
    (∀ (o : Orig), o ∈ idleState.fab.outbox → o.dest ≠ 1 ∨ o.vc ≠ 2) ∧ (∀ (r : FlowRx), (flowRx rxIdle).rx = some r → r.unacked = 0 ∧
    r.span = [] ∧ r.inUse = 0) ∧
    (flowRx rxIdle).idleAt + idleState.fab.flowIdle * 1250000 ≤ idleState.now := ⟨by decide +kernel, by decide +kernel, by decide +kernel, allOpt (by decide +kernel), by decide +kernel, allOpt (by decide +kernel), by decide +kernel⟩
theorem wit_flow_idle_early : (withFlow (flowRx rxIdle)).fabricUp = true ∧ (withFlow (flowRx rxIdle)).aclk = true ∧
    (withFlow (flowRx rxIdle)).flow? 1 2 = some (flowRx rxIdle) ∧
    (withFlow (flowRx rxIdle)).now < (flowRx rxIdle).idleAt + (withFlow (flowRx rxIdle)).fab.flowIdle * 1250000 := by decide +kernel
theorem wit_span_end : (withFlow (flowTx txHeld)).fabricUp = true ∧ (withFlow (flowTx txHeld)).aclk = true ∧
    (withFlow (flowTx txHeld)).flow? 1 2 = some (flowTx txHeld) ∧ (flowTx txHeld).tx = some txHeld ∧
    txHeld.held ≠ none := by decide +kernel
theorem wit_span_none : (withFlow (flowTx tx0)).fabricUp = true ∧ (withFlow (flowTx tx0)).aclk = true ∧
    (withFlow (flowTx tx0)).flow? 1 2 = some (flowTx tx0) ∧ (flowTx tx0).tx = some tx0 ∧ tx0.held = none := by decide +kernel

end J

namespace K

def fields (n : Nat) (l : List (Nat × Nat × Nat)) : Bytes := l.foldl (fun b x => splice b x.1 (toLE x.2.1 x.2.2)) (zeros n)
/-- Two switches in dimension 0: 0, which is here, and 64. -/
def two : State := { run0 with fab := { run0.fab with shape := 0x20204082 } }
/-- A template: OP 1 on FP32, two ranks. -/
def tmpl2 : Bytes := fields 64 [(0, 1, 1), (1, 1, 1), (2, 1, 1), (3, 1, 1), (6, 1, 2), (8, 4, 1024), (14, 2, 1), (18, 1, 31), (24, 2, 1), (48, 4, 2)]
def roster2 : Tab Rank := [(0, { endpoint := 1, epoch := 7, home := 0 }), (1, { endpoint := 65, epoch := 7, home := 64 })]
def ctxR : Ctx := { st := .ready, tmpl := tmpl2, roster := roster2, gLow := 9, treeMax := 0x100000, fabricDigest := zeros 32, confirmed := [64] }
/-- An ENTER of a rank, with its epoch. -/
def enterBody (gen rank epoch : Nat) : Bytes := fields 64 [(0, 1, 1), (2, 2, 5), (4, 4, gen), (8, 4, rank), (12, 4, epoch), (16, 1, 1), (17, 1, 1), (20, 4, 1024)]
def ent0 (gen : Nat) : Entered := enteredOf 1 (enterBody gen 0 7)
def gen9 : Gen := { num := 9, ref := ent0 9, enters := [ent0 9], t0 := 0, path := .tree }
def failed9 : Gen := { gen9 with failed := some 12 }
def onCtx (s : State) (x : Ctx) : State := { s with coll := { s.coll with ctxs := [(5, x)] } }
def ctxG (y : Gen) : Ctx := { ctxR with gens := [y] }
def arrive (s : State) (a : Arrived) : State := { s with fab := { s.fab with inbox := [a] } }
def num9 : Word := 9
def there : State := { two with fab := { two.fab with here := 64 } }
def rmsg (src ty : Nat) (l : List (Nat × Nat × Nat)) : Arrived :=
  { src, vc := 0, ftype := 6, body := fields 64 ((0, 1, ty) :: (2, 2, 5) :: l), cells := 1, port := some 8, assoc := none }
def onMsg (x : Ctx) (a : Arrived) : State := arrive (onCtx two x) a
def alive0 : Arrived := rmsg 2 1 []
def fence (r ep : Nat) : Arrived := rmsg 2 2 [(8, 4, r), (12, 4, ep)]
def rejoin (ep addr : Nat) : Arrived := rmsg 2 4 [(8, 4, 0), (12, 4, ep), (16, 3, addr)]
def rejoinAway : Arrived := rmsg 2 4 [(8, 4, 1), (12, 4, 8), (16, 3, 3)]
def fencedCtx : Ctx := { ctxR with roster := [(0, { endpoint := 1, epoch := 7, home := 0, live := false }), (1, { endpoint := 65, epoch := 7, home := 64 })] }
def joinedCtx : Ctx := { ctxR with roster := [(0, { endpoint := 1, epoch := 7, home := 0, joined := true }), (1, { endpoint := 65, epoch := 7, home := 64 })] }

def lost (sw : Nat) : Arrived := rmsg 2 7 [(1, 1, 14), (16, 3, sw)]
def hostMsg (sw h : Nat) : Arrived := rmsg 2 8 [(16, 3, sw), (28, 3, h)]
def rerun (src : Nat) : Arrived := rmsg src 6 [(4, 4, 9), (24, 4, 1)]
def mCtx : Ctx := ctxG gen9
def thereRerun (src : Nat) : State := arrive (onCtx there mCtx) (rerun src)
def merge1 (k : Nat) : Merge := { ctx := 5, gen := 9, first := 0, last := 1, since := k }
def merging (k : Nat) : State :=
  let s := onCtx two mCtx
  { s with coll := { s.coll with merges := [merge1 k] } }
def silentAt (k : Nat) : State := { onCtx two mCtx with clock := { cycle := k } }

def atTime (k : Nat) (h : Health) : State := { run0 with clock := { cycle := k }, health := h }
def gris0 : State := { run0 with dev := .grisaille }

def parkGen (z : Chunk) : Gen := { gen9 with chunks := [(0, z)] }
def parkAt (z : Chunk) : State := onCtx two (ctxG (parkGen z))
def stall (k : Nat) : Chunk := { entry := true, entered := [(0, 0)], stallAt := some k }
def ending : Chunk := { entry := true, parking := true, parkOf := [(0, .blend)], ended := [(0, .blend)] }
def parkedC : Chunk := { entry := false, parked := true, taken := [(0, 0), (0, 4294967360)], parkOf := [(0, .blend)] }

def withMem (m : Mem) : State := { run0 with mem := m }
def spared : State := withMem { run0.mem with inService := 2 ^ 127 - 1 + 2 ^ 127 - 2, spares := 1 }
def overTake : Nat × Nat × Nat := (3, 0, 4999999)
def takingOver : State := withMem { run0.mem with takeover := [overTake] }
def usedAt (k : Nat) : State := withMem { run0.mem with lastAccess := [(3, k)] }
def sleepAt (k : Nat) : State := { usedAt k with clock := { cycle := 131072 + k } }
def awakeMem : State := withMem { run0.mem with awake := true }

def withDiary (d : Diary) : State := { run0 with diary := d }
def flushing : State := withDiary { busy := some (2, 5) }
def oneRecord : State := withDiary { busy := some (2, 1), recs := [(0, [])], written := true }
def recent : State := withDiary { lastEasel := some 4999999 }

theorem wit_alive : 5 = leAt alive0.body 2 2 % 4096 ∧ 0 = leAt alive0.body 8 4 % 2 ^ 20 ∧ keySw 2 = false ∧
    ((onMsg ctxR alive0).ctx 5).st = CtxSt.ready ∧ Message (onMsg ctxR alive0) 2 0 6 1 alive0 := by decide +kernel
theorem wit_fence_elsewhere : 5 = leAt (fence 1 7).body 2 2 % 4096 ∧ 1 = leAt (fence 1 7).body 8 4 % 2 ^ 20 ∧ keySw 2 = false ∧
    ((onMsg ctxR (fence 1 7)).ctx 5).st = CtxSt.ready ∧ Message (onMsg ctxR (fence 1 7)) 2 0 6 2 (fence 1 7) ∧
    ¬(1 < ((onMsg ctxR (fence 1 7)).ctx 5).rosterN ∧
    (onMsg ctxR (fence 1 7)).isLocal ((onMsg ctxR (fence 1 7)).ctx 5) 1 = true) := by decide +kernel
theorem wit_fence_epoch : 5 = leAt (fence 0 6).body 2 2 % 4096 ∧ 0 = leAt (fence 0 6).body 8 4 % 2 ^ 20 ∧ keySw 2 = false ∧
    ((onMsg ctxR (fence 0 6)).ctx 5).st = CtxSt.ready ∧ Message (onMsg ctxR (fence 0 6)) 2 0 6 2 (fence 0 6) ∧
    0 < ((onMsg ctxR (fence 0 6)).ctx 5).rosterN ∧ (onMsg ctxR (fence 0 6)).isLocal ((onMsg ctxR (fence 0 6)).ctx 5) 0 = true ∧
    (((onMsg ctxR (fence 0 6)).ctx 5).rank 0).epoch ≠ leAt (fence 0 6).body 12 4 := by decide +kernel
theorem wit_fence_again : 5 = leAt (fence 0 7).body 2 2 % 4096 ∧ 0 = leAt (fence 0 7).body 8 4 % 2 ^ 20 ∧ keySw 2 = false ∧
    ((onMsg fencedCtx (fence 0 7)).ctx 5).st = CtxSt.ready ∧ Message (onMsg fencedCtx (fence 0 7)) 2 0 6 2 (fence 0 7) ∧
    0 < ((onMsg fencedCtx (fence 0 7)).ctx 5).rosterN ∧
    (onMsg fencedCtx (fence 0 7)).isLocal ((onMsg fencedCtx (fence 0 7)).ctx 5) 0 = true ∧
    (((onMsg fencedCtx (fence 0 7)).ctx 5).rank 0).epoch = leAt (fence 0 7).body 12 4 ∧
    (((onMsg fencedCtx (fence 0 7)).ctx 5).rank 0).live = false := by decide +kernel
theorem wit_fence : 5 = leAt (fence 0 7).body 2 2 % 4096 ∧ 0 = leAt (fence 0 7).body 8 4 % 2 ^ 20 ∧ keySw 2 = false ∧
    ((onMsg ctxR (fence 0 7)).ctx 5).st = CtxSt.ready ∧ Message (onMsg ctxR (fence 0 7)) 2 0 6 2 (fence 0 7) ∧
    0 < ((onMsg ctxR (fence 0 7)).ctx 5).rosterN ∧ (onMsg ctxR (fence 0 7)).isLocal ((onMsg ctxR (fence 0 7)).ctx 5) 0 = true ∧
    (((onMsg ctxR (fence 0 7)).ctx 5).rank 0).epoch = leAt (fence 0 7).body 12 4 ∧
    (((onMsg ctxR (fence 0 7)).ctx 5).rank 0).live = true := by decide +kernel
/-- What the context has applied. -/
def appliedCtx : Ctx := { ctxR with applied := [(2, 0, 7, 0), (4, 0, 8, 3), (8, 64, 0, 0)] }
theorem wit_fence_applied : keySw 2 = false ∧ ((onMsg appliedCtx (fence 0 7)).ctx 5).st = CtxSt.ready ∧
    Message (onMsg appliedCtx (fence 0 7)) 2 0 6 2 (fence 0 7) ∧
    (2, 0, leAt (fence 0 7).body 12 4, leAt (fence 0 7).body 16 3) ∈ ((onMsg appliedCtx (fence 0 7)).ctx 5).applied := by decide +kernel
theorem wit_rejoin_applied : keySw 2 = false ∧ ((onMsg appliedCtx (rejoin 8 3)).ctx 5).st = CtxSt.ready ∧
    Message (onMsg appliedCtx (rejoin 8 3)) 2 0 6 4 (rejoin 8 3) ∧
    (4, 0, leAt (rejoin 8 3).body 12 4, leAt (rejoin 8 3).body 16 3) ∈ ((onMsg appliedCtx (rejoin 8 3)).ctx 5).applied := by decide +kernel
theorem wit_host_applied : keySw 2 = false ∧ ((onMsg appliedCtx (hostMsg 64 0)).ctx 5).lost = [] ∧
    Message (onMsg appliedCtx (hostMsg 64 0)) 2 0 6 8 (hostMsg 64 0) ∧
    (8, leAt (hostMsg 64 0).body 16 3, rmHost (hostMsg 64 0).body, 0) ∈ ((onMsg appliedCtx (hostMsg 64 0)).ctx 5).applied := by decide +kernel
theorem wit_rejoin_elsewhere : 5 = leAt rejoinAway.body 2 2 % 4096 ∧ 1 = leAt rejoinAway.body 8 4 % 2 ^ 20 ∧ keySw 2 = false ∧
    ((onMsg ctxR rejoinAway).ctx 5).st = CtxSt.ready ∧ Message (onMsg ctxR rejoinAway) 2 0 6 4 rejoinAway ∧
    ¬(1 < ((onMsg ctxR rejoinAway).ctx 5).rosterN ∧
    (onMsg ctxR rejoinAway).isLocal ((onMsg ctxR rejoinAway).ctx 5) 1 = true) := by decide +kernel
theorem wit_rejoin_again : 5 = leAt (rejoin 7 1).body 2 2 % 4096 ∧ 0 = leAt (rejoin 7 1).body 8 4 % 2 ^ 20 ∧ keySw 2 = false ∧
    ((onMsg joinedCtx (rejoin 7 1)).ctx 5).st = CtxSt.ready ∧ Message (onMsg joinedCtx (rejoin 7 1)) 2 0 6 4 (rejoin 7 1) ∧
    0 < ((onMsg joinedCtx (rejoin 7 1)).ctx 5).rosterN ∧
    (onMsg joinedCtx (rejoin 7 1)).isLocal ((onMsg joinedCtx (rejoin 7 1)).ctx 5) 0 = true ∧
    (((onMsg joinedCtx (rejoin 7 1)).ctx 5).rank 0).joined = true ∧
    (((onMsg joinedCtx (rejoin 7 1)).ctx 5).rank 0).epoch = leAt (rejoin 7 1).body 12 4 ∧
    (((onMsg joinedCtx (rejoin 7 1)).ctx 5).rank 0).endpoint = leAt (rejoin 7 1).body 16 3 := by decide +kernel
theorem wit_rejoin_taken : 5 = leAt (rejoin 8 65).body 2 2 % 4096 ∧ 0 = leAt (rejoin 8 65).body 8 4 % 2 ^ 20 ∧ keySw 2 = false ∧
    ((onMsg ctxR (rejoin 8 65)).ctx 5).st = CtxSt.ready ∧ Message (onMsg ctxR (rejoin 8 65)) 2 0 6 4 (rejoin 8 65) ∧
    0 < ((onMsg ctxR (rejoin 8 65)).ctx 5).rosterN ∧ (onMsg ctxR (rejoin 8 65)).isLocal ((onMsg ctxR (rejoin 8 65)).ctx 5) 0 = true ∧
    ((((onMsg ctxR (rejoin 8 65)).ctx 5).rank 0).joined = false ∨ (((onMsg ctxR (rejoin 8 65)).ctx 5).rank 0).epoch ≠ leAt (rejoin 8 65).body 12 4 ∨ (((onMsg ctxR (rejoin 8 65)).ctx 5).rank 0).endpoint ≠ leAt (rejoin 8 65).body 16 3) ∧
    (∃ q, q ∈ ((onMsg ctxR (rejoin 8 65)).ctx 5).roster ∧ q.fst ≠ 0 ∧ q.fst < ((onMsg ctxR (rejoin 8 65)).ctx 5).rosterN ∧
    q.snd.endpoint = leAt (rejoin 8 65).body 16 3) := by decide +kernel
theorem wit_rejoin_old : 5 = leAt (rejoin 7 3).body 2 2 % 4096 ∧ 0 = leAt (rejoin 7 3).body 8 4 % 2 ^ 20 ∧ keySw 2 = false ∧
    ((onMsg ctxR (rejoin 7 3)).ctx 5).st = CtxSt.ready ∧ Message (onMsg ctxR (rejoin 7 3)) 2 0 6 4 (rejoin 7 3) ∧
    0 < ((onMsg ctxR (rejoin 7 3)).ctx 5).rosterN ∧ (onMsg ctxR (rejoin 7 3)).isLocal ((onMsg ctxR (rejoin 7 3)).ctx 5) 0 = true ∧
    ((((onMsg ctxR (rejoin 7 3)).ctx 5).rank 0).joined = false ∨ (((onMsg ctxR (rejoin 7 3)).ctx 5).rank 0).epoch ≠ leAt (rejoin 7 3).body 12 4 ∨ (((onMsg ctxR (rejoin 7 3)).ctx 5).rank 0).endpoint ≠ leAt (rejoin 7 3).body 16 3) ∧
    (∀ (q : Nat × Rank), q ∈ ((onMsg ctxR (rejoin 7 3)).ctx 5).roster → q.fst = 0 ∨ ((onMsg ctxR (rejoin 7 3)).ctx 5).rosterN ≤ q.fst ∨ q.snd.endpoint ≠ leAt (rejoin 7 3).body 16 3) ∧
    newerEpoch (((onMsg ctxR (rejoin 7 3)).ctx 5).rank 0).epoch (leAt (rejoin 7 3).body 12 4) = false := by decide +kernel
theorem wit_rejoin : 5 = leAt (rejoin 8 3).body 2 2 % 4096 ∧ 0 = leAt (rejoin 8 3).body 8 4 % 2 ^ 20 ∧ keySw 2 = false ∧
    ((onMsg fencedCtx (rejoin 8 3)).ctx 5).st = CtxSt.ready ∧ Message (onMsg fencedCtx (rejoin 8 3)) 2 0 6 4 (rejoin 8 3) ∧
    0 < ((onMsg fencedCtx (rejoin 8 3)).ctx 5).rosterN ∧
    (onMsg fencedCtx (rejoin 8 3)).isLocal ((onMsg fencedCtx (rejoin 8 3)).ctx 5) 0 = true ∧
    ((((onMsg fencedCtx (rejoin 8 3)).ctx 5).rank 0).joined = false ∨ (((onMsg fencedCtx (rejoin 8 3)).ctx 5).rank 0).epoch ≠ leAt (rejoin 8 3).body 12 4 ∨ (((onMsg fencedCtx (rejoin 8 3)).ctx 5).rank 0).endpoint ≠ leAt (rejoin 8 3).body 16 3) ∧
    (∀ (q : Nat × Rank), q ∈ ((onMsg fencedCtx (rejoin 8 3)).ctx 5).roster → q.fst = 0 ∨ ((onMsg fencedCtx (rejoin 8 3)).ctx 5).rosterN ≤ q.fst ∨ q.snd.endpoint ≠ leAt (rejoin 8 3).body 16 3) ∧
    newerEpoch (((onMsg fencedCtx (rejoin 8 3)).ctx 5).rank 0).epoch (leAt (rejoin 8 3).body 12 4) = true := by decide +kernel
theorem wit_lost : 5 = leAt (lost 64).body 2 2 % 4096 ∧ ((onMsg ctxR (lost 64)).ctx 5).st = CtxSt.ready ∧
    ((onMsg ctxR (lost 64)).ctx 5).lost = [] ∧ Message (onMsg ctxR (lost 64)) 2 0 6 7 (lost 64) ∧
    (onMsg ctxR (lost 64)).participant 5 (leAt (lost 64).body 16 3) = true := by decide +kernel
theorem wit_lost_other : 5 = leAt (lost 128).body 2 2 % 4096 ∧ ((onMsg ctxR (lost 128)).ctx 5).st = CtxSt.ready ∧
    ((onMsg ctxR (lost 128)).ctx 5).lost = [] ∧ Message (onMsg ctxR (lost 128)) 2 0 6 7 (lost 128) ∧
    (onMsg ctxR (lost 128)).participant 5 (leAt (lost 128).body 16 3) = false := by decide +kernel
theorem wit_host_bad : 5 = leAt (hostMsg 64 64).body 2 2 % 4096 ∧ ((onMsg ctxR (hostMsg 64 64)).ctx 5).st = CtxSt.ready ∧
    ((onMsg ctxR (hostMsg 64 64)).ctx 5).lost = [] ∧ Message (onMsg ctxR (hostMsg 64 64)) 2 0 6 8 (hostMsg 64 64) ∧ keySw 2 = false ∧
    ((onMsg ctxR (hostMsg 64 64)).participant 5 (leAt (hostMsg 64 64).body 16 3) = false ∨ (onMsg ctxR (hostMsg 64 64)).participant 5 (rmHost (hostMsg 64 64).body) = false ∨ rmHost (hostMsg 64 64).body = leAt (hostMsg 64 64).body 16 3) := by decide +kernel
theorem wit_host : 5 = leAt (hostMsg 64 0).body 2 2 % 4096 ∧ ((onMsg ctxR (hostMsg 64 0)).ctx 5).st = CtxSt.ready ∧
    ((onMsg ctxR (hostMsg 64 0)).ctx 5).lost = [] ∧ Message (onMsg ctxR (hostMsg 64 0)) 2 0 6 8 (hostMsg 64 0) ∧ keySw 2 = false ∧
    (onMsg ctxR (hostMsg 64 0)).participant 5 (leAt (hostMsg 64 0).body 16 3) = true ∧
    (onMsg ctxR (hostMsg 64 0)).participant 5 (rmHost (hostMsg 64 0).body) = true ∧
    rmHost (hostMsg 64 0).body ≠ leAt (hostMsg 64 0).body 16 3 ∧
    ((onMsg ctxR (hostMsg 64 0)).geo ((onMsg ctxR (hostMsg 64 0)).ctx 5)).mayHost (leAt (hostMsg 64 0).body 16 3) (rmHost (hostMsg 64 0).body) = true := by decide +kernel
theorem wit_rerun : 5 = leAt (rerun 2).body 2 2 % 4096 ∧ ((onMsg mCtx (rerun 2)).ctx 5).st = CtxSt.ready ∧
    ((onMsg mCtx (rerun 2)).ctx 5).lost = [] ∧ Message (onMsg mCtx (rerun 2)) 2 0 6 6 (rerun 2) ∧
    ((onMsg mCtx (rerun 2)).geo ((onMsg mCtx (rerun 2)).ctx 5)).up = none := by decide +kernel
abbrev isAbove (s : State) (src : Nat) : Prop := let g := s.geo (s.ctx 5)
    keySw src = true ∧ ∃ n ∈ g.held, ∃ q, g.parent n = some q ∧ g.holder q = keyAddr src
theorem wit_rerun_down : 5 = leAt (rerun (swKey 0)).body 2 2 % 4096 ∧ ((thereRerun (swKey 0)).ctx 5).st = CtxSt.ready ∧
    ((thereRerun (swKey 0)).ctx 5).lost = [] ∧ Message (thereRerun (swKey 0)) (swKey 0) 0 6 6 (rerun (swKey 0)) ∧
    ((thereRerun (swKey 0)).geo ((thereRerun (swKey 0)).ctx 5)).up = some 0 ∧ isAbove (thereRerun (swKey 0)) (swKey 0) :=
  ⟨by decide +kernel, by decide +kernel, by decide +kernel, by decide +kernel, by decide +kernel, by decide +kernel, 64, by decide +kernel,
    0, by decide +kernel, by decide +kernel⟩
theorem wit_rerun_up : 5 = leAt (rerun 2).body 2 2 % 4096 ∧ ((thereRerun 2).ctx 5).st = CtxSt.ready ∧ ((thereRerun 2).ctx 5).lost = [] ∧
    Message (thereRerun 2) 2 0 6 6 (rerun 2) ∧ ((thereRerun 2).geo ((thereRerun 2).ctx 5)).up = some 0 ∧ ¬isAbove (thereRerun 2) 2 :=
  ⟨by decide +kernel, by decide +kernel, by decide +kernel, by decide +kernel, by decide +kernel, fun h => absurd h.1 (by decide +kernel)⟩
theorem wit_rerun_merge : 5 = leAt (lost 64).body 2 2 % 4096 ∧ ((merging 4998750).ctx 5).st = CtxSt.ready ∧
    ((merging 4998750).ctx 5).lost = [] ∧
    (List.find? (fun m ↦ m.ctx == 5 && m.gen == num9) (merging 4998750).coll.merges = some (merge1 4998750)) ∧
    (merging 4998750).computing = true ∧ (merge1 4998750).since + 1250 ≤ (merging 4998750).now := by decide +kernel
theorem wit_rerun_merge_early : 5 = leAt (lost 64).body 2 2 % 4096 ∧ ((merging 4998751).ctx 5).st = CtxSt.ready ∧
    ((merging 4998751).ctx 5).lost = [] ∧
    (List.find? (fun m ↦ m.ctx == 5 && m.gen == num9) (merging 4998751).coll.merges = some (merge1 4998751)) ∧
    (merging 4998751).computing = true ∧ (merging 4998751).now < (merge1 4998751).since + 1250 := by decide +kernel
theorem wit_switch_silence : 5 = leAt (lost 64).body 2 2 % 4096 ∧ ((silentAt 125000000).ctx 5).st = CtxSt.ready ∧
    ((silentAt 125000000).ctx 5).lost = [] ∧ (silentAt 125000000).computing = true ∧ (silentAt 125000000).participant 5 64 = true ∧
    64 ≠ (silentAt 125000000).fab.hereAddr ∧
    (List.flatMap ((silentAt 125000000).geo ((silentAt 125000000).ctx 5)).neighbours ((silentAt 125000000).geo ((silentAt 125000000).ctx 5)).held).contains 64 = true ∧
    tget 0 (silentAt 125000000).coll.heardSw 64 + (silentAt 125000000).health.silenceMs * 1250000 ≤ (silentAt 125000000).now := by decide +kernel
theorem wit_switch_heard : 5 = leAt (lost 64).body 2 2 % 4096 ∧ ((silentAt 124999999).ctx 5).st = CtxSt.ready ∧
    ((silentAt 124999999).ctx 5).lost = [] ∧ (silentAt 124999999).computing = true ∧ (silentAt 124999999).participant 5 64 = true ∧
    64 ≠ (silentAt 124999999).fab.hereAddr ∧
    (List.flatMap ((silentAt 124999999).geo ((silentAt 124999999).ctx 5)).neighbours ((silentAt 124999999).geo ((silentAt 124999999).ctx 5)).held).contains 64 = true ∧
    (silentAt 124999999).now < tget 0 (silentAt 124999999).coll.heardSw 64 + (silentAt 124999999).health.silenceMs * 1250000 := by decide +kernel
theorem wit_member_silent : (silentAt 62500000).fabricUp = true ∧ (silentAt 62500000).health.detectMs ≠ 0 ∧
    (silentAt 62500000).watched 1 = true ∧
    tget 0 (silentAt 62500000).health.lastFrame (edgeOf 1) + (silentAt 62500000).health.detectMs * 1250000 ≤ (silentAt 62500000).now := by decide +kernel
theorem wit_member_heard : (silentAt 62499999).fabricUp = true ∧ (silentAt 62499999).health.detectMs ≠ 0 ∧
    (silentAt 62499999).watched 1 = true ∧
    (silentAt 62499999).now < tget 0 (silentAt 62499999).health.lastFrame (edgeOf 1) + (silentAt 62499999).health.detectMs * 1250000 := by decide +kernel
theorem wit_member_unwatched : (silentAt 62500000).fabricUp = true ∧
    ((silentAt 62500000).health.detectMs = 0 ∨ (silentAt 62500000).watched 65 = false) := by decide +kernel
theorem wit_health_decay : (atTime 1250000000 { score := [(3, 100)], impaired := [3] }).fabricUp = true ∧
    (atTime 1250000000 { score := [(3, 100)], impaired := [3] }).health.decayAt + 1250000000 ≤ (atTime 1250000000 { score := [(3, 100)], impaired := [3] }).now ∧
    tcanon 0 (atTime 1250000000 { score := [(3, 100)], impaired := [3] }).health.score = true := by decide +kernel
theorem wit_health_early : (atTime 1249999999 { }).fabricUp = true ∧
    (atTime 1249999999 { }).now < (atTime 1249999999 { }).health.decayAt + 1250000000 := by decide +kernel
theorem wit_token : (atTime 75000000000 { }).fabricUp = true ∧
    (atTime 75000000000 { }).health.tokenAt + (atTime 75000000000 { }).health.periodS * 1250000000 ≤ (atTime 75000000000 { }).now ∧
    ((atTime 75000000000 { }).health.impaired = [] ∨ (atTime 75000000000 { }).health.tokensMax = 0) := by decide +kernel
theorem wit_token_expel : (atTime 75000000000 { score := [(63, 160)], impaired := [63] }).fabricUp = true ∧
    (atTime 75000000000 { score := [(63, 160)], impaired := [63] }).health.tokenAt + (atTime 75000000000 { score := [(63, 160)], impaired := [63] }).health.periodS * 1250000000 ≤ (atTime 75000000000 { score := [(63, 160)], impaired := [63] }).now ∧
    63 < 64 ∧ (atTime 75000000000 { score := [(63, 160)], impaired := [63] }).health.impaired = [63] ∧
    (atTime 75000000000 { score := [(63, 160)], impaired := [63] }).health.limit ≤ tget 0 (atTime 75000000000 { score := [(63, 160)], impaired := [63] }).health.score 63 ∧
    0 < (atTime 75000000000 { score := [(63, 160)], impaired := [63] }).health.tokensMax := by decide +kernel
theorem wit_token_early : (atTime 74999999999 { }).fabricUp = true ∧
    (atTime 74999999999 { }).now < (atTime 74999999999 { }).health.tokenAt + (atTime 74999999999 { }).health.periodS * 1250000000 := by decide +kernel
theorem wit_grisaille : run0.fabricUp = true ∧ run0.dev = DevSt.running ∧ run0.openCtxs = [] ∧ run0.diary.busy = none := by decide +kernel
theorem wit_grisaille_flush : run0.mem.cached (spillAt ((run0.diary.slot + 1) % 16)) = false := by decide +kernel
theorem wit_grisaille_again : gris0.fabricUp = true ∧ gris0.dev = DevSt.grisaille := by decide +kernel
theorem wit_chunk_stall : (parkAt (stall 4975000)).computing = true ∧
    ((parkAt (stall 4975000)).ctx 5).gen? num9 = some (parkGen (stall 4975000)) ∧ stall 4975000 = (parkGen (stall 4975000)).chunk 0 ∧
    ((parkAt (stall 4975000)).ctx 5).parks (parkGen (stall 4975000)) = true ∧ ((parkAt (stall 4975000)).ctx 5).areaFree (stall 4975000) = true ∧ (stall 4975000).done = false ∧
    (stall 4975000).parking = false ∧ (stall 4975000).parked = false ∧
    (parkAt (stall 4975000)).missing 5 (parkGen (stall 4975000)) 0 = true ∧
    (stall 4975000).stallAt = some 4975000 ∧
    4975000 + (parkAt (stall 4975000)).health.hold ≤ (parkAt (stall 4975000)).now := by decide +kernel
/-- The park area of an OP 0xE context of 1 MiB reaches past its third quarter. -/
def farChunk : Chunk := { stall 0 with area := 786432 }
def keptCtx : Ctx := { ctxG (parkGen farChunk) with tmpl := tmpl2.set 0 0xE, mib := 1 }
theorem wit_chunk_no_area : (onCtx two keptCtx).computing = true ∧ ((onCtx two keptCtx).ctx 5).gen? num9 = some (parkGen farChunk) ∧
    farChunk = (parkGen farChunk).chunk 0 ∧ ((onCtx two keptCtx).ctx 5).areaFree farChunk = false := by decide +kernel
theorem wit_chunk_stall_early : (parkAt (stall 4975001)).computing = true ∧
    ((parkAt (stall 4975001)).ctx 5).gen? num9 = some (parkGen (stall 4975001)) ∧ stall 4975001 = (parkGen (stall 4975001)).chunk 0 ∧
    (stall 4975001).stallAt = some 4975001 ∧
    (parkAt (stall 4975001)).now < 4975001 + (parkAt (stall 4975001)).health.hold := by decide +kernel
theorem wit_chunk_parked : (parkAt ending).computing = true ∧ ((parkAt ending).ctx 5).gen? num9 = some (parkGen ending) ∧
    ending = (parkGen ending).chunk 0 ∧ ending.parking = true ∧ (∀ (p : Nat × EngId), p ∈ ending.parkOf → p ∈ ending.ended ∧
    ((parkAt ending).easel p.fst).quietOf 5 num9 0 = true) := by decide +kernel
theorem wit_chunk_not_parked : (parkAt (stall 0)).computing = true ∧ ((parkAt (stall 0)).ctx 5).gen? num9 = some (parkGen (stall 0)) ∧
    stall 0 = (parkGen (stall 0)).chunk 0 ∧ (stall 0).parking = false := by decide +kernel
theorem wit_chunk_resume : (parkAt parkedC).computing = true ∧ ((parkAt parkedC).ctx 5).gen? num9 = some (parkGen parkedC) ∧
    parkedC = (parkGen parkedC).chunk 0 ∧ parkedC.parked = true ∧
    parkedC.void = false ∧ (parkAt parkedC).missing 5 (parkGen parkedC) 0 = false ∧
    (parkAt parkedC).pushCycle = true ∧ (∀ (p : Nat × EngId), p ∈ parkedC.parkOf →
      ((parkAt parkedC).easel p.1).stopAt = none ∧ (parkAt parkedC).startRoom p.1 p.2 = true) := by decide +kernel
/-- A power share of which this cycle pushes nothing. -/
def slowPark : State := { parkAt parkedC with board := { run0.board with share := 8192 } }
theorem wit_chunk_no_cycle : slowPark.computing = true ∧ (slowPark.ctx 5).gen? num9 = some (parkGen parkedC) ∧
    parkedC = (parkGen parkedC).chunk 0 ∧ slowPark.pushCycle = false := by decide +kernel
theorem wit_chunk_not_resumed : (parkAt (stall 0)).computing = true ∧ ((parkAt (stall 0)).ctx 5).gen? num9 = some (parkGen (stall 0)) ∧
    stall 0 = (parkGen (stall 0)).chunk 0 ∧ (stall 0).parked = false := by decide +kernel
theorem wit_mapout : spared.hbmUp = true ∧ 127 < 128 ∧ spared.mem.serves 127 = true ∧ spared.mem.isSpare 127 = false ∧
    (∀ (t : Nat × Nat × Nat), t ∈ spared.mem.takeover → t.snd.fst ≠ 127) ∧ (∀ (j : Nat), j < 0 → spared.mem.isSpare j = false) ∧
    0 < 128 ∧ spared.mem.isSpare 0 = true ∧ 96 < 128 ∧ 96 ≠ 127 ∧ 96 / 32 = 127 / 32 ∧
    (∀ (p : Nat × Nat), p ∈ spared.mem.failTimes → p.snd ≠ 96) := by decide +kernel
theorem wit_mapout_limit : run0.hbmUp = true ∧ 127 < 128 ∧ run0.mem.serves 127 = true ∧
    (run0.mem.ueLimit = 0 ∨ run0.mem.recentUe run0.now 127 < run0.mem.ueLimit) := by decide +kernel
theorem wit_spare : takingOver.hbmUp = true ∧ takingOver.mem.takeover = [overTake] := by decide +kernel
theorem wit_spare_none : run0.hbmUp = true ∧ run0.mem.takeover = [] := by decide +kernel
theorem wit_scrub : run0.hbmUp = true ∧ run0.board.warmSeq = false := by decide +kernel
theorem wit_hbm_down : (usedAt 4999936).hbmUp = true ∧ 3 < 4 ∧ tget 0 (usedAt 4999936).mem.powerSt 3 = 0 ∧
    tget 0 (usedAt 4999936).mem.lastAccess 3 + 64 ≤ (usedAt 4999936).now := by decide +kernel
theorem wit_hbm_busy : (usedAt 4999937).hbmUp = true ∧ 3 < 4 ∧
    (usedAt 4999937).now < tget 0 (usedAt 4999937).mem.lastAccess 3 + 64 := by decide +kernel
theorem wit_hbm_refresh : (sleepAt 7).hbmUp = true ∧ 3 < 4 ∧ (sleepAt 7).mem.awake = false ∧ tget 0 (sleepAt 7).mem.powerSt 3 ≠ 2 ∧
    tget 0 (sleepAt 7).mem.lastAccess 3 + (sleepAt 7).mem.idle * 128 ≤ (sleepAt 7).now := by decide +kernel
theorem wit_hbm_awake : awakeMem.hbmUp = true ∧ 3 < 4 ∧ awakeMem.mem.awake = true := by decide +kernel
theorem wit_flush : run0.aclk = true ∧ (run0.dev = DevSt.running ∨ run0.dev = DevSt.grisaille) ∧ (2 = 1 ∨ 2 = 2 ∨ 2 = 3 ∨ 2 = 5) ∧
    run0.mem.lostHbm = false ∧ run0.diary.busy = none := by decide +kernel
theorem wit_flush_waits : flushing.aclk = true ∧ (flushing.dev = DevSt.running ∨ flushing.dev = DevSt.grisaille) ∧
    (2 = 1 ∨ 2 = 2 ∨ 2 = 3 ∨ 2 = 5) ∧ flushing.mem.lostHbm = false ∧ flushing.diary.busy ≠ none ∧
    flushing.diary.pendingCause = none := by decide +kernel
theorem wit_flush_cause : run0.aclk = true ∧ (run0.dev = DevSt.running ∨ run0.dev = DevSt.grisaille) ∧ (6 = 0 ∨ 5 < 6) := by decide +kernel
theorem wit_flush_gap : recent.aclk = true ∧ (recent.dev = DevSt.running ∨ recent.dev = DevSt.grisaille) ∧ recent.mem.lostHbm = false ∧
    recent.diary.lastEasel = some 4999999 ∧ recent.now < 4999999 + recent.diary.gapMs * 1250000 := by decide +kernel
theorem wit_flush_none : run0.aclk = true ∧ (run0.dev = DevSt.running ∨ run0.dev = DevSt.grisaille) ∧
    run0.diary.busy = none := by decide +kernel
theorem wit_flush_copies : flushing.aclk = true ∧ (flushing.dev = DevSt.running ∨ flushing.dev = DevSt.grisaille) ∧
    flushing.diary.busy = some (2, 5) ∧ flushing.mem.lostHbm = false ∧ Memory.wf flushing.mem.cells = true ∧
    ∀ m, ∀ o ∈ (flushing.easel m).ops, o.data = [] :=
  ⟨by decide +kernel, by decide +kernel, by decide +kernel, by decide +kernel, by decide +kernel, fun _ _ h => nomatch h⟩
theorem wit_flush_done : oneRecord.aclk = true ∧ (oneRecord.dev = DevSt.running ∨ oneRecord.dev = DevSt.grisaille) ∧
    oneRecord.diary.busy = some (2, 1) ∧ oneRecord.diary.pendingCause = none ∧ oneRecord.board.warmSeq = false ∧
    Memory.wf oneRecord.mem.cells = true := by decide +kernel

end K

namespace L

def inDev (d : DevSt) : State := { run0 with dev := d }
def onBoard (s : State) (b : Board) : State := { s with board := b }
def rstLow : State := onBoard run0 { run0.board with sysRst := false }
def off0 : State := inDev .off
def railsOut : State := onBoard (inDev .aon) { run0.board with rails := false }
def vAddr : Nat := 3

def warmLow : State := onBoard run0 { run0.board with warmRst := false }
def warmFlush : State := { onBoard run0 { run0.board with warmSeq := true, warmRst := false } with
  diary := { busy := some (5, 0) }, mem := { run0.mem with cells := [(0x8000000, 7)] } }

def badFuses : State := { State.reset with boot := { State.reset.boot with fuses := { State.reset.boot.fuses with readable := false } } }
def coldAon : State := onBoard (inDev .aon) { run0.board with clock := false }

def unarmed : State := { run0 with boot := { run0.boot with logArmed := false } }
def failing : State := onBoard unarmed { run0.board with pwrFail := false }
def perstLow : State := onBoard run0 { run0.board with perst := false }
def ownCtx : State := { run0 with coll := { run0.coll with ctxs := [(5, { st := .ready })] } }

def warnDie : Int := 24320
def below : Int := 24319
def warned12 : State := onBoard run0 { run0.board with warned := [12] }
def coolHbm : Int := 22528
def hot12 (k : Nat) : State := onBoard run0 { run0.board with hotSince := [(12, k)] }
def tripHbm : Int := 28160
def underTrip : Int := 28159
def throttled (k : Nat) : State := onBoard run0 { run0.board with throttleAt := k }
def powerHeld : State := onBoard run0 { run0.board with throttleAt := 0, powerHeld := true, share := 57344 }

def aon0 : State := inDev .aon
def allAlerts : State := { run0 with boot := { run0.boot with alert := 63 } }
def aRecord : Bytes := toLE 4 7 ++ zeros 60
def asked (d : DevSt) (q : Nat) : State := { inDev d with diary := { recs := [(7, aRecord)] }, boot := { run0.boot with smbSeq := some q } }
def mramAt (a : Nat) : State := { run0 with boot := { run0.boot with smbMram := a } }
def noAlert : State := { run0 with boot := { run0.boot with alert := 0 } }

theorem wit_sys_rst : run0.board.sysRst = true ∧ run0.dev ≠ DevSt.off := by decide +kernel
theorem wit_sys_rst_again : rstLow.board.sysRst = false := by decide +kernel
theorem wit_aon_loss : run0.dev ≠ DevSt.off := by decide +kernel
theorem wit_aon_good : off0.dev = DevSt.off := by decide +kernel
theorem wit_aon_good_again : run0.dev ≠ DevSt.off := by decide +kernel
theorem wit_rails : railsOut.dev = DevSt.aon ∧ railsOut.board.rails = false := by decide +kernel
theorem wit_rails_running : run0.dev ≠ DevSt.aon := by decide +kernel
theorem wit_rail_fault : run0.dev ≠ DevSt.off ∧ run0.dev ≠ DevSt.aon ∧ run0.board.rails = true := by decide +kernel
theorem wit_rail_fault_aon : (inDev DevSt.aon).dev = DevSt.aon ∧ (inDev DevSt.aon).board.rails = true := by decide +kernel
theorem wit_warm : run0.board.warmRst = true ∧ run0.aclk = true ∧ run0.dev = DevSt.running ∧ run0.board.warmSeq = false ∧
    run0.mem.lostHbm = false ∧ run0.diary.busy = none := by decide +kernel
/-- A STORE is in flight. -/
def warmOps : State := run0.modEasel 0 (fun x => { x with ops := [D.storing] })
theorem wit_warm_writes : warmOps.board.warmRst = true ∧ warmOps.aclk = true ∧ warmOps.dev = DevSt.running ∧ warmOps.board.warmSeq = false ∧
    warmOps.mem.lostHbm = false ∧ warmOps.diary.busy = none := by decide +kernel
theorem wit_warm_hold : (inDev DevSt.hold).board.warmRst = true ∧ (inDev DevSt.hold).aclk = true ∧
    ((inDev DevSt.hold).dev = .hold ∨ (inDev DevSt.hold).dev = .boot) ∧ (inDev DevSt.hold).board.warmSeq = false ∧
    (inDev DevSt.hold).board.coolHold = false := by decide +kernel
theorem wit_warm_boot : (inDev DevSt.boot).board.warmRst = true ∧ (inDev DevSt.boot).aclk = true ∧ (inDev DevSt.boot).dev = DevSt.boot ∧
    (inDev DevSt.boot).board.warmSeq = false ∧ (inDev DevSt.boot).board.coolHold = false := by decide +kernel
theorem wit_warm_again : warmLow.board.warmRst = false := by decide +kernel
theorem wit_warm_end : warmFlush.diary.busy = some (5, 0) ∧ warmFlush.diary.pendingCause = none ∧ warmFlush.aclk = true ∧
    warmFlush.board.warmSeq = true ∧ warmFlush.dev = DevSt.running ∧ warmFlush.board.coolHold = false := by decide +kernel
theorem wit_warm_kept : (!warmFlush.mem.excludePending && !warmFlush.board.warmSpoiled) = true ∧ Memory.wf warmFlush.mem.cells = true ∧
    (0x2000000 < warmFlush.mem.sketchBase ∨ warmFlush.mem.paletteBase ≤ 0x2000000) ∧ 0x2000000 < Config.scratchBase ∧
    (0x2000000 < warmFlush.diary.slot * 0x400000 ∨ (warmFlush.diary.slot + 1) * 0x400000 ≤ 0x2000000) := by decide +kernel
theorem wit_warm_rise : warmLow.board.warmRst = false := by decide +kernel
theorem wit_warm_risen : run0.board.warmRst = true := by decide +kernel
theorem wit_boot_fuses : badFuses.dev = DevSt.boot ∧ badFuses.board.warmRst = true ∧ badFuses.board.clock = true ∧
    (badFuses.boot.fuses.readable = false ∨ 3 ≤ badFuses.boot.fuses.grade ∨
      badFuses.boot.fuses.enabled.length ≠ Config.gradeEasels badFuses.boot.fuses.grade) := by decide +kernel
def norDead : State := { State.reset with boot := { State.reset.boot with norAnswers := false } }
theorem wit_boot_silent : norDead.dev = DevSt.boot ∧ norDead.board.warmRst = true ∧ norDead.board.clock = true ∧
    norDead.boot.fuses.readable = true ∧ norDead.boot.fuses.grade < 3 ∧
    norDead.boot.fuses.enabled.length = Config.gradeEasels norDead.boot.fuses.grade ∧ norDead.boot.norAnswers = false := by decide +kernel
theorem wit_boot_image : State.reset.dev = DevSt.boot ∧ State.reset.board.warmRst = true ∧ State.reset.board.clock = true ∧
    State.reset.boot.fuses.readable = true ∧ State.reset.boot.fuses.grade < 3 ∧ State.reset.boot.norAnswers = true ∧
    State.reset.boot.fuses.enabled.length = Config.gradeEasels State.reset.boot.fuses.grade ∧
    (State.reset.setBoard { State.reset.board with sysRst := true, coolHold := false }).checkMram.reportLog.imageFault
      (State.reset.setBoard { State.reset.board with sysRst := true, coolHold := false }).checkMram.reportLog State.reset.norImage =
        some 1 := by decide +kernel
/-- Where BOOT does nothing. -/
abbrev noBoot (s : State) : Prop := s.dev = .off ∨ s.dev = .hold ∨ s.dev = .running ∨ s.dev = .grisaille ∨
    s.dev = .boot ∧ (s.board.warmRst = false ∨ s.board.clock = false) ∨
    s.dev = .aon ∧ (s.board.aon = false ∨ s.board.rails = false ∨ s.board.clock = false)
theorem wit_boot_elsewhere : noBoot run0 := by decide +kernel
theorem wit_boot_held : noBoot { State.reset with board := { State.reset.board with warmRst := false } } ∧
    noBoot { State.reset with board := { State.reset.board with clock := false } } := by decide +kernel
theorem wit_boot_aon : coldAon.dev = .aon ∧ noBoot coldAon := by decide +kernel
theorem wit_pwr_fail : run0.board.pwrFail = true ∧ run0.aclk = true ∧ run0.boot.logArmed = true ∧ run0.boot.logJob = none ∧
    run0.diary.queue.length < 64 := by decide +kernel
/-- A log that waits for one event, one that waits for two, and one that has a record and the header left, each begun 199 ACLK ago. -/
def logging (j : LogJob) : State := { run0 with boot := { run0.boot with logJob := some j } }
def waitsFor (n : Nat) : LogJob := { wait := n, since := 4999801 }
def writes (l : List (Nat × Bytes)) : LogJob := { wait := 0, since := 4999801, todo := some l }
theorem wit_log_waits : (logging (waitsFor 2)).boot.logJob = some (waitsFor 2) ∧ (logging (waitsFor 2)).aclk = true ∧ (waitsFor 2).todo = none ∧
    ¬(waitsFor 2).wait ≤ 1 ∧ (waitsFor 1).todo = none ∧ (waitsFor 1).wait ≤ 1 := by decide +kernel
def onePart : LogJob := writes [(0, aRecord)]
def twoParts : LogJob := writes [(0x10040, aRecord), (0, aRecord)]
theorem wit_log_writes : (logging twoParts).boot.logJob = some twoParts ∧ (logging twoParts).aclk = true ∧
    twoParts.todo = some ((0x10040, aRecord) :: [(0, aRecord)]) ∧ ((logging twoParts).now + 1 - twoParts.since) % 200 = 0 := by decide +kernel
theorem wit_log_ends : (logging onePart).boot.logJob = some onePart ∧ (logging onePart).aclk = true ∧
    onePart.todo = some ((0, aRecord) :: []) ∧ ((logging onePart).now + 1 - onePart.since) % 200 = 0 := by decide +kernel
theorem wit_pwr_fail_unarmed : unarmed.board.pwrFail = true ∧ unarmed.aclk = true ∧ unarmed.boot.logArmed = false := by decide +kernel
theorem wit_pwr_fail_rise : failing.board.pwrFail = false := by decide +kernel
theorem wit_pwr_risen : run0.board.pwrFail = true := by decide +kernel
theorem wit_perst : run0.board.perst = true ∧ run0.aclk = true := by decide +kernel
theorem wit_perst_again : perstLow.board.perst = false := by decide +kernel
theorem wit_perst_rise : perstLow.board.perst = false ∧ 2 < 3 := by decide +kernel
theorem wit_perst_risen : run0.board.perst = true := by decide +kernel
theorem wit_flr : Reaches ownCtx 0 := by decide +kernel
theorem wit_flr_absent : 3 < 4 ∧ run0.presents 3 = false := by decide +kernel
theorem wit_thermal_warn : 8 < 13 ∧ run0.aclk = true ∧ ¬8 ∈ run0.board.warned ∧ run0.board.warnAt 8 ≤ warnDie := by decide +kernel
theorem wit_thermal_cool : 12 < 13 ∧ warned12.aclk = true ∧ 12 ∈ warned12.board.warned ∧
    coolHbm ≤ warned12.board.warnAt 12 - 512 := by decide +kernel
theorem wit_thermal_below : 8 < 13 ∧ run0.aclk = true ∧ ¬8 ∈ run0.board.warned ∧ below < run0.board.warnAt 8 := by decide +kernel
theorem wit_thermal_emergency : 12 < 13 ∧ (hot12 3750000).aclk = true ∧ tget? (hot12 3750000).board.hotSince 12 = some 3750000 ∧
    3750000 + 1250000 ≤ (hot12 3750000).now := by decide +kernel
theorem wit_thermal_no_emergency : 12 < 13 ∧ run0.aclk = true ∧ tget? run0.board.hotSince 12 = none := by decide +kernel
theorem wit_thermtrip : 12 < 13 ∧ ((if 12 < 9 then 30720 else 28160) ≤ tripHbm) ∧ run0.dev ≠ DevSt.off := by decide +kernel
theorem wit_thermtrip_aon : 12 < 13 ∧ ((if 12 < 9 then 30720 else 28160) ≤ tripHbm) ∧ (inDev DevSt.aon).dev ≠ DevSt.off := by decide +kernel
theorem wit_thermtrip_below : 12 < 13 ∧ (underTrip < if 12 < 9 then 30720 else 28160) := by decide +kernel
theorem wit_throttle : 0 < 13 ∧ (throttled 3750000).aclk = true ∧
    (throttled 3750000).board.throttleAt + 1250000 ≤ (throttled 3750000).now ∧ 23000 ≤ (throttled 3750000).board.limits.pLimit ∧
    (throttled 3750000).board.powerHeld = false := by decide +kernel
theorem wit_throttle_power : 0 < 13 ∧ powerHeld.aclk = true ∧ powerHeld.board.throttleAt + 1250000 ≤ powerHeld.now ∧
    powerHeld.board.limits.pLimit < 23001 ∧
    (57344 = if powerHeld.board.powerHeld = true then min powerHeld.board.share (powerHeld.board.senseAll powerHeld.now []).curveShare else (powerHeld.board.senseAll powerHeld.now []).curveShare) := by decide +kernel
/-- The share rises again below P_LIMIT: by an eighth, rounded up. -/
def lowShare : State := onBoard run0 { run0.board with throttleAt := 0, powerHeld := true, share := 7 }
theorem wit_throttle_rise : 0 < 13 ∧ lowShare.aclk = true ∧ lowShare.board.throttleAt + 1250000 ≤ lowShare.now ∧
    100 < lowShare.board.limits.pLimit ∧ lowShare.board.powerHeld = true ∧
    65536 = (lowShare.board.senseAll lowShare.now []).curveShare ∧ 7 = min lowShare.board.share 65536 := by decide +kernel
theorem wit_throttle_early : 0 < 13 ∧ (throttled 3750001).aclk = true ∧
    (throttled 3750001).now < (throttled 3750001).board.throttleAt + 1250000 := by decide +kernel
theorem wit_smb_state : run0.dev ≠ DevSt.off := by decide +kernel
theorem wit_smb_ident : run0.dev ≠ DevSt.off := by decide +kernel
theorem wit_smb_temp : run0.dev ≠ DevSt.off ∧ run0.dev ≠ DevSt.aon := by decide +kernel
theorem wit_smb_temp_aon : aon0.dev ≠ DevSt.off ∧ aon0.dev = DevSt.aon := by decide +kernel
theorem wit_smb_power : run0.dev ≠ DevSt.off ∧ run0.dev ≠ DevSt.aon := by decide +kernel
theorem wit_smb_alert : run0.dev ≠ DevSt.off := by decide +kernel
theorem wit_smb_alert_write : allAlerts.dev ≠ DevSt.off := by decide +kernel
theorem wit_smb_bad_write : allAlerts.dev ≠ DevSt.off := by decide +kernel
theorem wit_smb_seq : run0.dev ≠ DevSt.off := by decide +kernel
theorem wit_smb_diary : (asked DevSt.running 7).dev ≠ DevSt.off ∧ (asked DevSt.running 7).boot.smbSeq = some 7 ∧
    (asked DevSt.running 7).dev ≠ DevSt.aon ∧ aRecord = tget [] (asked DevSt.running 7).diary.recs (7 % 65536) ∧
    List.length aRecord = 64 ∧ leAt aRecord 0 4 = 7 := by decide +kernel
theorem wit_smb_diary_gone : (asked DevSt.running 8).dev ≠ DevSt.off ∧ (asked DevSt.running 8).boot.smbSeq = some 8 ∧
    ((asked DevSt.running 8).dev = DevSt.aon ∨ leAt (tget [] (asked DevSt.running 8).diary.recs (8 % 65536)) 0 4 ≠ 8) := by decide +kernel
theorem wit_smb_mram_seq : run0.dev ≠ DevSt.off := by decide +kernel
theorem wit_smb_mram : (mramAt 2097088).dev ≠ DevSt.off ∧ (mramAt 2097088).boot.smbMram % 64 = 0 ∧
    (mramAt 2097088).boot.smbMram < 2097152 := by decide +kernel
theorem wit_smb_mram_out : (mramAt 2097152).dev ≠ DevSt.off ∧
    ((mramAt 2097152).boot.smbMram % 64 ≠ 0 ∨ 2097152 ≤ (mramAt 2097152).boot.smbMram) := by decide +kernel
theorem wit_alert_response : allAlerts.dev ≠ DevSt.off ∧ allAlerts.boot.alert ≠ 0 := by decide +kernel
theorem wit_alert_none : noAlert.dev ≠ DevSt.off ∧ noAlert.boot.alert = 0 := by decide +kernel
theorem wit_smb_off : off0.dev = DevSt.off ∧
    Instr.alertResponse ∈ [Instr.smbState, Instr.smbIdent, Instr.smbTemp, Instr.smbPower, Instr.smbAlert none, Instr.smbDiary none, Instr.smbMramRead none, Instr.alertResponse] := by decide +kernel

open Sys2Proof.Tests.G in
/-- The NOR holds the signed image. -/
def bootable : State := State.norWrite { State.reset with boot := { State.reset.boot with fuses := goodFuses } } 0 goodImage
open Sys2Proof.Tests.G in
theorem nor_reads : bootable.norRead 0 1280 = goodImage := by
  have hl : goodImage.length = 1280 := by decide +kernel
  apply List.ext_getElem
  · simp [State.norRead, hl]
  · intro i _ h2
    simp only [State.norRead, bootable, State.norWrite, List.getElem_map, List.getElem_range]
    rw [tget_putBytes_of_mem 0 goodImage i rfl h2]
open Sys2Proof.Tests.G in
theorem nor_image : bootable.norImage = goodImage := by
  have h64 : bootable.norRead 0 64 = goodImage.take 64 := by
    rw [← nor_reads]; simp [State.norRead, ← List.map_take, List.take_range]
  have h1 : (leAt (goodImage.take 64) 0 4 == 0x5A435A49) = true := by decide +kernel
  have h2 : min identityBase (imgSigned (goodImage.take 64) + 1024) = 1280 := by decide +kernel
  unfold State.norImage
  simp only [h64, h1, if_true, h2, nor_reads]
def bootsFrom : State := (State.setBoard bootable { bootable.board with sysRst := true, coolHold := false }).checkMram.reportLog
open Sys2Proof.Tests.G in
theorem wit_boot : bootable.dev = .boot ∧ bootable.board.warmRst = true ∧ bootable.board.clock = true ∧ bootable.boot.norAnswers = true ∧
    bootable.boot.fuses.readable = true ∧ bootable.boot.fuses.grade < 3 ∧
    bootable.boot.fuses.enabled.length = Config.gradeEasels bootable.boot.fuses.grade ∧
    bootsFrom.imageFault bootsFrom bootable.norImage = none ∧ ∃ v, bootsFrom.loadTables bootable.norImage = some v := by
  have ht : (bootsFrom.loadTables goodImage).isSome = true := by decide +kernel
  rw [nor_image]
  exact ⟨rfl, rfl, rfl, rfl, rfl, by decide, by decide +kernel, image_passes (by decide +kernel) ht, Option.isSome_iff_exists.mp ht⟩

end L

namespace M

/-- The state after a step that answers one. -/
def stepped (s : State) : State := match step s with | .next t => t | _ => s
def goes (s : State) : Bool := match step s with | .next _ => true | _ => false
theorem step_after {s : State} (h : goes s = true) : step s = .next (stepped s) := by
  unfold goes at h
  unfold stepped
  cases hs : step s with
  | next t => rfl
  | fault f => rw [hs] at h; cases h
  | refused r => rw [hs] at h; cases h
def front (c : Instr) (s : State) : State := { s with pending := [c] }
theorem wit_idle : run0.pending = [] := rfl
theorem noJob {o : Option NorJob} (h : o = none) : ∀ j, o = some j → j.len ≤ 0x3F0_0000 := by
  intro j e; rw [h] at e; cases e
def canonicalRun : State := front (.smbAlert none) { run0 with boot := { run0.boot with nor := [(0x3F00000, 1)] } }
theorem wit_canonical : Canonical canonicalRun ∧ canonicalRun.pending = .smbAlert none :: [] ∧ step canonicalRun = .next (stepped canonicalRun) :=
  ⟨⟨by decide +kernel, by decide +kernel, by decide +kernel, noJob rfl⟩, rfl, step_after (by decide +kernel)⟩
def grisRail : State := front .railFault { run0 with dev := .grisaille }
def grisWarm : State := front .warmRst { run0 with dev := .grisaille, board := { run0.board with coolHold := true } }
def hotAon : State := { run0 with dev := .aon, board := { run0.board with coolHold := true, temps := [(0, 24320)] } }
theorem wit_grisaille : grisRail.dev = .grisaille ∧ grisRail.pending = .railFault :: [] ∧ step grisRail = .next (stepped grisRail) ∧
    (stepped grisRail).dev ≠ .grisaille := ⟨rfl, rfl, step_after (by decide +kernel), by decide +kernel⟩
theorem wit_grisaille_hot : grisWarm.dev = .grisaille ∧ grisWarm.board.coolHold = true ∧ goes grisWarm = true := by decide +kernel
theorem wit_hot_aon : hotAon.dev = .aon ∧ hotAon.board.coolHold = true ∧ hotAon.board.cool = false := by decide +kernel
def offAon : State := front (.vddAonGood 1) { run0 with dev := .off }
theorem wit_device : offAon.pending = .vddAonGood 1 :: [] ∧ step offAon = .next (stepped offAon) ∧ (stepped offAon).dev ≠ offAon.dev :=
  ⟨rfl, step_after (by decide +kernel), by decide +kernel⟩
def nopRow : State := (engOn .blend 0 0 {})
theorem wit_frame_engine : ∃ t, exec (.nop 0 .blend 0) nopRow = .next t ∧ (row (.nop 0 .blend 0)).isSome = true :=
  ⟨stepped (front (.nop 0 .blend 0) nopRow), step_after (s := front (.nop 0 .blend 0) nopRow) (by decide +kernel), rfl⟩

end M

end Sys2Proof.Tests
end

section
/-!
The frame of every command (95_what_each_step_holds.md): which components of the state it leaves as they were, read off the relation `Keeps`.
-/

namespace Sys2Proof.Proofs

open Sys2Proof Sys2Proof.Machine Sys2Proof.Claims

/-! The frame table: of every command and every component, whether the command leaves it. -/

/-- The components of the state of which `ComponentFrames` speaks; `tables` are those that BOOT loads (15 R413). -/
inductive Part where
  | tables | dev | clock | easels | coll | fab | mem | health | funcs | diary | boot | board | outs

/-- The events of a chunk that parks (12 R345, R346). -/
def parkingEvent : Instr → Bool
  | .chunkStall _ _ _ | .chunkParked _ _ _ | .chunkResume _ _ _ => true
  | _ => false

/-- The commands that move fabric time (01 R26): its tick, and those that measure or take a time answer. -/
def movesTime : Instr → Bool
  | .fabricTimeTick | .timeMeasure _ | .linkFlit _ _ => true
  | _ => false

def isBoot : Instr → Bool
  | .boot _ => true
  | _ => false

/-- The commands that belong to one unit of the device: none of them resets the core, boots it or moves its time. -/
def ofOneUnit (c : Instr) : Bool :=
  (row c).isSome || hostCommand c || circuitEvent c || transportEvent c || parkingEvent c

/-- The frame table: `true` where the command leaves the component; `false` says nothing. -/
def leaves (c : Instr) : Part → Bool
  | .tables => ofOneUnit c || !coreReset c && !isBoot c
  | .clock => ofOneUnit c || !coreReset c && !movesTime c
  | .dev | .health | .board => ofOneUnit c
  | .boot | .outs => (row c).isSome || circuitEvent c || transportEvent c || parkingEvent c
  | .funcs => (row c).isSome || transportEvent c || parkingEvent c
  | .mem => circuitEvent c || transportEvent c || parkingEvent c
  | .easels | .coll => circuitEvent c
  | .fab | .diary => parkingEvent c

/-- VDD_AON good leaves the tables; it acts in OFF alone, so it does not end Grisaille mode. -/
theorem keeps_execVddAonGood_tables {k fc fe fl fb fm fh fu fy ft : Bool} (addr : Nat) (s : State) :
    OutKeeps k false fc fe fl fb fm fh fu fy false false ft s (execVddAonGood addr s) := by
  unfold execVddAonGood when'
  apply OutKeeps.next
  split
  · rename_i off
    apply keeps_State_setDev
    · intro _ gris
      simp_all [State.setBoard]
    · exact keeps_State_setBoard _ (.refl s)
  · exact .refl s

/-- Every command leaves what the frame table says. -/
theorem exec_keeps (s : State) : ∀ c : Instr,
    OutKeeps (leaves c .tables) (leaves c .dev) (leaves c .clock) (leaves c .easels) (leaves c .coll) (leaves c .fab) (leaves c .mem)
      (leaves c .health) (leaves c .funcs) (leaves c .diary) (leaves c .boot) (leaves c .board) (leaves c .outs) s (exec c s)
  | .nop n e w => keeps_execNop n e w (.refl s)
  | .endStudy n e w => keeps_execEndStudy n e w (.refl s)
  | .br n e w => keeps_execBr n e w (.refl s)
  | .loop n e w => keeps_execLoop n e w (.refl s)
  | .wait n e w => keeps_execWait n e w (.refl s)
  | .signal n e w => keeps_execSignal n e w (.refl s)
  | .push n e w => keeps_execPush n e w (.refl s)
  | .take n e w => keeps_execTake n e w (.refl s)
  | .cset n e w => keeps_execCset n e w (.refl s)
  | .cadd n e w => keeps_execCadd n e w (.refl s)
  | .cmov n e w => keeps_execCmov n e w (.refl s)
  | .kset n e w => keeps_execKset n e w (.refl s)
  | .smovi n e w => keeps_execSmovi n e w (.refl s)
  | .salu n e w => keeps_execSalu n e w (.refl s)
  | .saddi n e w => keeps_execSaddi n e w (.refl s)
  | .smov n e w => keeps_execSmov n e w (.refl s)
  | .mode n e w => keeps_execMode n e w (.refl s)
  | .seed n e w => keeps_execSeed n e w (.refl s)
  | .fclr n e w => keeps_execFclr n e w (.refl s)
  | .easelReturnIdle n => keeps_execEaselReturnIdle n (.refl s)
  | .semResolve n => keeps_execSemResolve n (.refl s)
  | .tokenQueueResolve n => keeps_execTokenQueueResolve n (.refl s)
  | .waitTimeout n e => keeps_execWaitTimeout n e (.refl s)
  | .studySwitch n e => keeps_execStudySwitch n e (.refl s)
  | .recv n w => keeps_execRecv n w (.refl s)
  | .load n w => keeps_execLoad n w (.refl s)
  | .loadCompletion n id err => keeps_execLoadCompletion n id err (.refl s)
  | .gather n w => keeps_execGather n w (.refl s)
  | .gatherCompletion n id err => keeps_execGatherCompletion n id err (.refl s)
  | .vld n w => keeps_execVld n w (.refl s)
  | .vst n w => keeps_execVst n w (.refl s)
  | .vadd n w => keeps_execVadd n w (.refl s)
  | .vsub n w => keeps_execVsub n w (.refl s)
  | .vmul n w => keeps_execVmul n w (.refl s)
  | .vfma n w => keeps_execVfma n w (.refl s)
  | .vmin n w => keeps_execVmin n w (.refl s)
  | .vmax n w => keeps_execVmax n w (.refl s)
  | .vdiv n w => keeps_execVdiv n w (.refl s)
  | .vsqrt n w => keeps_execVsqrt n w (.refl s)
  | .vcvt n w => keeps_execVcvt n w (.refl s)
  | .viadd n w => keeps_execViadd n w (.refl s)
  | .visub n w => keeps_execVisub n w (.refl s)
  | .xclr n w => keeps_execXclr n w (.refl s)
  | .xadd n w => keeps_execXadd n w (.refl s)
  | .xrnd n w => keeps_execXrnd n w (.refl s)
  | .xcnt n w => keeps_execXcnt n w (.refl s)
  | .xst n w => keeps_execXst n w (.refl s)
  | .xld n w => keeps_execXld n w (.refl s)
  | .bsfit n w => keeps_execBsfit n w (.refl s)
  | .bsmax n w => keeps_execBsmax n w (.refl s)
  | .thdr n w => keeps_execThdr n w (.refl s)
  | .sort n w => keeps_execSort n w (.refl s)
  | .merge n w => keeps_execMerge n w (.refl s)
  | .topk n w => keeps_execTopk n w (.refl s)
  | .fsel n w => keeps_execFsel n w (.refl s)
  | .dense n w => keeps_execDense n w (.refl s)
  | .cmpct n w => keeps_execCmpct n w (.refl s)
  | .filt n w => keeps_execFilt n w (.refl s)
  | .recs n w => keeps_execRecs n w (.refl s)
  | .twrap n w => keeps_execTwrap n w (.refl s)
  | .send n w => keeps_execSend n w (.refl s)
  | .sendCompletion n => keeps_execSendCompletion n (.refl s)
  | .store n w => keeps_execStore n w (.refl s)
  | .storeCompletion n id => keeps_execStoreCompletion n id (.refl s)
  | .scatter n w => keeps_execScatter n w (.refl s)
  | .scatterCompletion n id err => keeps_execScatterCompletion n id err (.refl s)
  | .easelLowPowerEntry n => keeps_execEaselLowPowerEntry n (.refl s)
  | .easelWake n => keeps_execEaselWake n (.refl s)
  | .easelCtrlWrite f n v => keeps_execEaselCtrlWrite f n v (.refl s)
  | .ingressStagePlace n => keeps_execIngressStagePlace n (.refl s)
  | .startEntryPush n => keeps_execStartEntryPush n (.refl s)
  | .openCtx f => keeps_execOpenCtx f (.refl s)
  | .reservationGranted => keeps_execReservationGranted (.refl s)
  | .openWaitExpiry c => keeps_execOpenWaitExpiry c (.refl s)
  | .roster f => keeps_execRoster f (.refl s)
  | .commit f => keeps_execCommit f (.refl s)
  | .close f => keeps_execClose f (.refl s)
  | .abort f => keeps_execAbort f (.refl s)
  | .cmdLoad f => keeps_execCmdLoad f (.refl s)
  | .group f => keeps_execGroup f (.refl s)
  | .start f => keeps_execStart f (.refl s)
  | .bind f => keeps_execBind f (.refl s)
  | .unbind f => keeps_execUnbind f (.refl s)
  | .grant f => keeps_execGrant f (.refl s)
  | .circuit f => keeps_execCircuit f (.refl s)
  | .tear f => keeps_execTear f (.refl s)
  | .capture f => keeps_execCapture f (.refl s)
  | .captureClear f => keeps_execCaptureClear f (.refl s)
  | .replay f => keeps_execReplay f (.refl s)
  | .replayFinish => keeps_execReplayFinish (.refl s)
  | .hbmRetry f => keeps_execHbmRetry f (.refl s)
  | .assign f => keeps_execAssign f (.refl s)
  | .attest f => keeps_execAttest f (.refl s)
  | .imageWrite f => keeps_execImageWrite f (.refl s)
  | .cmdNop f => keeps_execCmdNop f (.refl s)
  | .commandTake f => keeps_execCommandTake f (.refl s)
  | .retire f slot v => keeps_execRetire f slot v (.refl s)
  | .ftimeLoRead f => keeps_execFtimeLoRead f (.refl s)
  | .cmdNextLoRead f => keeps_execCmdNextLoRead f (.refl s)
  | .registerWrite f off data poisoned => keeps_execRegisterWrite f off data poisoned (.refl s)
  | .bar2Access f off len wr err poisoned => keeps_execBar2Access f off len wr err poisoned (.refl s)
  | .hbmMapoutWrite f v => keeps_execHbmMapoutWrite f v (.refl s)
  | .diaryCtrlFlush f v => keeps_execDiaryCtrlFlush f v (.refl s)
  | .gateArm f port v => keeps_execGateArm f port v (.refl s)
  | .shapeCfgWrite f port vc burst v => keeps_execShapeCfgWrite f port vc burst v (.refl s)
  | .schedCfgWrite f port quantum v => keeps_execSchedCfgWrite f port quantum v (.refl s)
  | .bufLimitWrite f port cls v => keeps_execBufLimitWrite f port cls v (.refl s)
  | .routeEntryWrite f idx v => keeps_execRouteEntryWrite f idx v (.refl s)
  | .groupEntryValidWrite f g v => keeps_execGroupEntryValidWrite f g v (.refl s)
  | .portCfgWrite f port reg v => keeps_execPortCfgWrite f port reg v (.refl s)
  | .gessoModeWrite f hi v => keeps_execGessoModeWrite f hi v (.refl s)
  | .detCtrlWrite f v => keeps_execDetCtrlWrite f v (.refl s)
  | .apertureWrite f v => keeps_execApertureWrite f v (.refl s)
  | .enter src vc => keeps_execEnter src vc (.refl s)
  | .enterWaitRelease c => keeps_execEnterWaitRelease c (.refl s)
  | .hairlineEnter src => keeps_execHairlineEnter src (.refl s)
  | .contributionTile src vc => keeps_execContributionTile src vc (.refl s)
  | .genTimeout c g => keeps_execGenTimeout c g (.refl s)
  | .chunkRetire c g k => keeps_execChunkRetire c g k (.refl s)
  | .generationRetire c => keeps_execGenerationRetire c (.refl s)
  | .stageCheck src => keeps_execStageCheck src (.refl s)
  | .checkResendTimer c => keeps_execCheckResendTimer c (.refl s)
  | .summary src => keeps_execSummary src (.refl s)
  | .verdict src => keeps_execVerdict src (.refl s)
  | .fail src => keeps_execFail src (.refl s)
  | .poseRelease c g => keeps_execPoseRelease c g (.refl s)
  | .linkDownTimer p => keeps_execLinkDownTimer p (.refl s)
  | .trainingSuccess p => keeps_execTrainingSuccess p (.refl s)
  | .trainingTimeout p => keeps_execTrainingTimeout p (.refl s)
  | .helloSend p => keeps_execHelloSend p (.refl s)
  | .linkUp p => keeps_execLinkUp p (.refl s)
  | .linkFlitSend p => keeps_execLinkFlitSend p (.refl s)
  | .linkFlit p flit => keeps_execLinkFlit p flit (.refl s)
  | .dataFlit p flit => keeps_execDataFlit p flit (.refl s)
  | .ackTimeoutResend p => keeps_execAckTimeoutResend p (.refl s)
  | .linkDown p why => keeps_execLinkDown p why (.refl s)
  | .timeMeasure p => keeps_execTimeMeasure p (.refl s)
  | .fabricTimeTick => keeps_execFabricTimeTick (.refl s)
  | .frameReceive p how => keeps_execFrameReceive p how (.refl s)
  | .linkHoldExpiry p vc => keeps_execLinkHoldExpiry p vc (.refl s)
  | .egressDecision p => keeps_execEgressDecision p (.refl s)
  | .gateEntryBoundary port => keeps_execGateEntryBoundary port (.refl s)
  | .gateSwitchOver port => keeps_execGateSwitchOver port (.refl s)
  | .csetup p => keeps_execCsetup p (.refl s)
  | .cready p => keeps_execCready p (.refl s)
  | .cfail p => keeps_execCfail p (.refl s)
  | .ctear p => keeps_execCtear p (.refl s)
  | .cbroken p => keeps_execCbroken p (.refl s)
  | .circuitTimeout id => keeps_execCircuitTimeout id (.refl s)
  | .tackAck src => keeps_execTackAck src (.refl s)
  | .tackNak src => keeps_execTackNak src (.refl s)
  | .tackReset src => keeps_execTackReset src (.refl s)
  | .tackBusy src => keeps_execTackBusy src (.refl s)
  | .tackGiveup src => keeps_execTackGiveup src (.refl s)
  | .rtoExpiry peer vc => keeps_execRtoExpiry peer vc (.refl s)
  | .ackSendTimer peer vc => keeps_execAckSendTimer peer vc (.refl s)
  | .flowIdleExpiry peer vc => keeps_execFlowIdleExpiry peer vc (.refl s)
  | .spanIdleEnd peer vc => keeps_execSpanIdleEnd peer vc (.refl s)
  | .alive src => keeps_execAlive src (.refl s)
  | .fence src => keeps_execFence src (.refl s)
  | .rejoin src => keeps_execRejoin src (.refl s)
  | .host src => keeps_execHost src (.refl s)
  | .lost src => keeps_execLost src (.refl s)
  | .rerun src => keeps_execRerun src (.refl s)
  | .rerunMerge c g => keeps_execRerunMerge c g (.refl s)
  | .memberSilent ep => keeps_execMemberSilent ep (.refl s)
  | .switchSilence c sw => keeps_execSwitchSilence c sw (.refl s)
  | .chunkStall c g k => keeps_execChunkStall c g k (.refl s)
  | .chunkParked c g k => keeps_execChunkParked c g k (.refl s)
  | .chunkResume c g k => keeps_execChunkResume c g k (.refl s)
  | .healthDecay => keeps_execHealthDecay (.refl s)
  | .expelTokenAdd => keeps_execExpelTokenAdd (.refl s)
  | .grisailleEntry cause => keeps_execGrisailleEntry cause (.refl s)
  | .runtimeMapout ch why => keeps_execRuntimeMapout ch why (.refl s)
  | .spareTakeover => keeps_execSpareTakeover (.refl s)
  | .backgroundScrub err => keeps_execBackgroundScrub err (.refl s)
  | .hbmPowerDown h => keeps_execHbmPowerDown h (.refl s)
  | .hbmSelfRefreshEntry h => keeps_execHbmSelfRefreshEntry h (.refl s)
  | .diaryFlush cause => keeps_execDiaryFlush cause (.refl s)
  | .diaryFlushComplete => keeps_execDiaryFlushComplete (.refl s)
  | .sysRstLow => keeps_execSysRstLow (.refl s)
  | .boot hbm => keeps_execBoot hbm (.refl s)
  | .warmRst => keeps_execWarmRst (.refl s)
  | .vddAonLoss => keeps_execVddAonLoss (.refl s)
  | .railFault => keeps_execRailFault (.refl s)
  | .pwrFail => keeps_execPwrFail (.refl s)
  | .perst => keeps_execPerst (.refl s)
  | .functionLevelReset f => keeps_execFunctionLevelReset f (.refl s)
  | .thermalWarning sensor t => keeps_execThermalWarning sensor t (.refl s)
  | .thermalEmergency sensor => keeps_execThermalEmergency sensor (.refl s)
  | .thermtrip sensor t => keeps_execThermtrip sensor t (.refl s)
  | .throttleUpdate temps power current => keeps_execThrottleUpdate temps power current (.refl s)
  | .smbState => keeps_execSmbState (.refl s)
  | .smbIdent => keeps_execSmbIdent (.refl s)
  | .smbTemp => keeps_execSmbTemp (.refl s)
  | .smbPower => keeps_execSmbPower (.refl s)
  | .smbAlert wr => keeps_execSmbAlert wr (.refl s)
  | .smbDiary wr => keeps_execSmbDiary wr (.refl s)
  | .smbMramRead wr => keeps_execSmbMramRead wr (.refl s)
  | .alertResponse => keeps_execAlertResponse (.refl s)
  | .vddAonGood addr => keeps_execVddAonGood_tables addr s
  | .railsInRange => keeps_execRailsInRange (.refl s)
  | .warmRstRise => keeps_execWarmRstRise (.refl s)
  | .perstRise strap => keeps_execPerstRise strap (.refl s)
  | .pwrFailRise => keeps_execPwrFailRise (.refl s)
  | .hostReadCompletion f data => keeps_execHostReadCompletion f data (.refl s)
  | .norProgramComplete second readback => keeps_execNorProgramComplete second readback (.refl s)
  | .msixUnmask f vec => keeps_execMsixUnmask f vec (.refl s)
  | .bar0AccessRefused f off len => keeps_execBar0AccessRefused f off len (.refl s)
variable {s t : State} {c : Instr}

/-! The SMBus target changes what it sends and its own registers in `boot`. -/

/-- The frame of an SMBus transfer (15 R429). -/
def BusFrame (s t : State) : Prop := t = { s with boot := t.boot, outs := t.outs, freeCtr := t.freeCtr }

theorem BusFrame.of_onBus {go : State} (h : onBus s go = .next t) (frame : BusFrame s go) : BusFrame s t := by
  unfold onBus when' at h
  cases h
  split
  · exact frame
  · rfl

theorem execSmbAlert_frame {wr : Option (Word × Bool)} (h : execSmbAlert wr s = .next t) : BusFrame s t :=
  .of_onBus h <| match wr with
    | none | some (_, false) | some (_, true) => rfl

theorem execSmbDiary_frame {wr : Option (Word × Bool)} (h : execSmbDiary wr s = .next t) : BusFrame s t :=
  .of_onBus h <| match wr with
    | none | some (_, false) | some (_, true) => rfl

theorem execSmbMramRead_frame {wr : Option (Word × Bool)} (h : execSmbMramRead wr s = .next t) : BusFrame s t := by
  refine .of_onBus h ?_
  match wr with
  | some (_, false) | some (_, true) => rfl
  | none =>
    dsimp only
    split <;> rfl

theorem execAlertResponse_frame (h : execAlertResponse s = .next t) : BusFrame s t := by
  refine .of_onBus h ?_
  split <;> rfl

theorem smbusTransfer_frame (hc : smbusTransfer c = true) (h : exec c s = .next t) : BusFrame s t := by
  match c, hc with
  | .smbState, _ => exact .of_onBus h rfl
  | .smbIdent, _ => exact .of_onBus h rfl
  | .smbTemp, _ => exact .of_onBus h rfl
  | .smbPower, _ => exact .of_onBus h rfl
  | .smbAlert _, _ => exact execSmbAlert_frame h
  | .smbDiary _, _ => exact execSmbDiary_frame h
  | .smbMramRead _, _ => exact execSmbMramRead_frame h
  | .alertResponse, _ => exact execAlertResponse_frame h

/-! The events of a gate list change their port, where they act (10 R299-R302). -/

theorem setPort_frame {unit go : Bool} {port : Nat} {x : Port} (h : onUnit unit (when' go s (s.setPort port x)) = .next t) :
    t = { s with fab := t.fab } := by
  unfold onUnit when' at h
  split at h
  · cases h
    split <;> rfl
  · cases h

/-! Parking leaves every component but the Easels and the collective state. -/

theorem parkingEvent_frame (hc : parkingEvent c = true) (h : exec c s = .next t) :
    t = { s with easels := t.easels, coll := t.coll, freeCtr := t.freeCtr, hot := t.hot } := by
  have kept := exec_keeps s c t h
  have unit : ofOneUnit c = true := by simp [ofOneUnit, hc]
  obtain ⟨formats, -⟩ := kept.tables (by simp [leaves, unit])
  have pending := kept.pending
  have dev := kept.dev unit
  have clock := kept.clock (by simp [leaves, unit])
  have fab := kept.fab hc
  have mem := kept.mem (by simp [leaves, hc])
  have health := kept.health unit
  have funcs := kept.funcs (by simp [leaves, hc])
  have diary := kept.diary hc
  have boot := kept.boot (by simp [leaves, hc])
  have board := kept.board unit
  have outs := kept.outs (by simp [leaves, hc])
  cases s
  cases t
  simp_all only

/-! The commands of one unit. -/

theorem engineInstr_frame (hc : (row c).isSome = true) (h : exec c s = .next t) :
    t.dev = s.dev ∧ t.clock = s.clock ∧ t.health = s.health ∧ t.funcs = s.funcs ∧ t.boot = s.boot ∧ t.board = s.board ∧
      t.outs = s.outs ∧ t.formats = s.formats := by
  have kept := exec_keeps s c t h
  have unit : ofOneUnit c = true := by simp [ofOneUnit, hc]
  obtain ⟨formats, -⟩ := kept.tables (by simp [leaves, unit])
  exact ⟨kept.dev unit, kept.clock (by simp [leaves, unit]), kept.health unit, kept.funcs (by simp [leaves, hc]),
    kept.boot (by simp [leaves, hc]), kept.board unit, kept.outs (by simp [leaves, hc]), formats⟩

theorem hostCommand_frame (hc : hostCommand c = true) (h : exec c s = .next t) :
    t.dev = s.dev ∧ t.clock = s.clock ∧ t.health = s.health ∧ t.board = s.board ∧ t.formats = s.formats := by
  have kept := exec_keeps s c t h
  have unit : ofOneUnit c = true := by simp [ofOneUnit, hc]
  obtain ⟨formats, -⟩ := kept.tables (by simp [leaves, unit])
  exact ⟨kept.dev unit, kept.clock (by simp [leaves, unit]), kept.health unit, kept.board unit, formats⟩

theorem circuitEvent_frame (hc : circuitEvent c = true) (h : exec c s = .next t) :
    t.dev = s.dev ∧ t.clock = s.clock ∧ t.easels = s.easels ∧ t.coll = s.coll ∧ t.mem = s.mem ∧ t.health = s.health ∧ t.boot = s.boot ∧
      t.board = s.board ∧ t.outs = s.outs := by
  have kept := exec_keeps s c t h
  have unit : ofOneUnit c = true := by simp [ofOneUnit, hc]
  exact ⟨kept.dev unit, kept.clock (by simp [leaves, unit]), kept.easels hc, kept.coll hc, kept.mem (by simp [leaves, hc]),
    kept.health unit, kept.boot (by simp [leaves, hc]), kept.board unit, kept.outs (by simp [leaves, hc])⟩

theorem transportEvent_frame (hc : transportEvent c = true) (h : exec c s = .next t) :
    t.dev = s.dev ∧ t.clock = s.clock ∧ t.mem = s.mem ∧ t.health = s.health ∧ t.funcs = s.funcs ∧ t.boot = s.boot ∧
      t.board = s.board ∧ t.outs = s.outs := by
  have kept := exec_keeps s c t h
  have unit : ofOneUnit c = true := by simp [ofOneUnit, hc]
  exact ⟨kept.dev unit, kept.clock (by simp [leaves, unit]), kept.mem (by simp [leaves, hc]), kept.health unit,
    kept.funcs (by simp [leaves, hc]), kept.boot (by simp [leaves, hc]), kept.board unit, kept.outs (by simp [leaves, hc])⟩

/-! Fabric time and the tables of BOOT, over all commands. -/

theorem movesTime_eq_false (tick : c ≠ .fabricTimeTick) (measure : ∀ p, c ≠ .timeMeasure p) (flit : ∀ p b, c ≠ .linkFlit p b) :
    movesTime c = false := by
  unfold movesTime
  split
  · contradiction
  · exact absurd rfl (measure _)
  · exact absurd rfl (flit _ _)
  · rfl

theorem isBoot_eq_false (boot : ∀ h, c ≠ .boot h) : isBoot c = false := by
  unfold isBoot
  split
  · exact absurd rfl (boot _)
  · rfl

/-- Settles O60, clause by clause from the frame table and the equations of the SMBus and of the gates. -/
theorem componentFrames : Obligations.ComponentFrames := by
  intro s t c h
  have kept := exec_keeps s c t h
  refine ⟨fun hc => engineInstr_frame hc h, fun hc => hostCommand_frame hc h, fun hc => smbusTransfer_frame hc h,
    fun hc => circuitEvent_frame hc h, fun hc => transportEvent_frame hc h, ?parking, ?gates, ?time, ?tables⟩
  case parking =>
    rintro x g k (rfl | rfl | rfl)
    all_goals exact parkingEvent_frame rfl h
  case gates =>
    rintro n (rfl | rfl)
    all_goals exact setPort_frame h
  case time =>
    intro noReset tick measure flit
    exact kept.clock (by simp [leaves, noReset, movesTime_eq_false tick measure flit])
  case tables =>
    intro noReset noBoot
    exact kept.tables (by simp [leaves, noReset, isBoot_eq_false noBoot])

end Sys2Proof.Proofs
end

section
/-!
Engine instructions that occupy a functional unit (04 R105-R108): the state while the instruction issues, and what each scheduling
operation adds to it.
-/

namespace Sys2Proof.Proofs

open Sys2Proof Sys2Proof.Machine Sys2Proof.Claims

variable {s : State} {n : Nat} {e : EngId} {u : UnitId} {t : Nat} {l : List Pending}

/-- An engine that has gone to RUN. -/
def toRun (g : Engine) : Engine := { g with st := .run }

/-- The engine has gone to RUN and nothing else has happened: the state in which an instruction's body runs. -/
def running (s : State) (n : Nat) (e : EngId) : State := s.setEngine n e (toRun (s.engine n e))

/-- The issuing engine occupies unit `u` for `t` cycles, and the writes `l` are on their way. -/
def occupied (s : State) (n : Nat) (e : EngId) (u : UnitId) (t : Nat) (l : List Pending) : State :=
  s.setEngine n e { s.engine n e with st := .run, pend := (s.engine n e).pend ++ l,
                                      busy := (u, s.now + t) :: (s.engine n e).busy.filter (fun p => p.1 != u) }

section
variable (g : Engine)

@[simp] theorem toRun_s' (k : Nat) : (toRun g).s' k = g.s' k := rfl
@[simp] theorem toRun_slot (d : Nat) : (toRun g).slot d = g.slot d := rfl
@[simp] theorem toRun_trayAddr (w : IWord) : (toRun g).trayAddr w = g.trayAddr w := rfl
@[simp] theorem toRun_sAddr (k : Nat) : (toRun g).sAddr k = g.sAddr k := rfl
@[simp] theorem toRun_rmode : (toRun g).rmode = g.rmode := rfl
@[simp] theorem toRun_flush : (toRun g).flush = g.flush := rfl
@[simp] theorem toRun_rdn : (toRun g).rdn = (g.rmode == 3) := rfl
@[simp] theorem toRun_srOf : (toRun g).srOf = g.srOf := rfl
@[simp] theorem toRun_chunk : (toRun g).chunk = g.chunk := rfl
@[simp] theorem toRun_serves : (toRun g).serves = g.serves := rfl
@[simp] theorem toRun_key : (toRun g).key = g.key := rfl
@[simp] theorem toRun_pos : (toRun g).pos = g.pos := rfl

end

@[simp] theorem running_formats : (running s n e).formats = s.formats := rfl
@[simp] theorem running_freeCtr : (running s n e).freeCtr = s.freeCtr := rfl
@[simp] theorem running_integerSum (x : Slot) : (running s n e).integerSum x = s.integerSum x := rfl
@[simp] theorem running_read (a k : Nat) : ((running s n e).easel n).read a k = (s.easel n).read a k := State.setEngine_read _ _ _
@[simp] theorem running_unitBusy : (running s n e).unitBusy n e u = s.unitBusy n e u := State.unitBusy_setEngine _ _

@[simp] theorem occupied_formats : (occupied s n e u t l).formats = s.formats := rfl
@[simp] theorem occupied_read (a k : Nat) : ((occupied s n e u t l).easel n).read a k = (s.easel n).read a k :=
  State.setEngine_read _ _ _

@[simp] theorem running_occupy : (running s n e).occupy n e u t = occupied s n e u t [] := by
  simp [running, toRun, occupied]

@[simp] theorem occupied_after (k : Nat) (x : Landing) :
    (occupied s n e u t l).after n e k x = occupied s n e u t (l ++ [lands s k x]) := by
  simp [occupied, lands]

/-! Where an instruction makes a write on a condition, the writes on their way branch. -/

@[simp] theorem occupied_ite (p : Prop) [Decidable p] (l' : List Pending) :
    (if p then occupied s n e u t l else occupied s n e u t l') = occupied s n e u t (if p then l else l') :=
  (apply_ite (occupied s n e u t) p l l').symm

theorem ite_append_append (p : Prop) [Decidable p] (l m m' : List Pending) :
    (if p then l ++ m else l ++ m') = l ++ if p then m else m' :=
  (apply_ite (l ++ ·) p m m').symm

theorem ite_append_nil (p : Prop) [Decidable p] (l m : List Pending) : (if p then l ++ m else l) = l ++ if p then m else [] := by
  simpa using ite_append_append p l m []

theorem ite_nil_append (p : Prop) [Decidable p] (l m : List Pending) : (if p then l else l ++ m) = l ++ if p then [] else m := by
  simpa using ite_append_append p l [] m

theorem ite_cons_cons (p : Prop) [Decidable p] (a : Pending) (l l' : List Pending) :
    (if p then a :: l else a :: l') = a :: if p then l else l' :=
  (apply_ite (a :: ·) p l l').symm

@[simp] theorem occupied_raise (k : Nat) (f : BitVec 7) :
    (occupied s n e u t l).raise n e k f = occupied s n e u t (l ++ flagLands s (s.engine n e) k f) := by
  unfold occupied
  rw [State.raise_setEngine, ← List.append_assoc]
  rfl

@[simp] theorem issueEnd_occupied {s₀ : State} (now : s₀.now = s.now) :
    issueEnd s n e (.go (occupied s₀ n e u t l) .seq) = .next (issuedOn s₀ n e u t l) := by
  simp [issueEnd, occupied, issuedOn, now]

/-- The same for an instruction that occupies no unit and schedules one write. -/
@[simp] theorem issueEnd_after (k : Nat) (x : Landing) :
    issueEnd s n e (.go ((running s n e).after n e k x) .seq) = .next (issued s n e .seq [lands s k x]) := by
  simp [issueEnd, running, toRun, issued, lands]

/-- Once its word is at the PC and its reserved bits are zero, an instruction whose fields pass runs its body in `running`. -/
theorem issue_legal {op : Nat} {w : IWord} {used : Used} {ok : Bool} {body : State → Engine → Res} (h : Issues s n e op w used)
    (listed : opListed e op = true) (byte : op < 256) (fields : ok = true) :
    issue s n e op w (fun s g => legal w used ok (body s g)) = issueEnd s n e (body (running s n e) (toRun (s.engine n e))) := by
  obtain ⟨⟨easel, engine, free, inStudy⟩, word, reserved⟩ := h
  rw [issue_go easel engine free inStudy word listed byte, legal_ok reserved fields]
  rfl

/-! The draw of unseeded stochastic rounding (13 R370) touches no engine. -/

@[simp] theorem modGen_now (c : Nat) (g : Word) (f : Gen → Gen) : (s.modGen c g f).now = s.now := by
  unfold State.modGen
  split <;> rfl

@[simp] theorem modGen_easel (c : Nat) (g : Word) (f : Gen → Gen) (m : Nat) : (s.modGen c g f).easel m = s.easel m := by
  unfold State.modGen
  split <;> rfl

@[simp] theorem modGen_engine (c : Nat) (g : Word) (f : Gen → Gen) (m : Nat) (d : EngId) : (s.modGen c g f).engine m d = s.engine m d := by
  unfold State.engine
  rw [modGen_easel]

theorem modGen_setEngine (g : Engine) (c : Nat) (num : Word) (f : Gen → Gen) :
    (s.setEngine n e g).modGen c num f = (s.modGen c num f).setEngine n e g := by
  unfold State.modGen
  rw [State.setEngine_ctx]
  split <;> rfl

theorem stochDraw_unseeded (k : Nat) (unseeded : (s.engine n e).rmode = 5) : s.stochDraw n e k =
    (s.draw k).modGen (s.engine n e).serves.1 (s.engine n e).serves.2 (fun y => y.markNd (s.engine n e).pos true) :=
  if_pos unseeded

theorem stochDraw_of_ne (k : Nat) (seeded : (s.engine n e).rmode ≠ 5) : s.stochDraw n e k = s := if_neg seeded

@[simp] theorem stochDraw_now (k : Nat) : (s.stochDraw n e k).now = s.now := by
  by_cases mode : (s.engine n e).rmode = 5
  · rw [stochDraw_unseeded k mode, modGen_now]
    rfl
  · rw [stochDraw_of_ne k mode]

@[simp] theorem stochDraw_engine (k : Nat) : (s.stochDraw n e k).engine n e = s.engine n e := by
  by_cases mode : (s.engine n e).rmode = 5
  · rw [stochDraw_unseeded k mode, modGen_engine]
    rfl
  · rw [stochDraw_of_ne k mode]

@[simp] theorem stochDraw_lands (k d : Nat) (x : Landing) : lands (s.stochDraw n e k) d x = lands s d x := by
  simp [lands]

@[simp] theorem stochDraw_flagLands (k d : Nat) (g : Engine) (f : BitVec 7) :
    flagLands (s.stochDraw n e k) g d f = flagLands s g d f := by
  simp [flagLands]

/-- The engine draws by its mode, its generation and its position, which its going to RUN does not change. -/
@[simp] theorem running_stochDraw (k : Nat) : (running s n e).stochDraw n e k = running (s.stochDraw n e k) n e := by
  have ran : (running s n e).engine n e = toRun (s.engine n e) := State.engine_setEngine _ _ _ _
  by_cases mode : (s.engine n e).rmode = 5
  · rw [stochDraw_unseeded k (by rw [ran]; exact mode), ran]
    unfold running
    rw [stochDraw_engine, stochDraw_unseeded k mode]
    exact modGen_setEngine (s := s.draw k) _ _ _ _
  · rw [stochDraw_of_ne k (by rw [ran]; exact mode), stochDraw_of_ne k mode]

end Sys2Proof.Proofs
end

section
/-!
The fields of a Blend tile instruction's word as bits (05 R139). Reserved bits (05 R138): a word that passes holds nothing outside its
used fields, so MOD is no wider than its row lists.
-/

namespace Sys2Proof.Proofs

open Sys2Proof Sys2Proof.Machine Sys2Proof.Claims

variable {w : IWord} {used : Used}

theorem wD_bits : wD w = bits w 55 51 := rfl
theorem wA_bits : wA w = bits w 50 46 := rfl
theorem tB_bits : tB w = bits w 20 16 := rfl
theorem tFMT_bits : tFMT w = bits w 25 21 := rfl

/-- One bit of MOD. -/
theorem fld_tMOD_bit {i : Nat} (h : i < 8) : fld (tMOD w) i 1 = bits w i i := by
  unfold tMOD IWord.f fld bits
  rw [Nat.shiftRight_zero, Nat.add_sub_cancel_left]
  apply Nat.eq_of_testBit_eq
  intro j
  simp only [Nat.testBit_mod_two_pow, Nat.testBit_shiftRight]
  by_cases first : j < 1
  · simp [show i + j < 8 by omega]
  · simp [first]

/-- The bits of a word that are reserved beside the used fields. -/
def reservedMask (used : Used) : Nat := 2 ^ 56 - 1 - used.foldl (fun m f => m ||| ((2 ^ f.2 - 1) <<< f.1)) 0

theorem testBit_of_reservedOk (h : reservedOk w used = true) {i : Nat} (reserved : (reservedMask used).testBit i = true) :
    w.toNat.testBit i = false := by
  have none : w.toNat &&& reservedMask used = 0 := by
    unfold reservedOk at h
    exact eq_of_beq h
  have bit := congrArg (Nat.testBit · i) none
  simpa [reserved] using bit

/-- MOD of format T is its low `k` bits where the rest of it is reserved. -/
theorem tMOD_of_reservedOk (h : reservedOk w used = true) {k : Nat} (narrow : k ≤ 8)
    (reserved : ∀ i < 8, k ≤ i → (reservedMask used).testBit i = true) : tMOD w = w.toNat % 2 ^ k := by
  unfold tMOD IWord.f fld
  apply Nat.eq_of_testBit_eq
  intro i
  rw [Nat.shiftRight_zero, Nat.testBit_mod_two_pow, Nat.testBit_mod_two_pow]
  by_cases low : i < k
  · simp [low, Nat.lt_of_lt_of_le low narrow]
  · by_cases mod : i < 8
    · simp [testBit_of_reservedOk h (reserved i mod (Nat.le_of_not_lt low))]
    · simp [low, mod]

end Sys2Proof.Proofs
end

section
/-!
XRND in both forms, and the scale instructions (02 R40, R43; 03 R77, R96; 05 R152-R154).
-/

namespace Sys2Proof.Proofs

open Sys2Proof Sys2Proof.Machine Sys2Proof.Claims

variable {s : State} {n : Nat} {w : IWord}

theorem b2n_ne_zero (k : Nat) : b2n (k != 0) = if k = 0 then 0 else 1 := by
  by_cases zero : k = 0 <;> simp [b2n, zero]

theorem not_stochastic_fault {p : Prop} {b : Bool} (h : p → b = true) : ¬ (p ∧ b = false) := by
  rintro ⟨hp, no⟩
  simp [h hp] at no

/-- Scale bytes that are all valid stop no instruction. -/
theorem no_bad_scale {f : Fmt} {l : Bytes} (ok : ∀ c ∈ l, f.scaleOk c.toNat = true) : ¬ ∃ c ∈ l, f.scaleOk c.toNat = false := by
  rintro ⟨c, mem, bad⟩
  simp [ok c mem] at bad

/-- The checks of a tile read the Tray alone. -/
theorem consume_eq_of_read {x y : Easel} (h : ∀ a k, x.read a k = y.read a k) (tbl : Tab DWord) (a : Nat) (need : Option Nat) :
    consume tbl x a need = consume tbl y a need := by
  simp only [consume, h]

@[simp] theorem occupied_consume {e : EngId} {u : UnitId} {t : Nat} {l : List Pending} (tbl : Tab DWord) (a : Nat) (need : Option Nat) :
    consume tbl ((occupied s n e u t l).easel n) a need = consume tbl (s.easel n) a need :=
  consume_eq_of_read occupied_read tbl a need

/-! XRND: every check of the model passes by a hypothesis, which leaves what it schedules. -/

theorem xrndFields_legal (slot : bits w 55 51 < 4) (regA : bits w 50 46 < 16) (regB : bits w 20 16 < 16) :
    (isK (wD w) && isS (tB w) && isS (wA w)) = true := by
  simp [isK, isS, wD_bits, tB_bits, wA_bits, slot, regA, regB]

theorem exactRounding : Claims.ExactRounding := by
  intro s n w g d a num f hg hd slot ha regA regB hnum fmt width output stoch word free tray
  subst hg hd ha hnum
  have word : Issues s n .blend 0x62 w (fldD :: fldTB :: fldFMT :: modT 2 :: fldTray) := word
  dsimp only [exec]
  unfold execXrnd
  rw [issue_legal word rfl (by decide) (xrndFields_legal slot regA regB)]
  simp [fmt, fld_tMOD_bit, output, free, tray, width, tFMT_bits, tB_bits, wD_bits, not_stochastic_fault stoch, b2n,
    ite_cons_cons, ite_append_nil]

theorem transitRounding : Claims.TransitRounding := by
  intro s n w g d a num b f hg hd slot ha regA hb regB hnum fmt width transit word free tray
  subst hg hd ha hnum hb
  have word : Issues s n .blend 0x62 w (fldD :: fldTB :: fldFMT :: modT 2 :: fldTray) := word
  dsimp only [exec]
  unfold execXrnd
  rw [issue_legal word rfl (by decide) (xrndFields_legal slot regA regB)]
  constructor
  · intro plain
    simp [fmt, fld_tMOD_bit, transit, free, tray, width, tFMT_bits, tB_bits, wD_bits, b2n, plain,
      ite_cons_cons, ite_append_nil]
  · intro scaled regs scales ok
    have valid := no_bad_scale (l := (s.easel n).read ((s.engine n .blend).sAddr (bits w 20 16 + 1)) 32)
      fun c mem => ok _ (List.mem_map_of_mem mem)
    simp [fmt, fld_tMOD_bit, transit, free, tray, width, tFMT_bits, tB_bits, wD_bits, b2n_ne_zero, scaled, isS, regs, scales, valid,
      ite_cons_cons, ite_append_append, ite_append_nil, ite_nil_append]

/-! BSFIT, BSMAX and THDR: MOD is its low bits, as the rest of it is reserved. -/

section
variable {a d : Nat} (regA : bits w 50 46 < 16) (regB : bits w 20 16 < 16) (source : a = (s.engine n .blend).trayAddr w) (tray : trayOk a 32 = true)
include regA regB

theorem scaleFields_legal : (isS (tB w) && isS (wA w)) = true := by simp [isS, tB_bits, wA_bits, regA, regB]

include source tray

theorem execThdr_issued {v : Nat} (word : Issues s n .blend 0x6A w (fldTB :: modT 3 :: fldTray))
    (field : headerField ((s.easel n).read a 32) (bits w 2 0) = some v) :
    execThdr n w s = .next (issued s n .blend .seq [lands s 2 (.sreg (bits w 20 16) (BitVec.ofNat 32 v))]) := by
  subst source
  have mod : tMOD w = bits w 2 0 := tMOD_of_reservedOk word.2.2 (by decide) (by decide)
  unfold execThdr
  rw [issue_legal word rfl (by decide) (scaleFields_legal regA regB)]
  simp [tray, mod, field, tB_bits]

variable (target : d = (s.engine n .blend).sAddr (bits w 20 16)) (scales : trayOk d 32 = true) {f : Fmt}
  (fmt : fmtOf s.formats (bits w 25 21) = some f) (free : s.unitBusy n .blend .scale = false)
include target scales fmt free

theorem execBsfit_issued {b : Bytes} {t : Tile} (word : Issues s n .blend 0x68 w (fldTB :: fldFMT :: modT 4 :: fldTray))
    (block : f.block = true) (used : consume s.formats (s.easel n) a none = .ok b t) (ok : scalesOk t.fmt t.scales = true) :
    execBsfit n w s = .next (issuedOn s n .blend .scale 17 [lands s 20 (.tray d
      ((pieces 32 32 ((elemVals t.fmt (s.engine n .blend).flush t.scales t.elems).map (·.1))).map
        (fun p => BitVec.ofNat 8 (fitByte f (bits w 3 0) p))))]) := by
  subst source target
  have mod : tMOD w = bits w 3 0 := tMOD_of_reservedOk word.2.2 (by decide) (by decide)
  unfold execBsfit
  rw [issue_legal word rfl (by decide) (scaleFields_legal regA regB)]
  simp [fmt, free, tray, scales, block, used, ok, mod, tFMT_bits, tB_bits]

/-- BSMAX of the 32 bytes at its source. -/
theorem execBsmax_bytes (word : Issues s n .blend 0x69 w (fldTB :: fldFMT :: modT 1 :: fldTray)) (bytes : bits w 0 0 = 1)
    (ok : f.block = true → ∀ c ∈ (s.easel n).read a 32 ++ (s.easel n).read d 32, f.scaleOk c.toNat = true) :
    execBsmax n w s = .next (issuedOn s n .blend .scale 1 [lands s 2 (.tray d
      (maxBytes ((s.easel n).read a 32) ((s.easel n).read d 32)))]) := by
  subst source target
  have mod : tMOD w = bits w 0 0 := tMOD_of_reservedOk word.2.2 (by decide) (by decide)
  unfold execBsmax
  rw [issue_legal word rfl (by decide) (scaleFields_legal regA regB)]
  by_cases block : f.block = true
  · simp [fmt, free, tray, scales, mod, bytes, tFMT_bits, tB_bits, List.all_eq_true.mpr (ok block), -List.all_append]
  · simp [fmt, free, tray, scales, mod, bytes, tFMT_bits, tB_bits, block]

/-- BSMAX of the scale bytes of the tile at its source. -/
theorem execBsmax_tile {b : Bytes} {t : Tile} (word : Issues s n .blend 0x69 w (fldTB :: fldFMT :: modT 1 :: fldTray))
    (tile : bits w 0 0 = 0) (block : f.block = true) (used : consume s.formats (s.easel n) a (some (bits w 25 21)) = .ok b t)
    (ok : scalesOk f (t.scales ++ ((s.easel n).read d 32).map (·.toNat)) = true) :
    execBsmax n w s = .next (issuedOn s n .blend .scale 17 [lands s 20 (.tray d
      (maxBytes (t.scales.map (BitVec.ofNat 8)) ((s.easel n).read d 32)))]) := by
  subst source target
  have mod : tMOD w = bits w 0 0 := tMOD_of_reservedOk word.2.2 (by decide) (by decide)
  unfold execBsmax
  rw [issue_legal word rfl (by decide) (scaleFields_legal regA regB)]
  simp [fmt, free, tray, scales, block, used, ok, mod, tile, tFMT_bits, tB_bits]

end

theorem scaleInstructions : Claims.ScaleInstructions := by
  intro s n w g a d hg ha regA regB hd tray
  subst hg
  refine ⟨fun f b t word free scales fmt block used ok => ?bsfit, fun f word free scales fmt => ⟨fun bytes ok => ?bytes, ?tile⟩,
    fun v word field => ?thdr⟩
  case bsfit => exact execBsfit_issued regA regB ha tray hd scales fmt free word block used ok
  case bytes => exact execBsmax_bytes regA regB ha tray hd scales fmt free word bytes ok
  case tile => exact fun b t tile block used ok => execBsmax_tile regA regB ha tray hd scales fmt free word tile block used ok
  case thdr =>
    refine execThdr_issued regA regB ha tray word ?_
    rcases field with ⟨m, rfl⟩ | ⟨m, rfl⟩ | ⟨m, rfl⟩ | ⟨m, rfl⟩ | ⟨m, rfl⟩
    all_goals
      rw [m]
      rfl

/-- Settles O6: XRND as an output and as a transit rounding, and the scale instructions. -/
theorem roundingAndScales : Obligations.RoundingAndScales := ⟨exactRounding, transitRounding, scaleInstructions⟩

end Sys2Proof.Proofs
end

section
/-!
The state right after reset (14 R392, 15 R407).
-/

namespace Sys2Proof.Proofs

open Sys2Proof Sys2Proof.Machine Sys2Proof.Claims

/-- Nothing is written and no image is being programmed. -/
theorem reset_canonical : Canonical State.reset := ⟨rfl, rfl, rfl, nofun⟩

/-- No table of `State.reset` holds an Easel, a context or a function, so each reads as its default. -/
theorem reset_easel (n : Nat) : State.reset.easel n = {} := rfl
theorem reset_engine (n : Nat) (e : EngId) : State.reset.engine n e = {} := rfl
theorem reset_ctx (c : Nat) : State.reset.ctx c = {} := rfl
theorem reset_func (f : Nat) : State.reset.func f = {} := rfl

/-- The factory defaults of the format table (02 R44, R45), with nothing in the entries above them. -/
theorem reset_formats : (List.range 16).map (fun i => (tget 0 State.reset.formats i).toNat) =
    [0x17F781001, 0x07340801, 0x10F250801, 0x03230601, 0x01120401, 0x11000000001, 0x31000000001, 0x41000000001, 0, 0, 0, 0, 0, 0, 0, 0] := by
  decide

/-- Settles O55, register by register. -/
theorem resetValues : Obligations.ResetValues := by
  refine ⟨rfl, rfl, rfl, reset_canonical, fun n => ?easel, fun n e => ?engine, reset_formats, rfl, rfl, rfl, fun c => ?ctx, rfl,
    fun e => rfl, rfl, rfl, rfl, fun f => ?func, rfl, rfl, rfl, rfl⟩
  case easel =>
    rw [reset_easel]
    exact ⟨rfl, rfl, rfl⟩
  case engine =>
    rw [reset_engine]
    exact ⟨rfl, rfl, rfl, rfl⟩
  case ctx => rw [reset_ctx]
  case func =>
    rw [reset_func]
    exact ⟨rfl, rfl, rfl, rfl, fun i => rfl⟩

end Sys2Proof.Proofs
end

section
/-!
The exact slots and XADD (03 R67-R76; 05 R152).
-/

namespace Sys2Proof.Proofs

open Sys2Proof Sys2Proof.Machine Sys2Proof.Claims

variable {s : State} {n : Nat} {e : EngId} {w : IWord}

@[simp] theorem toRun_pc (g : Engine) : (toRun g).pc = g.pc := rfl

/-- A refused instruction has gone to RUN before the fault. -/
theorem issueEnd_badField : issueEnd s n e badField =
    .next ((s.setEngine n e { s.engine n e with st := .run }).issueFault n e 9 stBadField (s.engine n e).pc) := rfl

/-- A tile that fails a field check faults in the last cycle of the occupancy (06 R175). -/
@[simp] theorem occupied_failUse_field {u : UnitId} {t : Nat} {l : List Pending} (g : Engine) (a k : Nat) :
    (occupied s n e u t l).failUse n e g a k .field = occupied s n e u t (l ++ [lands s (k - 1) (.fieldFault g.pc)]) :=
  occupied_after _ _

theorem slotField_legal (slot : bits w 55 51 < 4) : isK (wD w) = true := by
  simp [isK, wD_bits, slot]

theorem slotCountFields_legal (slot : bits w 55 51 < 4) (regB : bits w 20 16 < 16) : (isK (wD w) && isS (tB w)) = true := by
  simp [slotField_legal slot, isS, tB_bits, regB]

theorem slotTrayFields_legal (slot : bits w 55 51 < 4) (regA : bits w 50 46 < 16) : (isK (wD w) && isS (wA w)) = true := by
  simp [slotField_legal slot, isS, wA_bits, regA]

/-- Each instruction schedules one write; XLD's depends on the check of the image (03 R76). -/
theorem exactSlots : Claims.ExactSlots := by
  intro s n w g d a hg hd slot free ha
  subst hg hd ha
  dsimp only [exec]
  refine ⟨fun word => ?xclr, fun word regB => ?xcnt, fun word regA tray => ?xst, fun word regA tray => ?xld⟩
  case xclr =>
    have word : Issues s n .blend 0x60 w [fldD] := word
    unfold execXclr
    rw [issue_legal word rfl (by decide) (slotField_legal slot)]
    simp [free, wD_bits]
  case xcnt =>
    have word : Issues s n .blend 0x63 w [fldD, fldTB] := word
    unfold execXcnt
    rw [issue_legal word rfl (by decide) (slotCountFields_legal slot regB)]
    simp [free, wD_bits, tB_bits]
  case xst =>
    have word : Issues s n .blend 0x64 w (fldD :: fldTray) := word
    unfold execXst
    rw [issue_legal word rfl (by decide) (slotTrayFields_legal slot regA)]
    simp [free, tray, wD_bits]
  case xld =>
    have word : Issues s n .blend 0x65 w (fldD :: fldTray) := word
    unfold execXld
    rw [issue_legal word rfl (by decide) (slotTrayFields_legal slot regA)]
    constructor
    · intro x restored
      simp [free, tray, restored, wD_bits]
    · intro failed
      simp [free, tray, failed]

/-- XADD refuses binary64 and a full count at issue; past these, the checks of the tile decide between the intake and a field fault. -/
theorem exactAddition : Claims.ExactAddition := by
  intro s n w g d a k f hg hd slot ha regA fmt hk word free tray
  have occ : xaddOcc f = k := hk.symm
  subst hg hd ha
  have word : Issues s n .blend 0x61 w (fldD :: fldFMT :: fldTray) := word
  dsimp only [exec]
  unfold execXadd
  rw [issue_legal word rfl (by decide) (slotTrayFields_legal slot regA)]
  refine ⟨fun refused => ?refused, fun b t width room used ok => ?added, fun width room used => ?otherFormat⟩
  case refused => simp [fmt, free, tray, refused, issueEnd_badField, tFMT_bits, wD_bits, -Nat.reducePow]
  case added => simp [fmt, free, tray, width, Nat.not_le.mpr room, used, ok, occ, tFMT_bits, wD_bits, -Nat.reducePow]
  case otherFormat => simp [fmt, free, tray, width, Nat.not_le.mpr room, used, occ, tFMT_bits, wD_bits, -Nat.reducePow]

/-- Settles O5: the instructions on a slot, and XADD by the outcome of its checks. -/
theorem exactSlotsAndAddition : Obligations.ExactSlotsAndAddition := ⟨exactSlots, exactAddition⟩

end Sys2Proof.Proofs
end

section
/-!
When an engine instruction issues (04 R106, R127; 05 R138, R139): every row of the encoding tables goes through `issue`, and its body
begins with the check of the reserved bits.
-/

namespace Sys2Proof.Proofs

open Sys2Proof Sys2Proof.Machine Sys2Proof.Claims

variable {s : State} {i : Instr} {r : Row}

/-- The answer `out` is that of the row's word at issue, with a body that refuses a word whose reserved bits are not zero. -/
def IssuesRow (s : State) (r : Row) (out : Out) : Prop :=
  ∃ body : State → Engine → Res, out = issue s r.n r.e r.op r.w body ∧ ∀ u g, reservedOk r.w r.used = false → body u g = illegal

/-- Each row's meaning is an `issue` of `legal` (05 R138); what several rows share is unfolded down to it. -/
theorem exec_issuesRow (h : row i = some r) : IssuesRow s r (exec i s) := by
  unfold row at h
  split at h
  all_goals cases h
  all_goals
    dsimp only [exec, execVadd, execVsub, execVmul, execVfma, execVdiv, execVsqrt, arith, execVmin, execVmax, minMaxRow, execViadd,
      execVisub, intRow]
    exact ⟨_, rfl, fun _ _ reserved => legal_reserved reserved⟩

/-- The opcode of a row is a byte, and its engine's table lists it. -/
theorem row_op_listed (h : row i = some r) : r.op < 256 ∧ opListed r.e r.op = true := by
  unfold row at h
  split at h
  all_goals cases h
  all_goals exact ⟨of_decide_eq_true rfl, rfl⟩

section
variable {n : Nat} {e : EngId} {op : Nat} {w : IWord} {body : State → Engine → Res}

/-- A word at the PC whose opcode no table lists is ILLEGAL, whatever instruction was to be issued (05 R138). -/
theorem issue_unlisted (ready : Ready s n e) (unlisted : opListed e ((tget 0 (s.engine n e).imem (s.engine n e).pc) >>> 56).toNat = false) :
    issue s n e op w body = .next (s.issueFault n e cIllegal stBadField (s.engine n e).pc) := by
  obtain ⟨easel, engine, free, inStudy⟩ := ready
  unfold issue onUnit
  simp only [easel, engine, free, inStudy, unlisted, Bool.and_self, Bool.not_true, Bool.not_false, Bool.false_eq_true, if_true, if_false]

/-- Another word at the PC is not this instruction, and nothing changes (05 R138). -/
theorem issue_otherWord (ready : Ready s n e) (listed : opListed e ((tget 0 (s.engine n e).imem (s.engine n e).pc) >>> 56).toNat = true)
    (other : tget 0 (s.engine n e).imem (s.engine n e).pc ≠ wordOf op w) : issue s n e op w body = .next s := by
  obtain ⟨easel, engine, free, inStudy⟩ := ready
  unfold issue onUnit
  simp only [easel, engine, free, inStudy, listed, bne_iff_ne.mpr other, Bool.and_self, Bool.not_true, Bool.false_eq_true, if_true, if_false]
  rfl

end

theorem engineInstructionGuards : Claims.EngineInstructionGuards := by
  intro i r s h
  obtain ⟨body, hexec, -⟩ := exec_issuesRow (s := s) h
  rw [hexec]
  exact ⟨issue_absent, issue_idle, issue_pcRange, issue_unlisted, issue_otherWord⟩

theorem reservedBitsAreIllegal : Claims.ReservedBitsAreIllegal := by
  intro i r s h ready word reserved
  obtain ⟨body, hexec, refuses⟩ := exec_issuesRow (s := s) h
  obtain ⟨byte, listed⟩ := row_op_listed h
  obtain ⟨easel, engine, free, inStudy⟩ := ready
  rw [hexec, issue_go easel engine free inStudy word listed byte, refuses _ _ reserved]
  rfl

/-- Settles O1: the guards of `issue`, and the reserved bits, over the rows of the encoding tables. -/
theorem engineCommandGuards : Obligations.EngineCommandGuards := ⟨engineInstructionGuards, reservedBitsAreIllegal⟩

end Sys2Proof.Proofs
end

section
/-!
The fields of the words of formats R, I, B and Y as bits (05 R139).
-/

namespace Sys2Proof.Proofs

open Sys2Proof Sys2Proof.Machine Sys2Proof.Claims

variable {w : IWord} {used : Used}

/-- A field within a field is a field of the word. -/
theorem fld_f {lo len i k : Nat} (h : i + k ≤ len) : fld (IWord.f w lo len) i k = (w.toNat >>> (lo + i)) % 2 ^ k := by
  unfold IWord.f fld
  apply Nat.eq_of_testBit_eq
  intro j
  simp only [Nat.testBit_mod_two_pow, Nat.testBit_shiftRight, Nat.add_assoc]
  by_cases inside : j < k
  · simp [inside, show i + j < len by omega]
  · simp [inside]

/-- The low part of a field as a word of that width. -/
theorem ofNat_f {lo len k : Nat} (h : k ≤ len) : BitVec.ofNat k (IWord.f w lo len) = BitVec.ofNat k ((w.toNat >>> lo) % 2 ^ k) := by
  apply BitVec.eq_of_toNat_eq
  rw [BitVec.toNat_ofNat, BitVec.toNat_ofNat, Nat.mod_mod]
  exact Nat.mod_mod_of_dvd _ (Nat.pow_dvd_pow 2 h)

/-- A field of `len` bits is its low `k` bits where the rest of it is reserved (05 R138). -/
theorem f_of_reservedOk (h : reservedOk w used = true) {lo len k : Nat} (narrow : k ≤ len)
    (reserved : ∀ i < len, k ≤ i → (reservedMask used).testBit (lo + i) = true) : IWord.f w lo len = (w.toNat >>> lo) % 2 ^ k := by
  unfold IWord.f fld
  apply Nat.eq_of_testBit_eq
  intro i
  rw [Nat.testBit_mod_two_pow, Nat.testBit_mod_two_pow]
  by_cases low : i < k
  · simp [low, Nat.lt_of_lt_of_le low narrow]
  · by_cases field : i < len
    · simp [testBit_of_reservedOk h (reserved i field (Nat.le_of_not_lt low))]
    · simp [low, field]

theorem rB_bits : rB w = bits w 45 41 := rfl
theorem iIMM_bits : iIMM w = bits w 31 0 := rfl
theorem imm32_bits : imm32 w = BitVec.ofNat 32 (bits w 31 0) := rfl
theorem bK_bits : bK w = bits w 55 54 := rfl
theorem bCOND_bits : bCOND w = bits w 53 52 := rfl
theorem bCSRC_bits : bCSRC w = bits w 51 50 := rfl
theorem bCREG_bits : bCREG w = bits w 49 45 := rfl
theorem bCIMM_bits : bCIMM w = bits w 44 29 := rfl
theorem bADDR_bits : bADDR w = bits w 11 0 := rfl

theorem bits_lt (hi lo : Nat) : bits w hi lo < 2 ^ (hi + 1 - lo) := Nat.mod_lt _ (Nat.two_pow_pos _)

end Sys2Proof.Proofs
end

section
/-!
The counter, scalar, mode and branch instructions (04 R118-R122; 05 R143-R146).
-/

namespace Sys2Proof.Proofs

open Sys2Proof Sys2Proof.Machine Sys2Proof.Claims

variable {s : State} {n : Nat} {e : EngId} {w : IWord}

section
variable (g : Engine)

@[simp] theorem toRun_c' (k : Nat) : (toRun g).c' k = g.c' k := rfl
@[simp] theorem toRun_source : (toRun g).source = g.source := rfl
@[simp] theorem toRun_pair (k : Nat) : (toRun g).pair k = g.pair k := rfl
@[simp] theorem toRun_compare : (toRun g).compare = g.compare := rfl
@[simp] theorem toRun_inStudy : (toRun g).inStudy = g.inStudy := rfl
@[simp] theorem toRun_loops : (toRun g).loops = g.loops := rfl
@[simp] theorem toRun_loopCount (w : IWord) : (toRun g).loopCount w = g.loopCount w := rfl

end

@[simp] theorem running_coll : (running s n e).coll = s.coll := rfl

/-- An instruction that writes nothing moves its engine on. -/
@[simp] theorem issueEnd_running (k : Next) : issueEnd s n e (.go (running s n e) k) = .next (issued s n e k []) := by
  simp [issueEnd, running, toRun, issued]

/-- An instruction that faults has gone to RUN, and the fault names its PC (04 R127). -/
theorem issueEnd_fault (c st : Nat) : issueEnd s n e (.fault c st) =
    .next ((s.setEngine n e { s.engine n e with st := .run }).issueFault n e c st (s.engine n e).pc) := rfl

/-- The opcodes up to 0x12 are those of every engine (05 R143). -/
theorem issue_common {op : Nat} {used : Used} {ok : Bool} {body : State → Engine → Res} (h : Issues s n e op w used)
    (common : op ≤ 0x12) (fields : ok = true) :
    issue s n e op w (fun s g => legal w used ok (body s g)) = issueEnd s n e (body (running s n e) (toRun (s.engine n e))) :=
  issue_legal h (by simp [opListed, common]) (by omega) fields

theorem isS_of_lt {a : Nat} (h : a < 16) : isS a = true := decide_eq_true h

theorem isC_of_lt {a : Nat} (h : a < 8) : isC a = true := decide_eq_true h

theorem isC_isS_of_lt {a b : Nat} (ha : a < 8) (hb : b < 16) : (isC a && isS b) = true := by simp [isC, isS, ha, hb]

theorem isS_isS_of_lt {a b : Nat} (ha : a < 16) (hb : b < 16) : (isS a && isS b) = true := by simp [isS, ha, hb]

/-- The comparator of a KSET whose fields are listed (05 R145): its relation, its first and its second source. -/
theorem cmpOf_eq_some {k : Cmp} (rel : k.rel = bits w 45 43) (listed : k.rel ≤ 5)
    (a : bits w 40 40 = 0 ∧ bits w 50 46 < 8 ∧ k.a = .ctr (bits w 50 46) ∨
      bits w 40 40 = 1 ∧ bits w 50 46 < 16 ∧ k.a = .scalar (bits w 50 46))
    (b : bits w 42 41 = 0 ∧ bits w 4 0 < 8 ∧ k.b = .ctr (bits w 4 0) ∨ bits w 42 41 = 1 ∧ bits w 4 0 < 16 ∧ k.b = .scalar (bits w 4 0) ∨
      bits w 42 41 = 2 ∧ k.b = .imm (BitVec.ofNat 32 (bits w 15 0))) : cmpOf w = some k := by
  obtain ⟨r, x, y⟩ := k
  have relation : fld (iMOD w) 3 3 = bits w 45 43 := fld_f (by decide)
  have first : fld (iMOD w) 0 1 = bits w 40 40 := fld_f (by decide)
  have second : fld (iMOD w) 1 2 = bits w 42 41 := fld_f (by decide)
  have index : fld (iIMM w) 0 5 = bits w 4 0 := fld_f (by decide)
  have imm : fld (iIMM w) 0 16 = bits w 15 0 := fld_f (by decide)
  subst rel
  simp only [cmpOf, relation, first, second, index, imm, wA_bits]
  rcases a with ⟨ma, ra, rfl⟩ | ⟨ma, ra, rfl⟩
  all_goals rcases b with ⟨mb, rb, rfl⟩ | ⟨mb, rb, rfl⟩ | ⟨mb, rfl⟩
  all_goals simp [isC, isS, *]

theorem counterInstructions : Claims.CounterInstructions := by
  intro s n e w
  dsimp only [exec]
  refine ⟨fun word => ?nop, fun word reg => ?cset, fun word reg => ?cadd, fun word reg src => ?cmov, fun k word reg rel listed a b => ?kset⟩
  case nop => exact (issue_common word (by decide) rfl).trans (issueEnd_running _)
  case cset => exact (issue_common word (by decide) (isC_of_lt reg)).trans (issueEnd_after _ _)
  case cadd => exact (issue_common word (by decide) (isC_of_lt reg)).trans (issueEnd_after _ _)
  case cmov => exact (issue_common word (by decide) (isC_isS_of_lt reg src)).trans (issueEnd_after _ _)
  case kset =>
    unfold execKset
    rw [cmpOf_eq_some rel listed a b]
    exact (issue_common word (by decide) (decide_eq_true reg)).trans (issueEnd_after _ _)

/-- The operations of SALU (05 R146). -/
theorem salu_eq_some {op : Nat} {a b v : Word}
    (h : op = 0 ∧ v = a + b ∨ op = 1 ∧ v = a - b ∨ op = 2 ∧ v = a &&& b ∨ op = 3 ∧ v = a ||| b ∨ op = 4 ∧ v = a ^^^ b ∨
      op = 5 ∧ v = a <<< (b.toNat % 32) ∨ op = 6 ∧ v = a >>> (b.toNat % 32) ∨ op = 7 ∧ v = a.sshiftRight (b.toNat % 32) ∨
      op = 8 ∧ v = a * b ∨ op = 9 ∧ v = (if a.toInt < b.toInt then a else b) ∨ op = 10 ∧ v = (if a.toInt < b.toInt then b else a)) :
    salu op a b = some v := by
  rcases h with ⟨rfl, rfl⟩ | ⟨rfl, rfl⟩ | ⟨rfl, rfl⟩ | ⟨rfl, rfl⟩ | ⟨rfl, rfl⟩ | ⟨rfl, rfl⟩ | ⟨rfl, rfl⟩ | ⟨rfl, rfl⟩ | ⟨rfl, rfl⟩ |
    ⟨rfl, rfl⟩ | ⟨rfl, rfl⟩
  all_goals simp [salu, fld, BitVec.slt]

/-- The system sources that are listed (05 R144). -/
theorem source_eq_some {g : Engine} {a : Nat} {v : Word}
    (h : a < 8 ∧ v = g.c' a ∨ 8 ≤ a ∧ a < 12 ∧ v = (match g.loops[a - 8]? with | some l => BitVec.ofNat 32 l.idx | none => 0) ∨
      a = 12 ∧ v = BitVec.ofNat 32 g.ctx ∨ a = 13 ∧ v = g.gen ∨ a = 14 ∧ v = g.chunk ∨ a = 15 ∧ v = g.fstat.setWidth 32 ∨
      a = 16 ∧ v = BitVec.ofNat 32 (g.rmode.toNat + 8 * b2n g.flush)) : g.source a = some v := by
  rcases h with ⟨counter, rfl⟩ | ⟨low, high, rfl⟩ | ⟨rfl, rfl⟩ | ⟨rfl, rfl⟩ | ⟨rfl, rfl⟩ | ⟨rfl, rfl⟩ | ⟨rfl, rfl⟩
  · exact if_pos counter
  · exact (if_neg (Nat.not_lt.mpr low)).trans (if_pos high)
  all_goals rfl

theorem source_eq_none {g : Engine} {a : Nat} (h : 17 ≤ a) : g.source a = none := by
  obtain ⟨k, rfl⟩ := Nat.exists_eq_add_of_le' h
  unfold Engine.source
  rw [if_neg (by omega), if_neg (by omega)]
  rfl

theorem scalarInstructions : Claims.ScalarInstructions := by
  intro s n e w
  dsimp only [exec]
  refine ⟨fun word reg => ?smovi, fun word reg src => ?saddi, fun a b v word reg srcA srcB ha hb op => ?salu,
    fun v word reg src => ?smov, fun word reg unlisted => ?unlisted⟩
  case smovi => exact (issue_common word (by decide) (isS_of_lt reg)).trans (issueEnd_after _ _)
  case saddi => exact (issue_common word (by decide) (isS_isS_of_lt reg src)).trans (issueEnd_after _ _)
  case salu =>
    subst ha hb
    have mod : rMOD w = bits w 19 16 := f_of_reservedOk word.2.2 (by decide) (by decide)
    have word : Issues s n e 0x0D w [fldD, fldA, fldRB, modR 4] := word
    unfold execSalu
    rw [issue_common word (by decide) (by simp [isS, wD_bits, wA_bits, rB_bits, reg, srcA, srcB])]
    simp only [mod, wA_bits, rB_bits, wD_bits, toRun_s', salu_eq_some op, issueEnd_after]
  case smov =>
    have word : Issues s n e 0x0F w [fldD, fldA] := word
    unfold execSmov
    rw [issue_common word (by decide) (isS_of_lt (a := wD w) reg)]
    simp only [toRun_source, wA_bits, source_eq_some src, issueEnd_after, wD_bits]
  case unlisted =>
    have word : Issues s n e 0x0F w [fldD, fldA] := word
    unfold execSmov
    rw [issue_common word (by decide) (isS_of_lt (a := wD w) reg)]
    simp only [wA_bits, source_eq_none unlisted]
    rfl

/-- The value of a pair of registers (05 R140). -/
theorem pair_eq_append (g : Engine) (k : Nat) : g.pair k = g.s' (k + 1) ++ g.s' k := by
  apply BitVec.eq_of_toNat_eq
  have low := (g.s' k).isLt
  have high := (g.s' (k + 1)).isLt
  rw [BitVec.toNat_append, ← Nat.shiftLeft_add_eq_or_of_lt low, Nat.shiftLeft_eq, Engine.pair, BitVec.toNat_ofNat]
  omega

theorem modeInstructions : Claims.ModeInstructions := by
  intro s n e w
  dsimp only [exec]
  have code : fld (iIMM w) 0 3 = bits w 2 0 := fld_f (by decide)
  have mode : BitVec.ofNat 3 (iIMM w) = BitVec.ofNat 3 (bits w 2 0) := ofNat_f (by decide)
  have flush : bitAt (iIMM w) 3 = w.toNat.testBit 3 := by
    simp [bitAt, iIMM, IWord.f, fld, Nat.testBit_mod_two_pow, -Nat.reducePow]
  refine ⟨fun word listed loose => ?mode, fun word unseeded strict => ?strict, fun word reg even => ?seed, fun word => ?fclr⟩
  case mode =>
    have word : Issues s n e 0x10 w [immI 4] := word
    unfold execMode
    rw [issue_common word (by decide) (decide_eq_true (code ▸ listed))]
    have allowed : ¬ (bits w 2 0 = 5 ∧ s.coll.strict = true) := fun h => by simp [loose h.1] at h
    simp [code, mode, flush, allowed]
  case strict =>
    have word : Issues s n e 0x10 w [immI 4] := word
    unfold execMode
    rw [issue_common word (by decide) (by simp [code, unseeded])]
    simp only [code, unseeded, running_coll, strict]
    rfl
  case seed =>
    rw [← pair_eq_append]
    exact (issue_common word (by decide) (by simp [isPair, wA_bits, reg, even])).trans (issueEnd_after _ _)
  case fclr =>
    have cleared : BitVec.ofNat 7 (iIMM w) = BitVec.ofNat 7 (bits w 6 0) := ofNat_f (by decide)
    rw [← cleared]
    exact (issue_common word (by decide) rfl).trans (issueEnd_after _ _)

theorem branchesAndLoops : Claims.BranchesAndLoops := by
  intro s n e w
  dsimp only [exec]
  refine ⟨fun word listed target => ?br, fun word listed outside => ?outside, fun k word reg count forward target => ?loop⟩
  case br =>
    have word : Issues s n e 0x02 w [(54, 2), (52, 2), (0, 12)] := word
    unfold execBr
    rw [issue_common word (by decide) (show (bCOND w != 3) = true from bne_iff_ne.mpr listed)]
    have cond : bits w 53 52 = 0 ∨ bits w 53 52 = 1 ∨ bits w 53 52 = 2 := by
      have := bits_lt (w := w) 53 52
      omega
    rcases cond with cond | cond | cond
    all_goals simp [bADDR_bits, bCOND_bits, bK_bits, target, cond]
  case outside =>
    have word : Issues s n e 0x02 w [(54, 2), (52, 2), (0, 12)] := word
    unfold execBr
    rw [issue_common word (by decide) (show (bCOND w != 3) = true from bne_iff_ne.mpr listed)]
    simp only [bADDR_bits, toRun_inStudy, outside, Bool.not_false, if_true]
    rfl
  case loop =>
    have listed : (bCSRC w != 3 && isS (bCREG w) && (bCSRC w != 1 || isC (bCREG w))) = true := by
      rcases count with ⟨src, -⟩ | ⟨src, counter, -⟩ | ⟨src, -⟩
      all_goals simp [bCSRC_bits, bCREG_bits, isS, isC, *]
    have loops : (s.engine n e).loopCount w = k := by
      unfold Engine.loopCount
      rcases count with ⟨src, hk⟩ | ⟨src, -, hk⟩ | ⟨src, hk⟩
      all_goals
        rw [bCSRC_bits, src]
        exact hk.symm
    have word : Issues s n e 0x03 w [(50, 2), (45, 5), (29, 16), (0, 12)] := word
    unfold execLoop
    rw [issue_common word (by decide) listed]
    have inside : ¬ bits w 11 0 ≤ (s.engine n e).pc := Nat.not_le.mpr forward
    refine ⟨fun zero => ?skip, fun positive room => ?enter, fun positive full => ?deep⟩
    case skip => simp [loops, zero, bADDR_bits, target, inside]
    case enter => simp [loops, bADDR_bits, target, inside, Nat.not_le.mpr room, Nat.ne_of_gt positive]
    case deep => simp [loops, bADDR_bits, target, inside, full, Nat.ne_of_gt positive, issueEnd_fault, cLoopDepth]

/-- Settles O2: the counter, scalar, mode and branch instructions, each by what its body does once it issues. -/
theorem controlCommands : Obligations.ControlCommands :=
  ⟨counterInstructions, scalarInstructions, modeInstructions, branchesAndLoops⟩

end Sys2Proof.Proofs
end

section
/-!
Events of a unit: what the command answers where its condition holds, and where it does not (assumption 8).
-/

namespace Sys2Proof.Proofs

open Sys2Proof Sys2Proof.Machine Sys2Proof.Claims

variable {s go : State} {n : Nat} {c : Bool}

theorem onUnit_present {out : Out} (present : c = true) : onUnit c out = out := if_pos present

theorem when'_true (happens : c = true) : when' c s go = .next go := congrArg Host.Outcome.next (if_pos happens)

theorem when'_false (not : c = false) : when' c s go = .next s := congrArg Host.Outcome.next (if_neg (by simp [not]))

theorem onEasel_acts (easel : s.isEasel n = true) (works : s.computing = true) (happens : c = true) : onEasel s n c go = .next go := by
  rw [onEasel, onUnit_present easel, when'_true (by simp [works, happens])]

theorem onEasel_idle (easel : s.isEasel n = true) (not : c = false) : onEasel s n c go = .next s := by
  rw [onEasel, onUnit_present easel, when'_false (by simp [not])]

end Sys2Proof.Proofs
end

section
/-!
Timeouts of an engine that is held (04 R113, R117).
-/

namespace Sys2Proof.Proofs

open Sys2Proof Sys2Proof.Machine Sys2Proof.Claims

variable {s : State} {n : Nat} {e : EngId}

/-- WAIT_TIMEOUT of a held engine that the device has: a fault where the limit has passed (04 R113, R117), and nothing else. -/
theorem execWaitTimeout_held {h : Hold} (easel : s.isEasel n = true) (engine : s.hasEngine e = true) (held : (s.engine n e).hold = some h) :
    execWaitTimeout n e s = when' (s.computing && (s.engine n e).wdog != 0 &&
        decide (h.since + (s.engine n e).wdog.toNat + (if h.kind.isWait then 0 else 1) ≤ s.now) &&
        (match (s.easel n).stopAt with | none => true | some t => t == s.now)) s
      ((s.setEngine n e { s.engine n e with hold := none, st := .run }).issueFault n e 5 stTimeout h.pc) := by
  have limit : b2n (!h.kind.isWait) = if h.kind.isWait then 0 else 1 := by cases h.kind <;> rfl
  unfold execWaitTimeout
  rw [onUnit_present (by simp [easel, engine])]
  simp only [held, limit]
  rfl

/-- Settles O14: the limit has passed, or it has not. -/
theorem waitTimeouts : Obligations.WaitTimeouts := by
  intro s n e h easel engine held
  dsimp only [exec]
  rw [execWaitTimeout_held easel engine held]
  refine ⟨fun works limited passed running => when'_true ?fault, fun early => when'_false ?idle⟩
  case fault => simpa [works, passed, running] using limited
  case idle =>
    rcases early with early | unlimited
    · simp [Nat.not_le.mpr early]
    · simp [unlimited]

end Sys2Proof.Proofs
end

section
/-!
RECV and SEND: the two instructions that change a stage of their Easel while they occupy a unit (04 R115; 05 R147, R157).
-/

namespace Sys2Proof.Proofs

open Sys2Proof Sys2Proof.Machine Sys2Proof.Claims

variable {s : State} {n : Nat} {e : EngId} {w : IWord}

/-! A change of the Easel that leaves its engines commutes with the engine's going to RUN. -/

theorem engine_modEasel {f : Easel → Easel} (eng : ∀ x, (f x).eng = x.eng) (m : Nat) (d : EngId) :
    (s.modEasel n f).engine m d = s.engine m d := by
  unfold State.engine State.modEasel Easel.engine
  rw [State.easel_setEasel]
  split
  · next same => rw [eng, same]
  · rfl

theorem setEngine_modEasel {f : Easel → Easel} (keeps : ∀ x g, f (x.setEngine e g) = (f x).setEngine e g) (g : Engine) :
    (s.setEngine n e g).modEasel n f = (s.modEasel n f).setEngine n e g := by
  simp [State.modEasel, State.setEngine, State.setEasel, State.easel, keeps]

theorem running_modEasel {f : Easel → Easel} (eng : ∀ x, (f x).eng = x.eng) (keeps : ∀ x g, f (x.setEngine e g) = (f x).setEngine e g) :
    (running s n e).modEasel n f = running (s.modEasel n f) n e := by
  unfold running
  rw [setEngine_modEasel keeps, engine_modEasel eng]

@[simp] theorem modEasel_now (f : Easel → Easel) : (s.modEasel n f).now = s.now := rfl
@[simp] theorem modEasel_lands (f : Easel → Easel) (k : Nat) (x : Landing) : lands (s.modEasel n f) k x = lands s k x := rfl

@[simp] theorem running_stage : ((running s n e).easel n).stage = (s.easel n).stage := by simp [running, State.easel_setEngine]
@[simp] theorem running_egress : ((running s n e).easel n).egress = (s.easel n).egress := by simp [running, State.easel_setEngine]

theorem isPair_isS_of_lt {a b : Nat} (ha : a < 16) (even : a % 2 = 0) (hb : b < 16) : (isPair a && isS b) = true := by
  simp [isPair, isS, ha, even, hb]

/-- The two halves of the token of a received tile (05 R147). -/
theorem recvToken_low (a tile : Nat) : (recvToken a tile).setWidth 32 = BitVec.ofNat 32 (a % 2 ^ 19) := by
  apply BitVec.eq_of_toNat_eq
  simp [recvToken]

theorem recvToken_high (a tile : Nat) : (recvToken a tile >>> 32).setWidth 32 = BitVec.ofNat 32 tile := by
  apply BitVec.eq_of_toNat_eq
  simp [recvToken, Nat.shiftRight_eq_div_pow]
  omega

theorem receive : Claims.Receive := by
  intro s n w g a hg ha regA regD even free word
  subst hg ha
  have word : Issues s n .intake 0x40 w (fldD :: fldTray) := word
  dsimp only [exec]
  unfold execRecv
  rw [issue_legal word rfl (by decide) (isPair_isS_of_lt (a := wD w) (b := wA w) regD even regA)]
  refine ⟨fun empty => ?empty, fun t rest stage fits => ?tile⟩
  case empty => simp [free, empty, issueEnd_fault, cInstr]
  case tile =>
    have popped : (running s n .intake).modEasel n (fun x => { x with stage := rest }) =
        running (s.modEasel n (fun x => { x with stage := rest })) n .intake := running_modEasel (fun _ => rfl) (fun _ _ => rfl)
    simp only [running_unitBusy, free, running_stage, stage, toRun_trayAddr, fits, popped, running_occupy, occupied_after, recvToken_low,
      recvToken_high, modEasel_lands, wD_bits, Bool.not_true, Bool.false_eq_true, if_false]
    exact issueEnd_occupied rfl

/-- The tests of LENGTH that SEND makes (05 R157), as its statement counts them. -/
theorem length_bad_iff (a l : Nat) : (decide (l < 1) || decide (l > 257) || decide (a + 32 * l > Config.trayBytes)) = true ↔
    l = 0 ∨ 257 < l ∨ Config.trayBytes < a + 32 * l := by
  simp [or_assoc]

theorem sendTile : Claims.SendTile := by
  intro s n w g a l hg ha regA regB free hl word
  subst hg
  have word : Issues s n .outlet 0x40 w (fldTB :: fldSEM :: fldTray) := word
  dsimp only [exec]
  unfold execSend
  rw [issue_legal word rfl (by decide) (isS_isS_of_lt (a := tB w) (b := wA w) regB regA)]
  simp only [running_unitBusy, free, running_egress, running_read, toRun_trayAddr, ← ha, ← hl, toRun_s', toRun_serves, toRun_key, length_bad_iff]
  refine ⟨fun full => ?full, fun room tray bad => ?length, fun room tray some short inside => ?tile⟩
  case full => simp [full, issueEnd_fault, cInstr]
  case length => simp [Nat.not_le.mpr room, tray, bad, issueEnd_badField]
  case tile =>
    have good : ¬ (l = 0 ∨ 257 < l ∨ Config.trayBytes < a + 32 * l) := by omega
    have pushed (x : OutTile) : (running s n .outlet).modEasel n (fun y => { y with egress := y.egress ++ [x] }) =
        running (s.modEasel n (fun y => { y with egress := y.egress ++ [x] })) n .outlet := running_modEasel (fun _ => rfl) (fun _ _ => rfl)
    simp only [ge_iff_le, Nat.not_le.mpr room, tray, good, pushed, running_occupy, Bool.not_true, Bool.false_eq_true, if_false]
    exact issueEnd_occupied rfl

/-- Settles O10: RECV by the state of its stage, SEND by that of its stage and by LENGTH. -/
theorem receiveAndSend : Obligations.ReceiveAndSend := ⟨receive, sendTile⟩

end Sys2Proof.Proofs
end

section
/-!
The route table (09 R255, 14 R385): a write beyond the fabric's switches is ignored, and so recorded, whatever it holds.
-/

namespace Sys2Proof.Proofs

open Sys2Proof Sys2Proof.Machine Sys2Proof.Claims

variable {s₀ s : State} {f o i : Nat} {v : Word}

/-- A host's write of a word acts behind the command takes of its ACLK (14 R391). -/
theorem onWord_of_writes (h : Writes s₀ s f) : onWord s₀ f o v = .next (s.writeWord f o v.toNat) := by
  obtain ⟨⟨four, clock, presented⟩, rfl⟩ := h
  unfold onWord onWrite onFunc
  rw [onUnit_present (decide_eq_true four), when'_true (by simp [clock, presented])]

/-- The table window, written by PF0 (14 R385). -/
theorem writeWord_table {k : Nat} (h : k < 0x10_8000) : s.writeWord 0 (0x100_0000 + k) v.toNat = (s.writeTable k v.toNat).host s 0 := by
  unfold State.writeWord State.writeShared
  repeat rw [if_neg (by omega)]
  rw [if_pos (by omega), Nat.add_sub_cancel_left]
  rfl

/-- An entry at or beyond the number of switches is no entry: the write is ignored and recorded (14 R385), and is not the refusal of R255. -/
theorem execRouteEntryWrite_beyond (h : Writes s₀ s 0) (window : i < 131072) (tables : s.dev ≠ .grisaille) (beyond : s.fab.switches ≤ i) :
    exec (.routeEntryWrite 0 i v) s₀ = .next (s.ignored 0 385) := by
  dsimp only [exec]
  unfold execRouteEntryWrite
  rw [onUnit_present (decide_eq_true window), onWord_of_writes h, writeWord_table (by omega)]
  have route : s.writeTable (4 * i) v.toNat = .ignore := by
    unfold State.writeTable State.writeRoute
    rw [if_neg (by simpa using tables), if_pos (by omega), Nat.mul_div_cancel_left _ (by decide), if_pos beyond]
  rw [route]
  rfl

/-- A fabric of one switch in RUNNING, with PF0 presented to its host and no command in its slots. -/
def oneSwitch : State := { State.reset with dev := .running, boot := { State.reset.boot with presented := true } }

theorem oneSwitch_writes : Writes oneSwitch oneSwitch 0 := ⟨⟨by decide, rfl, rfl⟩, rfl⟩

/-- The record of the ignored write stands in the Diary's queue, which was empty. -/
theorem oneSwitch_ignored : oneSwitch.ignored 0 385 ≠ oneSwitch := by
  intro same
  have queue : (oneSwitch.ignored 0 385).diary.queue.length = 1 := rfl
  rw [same] at queue
  exact absurd queue (by decide)

/-- Refutes O18, in the third clause on route entries: it has no bound on the entry. Entry 1 of a fabric of one switch, written as 0x0C
(whose DIR0 of 3 is a refused form), lies beyond the table, so the write is ignored with a record in the Diary. -/
theorem not_tableAndControlRegisters : ¬ Obligations.TableAndControlRegisters := by
  intro h
  obtain ⟨routes, -⟩ := h
  obtain ⟨-, -, refused, -⟩ := routes oneSwitch oneSwitch 1 0 0x0C oneSwitch_writes (by decide) (by decide)
  have unchanged := refused (by decide) (by decide)
  rw [execRouteEntryWrite_beyond oneSwitch_writes (by decide) (by decide) (by decide)] at unchanged
  exact oneSwitch_ignored (Host.Outcome.next.inj unchanged)

end Sys2Proof.Proofs
end

section
/-!
WAIT, TAKE, PUSH, SIGNAL and END (04 R110-R117, R125, R131; 05 R143).
-/

namespace Sys2Proof.Proofs

open Sys2Proof Sys2Proof.Machine Sys2Proof.Claims

variable {s : State} {n : Nat} {e : EngId} {w : IWord}

/-! Format Y (05 R139). -/

theorem ySEM_bits : ySEM w = bits w 55 51 := rfl
theorem yAMT_bits : yAMT w = bits w 50 43 := rfl
theorem yENG_bits : yENG w = bits w 42 40 := rfl
theorem ySCOPE_bits : ySCOPE w = bits w 39 38 := rfl
theorem yLEVEL_bits : yLEVEL w = bits w 37 35 := rfl
theorem ySP_bits : ySP w = bits w 33 30 := rfl

/-- A token pair of format Y has four bits, so that any even one is a pair (05 R140). -/
theorem isPair_ySP (even : bits w 33 30 % 2 = 0) : isPair (ySP w) = true := by
  have low : bits w 33 30 < 16 := bits_lt 33 30
  simp [isPair, ySP_bits, low, even]

theorem ofId?_id (t : EngId) : EngId.ofId? t.id = some t := by cases t <;> rfl

theorem id_ne {d e : EngId} (h : d ≠ e) : d.id ≠ e.id := by
  intro same
  exact h (Option.some.inj (by rw [← ofId?_id d, ← ofId?_id e, same]))

/-- The other engines of the Easel stay. -/
theorem engine_setEngine_other {d e : EngId} (h : d ≠ e) {g : Engine} : (s.setEngine n e g).engine n d = s.engine n d :=
  State.engine_setEngine_of_ne _ _ _ _ _ _ (.inr (id_ne h))

/-- An instruction that holds its engine: the PC goes on at the issue (04 R106). -/
theorem issueEnd_holdIn (pc : Nat) (k : HoldKind) : issueEnd s n e (.go ((running s n e).holdIn n e pc k) .seq) =
    .next (s.setEngine n e (({ s.engine n e with st := .hold, hold := some { kind := k, since := s.now, pc } } : Engine).advance s.now .seq)) := by
  simp [issueEnd, State.holdIn, running, toRun]

theorem holdingInstructions : Claims.HoldingInstructions := by
  intro s n e w g hg
  subst hg
  dsimp only [exec]
  refine ⟨fun word amount => ?wait, fun word even => ?take, fun t word even target other present => ?push⟩
  case wait => exact (issue_common word (by decide) (bne_iff_ne.mpr amount)).trans (issueEnd_holdIn _ _)
  case take => exact (issue_common word (by decide) (isPair_ySP even)).trans (issueEnd_holdIn _ _)
  case push =>
    unfold execPush
    rw [issue_common word (by decide) (isPair_ySP even), yENG_bits, target, ofId?_id]
    have engine : (running s n e).hasEngine t = true := present
    simp only [other, engine, Bool.not_true, Bool.or_false, decide_false, Bool.false_eq_true, if_false]
    rw [← pair_eq_append]
    exact issueEnd_holdIn _ _

/-! SIGNAL. -/

@[simp] theorem sendSig_engine (m : Nat) (x : Sig) (k : Nat) (d : EngId) : (s.sendSig m x).engine k d = s.engine k d :=
  engine_modEasel (s := s) (n := m) (f := fun z => { z with sigs := z.sigs ++ [x] }) (fun _ => rfl) k d

@[simp] theorem wake_engine (m k : Nat) (d : EngId) : (s.wake m).engine k d = s.engine k d := by
  apply engine_modEasel
  intro x
  split <;> rfl

/-- Sending a signal to some Easels and waking them changes no engine. -/
theorem foldl_signals_engine (l : List Nat) (x : Sig) (k : Nat) (d : EngId) :
    (l.foldl (fun u m => (u.sendSig m x).wake m) s).engine k d = s.engine k d := by
  induction l generalizing s with
  | nil => rfl
  | cons m l ih => simp [ih]

/-- No signal moves the clock, so all of them land in one cycle. -/
theorem foldl_signals_now (l : List Nat) (x : Nat → Sig) :
    l.foldl (fun u m => (u.sendSig m (x (u.now + 8))).wake m) s = l.foldl (fun u m => (u.sendSig m (x (s.now + 8))).wake m) s := by
  induction l generalizing s with
  | nil => rfl
  | cons m l ih => exact ih

theorem running_engine : (running s n e).engine n e = toRun (s.engine n e) := State.engine_setEngine _ _ _ _

/-- What an instruction did beside its engine stays as its engine moves on. -/
theorem issueEnd_go {u : State} (ran : u.engine n e = toRun (s.engine n e)) (k : Next) :
    issueEnd s n e (.go u k) = .next (u.setEngine n e ((toRun (s.engine n e)).advance s.now k)) := by
  simp [issueEnd, ran]

/-- A signal to the engine's own Easel, and the engine's going on, meet in no field. -/
theorem setEngine_sendSig (g : Engine) (x : Sig) : (s.setEngine n e g).sendSig n x = (s.sendSig n x).setEngine n e g :=
  setEngine_modEasel (f := fun z => { z with sigs := z.sigs ++ [x] }) (fun _ _ => rfl) g

theorem signalInstruction : Claims.SignalInstruction := by
  intro s n e w g hg word amount
  subst hg
  dsimp only [exec]
  unfold execSignal
  refine ⟨fun scope level => ?easel, fun l scope targets => ?group⟩
  case easel =>
    rw [issue_common word (by decide) (by simp [yAMT_bits, ySCOPE_bits, yLEVEL_bits, amount, scope, level])]
    simp only [ySCOPE_bits, scope, if_true]
    rw [issueEnd_go (by rw [sendSig_engine, running_engine]), ← setEngine_sendSig]
    simp only [running, State.setEngine_setEngine, issued, List.append_nil]
    rfl
  case group =>
    rw [issue_common word (by decide) (by rcases scope with scope | scope <;> simp [yAMT_bits, ySCOPE_bits, amount, scope])]
    have wide : bits w 39 38 ≠ 0 := by omega
    have reached : (running s n e).signalTargets n (bits w 39 38) (bits w 37 35) = some l := targets
    simp only [ySCOPE_bits, yLEVEL_bits, wide, if_false, reached]
    rw [foldl_signals_now l (fun due => ({ due, sem := ySEM w, amt := yAMT w, sender := (n, e, (toRun (s.engine n e)).pc) } : Sig))]
    exact issueEnd_go ((foldl_signals_engine _ _ _ _).trans running_engine) _


/-! END. What it asks of the collectives and of the stage does not depend on the engine's going to RUN. -/

theorem running_expectedOn : (running s n e).expectedOn = s.expectedOn := rfl
theorem running_lastChunkOn : (running s n e).lastChunkOn = s.lastChunkOn := rfl
theorem running_intakeDone (g : Engine) : (running s n e).intakeDone n (toRun g) = s.intakeDone n g := by
  unfold State.intakeDone
  simp only [running_stage]
  rfl
theorem running_servingDone : (running s n e).servingDone = s.servingDone := rfl
theorem running_serving : ((running s n e).easel n).serving = (s.easel n).serving := by simp [running, State.easel_setEngine]
theorem running_noteEnd (g : Engine) : (running s n e).noteEnd n e (toRun g) = s.noteEnd n e g := by
  unfold State.noteEnd
  rw [running_intakeDone, running_serving]
  rfl
theorem running_semLeft : (running s n e).semLeft n = s.semLeft n := by
  unfold State.semLeft running
  simp only [State.easel_setEngine]
  rfl

/-- The test of SEM_UNBALANCED (04 R114): something ends here, nothing is left, and a semaphore is not zero. -/
theorem unbalanced_iff (sv : List Serving) (done : Serving → Bool) (left : Bool) :
    (!(sv.filter done).isEmpty && (sv.filter (fun v => !done v)).isEmpty && left) = true ↔
      sv.filter (fun v => !done v) = [] ∧ (∃ v ∈ sv, done v = true) ∧ left = true := by
  have some : (!(sv.filter done).isEmpty) = true ↔ ∃ v ∈ sv, done v = true := by simp
  rw [Bool.and_eq_true, Bool.and_eq_true, some, List.isEmpty_iff]
  tauto

section
variable (g x : Engine)

/-- The chunk record of an END touches the collectives alone. -/
theorem endChunk_frame : (s.endChunk e n g).easels = s.easels ∧ (s.endChunk e n g).mem = s.mem ∧ (s.endChunk e n g).fab = s.fab ∧
    (s.endChunk e n g).clock = s.clock := by
  unfold State.endChunk State.modGen
  split
  · exact ⟨rfl, rfl, rfl, rfl⟩
  · split <;> exact ⟨rfl, rfl, rfl, rfl⟩

theorem endChunk_now : (s.endChunk e n g).now = s.now := by
  obtain ⟨-, -, -, clock⟩ := endChunk_frame (s := s) (n := n) (e := e) g
  unfold State.now
  rw [clock]

theorem endChunk_easel (m : Nat) : (s.endChunk e n g).easel m = s.easel m := by
  unfold State.easel
  rw [(endChunk_frame g).1]

theorem endChunk_engine (m : Nat) (d : EngId) : (s.endChunk e n g).engine m d = s.engine m d := by
  unfold State.engine
  rw [endChunk_easel]

theorem endChunk_setEngine : (s.setEngine n e x).endChunk e n g = (s.endChunk e n g).setEngine n e x := by
  unfold State.endChunk
  split
  · rfl
  · exact modGen_setEngine _ _ _ _

theorem endChunk_test (test : g.test = true) : s.endChunk e n g = s := if_pos test

end

/-- The Easel at an END: what is still served there, and since when it idles (04 R114, R132). -/
def afterEnd (left : List Serving) (t : Nat) (x : Easel) : Easel := { x with serving := left, idleSince := t }

/-- The engine has left its study (04 R125), with its chunk recorded. -/
def endedStudy (s : State) (n : Nat) (e : EngId) (left : List Serving) : State :=
  ((s.endChunk e n (s.engine n e)).modEasel n (afterEnd left s.now)).setEngine n e ((toRun (s.engine n e)).leave s.now)

theorem issueEnd_leave (left : List Serving) :
    issueEnd s n e (.go ((((running s n e).endChunk e n (toRun (s.engine n e))).modEasel n (afterEnd left s.now)).modEngine n e
      (fun g => g.leave s.now)) .set) = .next (endedStudy s n e left) := by
  have chunk : (running s n e).endChunk e n (toRun (s.engine n e)) = (s.endChunk e n (s.engine n e)).setEngine n e (toRun (s.engine n e)) :=
    endChunk_setEngine _ _
  rw [chunk, setEngine_modEasel (fun _ _ => rfl)]
  simp [issueEnd, endedStudy, Engine.advance]

theorem endOfStudy : Claims.EndOfStudy := by
  intro s n e w g hg word sv left unbalanced
  subst hg
  dsimp only [exec]
  unfold execEndStudy
  rw [issue_common word (by decide) rfl]
  simp only [running_serving, running_noteEnd, running_servingDone, running_semLeft, unbalanced_iff, modEasel_now, endChunk_now]
  refine ⟨fun h => ?fault, fun h => ⟨endedStudy s n e left, ?run, ?engine, ?serving, ?idle, ?engines, ?easels, ?coll, ?mem, ?fab, ?clock⟩⟩
  case fault => exact congrArg (issueEnd s n e) (if_pos h)
  case run => exact (congrArg (issueEnd s n e) (if_neg h)).trans (issueEnd_leave left)
  case engine => exact State.engine_setEngine _ _ _ _
  case serving => simp [endedStudy, State.easel_setEngine, State.modEasel, afterEnd]
  case idle => simp [endedStudy, State.easel_setEngine, State.modEasel, afterEnd]
  case engines =>
    intro d other
    rw [endedStudy, engine_setEngine_other other, engine_modEasel (f := afterEnd left s.now) (fun _ => rfl),
      endChunk_engine]
  case easels =>
    intro m other
    simp [endedStudy, State.setEngine, State.modEasel, other, endChunk_easel]
  case coll =>
    intro test
    simp [endedStudy, endChunk_test, test, State.modEasel]
  all_goals
    obtain ⟨-, mem, fab, clock⟩ := endChunk_frame (s := s) (n := n) (e := e) (s.engine n e)
  case mem => exact mem
  case fab => exact fab
  case clock => exact clock

/-- Settles O9: what holds an engine, what signals, and what ends a study. -/
theorem holdingSignalAndEnd : Obligations.HoldingSignalAndEnd := ⟨holdingInstructions, signalInstruction, endOfStudy⟩

end Sys2Proof.Proofs
end

section
/-!
SEM_RESOLVE (04 R112): the signals of one semaphore after the other, then the engines that wait.
-/

namespace Sys2Proof.Proofs

open Sys2Proof Sys2Proof.Machine Sys2Proof.Claims

variable {s t u : State} {n : Nat} {e : EngId}

/-- What the signals due bring to semaphore `k` of an Easel. -/
def amounts (s : State) (n k : Nat) : Nat :=
  (((s.easel n).sigs.filter (fun g => g.sem == k && decide (g.due ≤ s.now))).map (·.amt)).sum

/-- What an addition to a semaphore leaves: the clock, the stop, the engines, the other Easels. -/
structure SemFrame (n : Nat) (s t : State) : Prop where
  now : t.now = s.now
  stopAt : (t.easel n).stopAt = (s.easel n).stopAt
  engine : ∀ e, t.engine n e = s.engine n e
  easel : ∀ m, m ≠ n → t.easel m = s.easel m

theorem SemFrame.refl : SemFrame n s s := ⟨rfl, rfl, fun _ => rfl, fun _ _ => rfl⟩

theorem SemFrame.trans (h : SemFrame n s t) (k : SemFrame n t u) : SemFrame n s u :=
  ⟨k.now.trans h.now, k.stopAt.trans h.stopAt, fun e => (k.engine e).trans (h.engine e), fun m hm => (k.easel m hm).trans (h.easel m hm)⟩

/-- One semaphore that does not overflow: its signals due are added to it and are gone, and nothing else happens. -/
structure SemAdded (n k : Nat) (s t : State) : Prop extends SemFrame n s t where
  canon : tcanon 0 (t.easel n).sems = true
  sems : ∀ j, tget 0 (t.easel n).sems j = tget 0 (s.easel n).sems j + if j = k then amounts s n k else 0
  sigs : (t.easel n).sigs = (s.easel n).sigs.filter (fun g => !(g.sem == k && decide (g.due ≤ s.now)))

theorem semAdded_semAdd {k : Nat} (canon : tcanon 0 (s.easel n).sems = true) (room : tget 0 (s.easel n).sems k + amounts s n k ≤ 65535) :
    SemAdded n k s (s.semAdd n k) := by
  unfold State.semAdd
  by_cases none : (s.easel n).sigs.filter (fun g => g.sem == k && decide (g.due ≤ s.now)) = []
  · have zero : amounts s n k = 0 := by simp [amounts, none]
    have kept : (s.easel n).sigs.filter (fun g => !(g.sem == k && decide (g.due ≤ s.now))) = (s.easel n).sigs := by
      rw [List.filter_eq_self]
      intro g mem
      simpa [imp_iff_not_or] using List.filter_eq_nil_iff.mp none g mem
    simp only [none, List.isEmpty_nil, if_true]
    exact { SemFrame.refl with canon := canon, sems := by simp [zero], sigs := kept.symm }
  · have some : ((s.easel n).sigs.filter (fun g => g.sem == k && decide (g.due ≤ s.now))).isEmpty = false := by
      simpa using none
    have fits : ¬ tget 0 (s.easel n).sems k + amounts s n k > 65535 := by omega
    unfold amounts at fits
    simp only [some, fits, Bool.false_eq_true, if_false]
    refine ⟨⟨rfl, ?stopAt, ?engine, ?easel⟩, ?canon, ?sems, ?sigs⟩
    case stopAt => simp [State.modEasel]
    case engine =>
      intro e
      simp [State.modEasel, State.engine, Easel.engine]
    case easel =>
      intro m other
      simp [State.modEasel, other]
    case canon =>
      simp only [State.modEasel, State.easel_setEasel, if_true]
      exact tcanon_tset _ _ canon
    case sems =>
      intro j
      simp only [State.modEasel, State.easel_setEasel, if_true, tget_tset _ _ _ canon]
      split
      · next same => rw [same, amounts]
      · rfl
    case sigs => simp only [State.modEasel, State.easel_setEasel, if_true]

/-- The semaphores below `k` are resolved: what came due for them is added and gone. -/
structure SemsAdded (n k : Nat) (s t : State) : Prop extends SemFrame n s t where
  canon : tcanon 0 (t.easel n).sems = true
  sems : ∀ j, tget 0 (t.easel n).sems j = tget 0 (s.easel n).sems j + if j < k then amounts s n j else 0
  sigs : (t.easel n).sigs = (s.easel n).sigs.filter (fun g => !(decide (g.sem < k) && decide (g.due ≤ s.now)))

theorem SemsAdded.amounts_eq {k : Nat} (h : SemsAdded n k s t) : amounts t n k = amounts s n k := by
  unfold amounts
  rw [h.sigs, h.now, List.filter_filter]
  congr 3
  funext g
  by_cases mine : g.sem = k
  · simp [mine]
  · simp [mine]

theorem semsAdded_foldl (canon : tcanon 0 (s.easel n).sems = true) {k : Nat}
    (room : ∀ j, j < k → tget 0 (s.easel n).sems j + amounts s n j ≤ 65535) :
    SemsAdded n k s ((List.range k).foldl (fun s k => s.semAdd n k) s) := by
  induction k with
  | zero => exact { SemFrame.refl with canon := canon, sems := by simp, sigs := by simp }
  | succ k ih =>
    have before := ih fun j hj => room j (by omega)
    have own : tget 0 (((List.range k).foldl (fun s k => s.semAdd n k) s).easel n).sems k = tget 0 (s.easel n).sems k := by
      simp [before.sems]
    have added := semAdded_semAdd before.canon (k := k) (by rw [own, before.amounts_eq]; exact room k (by omega))
    rw [List.range_succ, List.foldl_append]
    refine { before.toSemFrame.trans added.toSemFrame with canon := added.canon, sems := fun j => ?sems, sigs := ?sigs }
    case sems =>
      rw [List.foldl_cons, List.foldl_nil, added.sems, before.sems, before.amounts_eq]
      by_cases same : j = k
      · simp [same]
      · have order : j < k + 1 ↔ j < k := by omega
        simp [same, order]
    case sigs =>
      rw [List.foldl_cons, List.foldl_nil, added.sigs, before.sigs, before.now, List.filter_filter]
      congr 1
      funext g
      by_cases mine : g.sem = k
      · simp [mine]
      · have order : g.sem < k + 1 ↔ g.sem < k := by omega
        simp [mine, order]

/-- An Easel on whose semaphores nothing is due keeps them. -/
theorem foldl_semAdd_idle (none : (s.easel n).sigs = []) (l : List Nat) : l.foldl (fun s k => s.semAdd n k) s = s := by
  have idle (k : Nat) : s.semAdd n k = s := by simp [State.semAdd, none]
  induction l with
  | nil => rfl
  | cons k l ih => rw [List.foldl_cons, idle, ih]

theorem semWait_of_not_wait (h : ∀ z, (s.engine n e).hold = some z → z.kind.isWait = false) : s.semWait n e = s := by
  unfold State.semWait
  dsimp only
  split
  · next held => exact absurd (h _ held) (by simp [HoldKind.isWait])
  · rfl

theorem foldl_semWait_idle {l : List EngId} (h : ∀ e ∈ l, ∀ z, (s.engine n e).hold = some z → z.kind.isWait = false) :
    l.foldl (fun s e => s.semWait n e) s = s := by
  induction l with
  | nil => rfl
  | cons e l ih =>
    rw [List.foldl_cons, semWait_of_not_wait (h e List.mem_cons_self)]
    exact ih fun d hd => h d (List.mem_cons_of_mem _ hd)

/-- A WAIT that its semaphore satisfies: the amount is subtracted, and the engine issues from the next cycle (04 R112). -/
def waitServed (s : State) (n : Nat) (e : EngId) (k a : Nat) : State :=
  (s.modEasel n (fun x => { x with sems := tset 0 x.sems k (tget 0 x.sems k - a) })).setEngine n e ((s.engine n e).resume (s.now + 1))

theorem semWait_served {k a : Nat} {h : Hold} (held : (s.engine n e).hold = some h) (wait : h.kind = .wait k a)
    (enough : a ≤ tget 0 (s.easel n).sems k) : s.semWait n e = waitServed s n e k a := by
  obtain ⟨kind, since, pc⟩ := h
  subst wait
  simp [State.semWait, held, enough, waitServed]

theorem waitServed_hold {k a : Nat} (others : ∀ d, d ≠ e → ∀ z, (s.engine n d).hold = some z → z.kind.isWait = false) (d : EngId) :
    ∀ z, ((waitServed s n e k a).engine n d).hold = some z → z.kind.isWait = false := by
  intro z held
  by_cases same : d = e
  · subst same
    simp [waitServed, Engine.resume] at held
  · refine others d same z ?_
    rwa [waitServed, engine_setEngine_other same, engine_modEasel] at held
    exact fun _ => rfl

/-- One engine of some waits on a semaphore that satisfies it. -/
theorem foldl_semWait_served {l : List EngId} {k a : Nat} {h : Hold} (mem : e ∈ l) (held : (s.engine n e).hold = some h)
    (wait : h.kind = .wait k a) (enough : a ≤ tget 0 (s.easel n).sems k)
    (others : ∀ d, d ≠ e → ∀ z, (s.engine n d).hold = some z → z.kind.isWait = false) :
    l.foldl (fun s e => s.semWait n e) s = waitServed s n e k a := by
  obtain ⟨before, after, rfl, first⟩ := List.eq_append_cons_of_mem mem
  have idle : ∀ d ∈ before, ∀ z, (s.engine n d).hold = some z → z.kind.isWait = false :=
    fun d hd => others d fun same => first (same ▸ hd)
  rw [List.foldl_append, foldl_semWait_idle idle, List.foldl_cons, semWait_served held wait enough]
  exact foldl_semWait_idle fun d _ => waitServed_hold others d

theorem mem_all (e : EngId) : e ∈ EngId.all := by cases e <;> decide

theorem execSemResolve_awake (easel : s.isEasel n = true) (works : s.computing = true) (awake : (s.easel n).power = .awake)
    (frame : SemFrame n s t) (stop : (s.easel n).stopAt = none) (adds : (List.range 32).foldl (fun s k => s.semAdd n k) s = t) :
    execSemResolve n s = .next (EngId.all.foldl (fun s e => s.semWait n e) t) := by
  unfold execSemResolve
  rw [onEasel_acts easel works (by simp [awake]), adds]
  simp [frame.stopAt, stop]

theorem semaphoresResolve : Claims.SemaphoresResolve := by
  intro s n easel works awake stop amounts
  dsimp only [exec]
  refine ⟨fun noWait canon room => ?add, fun e k a h none held wait enough others => ?wait⟩
  case add =>
    have added := semsAdded_foldl canon room
    refine ⟨_, (execSemResolve_awake easel works awake added.toSemFrame stop rfl).trans (congrArg _ (foldl_semWait_idle fun e _ z held => ?idle)),
      fun k below => ?sems, added.sigs, added.engine, added.easel⟩
    case idle => exact noWait e z (added.engine e ▸ held)
    case sems => simp [added.sems, below, amounts, Proofs.amounts]
  case wait =>
    rw [execSemResolve_awake easel works awake .refl stop (foldl_semAdd_idle none _)]
    exact congrArg _ (foldl_semWait_served (mem_all e) held wait enough others)

end Sys2Proof.Proofs
end

section
/-!
TOKEN_QUEUE_RESOLVE (04 R116): the step of one queue, and the queues before and after the one that changes.
-/

namespace Sys2Proof.Proofs

open Sys2Proof Sys2Proof.Machine Sys2Proof.Claims

variable {s t u : State} {n : Nat} {p q : EngId}

/-- A queue as it stands at the start of the cycle, behind the tokens that Iczal brings. -/
def opened (now : Nat) (g : Engine) : Engine := (g.openQueue now).placeAhead

/-- The state in which the queue of `q` has opened. -/
def openedAt (s : State) (n : Nat) (q : EngId) : State := s.setEngine n q (opened s.now (s.engine n q))

/-- The step of one token queue: it opens, the pushes that land are placed, a waiting TAKE is served. -/
def tokenStep (n : Nat) (s : State) (q : EngId) : State :=
  (EngId.all.foldl (fun s p => s.placePush n q p) (openedAt s n q)).serveTake n q

theorem execTokenQueueResolve_awake (easel : s.isEasel n = true) (works : s.computing = true) (awake : (s.easel n).power = .awake) :
    execTokenQueueResolve n s = .next (EngId.all.foldl (tokenStep n) s) :=
  onEasel_acts easel works (by simp [awake])

/-- No engine holds a push to `q`. -/
def NoPush (s : State) (n : Nat) (q p : EngId) : Prop := ∀ h tok, (s.engine n p).hold = some h → h.kind ≠ .push q tok

/-- Engine `q` holds no TAKE. -/
def NoTake (s : State) (n : Nat) (q : EngId) : Prop := ∀ h sp, (s.engine n q).hold = some h → h.kind ≠ .take sp

theorem placePush_of_noPush (h : NoPush s n q p) : s.placePush n q p = s := by
  unfold State.placePush
  dsimp only
  split
  · next t tok since _ held =>
    have other : t ≠ q := fun same => h _ tok held (by rw [same])
    simp [other]
  · rfl

theorem foldl_placePush_idle {l : List EngId} (h : ∀ p ∈ l, s.placePush n q p = s) : l.foldl (fun s p => s.placePush n q p) s = s := by
  induction l with
  | nil => rfl
  | cons p l ih =>
    rw [List.foldl_cons, h p List.mem_cons_self]
    exact ih fun d hd => h d (List.mem_cons_of_mem _ hd)

theorem serveTake_of_noTake (h : NoTake s n q) : s.serveTake n q = s := by
  unfold State.serveTake
  dsimp only
  split
  · rfl
  · split
    · next sp _ _ _ _ held _ => exact absurd rfl (h _ sp held)
    · rfl

theorem opened_eq {now : Nat} {g : Engine} (ahead : g.ahead = []) :
    ∃ c f, opened now g = { g with tokenCycle := c, tokenFree := f } := by
  unfold opened Engine.openQueue
  split
  · exact ⟨g.tokenCycle, g.tokenFree, by simp [Engine.placeAhead, ahead]⟩
  · exact ⟨now, 16 - g.tokenq.length, by simp [Engine.placeAhead, ahead]⟩

theorem opened_fresh {now : Nat} {g : Engine} (ahead : g.ahead = []) (fresh : g.tokenCycle ≠ now) :
    opened now g = { g with tokenCycle := now, tokenFree := 16 - g.tokenq.length } := by
  simp [opened, Engine.openQueue, fresh, Engine.placeAhead, ahead]

/-- Some engines' queues have opened, and nothing else has happened: on engines outside `l` nothing at all. -/
structure Opened (n : Nat) (l : List EngId) (s t : State) : Prop where
  now : t.now = s.now
  stopAt : (t.easel n).stopAt = (s.easel n).stopAt
  engine : ∀ e, ∃ c f, t.engine n e = { s.engine n e with tokenCycle := c, tokenFree := f }
  outside : ∀ e, e ∉ l → t.engine n e = s.engine n e
  easel : ∀ m, m ≠ n → t.easel m = s.easel m

namespace Opened

variable {l l' : List EngId}

theorem refl : Opened n [] s s := ⟨rfl, rfl, fun _ => ⟨_, _, rfl⟩, fun _ _ => rfl, fun _ _ => rfl⟩

theorem trans (h : Opened n l s t) (k : Opened n l' t u) : Opened n (l ++ l') s u where
  now := k.now.trans h.now
  stopAt := k.stopAt.trans h.stopAt
  engine e := by
    obtain ⟨c, f, first⟩ := h.engine e
    obtain ⟨c', f', second⟩ := k.engine e
    exact ⟨c', f', by rw [second, first]⟩
  outside e out := by
    rw [List.mem_append, not_or] at out
    exact (k.outside e out.2).trans (h.outside e out.1)
  easel m other := (k.easel m other).trans (h.easel m other)

theorem single (ahead : (s.engine n q).ahead = []) : Opened n [q] s (openedAt s n q) where
  now := rfl
  stopAt := by simp [openedAt, State.easel_setEngine]
  engine e := by
    by_cases same : e = q
    · subst same
      rw [openedAt, State.engine_setEngine]
      exact opened_eq ahead
    · rw [openedAt, engine_setEngine_other same]
      exact ⟨_, _, rfl⟩
  outside e out := engine_setEngine_other (List.ne_of_not_mem_cons out)
  easel m other := by simp [openedAt, State.setEngine, other]

variable (h : Opened n l s t) (e : EngId)
include h

theorem hold : (t.engine n e).hold = (s.engine n e).hold := by
  obtain ⟨c, f, eq⟩ := h.engine e
  rw [eq]

theorem ahead : (t.engine n e).ahead = (s.engine n e).ahead := by
  obtain ⟨c, f, eq⟩ := h.engine e
  rw [eq]

theorem regs : (t.engine n e).s = (s.engine n e).s ∧ (t.engine n e).pend = (s.engine n e).pend := by
  obtain ⟨c, f, eq⟩ := h.engine e
  rw [eq]
  exact ⟨rfl, rfl⟩

theorem noPush {d : EngId} (k : NoPush s n q d) : NoPush t n q d := fun z tok held => k z tok (h.hold d ▸ held)

theorem noTake (k : NoTake s n q) : NoTake t n q := fun z sp held => k z sp (h.hold q ▸ held)

end Opened

/-- A queue to which no push goes and from which no TAKE takes. -/
structure IdleQueue (s : State) (n : Nat) (q : EngId) : Prop where
  ahead : (s.engine n q).ahead = []
  noPush : ∀ p, NoPush s n q p
  noTake : NoTake s n q

theorem IdleQueue.of_opened {l : List EngId} (h : IdleQueue s n q) (k : Opened n l s t) : IdleQueue t n q :=
  ⟨(k.ahead q).trans h.ahead, fun p => k.noPush (h.noPush p), k.noTake h.noTake⟩

theorem tokenStep_idle (h : IdleQueue s n q) : tokenStep n s q = openedAt s n q := by
  have opens := h.of_opened (.single h.ahead)
  unfold tokenStep
  rw [foldl_placePush_idle fun p _ => placePush_of_noPush (opens.noPush p)]
  exact serveTake_of_noTake opens.noTake

theorem opened_foldl {l : List EngId} (idle : ∀ q ∈ l, IdleQueue s n q) : Opened n l s (l.foldl (tokenStep n) s) := by
  induction l generalizing s with
  | nil => exact .refl
  | cons q l ih =>
    have own := idle q List.mem_cons_self
    have first : Opened n [q] s (openedAt s n q) := .single own.ahead
    rw [List.foldl_cons, tokenStep_idle own]
    exact first.trans (ih fun d hd => (idle d (List.mem_cons_of_mem _ hd)).of_opened first)

theorem all_around (q : EngId) : ∃ before after, EngId.all = before ++ q :: after ∧ q ∉ before ∧ q ∉ after := by
  cases q
  case intake => exact ⟨[], [.blend, .order, .mask, .outlet], rfl, by decide, by decide⟩
  case blend => exact ⟨[.intake], [.order, .mask, .outlet], rfl, by decide, by decide⟩
  case order => exact ⟨[.intake, .blend], [.mask, .outlet], rfl, by decide, by decide⟩
  case mask => exact ⟨[.intake, .blend, .order], [.outlet], rfl, by decide, by decide⟩
  case outlet => exact ⟨[.intake, .blend, .order, .mask], [], rfl, by decide, by decide⟩

/-- One queue changes in its step: the queues before it and after it have opened and nothing more, if its step leaves them idle. -/
theorem tokens_around (idle : ∀ e, e ≠ q → IdleQueue s n e)
    (later : ∀ l u, q ∉ l → Opened n l s u → ∀ e, e ≠ q → IdleQueue (tokenStep n u q) n e) :
    ∃ before after u, q ∉ before ∧ q ∉ after ∧ Opened n before s u ∧
      Opened n after (tokenStep n u q) (EngId.all.foldl (tokenStep n) s) := by
  obtain ⟨before, after, split, first, last⟩ := all_around q
  have opens := opened_foldl (l := before) fun e mem => idle e fun same => first (same ▸ mem)
  refine ⟨before, after, before.foldl (tokenStep n) s, first, last, opens, ?_⟩
  rw [split, List.foldl_append, List.foldl_cons]
  exact opened_foldl fun e mem => later before _ first opens e fun same => last (same ▸ mem)

/-! The three steps of the queue that changes. -/

theorem noPush_of_none (h : (s.engine n p).hold = none) : NoPush s n q p := fun z tok held => by simp [h] at held

theorem noTake_of_none (h : (s.engine n q).hold = none) : NoTake s n q := fun z sp held => by simp [h] at held

theorem openedAt_engine_self : (openedAt s n q).engine n q = opened s.now (s.engine n q) := State.engine_setEngine _ _ _ _

theorem openedAt_engine_of_ne (h : p ≠ q) : (openedAt s n q).engine n p = s.engine n p :=
  engine_setEngine_other h

/-- The token of `p` stands at the end of the queue of `q`, and `p` goes on. -/
def pushed (s : State) (n : Nat) (q p : EngId) (tok : DWord) : State :=
  (s.setEngine n q { s.engine n q with tokenq := (s.engine n q).tokenq ++ [tok], tokenCycle := s.now,
                                       tokenFree := 16 - (s.engine n q).tokenq.length - 1 }).setEngine n p ((s.engine n p).resume s.now)

section
variable {h : Hold} {tok : DWord} (other : p ≠ q) (held : (s.engine n p).hold = some h) (push : h.kind = .push q tok)
  (ahead : (s.engine n q).ahead = []) (fresh : (s.engine n q).tokenCycle ≠ s.now)
include other held push ahead fresh

theorem placePush_room (due : h.since < s.now) (room : (s.engine n q).tokenq.length < 16) :
    (openedAt s n q).placePush n q p = pushed s n q p tok := by
  obtain ⟨kind, since, pc⟩ := h
  subst push
  have free : 0 < 16 - (s.engine n q).tokenq.length := by omega
  have lands : since + 1 ≤ (openedAt s n q).now := due
  unfold State.placePush
  simp only [openedAt_engine_of_ne other, held, openedAt_engine_self, opened_fresh ahead fresh, free, lands, decide_true, Bool.and_self, if_true]
  simp [openedAt, pushed]

theorem placePush_full (full : 16 ≤ (s.engine n q).tokenq.length) : (openedAt s n q).placePush n q p = openedAt s n q := by
  obtain ⟨kind, since, pc⟩ := h
  subst push
  have free : 16 - (s.engine n q).tokenq.length = 0 := by omega
  unfold State.placePush
  simp [openedAt_engine_of_ne other, held, openedAt_engine_self, opened_fresh ahead fresh, free]

end

section
variable {tok : DWord}

theorem pushed_engine_pusher : (pushed s n q p tok).engine n p = (s.engine n p).resume s.now := State.engine_setEngine _ _ _ _

theorem pushed_engine_queue (other : p ≠ q) : (pushed s n q p tok).engine n q =
    { s.engine n q with tokenq := (s.engine n q).tokenq ++ [tok], tokenCycle := s.now, tokenFree := 16 - (s.engine n q).tokenq.length - 1 } := by
  rw [pushed, engine_setEngine_other other.symm, State.engine_setEngine]

theorem pushed_engine_of_ne {e : EngId} (hp : e ≠ p) (hq : e ≠ q) : (pushed s n q p tok).engine n e = s.engine n e := by
  rw [pushed, engine_setEngine_other hp, engine_setEngine_other hq]

theorem pushed_easel {m : Nat} (h : m ≠ n) : (pushed s n q p tok).easel m = s.easel m := by simp [pushed, State.setEngine, h]

theorem pushed_ahead (other : p ≠ q) (e : EngId) : ((pushed s n q p tok).engine n e).ahead = (s.engine n e).ahead := by
  by_cases hp : e = p
  · rw [hp, pushed_engine_pusher]
    rfl
  · by_cases hq : e = q
    · rw [hq, pushed_engine_queue other]
    · rw [pushed_engine_of_ne hp hq]

/-- A push and its landing write no register and schedule nothing. -/
theorem pushed_regs (other : p ≠ q) (e : EngId) :
    ((pushed s n q p tok).engine n e).s = (s.engine n e).s ∧ ((pushed s n q p tok).engine n e).pend = (s.engine n e).pend := by
  by_cases hp : e = p
  · rw [hp, pushed_engine_pusher]
    exact ⟨rfl, rfl⟩
  · by_cases hq : e = q
    · rw [hq, pushed_engine_queue other]
      exact ⟨rfl, rfl⟩
    · rw [pushed_engine_of_ne hp hq]
      exact ⟨rfl, rfl⟩

/-- Once its push has landed, no engine is held. -/
theorem pushed_hold (other : p ≠ q) (free : ∀ e, e ≠ p → (s.engine n e).hold = none) (e : EngId) :
    ((pushed s n q p tok).engine n e).hold = none := by
  by_cases hp : e = p
  · rw [hp, pushed_engine_pusher]
    rfl
  · by_cases hq : e = q
    · rw [hq, pushed_engine_queue other]
      exact free q other.symm
    · rw [pushed_engine_of_ne hp hq]
      exact free e hp

end

section
variable {h : Hold} {tok : DWord} (other : p ≠ q) (held : (s.engine n p).hold = some h) (push : h.kind = .push q tok)
  (free : ∀ e, e ≠ p → (s.engine n e).hold = none)
  (ahead : (s.engine n q).ahead = []) (fresh : (s.engine n q).tokenCycle ≠ s.now)
include other held push free ahead fresh

theorem tokenStep_room (due : h.since < s.now) (room : (s.engine n q).tokenq.length < 16) : tokenStep n s q = pushed s n q p tok := by
  obtain ⟨before, after, split, first, -⟩ := all_around p
  have idle : ∀ e ∈ before, (openedAt s n q).placePush n q e = openedAt s n q := fun e mem =>
    placePush_of_noPush ((Opened.single ahead).noPush (noPush_of_none (free e fun same => first (same ▸ mem))))
  unfold tokenStep
  rw [split, List.foldl_append, foldl_placePush_idle idle, List.foldl_cons, placePush_room other held push ahead fresh due room,
    foldl_placePush_idle fun e _ => placePush_of_noPush (noPush_of_none (pushed_hold other free e))]
  exact serveTake_of_noTake (noTake_of_none (pushed_hold other free q))

theorem tokenStep_full (full : 16 ≤ (s.engine n q).tokenq.length) : tokenStep n s q = openedAt s n q := by
  have opens : Opened n [q] s (openedAt s n q) := .single ahead
  have idle (e : EngId) : (openedAt s n q).placePush n q e = openedAt s n q := by
    by_cases same : e = p
    · rw [same]
      exact placePush_full other held push ahead fresh full
    · exact placePush_of_noPush (opens.noPush (noPush_of_none (free e same)))
  unfold tokenStep
  rw [foldl_placePush_idle fun e _ => idle e]
  exact serveTake_of_noTake (opens.noTake (noTake_of_none (free q other.symm)))

end

/-! A TAKE. -/

theorem noteToken_engine (g : Engine) (tok : DWord) (m : Nat) (e : EngId) : (s.noteToken q g tok).engine m e = s.engine m e := by
  unfold State.noteToken
  dsimp only
  split
  · rfl
  · exact modGen_engine _ _ _ _ _

theorem noteToken_now (g : Engine) (tok : DWord) : (s.noteToken q g tok).now = s.now := by
  unfold State.noteToken
  dsimp only
  split
  · rfl
  · exact modGen_now _ _ _

theorem after_now (e : EngId) (l : Nat) (x : Landing) : (s.after n e l x).now = s.now := rfl

theorem after_engine_self (e : EngId) (l : Nat) (x : Landing) :
    (s.after n e l x).engine n e = { s.engine n e with pend := (s.engine n e).pend ++ [lands s l x] } := State.engine_setEngine _ _ _ _

theorem after_engine_of_ne {d e : EngId} (h : d ≠ e) (l : Nat) (x : Landing) : (s.after n e l x).engine n d = s.engine n d :=
  engine_setEngine_other h

section
variable {h : Hold} {sp : Nat} {tok : DWord} {rest : List DWord} (held : (s.engine n q).hold = some h) (take : h.kind = .take sp)
  (free : ∀ e, e ≠ q → (s.engine n e).hold = none) (ahead : (s.engine n q).ahead = []) (queue : (s.engine n q).tokenq = tok :: rest)
  (running : (s.easel n).stopAt = none)
include held take free ahead queue running

/-- A TAKE in the step of its queue: the oldest token goes to its pair one cycle later, and the engine goes on. -/
theorem tokenStep_take : (∃ c f, (tokenStep n s q).engine n q = { (s.engine n q).resume (s.now + 1) with
      tokenq := rest, tokenCycle := c, tokenFree := f, pend := (s.engine n q).pend ++
        [lands s 1 (.sreg sp (tok.setWidth 32)), lands s 1 (.sreg (sp + 1) ((tok >>> 32).setWidth 32))] }) ∧
    (∀ e, e ≠ q → (tokenStep n s q).engine n e = s.engine n e) := by
  obtain ⟨kind, since, pc⟩ := h
  subst take
  have opens : Opened n [q] s (openedAt s n q) := .single ahead
  obtain ⟨c, f, eq⟩ := opens.engine q
  have idle (e : EngId) : NoPush s n q e := by
    by_cases same : e = q
    · subst same
      intro z k hz
      rw [held] at hz
      cases hz
      simp
    · exact noPush_of_none (free e same)
  unfold tokenStep
  rw [foldl_placePush_idle fun e _ => placePush_of_noPush (opens.noPush (idle e))]
  unfold State.serveTake
  simp only [opens.stopAt, running, eq, held, queue, Option.any_none, Bool.false_eq_true, if_false]
  refine ⟨⟨c, f, ?self⟩, fun e out => ?others⟩
  case self =>
    have clock (g g' : Engine) : ((openedAt s n q).setEngine n q g |>.noteToken q g' tok).now = s.now := noteToken_now _ _
    simp only [after_engine_self, noteToken_engine, State.engine_setEngine, lands, after_now, clock, Engine.resume, List.append_assoc]
    rfl
  case others => rw [after_engine_of_ne out, after_engine_of_ne out, noteToken_engine, engine_setEngine_other out,
    openedAt_engine_of_ne out]

end

/-! The queues of an Easel in one resolve. -/

theorem idleQueue_of_none {e : EngId} (ahead : (s.engine n e).ahead = []) (noPush : ∀ p, NoPush s n e p)
    (free : (s.engine n e).hold = none) : IdleQueue s n e := ⟨ahead, noPush, noTake_of_none free⟩

section
variable {h : Hold} {tok : DWord} (other : p ≠ q) (held : (s.engine n p).hold = some h) (push : h.kind = .push q tok)
  (free : ∀ e, e ≠ p → (s.engine n e).hold = none)
include other held push free

/-- An engine that pushes to `q` leaves every other queue idle. -/
theorem idleQueue_of_push {e : EngId} (out : e ≠ q) (ahead : (s.engine n e).ahead = []) : IdleQueue s n e := by
  refine ⟨ahead, fun d => ?push, ?take⟩
  case push =>
    by_cases same : d = p
    · subst same
      intro z k hz kind
      rw [held] at hz
      cases hz
      rw [push] at kind
      cases kind
      exact out rfl
    · exact noPush_of_none (free d same)
  case take =>
    by_cases same : e = p
    · subst same
      intro z sp hz kind
      rw [held] at hz
      cases hz
      simp [push] at kind
    · exact noTake_of_none (free e same)

variable (ahead : ∀ e, (s.engine n e).ahead = []) (fresh : (s.engine n q).tokenCycle ≠ s.now)
include ahead fresh

/-- A push that lands where there is room: what it makes of the queues that opened before it stays as the rest open. -/
theorem resolve_room (due : h.since < s.now) (room : (s.engine n q).tokenq.length < 16) :
    ∃ before after u, q ∉ before ∧ q ∉ after ∧ Opened n before s u ∧
      Opened n after (pushed u n q p tok) (EngId.all.foldl (tokenStep n) s) := by
  have step {l : List EngId} {u : State} (out : q ∉ l) (k : Opened n l s u) : tokenStep n u q = pushed u n q p tok := by
    have own := k.outside q out
    refine tokenStep_room other ((k.hold p).trans held) push (fun e hp => (k.hold e).trans (free e hp)) ((k.ahead q).trans (ahead q)) ?_ ?_ ?_
    · rwa [own, k.now]
    · rwa [k.now]
    · rwa [own]
  obtain ⟨before, after, u, hb, ha, first, last⟩ := tokens_around (fun e out => idleQueue_of_push other held push free out (ahead e))
    fun l u out k e _ => by
      have idle := pushed_hold (tok := tok) other fun e hp => (k.hold e).trans (free e hp)
      rw [step out k]
      exact idleQueue_of_none ((pushed_ahead other e).trans ((k.ahead e).trans (ahead e))) (fun d => noPush_of_none (idle d)) (idle e)
  exact ⟨before, after, u, hb, ha, first, step hb first ▸ last⟩

/-- A push that finds its queue full waits, and every queue only opens. -/
theorem resolve_full (full : 16 ≤ (s.engine n q).tokenq.length) : ∃ l, Opened n l s (EngId.all.foldl (tokenStep n) s) := by
  have step {l : List EngId} {u : State} (out : q ∉ l) (k : Opened n l s u) : tokenStep n u q = openedAt u n q := by
    have own := k.outside q out
    refine tokenStep_full other ((k.hold p).trans held) push (fun e hp => (k.hold e).trans (free e hp)) ((k.ahead q).trans (ahead q)) ?_ ?_
    · rwa [own, k.now]
    · rwa [own]
  have idle (e : EngId) (out : e ≠ q) : IdleQueue s n e := idleQueue_of_push other held push free out (ahead e)
  have opens {l : List EngId} {u : State} (out : q ∉ l) (k : Opened n l s u) : Opened n (l ++ [q]) s (tokenStep n u q) :=
    step out k ▸ k.trans (.single ((k.ahead q).trans (ahead q)))
  obtain ⟨before, after, u, hb, -, first, last⟩ := tokens_around idle fun l u out k e he => (idle e he).of_opened (opens out k)
  exact ⟨_, (opens hb first).trans last⟩

end

/-- A TAKE that finds a token. -/
theorem resolve_take {h : Hold} {sp : Nat} {tok : DWord} {rest : List DWord} (held : (s.engine n q).hold = some h) (take : h.kind = .take sp)
    (free : ∀ e, e ≠ q → (s.engine n e).hold = none) (ahead : ∀ e, (s.engine n e).ahead = [])
    (queue : (s.engine n q).tokenq = tok :: rest) (running : (s.easel n).stopAt = none) :
    ∃ c f, (EngId.all.foldl (tokenStep n) s).engine n q = { (s.engine n q).resume (s.now + 1) with
      tokenq := rest, tokenCycle := c, tokenFree := f, pend := (s.engine n q).pend ++
        [lands s 1 (.sreg sp (tok.setWidth 32)), lands s 1 (.sreg (sp + 1) ((tok >>> 32).setWidth 32))] } := by
  have step {l : List EngId} {u : State} (out : q ∉ l) (k : Opened n l s u) :=
    tokenStep_take (s := u) ((k.hold q).trans held) take (fun e he => (k.hold e).trans (free e he)) ((k.ahead q).trans (ahead q))
      (by rwa [k.outside q out]) (k.stopAt.trans running)
  have pushless (e d : EngId) : NoPush s n e d := by
    by_cases same : d = q
    · subst same
      intro z t hz kind
      rw [held] at hz
      cases hz
      simp [take] at kind
    · exact noPush_of_none (free d same)
  obtain ⟨before, after, u, hb, ha, first, last⟩ := tokens_around (q := q)
    (fun e out => idleQueue_of_none (ahead e) (pushless e) (free e out)) fun l u out k e he => by
      obtain ⟨⟨c, f, self⟩, others⟩ := step out k
      have freed (d : EngId) : ((tokenStep n u q).engine n d).hold = none := by
        by_cases same : d = q
        · rw [same, self]
          rfl
        · rw [others d same]
          exact (k.hold d).trans (free d same)
      refine idleQueue_of_none ?_ (fun d => noPush_of_none (freed d)) (freed e)
      rw [others e he]
      exact (k.ahead e).trans (ahead e)
  obtain ⟨⟨c, f, self⟩, -⟩ := step hb first
  have clock (x : Landing) : lands u 1 x = lands s 1 x := by rw [lands, lands, first.now]
  exact ⟨c, f, by rw [last.outside q ha, self, first.outside q hb, first.now, clock, clock]⟩

theorem hold_none_beside (own : (s.engine n q).hold = none) (idle : ∀ e, e ≠ p → e ≠ q → (s.engine n e).hold = none) (e : EngId)
    (out : e ≠ p) : (s.engine n e).hold = none := by
  by_cases same : e = q
  · rw [same, own]
  · exact idle e out same

theorem tokenQueuesResolve : Claims.TokenQueuesResolve := by
  intro s n p q other easel works awake running ahead idle
  dsimp only [exec]
  rw [execTokenQueueResolve_awake easel works awake]
  refine ⟨fun h tok held push due free fresh room => ⟨_, rfl, ?room⟩, fun h tok held push due free fresh full => ⟨_, rfl, ?full⟩,
    fun h sp tok rest held take free queue => ⟨_, rfl, ?take⟩⟩
  case room =>
    have alone := hold_none_beside free idle
    obtain ⟨before, after, u, hb, ha, first, last⟩ := resolve_room other held push alone ahead fresh due room
    obtain ⟨c, f, pusher⟩ := first.engine p
    obtain ⟨c', f', went⟩ := last.engine p
    rw [pushed_engine_pusher, pusher, first.now] at went
    refine ⟨?_, by rw [went]; rfl, by rw [went]; rfl, by rw [went]; rfl, fun e => ?_, fun m hm => ?_⟩
    · rw [last.outside q ha, pushed_engine_queue other, first.outside q hb]
    · obtain ⟨s1, pend1⟩ := first.regs e
      obtain ⟨s2, pend2⟩ := pushed_regs (s := u) (n := n) (tok := tok) other e
      obtain ⟨s3, pend3⟩ := last.regs e
      exact ⟨s3.trans (s2.trans s1), pend3.trans (pend2.trans pend1)⟩
    · exact (last.easel m hm).trans ((pushed_easel hm).trans (first.easel m hm))
  case full =>
    have alone := hold_none_beside free idle
    obtain ⟨l, opens⟩ := resolve_full other held push alone ahead fresh full
    obtain ⟨c, f, eq⟩ := opens.engine q
    exact ⟨by rw [eq], (opens.hold p).trans held⟩
  case take =>
    have alone := hold_none_beside free fun e hq hp => idle e hp hq
    obtain ⟨c, f, eq⟩ := resolve_take held take alone ahead queue running
    rw [eq]
    exact ⟨rfl, rfl, rfl, rfl⟩

/-- Settles O13: the semaphores by the sums of what is due, the token queues by the step of the one queue that changes. -/
theorem semaphoresAndTokens : Obligations.SemaphoresAndTokens := ⟨semaphoresResolve, tokenQueuesResolve⟩

end Sys2Proof.Proofs
end

section
/-!
STUDY_SWITCH (04 R124, R125; 13 R366): what the switch schedules, and the engine as it begins.
-/

namespace Sys2Proof.Proofs

open Sys2Proof Sys2Proof.Machine Sys2Proof.Claims

variable {s : State} {n : Nat} {e : EngId}

/-- A write that lands in cycle `due`, scheduled now. -/
def landsAt (s : State) (due : Nat) (x : Landing) : Pending := { due, what := x, issued := s.now }

@[simp] theorem sched_setEngine (g : Engine) (due : Nat) (x : Landing) :
    (s.setEngine n e g).sched n e due x = s.setEngine n e { g with pend := g.pend ++ [landsAt s due x] } := by
  simp [State.sched, landsAt]

/-- The study's base, the empty loop stack and the entry's words (04 R124, R125), behind an END in cycle `t`. -/
def switchWords (s : State) (n : Nat) (g : Engine) (q : StartEntry) (t : Nat) : List Pending :=
  [landsAt s (t + 2) (.study (g.studyAt q.study).base), landsAt s (t + 3) .noLoops,
    landsAt s (t + 3) (.creg 0 q.a0), landsAt s (t + 3) (.creg 1 q.a1), landsAt s (t + 3) (.creg 2 q.a2),
    landsAt s (t + 3) (.creg 3 q.a3), landsAt s (t + 3) (.sreg 13 q.chunk),
    landsAt s (t + 3) (.sreg 14 (BitVec.ofNat 32 (match s.groupOf n with | some z => 2 ^ z.log2 | none => 1))),
    landsAt s (t + 3) (.sreg 15 (BitVec.ofNat 32 (match s.groupOf n with | some z => n - z.base | none => 0)))]

/-- FMODE and the seed (13 R366): of a START run zeros, of a generation not served yet those of its template. -/
def switchModes (s : State) (g : Engine) (q : StartEntry) (t : Nat) : List Pending :=
  if q.test then [landsAt s (t + 4) (.fmode 0 false), landsAt s (t + 4) (.seed 0)]
  else if g.served = some (q.ctx, q.gen) then []
  else [landsAt s (t + 4) (.fmode (BitVec.ofNat 3 (s.ctx q.ctx).rmode) (s.ctx q.ctx).flushBit),
    landsAt s (t + 4) (.seed (BitVec.ofNat 64 (s.ctx q.ctx).seedField))]

/-- The generation an engine has taken its modes from. -/
def servedAfter (q : StartEntry) : Option (Nat × Word) := if q.test then none else some (q.ctx, q.gen)

/-- A switch schedules writes of its engine and changes nothing else. -/
theorem loadEntry_setEngine (g : Engine) (q : StartEntry) (t : Nat) : (s.setEngine n e g).loadEntry n e q t =
    s.setEngine n e { g with pend := g.pend ++ (switchWords s n g q t ++ switchModes s g q t), served := servedAfter q } := by
  unfold State.loadEntry switchWords switchModes servedAfter
  cases group : s.groupOf n
  all_goals
    by_cases test : q.test = true
    · simp [group, test]
    · by_cases served : g.served = some (q.ctx, q.gen)
      · simp [group, test, ← served]
      · simp [group, test, served]

/-- The engine as its switch begins (04 R125). -/
def switching (g : Engine) (q : StartEntry) (rest : List StartEntry) (c0 : Nat) (writes : List Pending) : Engine :=
  { g with startq := rest, st := .switch, study := q.study, ctx := q.ctx, gen := q.gen, chunk := q.chunk, lastChunk := q.a3, pos := q.pos,
           test := q.test, nextIssue := c0 + 8, pend := g.pend ++ writes, served := servedAfter q }

theorem switching_pend (g : Engine) (q : StartEntry) (rest : List StartEntry) (c0 : Nat) (writes : List Pending) :
    (switching g q rest c0 writes).pend = g.pend ++ writes := rfl

theorem startServing_frame (x : Easel) (c : Nat) (g : Word) : (x.startServing c g e).eng = x.eng ∧ (x.startServing c g e).tray = x.tray := by
  unfold Easel.startServing
  split <;> exact ⟨rfl, rfl⟩

/-- The engine takes its oldest entry, and the Easel notes that it serves the entry's generation (04 R114); a START run serves none. -/
def switched (s : State) (n : Nat) (e : EngId) (q : StartEntry) (rest : List StartEntry) (t : Nat) : State :=
  let g := s.engine n e
  let u := s.setEngine n e (switching g q rest (t + 1) (switchWords s n g q t ++ switchModes s g q t))
  if q.test then u else u.modEasel n (fun x => x.startServing q.ctx q.gen e)

section
variable (q : StartEntry) (rest : List StartEntry) (t : Nat)

theorem switched_engine (m : Nat) (d : EngId) : (switched s n e q rest t).engine m d =
    (s.setEngine n e (switching (s.engine n e) q rest (t + 1)
      (switchWords s n (s.engine n e) q t ++ switchModes s (s.engine n e) q t))).engine m d := by
  unfold switched
  dsimp only
  split
  · rfl
  · exact engine_modEasel (fun x => (startServing_frame x q.ctx q.gen).1) m d

theorem switched_easel {m : Nat} (h : m ≠ n) : (switched s n e q rest t).easel m = s.easel m := by
  unfold switched
  dsimp only
  split
  · simp [State.setEngine, h]
  · simp [State.setEngine, State.modEasel, h]

theorem switched_tray : ((switched s n e q rest t).easel n).tray = (s.easel n).tray := by
  unfold switched
  dsimp only
  split
  · rw [State.easel_setEngine]
  · rw [State.modEasel, State.easel_setEasel, if_pos rfl, (startServing_frame _ _ _).2, State.easel_setEngine]

/-- STUDY_SWITCH where the engine's oldest entry may be taken (04 R125). -/
theorem execStudySwitch_takes (easel : s.isEasel n = true) (engine : s.hasEngine e = true) (queue : (s.engine n e).startq = q :: rest)
    (cycle : t + 1 = max (s.engine n e).nextIssue q.arrived) (due : t + 1 ≤ s.now) (works : s.computing = true) (clock : s.aclk = true)
    (awake : (s.easel n).power = .awake) (left : (s.engine n e).st = .idle ∨ (s.engine n e).st = .ended) (running : (s.easel n).stopAt = none) :
    execStudySwitch n e s = .next (switched s n e q rest t) := by
  have idle : ((s.engine n e).st == .idle || (s.engine n e).st == .ended) = true := by simpa using left
  unfold execStudySwitch
  rw [onUnit_present (by simp [easel, engine])]
  simp only [queue, ← cycle]
  rw [when'_true (by simp [works, clock, awake, idle, due, running]), Nat.add_sub_cancel, loadEntry_setEngine]
  rfl

end

theorem studySwitches : Claims.StudySwitches := by
  intro s n e g q rest c0 easel engine hg queue hc0 positive due works clock awake left running
  subst hg
  obtain ⟨t, rfl⟩ := Nat.exists_eq_add_of_le' positive
  dsimp only [exec]
  have own : (switched s n e q rest t).engine n e = switching (s.engine n e) q rest (t + 1)
      (switchWords s n (s.engine n e) q t ++ switchModes s (s.engine n e) q t) :=
    (switched_engine q rest t n e).trans (State.engine_setEngine _ _ _ _)
  refine ⟨_, execStudySwitch_takes q rest t easel engine queue hc0 due works clock awake left running, ?_⟩
  rw [own]
  refine ⟨rfl, rfl, rfl, rfl, rfl, rfl, rfl, rfl, rfl, rfl, rfl, rfl, rfl, fun d other => ?engines, fun m => switched_easel q rest t,
    switched_tray q rest t, fun test => ?test, fun test served => ?served, fun test served => ?fresh⟩
  case engines => exact (switched_engine q rest t n d).trans (engine_setEngine_other other)
  case test =>
    rw [switching_pend, switchModes, if_pos test, ← List.append_assoc]
    rfl
  case served =>
    rw [switching_pend, switchModes, if_neg (by simp [test]), if_pos served, List.append_nil]
    rfl
  case fresh =>
    rw [switching_pend, switchModes, if_neg (by simp [test]), if_neg served, ← List.append_assoc]
    rfl

end Sys2Proof.Proofs
end

section
/-!
EASEL_RETURN_IDLE, EASEL_LOW_POWER_ENTRY and EASEL_WAKE (04 R127, R132, R133, R136).
-/

namespace Sys2Proof.Proofs

open Sys2Proof Sys2Proof.Machine Sys2Proof.Claims

theorem returnToIdle : Claims.ReturnToIdle := by
  intro s n k easel works stop past settled complete
  dsimp only [exec]
  unfold execEaselReturnIdle
  rw [onEasel_acts easel works (by simp [stop, past, settled]), complete]
  rfl

theorem easelPower : Claims.EaselPower := by
  intro s n easel works
  dsimp only [exec]
  refine ⟨fun awake free running resting idle => ⟨_, onEasel_acts easel works ?acts, ?noSignal, ?signal⟩, fun held => ?held,
    fun k wake => ?wake⟩
  case acts => simp [awake, free, running, resting, idle]
  case noSignal =>
    intro none
    simp [none, minOf]
  case signal =>
    intro g one
    simp [one, minOf]
  case held => exact onEasel_idle easel (by simp [held])
  case wake => exact onEasel_acts easel works (by simp [wake])

/-- Settles O15: the switch of an engine, the return of an Easel to idle, and its power states. -/
theorem engineAndEaselStates : Obligations.EngineAndEaselStates := ⟨studySwitches, returnToIdle, easelPower⟩

end Sys2Proof.Proofs
end

section
/-!
Vector instructions of the Blend engine (05 R150, R151): what an instruction schedules that occupies no unit, and the common form of the
arithmetic rows.
-/

namespace Sys2Proof.Proofs

open Sys2Proof Sys2Proof.Machine Sys2Proof.Claims

variable {s : State} {n : Nat} {e : EngId} {w : IWord} {l : List Pending}

/-- The issuing engine runs, and the writes `l` are on their way. -/
def scheduling (s : State) (n : Nat) (e : EngId) (l : List Pending) : State :=
  s.setEngine n e { s.engine n e with st := .run, pend := (s.engine n e).pend ++ l }

theorem running_eq_scheduling : running s n e = scheduling s n e [] := by
  simp [running, scheduling, toRun]

theorem scheduling_after (k : Nat) (x : Landing) :
    (scheduling s n e l).after n e k x = scheduling s n e (l ++ [lands s k x]) := by
  simp [scheduling, lands]

theorem scheduling_raise (k : Nat) (f : BitVec 7) :
    (scheduling s n e l).raise n e k f = scheduling s n e (l ++ flagLands s (s.engine n e) k f) := by
  unfold scheduling
  rw [State.raise_setEngine, ← List.append_assoc]
  rfl

theorem issueEnd_scheduling {s₀ : State} (now : s₀.now = s.now) :
    issueEnd s n e (.go (scheduling s₀ n e l) .seq) = .next (issued s₀ n e .seq l) := by
  simp [issueEnd, scheduling, issued, now]

@[simp] theorem running_vfmt (c : Nat) : (running s n e).vfmt c = s.vfmt c := rfl

theorem rC_bits : rC w = bits w 40 36 := rfl
theorem rFA_bits : rFA w = bits w 35 31 := rfl
theorem rFD_bits : rFD w = bits w 30 26 := rfl

section
variable {d k : Nat} {f : Fmt} {r : List Nat × FlagSet}

/-- What the body of a vector row that rounds `count` values answers: a V register and its flags are written. -/
theorem issueEnd_drawn {count : Nat} {v : BitVec 2048} {fl : FlagSet} : issueEnd s n .blend (.go ((((running s n .blend).stochDraw n .blend
      count).after n .blend k (.vreg d v)).raise n .blend k fl) .seq) =
    .next (issued (s.stochDraw n .blend count) n .blend .seq (lands s k (.vreg d v) :: flagLands s (s.engine n .blend) k fl)) := by
  rw [running_stochDraw, running_eq_scheduling, scheduling_after, scheduling_raise, issueEnd_scheduling (stochDraw_now _)]
  simp

/-- A rounded result on the unit of VDIV and VSQRT. -/
theorem issueEnd_division {t : Nat} : issueEnd s n .blend (.go (((((running s n .blend).stochDraw n .blend r.1.length).occupy n .blend .div t).after
      n .blend k (.vreg d (vecOf f r.1))).raise n .blend k r.2) .seq) = .next (divIssued s n t d k f r) := by
  rw [running_stochDraw, running_occupy, occupied_after, occupied_raise, issueEnd_occupied (stochDraw_now _)]
  simp [divIssued]

end

/-- The target passes the test of 02 R50. -/
theorem mode_allowed {g : Engine} {f : Fmt} (allowed : 4 ≤ g.rmode.toNat → f.stochastic = true) :
    (decide (g.rmode.toNat ≥ 4) && !f.stochastic) = false := by
  by_cases stochastic : 4 ≤ g.rmode.toNat
  · simp [allowed stochastic]
  · simp [stochastic]

/-- An arithmetic row whose formats have one width, under a rounding mode that its target allows (02 R50; 05 R151). -/
theorem arith_issued {op lat lat64 : Nat} {used : Used} {ok div : Bool} {elemReg : IWord → Nat} {f : Engine → Fmt → List (Val × FlagSet)}
    {fa fd : Fmt} (word : Issues s n .blend op w used) (listed : opListed .blend op = true) (byte : op < 256) (fields : ok = true)
    (source : s.vfmt (bits w 35 31) = some fa) (target : s.vfmt (bits w 30 26) = some fd) (width : fa.width = fd.width)
    (allowed : 4 ≤ (s.engine n .blend).rmode.toNat → fd.stochastic = true) (free : div = true → s.unitBusy n .blend .div = false) :
    let r := (s.engine n .blend).deliver fd false s.freeCtr ((s.engine n .blend).s' (elemReg w)).toNat (f (toRun (s.engine n .blend)) fa)
    let k := if fa.width = 64 then lat64 else lat
    arith s n op w used ok lat lat64 div elemReg f = .next (if div then divIssued s n (if fa.width = 64 then 16 else 8) (bits w 55 51) k fd r
      else vecIssued s n (bits w 55 51) k fd r) := by
  intro r k
  unfold arith
  rw [issue_legal word listed byte fields]
  have mode := mode_allowed (g := toRun (s.engine n .blend)) allowed
  simp only [running_vfmt, rFA_bits, rFD_bits, source, target, ← width, bne_self_eq_false, Bool.false_eq_true, if_false, mode, running_unitBusy]
  cases div with
  | false => exact issueEnd_drawn
  | true =>
    rw [free rfl]
    exact issueEnd_division

/-- Settles O3: the six rows are one form, `arith`, with their own operations and latencies. -/
theorem vectorArithmetic : Obligations.VectorArithmetic := by
  intro s n w fa fd g x hg source target width allowed hx
  subst hg hx
  dsimp only [exec]
  refine ⟨fun word reg => ?vadd, fun word reg => ?vsub, fun word reg => ?vmul, fun word => ?vfma, fun word reg free => ?vdiv,
    fun word reg free => ?vsqrt⟩
  case vadd => exact arith_issued word rfl (by decide) (isS_of_lt reg) source target width allowed nofun
  case vsub => exact arith_issued word rfl (by decide) (isS_of_lt reg) source target width allowed nofun
  case vmul => exact arith_issued word rfl (by decide) (isS_of_lt reg) source target width allowed nofun
  case vfma =>
    have elem : fld (rMOD w) 0 4 = bits w 19 16 := fld_f (by decide)
    rw [← elem]
    exact arith_issued word rfl (by decide) rfl source target width allowed nofun
  case vdiv => exact arith_issued word rfl (by decide) (isS_of_lt reg) source target width allowed fun _ => free
  case vsqrt => exact arith_issued word rfl (by decide) (isS_of_lt reg) source target width allowed fun _ => free

end Sys2Proof.Proofs
end

section
/-!
The other vector instructions: loads and stores, minima and maxima, conversion, integer sums (05 R150, R151).
-/

namespace Sys2Proof.Proofs

open Sys2Proof Sys2Proof.Machine Sys2Proof.Claims

variable {s : State} {n : Nat} {e : EngId} {w : IWord}

@[simp] theorem toRun_v' (g : Engine) (d : Nat) : (toRun g).v' d = g.v' d := rfl

theorem vectorLoadsAndStores : Claims.VectorLoadsAndStores := by
  intro s n w f g a hg fmt regA ha tray
  subst hg ha
  have tray : trayOk ((s.engine n .blend).trayAddr w) f.vbytes = true := tray
  dsimp only [exec]
  refine ⟨fun word => ?vld, fun word => ?vst⟩
  case vld =>
    have word : Issues s n .blend 0x40 w (fldD :: fldFMT :: fldTray) := word
    unfold execVld
    rw [issue_legal word rfl (by decide) (isS_of_lt (a := wA w) regA)]
    by_cases six : f.width = 6
    · have bytes : f.vbytes = 192 := if_pos six
      rw [bytes] at tray
      simp [tFMT_bits, fmt, tray, bytes, six, wD_bits]
    · have bytes : f.vbytes = 256 := if_neg six
      rw [bytes] at tray
      simp [tFMT_bits, fmt, tray, bytes, six, wD_bits]
  case vst =>
    have word : Issues s n .blend 0x41 w (fldD :: fldFMT :: fldTray) := word
    unfold execVst
    rw [issue_legal word rfl (by decide) (isS_of_lt (a := wA w) regA)]
    simp [tFMT_bits, fmt, tray, wD_bits]

/-- The row of VMIN and VMAX, on formats of one width (05 R151). -/
theorem minMaxRow_issued {op : Nat} {mx : Bool} {fa fd : Fmt} (word : Issues s n .blend op w fldArith) (listed : opListed .blend op = true)
    (byte : op < 256) (reg : bits w 40 36 < 16) (source : s.vfmt (bits w 35 31) = some fa) (target : s.vfmt (bits w 30 26) = some fd)
    (width : fa.width = fd.width) :
    let g := s.engine n .blend
    let chosen := zip2 g fa w (fun a b =>
      (match (minMax mx a b).1 with | none => Val.nan false | some true => a | some false => b, (minMax mx a b).2))
    (bits w 35 31 = bits w 30 26 →
      minMaxRow s n op w mx = .next (issued s n .blend .seq
        (let r := ({ g with rmode := 0, flush := false } : Engine).deliver fd (fa.int && fd.int) s.freeCtr (g.s' (bits w 40 36)).toNat chosen
         lands s 2 (.vreg (bits w 55 51) (vecOf fd r.1)) :: flagLands s g 2 r.2))) ∧
    (bits w 35 31 ≠ bits w 30 26 → (4 ≤ g.rmode.toNat → fd.stochastic = true) →
      minMaxRow s n op w mx = .next (vecIssued s n (bits w 55 51) 2 fd
        (g.deliver fd (fa.int && fd.int) s.freeCtr (g.s' (bits w 40 36)).toNat chosen))) := by
  intro g chosen
  unfold minMaxRow
  rw [issue_legal word listed byte (isS_of_lt (a := rC w) reg)]
  simp only [running_vfmt, rFA_bits, rFD_bits, source, target, ← width, bne_self_eq_false, Bool.false_eq_true, if_false]
  refine ⟨fun same => ?exact, fun differ allowed => ?rounded⟩
  case exact =>
    simp only [same, BEq.rfl, Bool.not_true, Bool.false_and, Bool.false_eq_true, if_false, if_true]
    rw [running_eq_scheduling, scheduling_after, scheduling_raise]
    exact issueEnd_scheduling rfl
  case rounded =>
    have mode := mode_allowed (g := toRun (s.engine n .blend)) allowed
    simp only [beq_eq_false_iff_ne.mpr differ, Bool.not_false, Bool.true_and, mode, Bool.false_eq_true, if_false]
    exact issueEnd_drawn

theorem vectorMinimaAndMaxima : Claims.VectorMinimaAndMaxima := by
  intro s n w fa fd g mx hg source target width reg word
  subst hg
  cases mx with
  | false => exact minMaxRow_issued word rfl (by decide) reg source target width
  | true => exact minMaxRow_issued word rfl (by decide) reg source target width

theorem vectorConversion : Claims.VectorConversion := by
  intro s n w fa fd g p hg source target reg hp listed allowed word
  subst hg hp
  have part : fld (rMOD w) 0 2 = bits w 17 16 := fld_f (by decide)
  have mode := mode_allowed (g := toRun (s.engine n .blend)) allowed
  have word : Issues s n .blend 0x4A w [fldD, fldA, fldRC, fldFA, fldFD, modR 2] := word
  dsimp only [exec]
  unfold execVcvt
  rw [issue_legal word rfl (by decide) (isS_of_lt (a := rC w) reg)]
  simp only [running_vfmt, rFA_bits, rFD_bits, source, target, part, ge_iff_le, Nat.not_le.mpr listed, if_false]
  rw [mode]
  exact issueEnd_drawn

/-- The row of VIADD and VISUB: what lands is wrapped, or saturated with its flag (05 R151). -/
theorem intRow_issued {op : Nat} {f : Int → Int → Int} {fm : Fmt} (word : Issues s n .blend op w [fldD, fldA, fldRB, fldFA, fldFD, modR 1])
    (listed : opListed .blend op = true) (byte : op < 256) (source : s.vfmt (bits w 35 31) = some fm)
    (target : bits w 30 26 = bits w 35 31) (int : fm.int = true) :
    let g := s.engine n .blend
    let z := List.zipWith f ((lanesOf fm (g.v' (bits w 50 46))).map (signed fm.width)) ((lanesOf fm (g.v' (bits w 45 41))).map (signed fm.width))
    let lim : Int := (2 ^ (fm.width - 1) : Nat)
    (bits w 16 16 = 0 →
      intRow s n op w f = .next (issued s n .blend .seq [lands s 2 (.vreg (bits w 55 51) (vecOf fm (z.map (unsignedOf fm.width))))])) ∧
    (bits w 16 16 = 1 →
      intRow s n op w f = .next (issued s n .blend .seq
        (lands s 2 (.vreg (bits w 55 51) (vecOf fm (z.map (fun x => unsignedOf fm.width (max (-lim) (min (lim - 1) x)))))) ::
          flagLands s g 2 (if z.any (fun x => decide (x < -lim) || decide (lim - 1 < x)) then 0x40 else 0)))) := by
  intro g z lim
  have mod : rMOD w = bits w 16 16 := f_of_reservedOk word.2.2 (by decide) (by decide)
  unfold intRow
  rw [issue_legal word listed byte (by rw [rFA_bits, rFD_bits, target, BEq.rfl])]
  simp only [running_vfmt, rFA_bits, source, int, mod, Bool.not_true, Bool.false_eq_true, if_false]
  rw [running_eq_scheduling, scheduling_after, scheduling_raise, issueEnd_scheduling rfl]
  refine ⟨fun wraps => ?wrap, fun saturates => ?saturate⟩
  case wrap => simp [wraps, z, g, List.zipWith_map, flagIf, flagLands, wD_bits, wA_bits, rB_bits]
  case saturate => simp [saturates, z, g, lim, List.zipWith_map, flagIf, fSaturated, wD_bits, wA_bits, rB_bits]

theorem vectorIntegers : Claims.VectorIntegers := by
  intro s n w f g sub hg source target int word
  subst hg
  cases sub with
  | false => exact intRow_issued (f := (· + ·)) word rfl (by decide) source target int
  | true => exact intRow_issued (f := (· - ·)) word rfl (by decide) source target int

/-- Settles O4: loads and stores, minima and maxima, conversion, integer sums. -/
theorem otherVectorCommands : Obligations.OtherVectorCommands :=
  ⟨vectorLoadsAndStores, vectorMinimaAndMaxima, vectorConversion, vectorIntegers⟩

end Sys2Proof.Proofs
end

section
/-!
The Order engine (02 R63; 04 R129; 05 R155).
-/

namespace Sys2Proof.Proofs

open Sys2Proof Sys2Proof.Machine Sys2Proof.Claims

variable {s : State} {n : Nat} {w : IWord}

@[simp] theorem running_keyFmt {e : EngId} (c : Nat) : (running s n e).keyFmt c = s.keyFmt c := rfl
@[simp] theorem running_records {e : EngId} (a k : Nat) : ((running s n e).easel n).records a k = (s.easel n).records a k := by
  simp [Easel.records]

/-- An Order instruction whose areas pass: the unit is occupied until its result lands (05 R155). -/
theorem issueEnd_orderOp {lat out outLen : Nat} {ins : List (Nat × Nat)} {res : List Bytes} (target : trayOk out (32 * outLen) = true)
    (sources : ∀ p ∈ ins, trayOk p.1 (32 * p.2) = true) (areas : areasOk out (32 * outLen) (ins.map (fun p => (p.1, 32 * p.2))) = true) :
    issueEnd s n .order (orderOp (running s n .order) n lat out outLen ins res) =
      .next (issuedOn s n .order .order lat [lands s lat (.tray out res.flatten)]) := by
  unfold orderOp
  rw [target, List.all_eq_true.mpr sources, areas, running_occupy, occupied_after]
  exact issueEnd_occupied rfl

/-- MOD of an Order instruction is its order bit: the rest of it is reserved. -/
theorem tMOD_order (word : reservedOk w (fldD :: fldTB :: fldFMT :: modT 1 :: fldTray) = true) : tMOD w = bits w 0 0 :=
  tMOD_of_reservedOk word (by decide) (by decide)

/-- The counts of TOPK (05 R155). -/
theorem topkCounts_pass {m k : Nat} (count : m ≤ 8192) (some : 0 < k) (most : k ≤ m) (few : k ≤ 1024) :
    (decide (m > 8192) || decide (k = 0) || decide (k > min m 1024)) = false := by
  simp
  omega

/-- Settles O7: past their counts, the three instructions are one operation on areas of records. -/
theorem orderInstructions : Obligations.OrderInstructions := by
  intro s n w g a b out f k k2 hg ha regA hb regB regD hout fmt hk free source before
  subst hg ha hb hout hk
  dsimp only [exec]
  refine ⟨fun word count target areas => ?sort, fun word regs hk2 count second target areas => ?merge,
    fun word regs hk2 count some most few target areas => ?topk⟩
  case sort =>
    have word : Issues s n .order 0x40 w (fldD :: fldTB :: fldFMT :: modT 1 :: fldTray) := word
    unfold execSort
    rw [issue_legal word rfl (by decide) (by simp [isS, wD_bits, tB_bits, wA_bits, regD, regB, regA])]
    simp only [running_keyFmt, tFMT_bits, fmt, running_unitBusy, free, Bool.false_eq_true, if_false, toRun_s', tB_bits, gt_iff_lt,
      Nat.not_lt.mpr count, tMOD_order word.2.2, running_records, toRun_trayAddr]
    exact issueEnd_orderOp target (List.forall_mem_singleton.mpr source) areas
  case merge =>
    subst hk2
    have word : Issues s n .order 0x41 w (fldD :: fldTB :: fldFMT :: modT 1 :: fldTray) := word
    have next : bits w 20 16 + 1 < 16 := Nat.lt_of_succ_lt regs
    unfold execMerge
    rw [issue_legal word rfl (by decide) (by simp [isS, wD_bits, tB_bits, wA_bits, regD, regB, regA, next, regs])]
    simp only [running_keyFmt, tFMT_bits, fmt, running_unitBusy, free, Bool.false_eq_true, if_false, toRun_s', tB_bits, gt_iff_lt,
      Nat.not_lt.mpr count, tMOD_order word.2.2, running_records, toRun_trayAddr, toRun_sAddr]
    exact issueEnd_orderOp target (List.forall_mem_cons.mpr ⟨source, List.forall_mem_singleton.mpr second⟩) areas
  case topk =>
    subst hk2
    have word : Issues s n .order 0x42 w (fldD :: fldTB :: fldFMT :: modT 1 :: fldTray) := word
    unfold execTopk
    rw [issue_legal word rfl (by decide) (by simp [isS, wD_bits, tB_bits, wA_bits, regD, regB, regA, regs])]
    have counts := topkCounts_pass (m := ((toRun (s.engine n .order)).s' (tB w)).toNat)
      (k := ((toRun (s.engine n .order)).s' (tB w + 1)).toNat) count some most few
    simp only [running_keyFmt, tFMT_bits, fmt, running_unitBusy, free, Bool.false_eq_true, if_false, counts, tMOD_order word.2.2,
      running_records]
    exact issueEnd_orderOp target (List.forall_mem_singleton.mpr source) areas

end Sys2Proof.Proofs
end

section
/-!
The Mask engine (05 R156, R446; 06 R172, R175, R177).
-/

namespace Sys2Proof.Proofs

open Sys2Proof Sys2Proof.Machine Sys2Proof.Claims

variable {s : State} {n : Nat} {w : IWord}

@[simp] theorem running_consume {e : EngId} (tbl : Tab DWord) (a : Nat) (need : Option Nat) :
    consume tbl ((running s n e).easel n) a need = consume tbl (s.easel n) a need :=
  consume_eq_of_read running_read tbl a need

/-- A tile that fails its check is reported in the last cycle of the occupancy (06 R177). -/
theorem occupied_failUse_check {e : EngId} {u : UnitId} {t : Nat} {l : List Pending} (g : Engine) (a k : Nat) :
    let h := (s.easel n).read a 32
    (occupied s n e u t l).failUse n e g a k .check = occupied s n e u t
      (l ++ [lands s (k - 1) (.checkFail 3 (tTile h) (tChunk h) (tCheck h) g.serves.1 g.serves.2 g.key)]) := by
  simp only [State.failUse, occupied_read, occupied_after]

section
variable {extra : Nat} {f : Bytes → Tile → Bytes} {a d : Nat} (source : a = (s.engine n .mask).trayAddr w)
  (target : d = (s.engine n .mask).sAddr (bits w 55 51)) (free : s.unitBusy n .mask .mask = false) (header : trayOk a 32 = true)
  (first : trayOk d 32 = true)
include source target free header first

/-- A tile made from a tile that passes its checks (06 R172). -/
theorem issueEnd_reform {b : Bytes} {t : Tile} (used : consume s.formats (s.easel n) a none = .ok b t)
    (room : trayOk d (f b t).length = true) : issueEnd s n .mask (reform (running s n .mask) n (toRun (s.engine n .mask)) w extra f) =
      .next (issuedOn s n .mask .mask 32 [lands s (32 + extra) (.tray d (f b t))]) := by
  subst source target
  simp [reform, free, header, first, used, room, wD_bits]

theorem issueEnd_reform_check (fails : consume s.formats (s.easel n) a none = .check) :
    let h := (s.easel n).read a 32
    issueEnd s n .mask (reform (running s n .mask) n (toRun (s.engine n .mask)) w extra f) = .next (issuedOn s n .mask .mask 32
      [lands s 31 (.checkFail 3 (tTile h) (tChunk h) (tCheck h) (s.engine n .mask).serves.1 (s.engine n .mask).serves.2
        (s.engine n .mask).key)]) := by
  subst source target
  simp [reform, free, header, first, fails, wD_bits, occupied_failUse_check]

end

theorem maskForms : Claims.MaskForms := by
  intro s n w g a d hg ha regA regD hd free header first
  subst hg
  have fields : (isS (wD w) && isS (wA w)) = true := isS_isS_of_lt (a := wD w) (b := wA w) regD regA
  dsimp only [exec]
  refine ⟨fun b t used => ⟨fun word room => ?fsel, fun word room => ?dense, fun m word regB hm mask room => ?cmpct⟩, fun word fails => ?check⟩
  case fsel => exact (issue_legal word rfl (by decide) fields).trans (issueEnd_reform ha hd free header first used room)
  case dense => exact (issue_legal word rfl (by decide) fields).trans (issueEnd_reform ha hd free header first used room)
  case cmpct =>
    subst hm
    have word : Issues s n .mask 0x42 w (fldD :: fldTB :: fldTray) := word
    unfold execCmpct
    rw [issue_legal word rfl (by decide) (by simp [isS, wD_bits, tB_bits, wA_bits, regD, regB, regA])]
    simp only [running_unitBusy, free, toRun_sAddr, tB_bits, mask, running_read, Bool.not_true, Bool.and_false, Bool.false_eq_true, if_false]
    exact issueEnd_reform ha hd free header first used room
  case check => exact (issue_legal word rfl (by decide) fields).trans (issueEnd_reform_check ha hd free header first fails)

theorem maskRecords : Claims.MaskRecords := by
  intro s n w g a d b hg ha regA regD hd hb regB free
  subst hg ha hd hb
  dsimp only [exec]
  refine ⟨fun f k kept word fmt regs pair listed hk count source hkept target => ?filt, fun f x t word fmt regs source target used => ?recs,
    fun f word fmt source target valid => ?twrap⟩
  case filt =>
    subst hk hkept
    have mod : tMOD w = bits w 2 0 := tMOD_of_reservedOk word.2.2 (by decide) (by decide)
    have next : bits w 20 16 + 1 < 16 := Nat.lt_of_succ_lt regs
    have word : Issues s n .mask 0x43 w (fldD :: fldTB :: fldFMT :: modT 3 :: fldTray) := word
    unfold execFilt
    rw [issue_legal word rfl (by decide) (by simp [isS, wD_bits, tB_bits, wA_bits, mod, regD, regB, regA, regs, pair, listed, next])]
    simp only [running_keyFmt, tFMT_bits, fmt, running_unitBusy, free, toRun_s', toRun_pair, toRun_trayAddr, toRun_sAddr, tB_bits, wD_bits, mod,
      running_records, gt_iff_lt, Nat.not_lt.mpr count, source, target, Bool.not_true, Bool.or_self, Bool.false_eq_true, if_false,
      running_occupy, occupied_after]
    exact issueEnd_occupied rfl
  case recs =>
    have word : Issues s n .mask 0x44 w (fldD :: fldTB :: fldFMT :: fldTray) := word
    unfold execRecs
    rw [issue_legal word rfl (by decide) (by simp [isS, wD_bits, tB_bits, wA_bits, regD, regB, regA, regs])]
    simp [tFMT_bits, tB_bits, wD_bits, fmt, free, source, target, used]
  case twrap =>
    have word : Issues s n .mask 0x45 w (fldD :: fldTB :: fldFMT :: fldTray) := word
    unfold execTwrap
    rw [issue_legal word rfl (by decide) (by simp [isS, wD_bits, tB_bits, wA_bits, regD, regB, regA])]
    simp only [running_formats, tFMT_bits, tB_bits, wD_bits, fmt, running_unitBusy, free, toRun_trayAddr, toRun_sAddr, source, target,
      running_read, valid, Bool.not_true, Bool.or_self, Bool.false_eq_true, if_false, running_occupy, occupied_after]
    exact issueEnd_occupied rfl

/-- Settles O8: the forms of a tile, and the instructions on records and bare elements. -/
theorem maskInstructions : Obligations.MaskInstructions := ⟨maskForms, maskRecords⟩

end Sys2Proof.Proofs
end

section
/-!
LOAD, GATHER, STORE and SCATTER at their issue (05 R147, R149, R157).
-/

namespace Sys2Proof.Proofs

open Sys2Proof Sys2Proof.Machine Sys2Proof.Claims

variable {s : State} {n : Nat} {e : EngId} {w : IWord}

@[simp] theorem running_outstanding (intake : Bool) : ((running s n e).easel n).outstanding intake = (s.easel n).outstanding intake := by
  simp [Easel.outstanding, running, State.easel_setEngine]
@[simp] theorem running_inRegions (c a len : Nat) : (running s n e).inRegions c a len = s.inRegions c a len := rfl
@[simp] theorem running_binding (b : Nat) : (running s n e).binding b = s.binding b := rfl
@[simp] theorem running_indices (a k : Nat) : ((running s n e).easel n).indices a k = (s.easel n).indices a k := by
  simp [Easel.indices]
@[simp] theorem toRun_ctx (g : Engine) : (toRun g).ctx = g.ctx := rfl

theorem tSEM_bits : tSEM w = bits w 15 11 := rfl

section
variable {g : Engine} {kind : MemKind} {sem tray len : Nat} {check : Bool} {todo : List (Nat × Nat)} {data : List (Nat × Bytes)}

theorem running_issueOp : (running s n e).issueOp n (toRun g) kind sem check tray len todo data =
    running (s.issueOp n g kind sem check tray len todo data) n e := by
  have next : ((running s n e).easel n).nextOp = (s.easel n).nextOp := by simp [running, State.easel_setEngine]
  have pushed (o : MemOp) : (running s n e).modEasel n (fun x => { x with ops := x.ops ++ [o], nextOp := x.nextOp + 1 }) =
      running (s.modEasel n (fun x => { x with ops := x.ops ++ [o], nextOp := x.nextOp + 1 })) n e :=
    running_modEasel (fun _ => rfl) (fun _ _ => rfl)
  simp only [State.issueOp, next, pushed]
  rfl

/-- The instruction that issues a memory operation writes nothing else. -/
theorem issueEnd_issueOp : issueEnd s n e (.go ((running s n e).issueOp n (toRun g) kind sem check tray len todo data) .seq) =
    .next (issued (s.issueOp n g kind sem check tray len todo data) n e .seq []) := by
  have now : (s.issueOp n g kind sem check tray len todo data).now = s.now := rfl
  rw [running_issueOp]
  simp [issueEnd, running, toRun, issued, now]

end

theorem rows_inTable {l : List Nat} {rows : Nat} (h : ∀ r ∈ l, r < rows) : (l.any fun r => decide (rows ≤ r)) = false := by
  simpa using h

theorem memoryInstructions : Claims.MemoryInstructions := by
  intro s n w g a b len k ha regA hb regD hlen hk
  subst ha hb hlen hk
  dsimp only [exec]
  refine ⟨fun hg room regB => ⟨fun m word even area length hm aligned regions => ?load, fun q d idx word hq hd area target hidx valid rows => ?gather⟩,
    fun hg full regB even word => ?ninth,
    fun hg room => ⟨fun m word regB even area length hm aligned regions => ?store,
      fun q d idx word regs hq hd area target hidx valid rows => ?scatter⟩⟩
  case load =>
    subst hg hm
    have mod : tMOD w = bits w 0 0 := tMOD_of_reservedOk word.2.2 (by decide) (by decide)
    have word : Issues s n .intake 0x41 w (fldD :: fldTB :: fldSEM :: modT 1 :: fldTray) := word
    unfold execLoad
    rw [issue_legal word rfl (by decide) (by simp [isPair, isS, wD_bits, tB_bits, wA_bits, regD, regB, even, regA])]
    simp only [running_outstanding, toRun_trayAddr, toRun_s', toRun_pair, toRun_ctx, running_inRegions, wD_bits, tB_bits, tSEM_bits, mod, ge_iff_le,
      Nat.not_le.mpr room, area, length, aligned, regions, bne_self_eq_false, Bool.not_true, Bool.or_self, Bool.false_eq_true, if_false]
    exact issueEnd_issueOp
  case gather =>
    subst hg hq hd hidx
    have mod : tMOD w = bits w 3 0 := tMOD_of_reservedOk word.2.2 (by decide) (by decide)
    have word : Issues s n .intake 0x42 w (fldD :: fldTB :: fldSEM :: modT 4 :: fldTray) := word
    unfold execGather
    rw [issue_legal word rfl (by decide) (by simp [isS, wD_bits, tB_bits, wA_bits, regD, regB, regA])]
    simp only [running_outstanding, toRun_trayAddr, toRun_s', toRun_sAddr, running_binding, running_indices, wD_bits, tB_bits, tSEM_bits, mod,
      ge_iff_le, Nat.not_le.mpr room, area, target, valid, rows_inTable rows, bne_self_eq_false, Bool.not_true, Bool.or_self, Bool.false_eq_true,
      if_false]
    exact issueEnd_issueOp
  case ninth =>
    subst hg
    have word : Issues s n .intake 0x41 w (fldD :: fldTB :: fldSEM :: modT 1 :: fldTray) := word
    unfold execLoad
    rw [issue_legal word rfl (by decide) (by simp [isPair, isS, wD_bits, tB_bits, wA_bits, regD, regB, even, regA])]
    simp only [running_outstanding, ge_iff_le, full, if_true]
    rfl
  case store =>
    subst hg hm
    have word : Issues s n .outlet 0x41 w (fldD :: fldTB :: fldSEM :: fldTray) := word
    unfold execStore
    rw [issue_legal word rfl (by decide) (by simp [isPair, isS, wD_bits, tB_bits, wA_bits, regD, regB, even, regA])]
    simp only [running_outstanding, toRun_trayAddr, toRun_s', toRun_pair, toRun_ctx, running_inRegions, running_read, wD_bits, tB_bits, tSEM_bits,
      ge_iff_le, Nat.not_le.mpr room, area, length, aligned, regions, bne_self_eq_false, Bool.not_true, Bool.or_self, Bool.false_eq_true, if_false]
    exact issueEnd_issueOp
  case scatter =>
    subst hg hq hd hidx
    have mod : tMOD w = bits w 3 0 := tMOD_of_reservedOk word.2.2 (by decide) (by decide)
    have first : bits w 20 16 < 16 := by omega
    have word : Issues s n .outlet 0x42 w (fldD :: fldTB :: fldSEM :: modT 4 :: fldTray) := word
    unfold execScatter
    rw [issue_legal word rfl (by decide) (by simp [isS, wD_bits, tB_bits, wA_bits, regD, regA, first, regs])]
    simp only [running_outstanding, toRun_trayAddr, toRun_s', toRun_sAddr, running_binding, running_indices, running_read, wD_bits, tB_bits, tSEM_bits,
      mod, ge_iff_le, Nat.not_le.mpr room, area, target, valid, rows_inTable rows, bne_self_eq_false, Bool.not_true, Bool.or_self,
      Bool.false_eq_true, if_false]
    exact issueEnd_issueOp

end Sys2Proof.Proofs
end

section
/-!
The completions of LOAD, GATHER, STORE and SCATTER (05 R142, R149; 06 R175, R177; 11 R326).
-/

namespace Sys2Proof.Proofs

open Sys2Proof Sys2Proof.Machine Sys2Proof.Claims

variable {s : State} {n : Nat}

/-! Two changes of one Easel are one change. -/

theorem modEasel_modEasel (f g : Easel → Easel) : (s.modEasel n f).modEasel n g = s.modEasel n (fun x => g (f x)) := by
  simp [State.modEasel, State.setEasel, State.easel]

theorem easel_modEasel_same (f : Easel → Easel) : (s.modEasel n f).easel n = f (s.easel n) := by
  simp [State.modEasel]

/-! The pieces that an operation still has to move reach the Tray where no other write of this ACLK stands against them (04 R107). -/

/-- What this ACLK has written to the Tray comes from instructions issued in cycle `t`. -/
def WroteBy (x : Easel) (now t : Nat) : Prop := ∀ w ∈ x.wrote, w.at' = now → w.by' = some t

theorem WroteBy.not_taken {x : Easel} {now t : Nat} (h : WroteBy x now t) (a : Nat) : x.taken now t a = false := by
  unfold Easel.taken
  rw [List.any_eq_false]
  intro w mem
  by_cases same : w.at' = now
  · simp [h w mem same]
  · simp [same]

/-- A piece lands whole. -/
theorem landPiece_eq {x : Easel} {now t : Nat} (h : WroteBy x now t) (a : Nat) (b : Bytes) : x.landPiece now t a b =
    { x with tray := putBytes 0 x.tray a b,
             wrote := x.wrote.filter (fun w => w.at' == now) ++ [{ at' := now, a, len := b.length, by' := some t }] } := by
  have whole : (((List.range b.length).zip b).map fun p => if x.taken now t (a + p.1) then tget 0 x.tray (a + p.1) else p.2) = b := by
    simp only [h.not_taken, Bool.false_eq_true, if_false]
    exact List.map_snd_zip (by simp)
  simp only [Easel.landPiece, Easel.addWrote, whole]

theorem WroteBy.landPiece {x : Easel} {now t : Nat} (h : WroteBy x now t) (a : Nat) (b : Bytes) : WroteBy (x.landPiece now t a b) now t := by
  rw [landPiece_eq h]
  intro w mem same
  simp only [List.mem_append, List.mem_filter, List.mem_singleton] at mem
  rcases mem with ⟨mem, -⟩ | rfl
  · exact h w mem same
  · rfl

/-- What the Tray is once pieces of memory have landed in it. -/
def landed (m : Mem) (l : List (Nat × Nat)) (t : Tab Byte) : Tab Byte := l.foldl (fun t p => putBytes 0 t p.2 (m.read p.1 32)) t

/-- The pieces land one after the other, whatever the Easel does next. -/
theorem foldl_movePiece {t : Nat} (l : List (Nat × Nat)) (h : WroteBy (s.easel n) s.now t) : ∃ wrote, ∀ f : Easel → Easel,
    (l.foldl (fun s p => s.movePiece n t p) s).modEasel n f = s.modEasel n (fun x => f { x with wrote, tray := landed s.mem l x.tray }) := by
  induction l generalizing s with
  | nil => exact ⟨(s.easel n).wrote, fun f => rfl⟩
  | cons p l ih =>
    have next : WroteBy ((s.movePiece n t p).easel n) s.now t := by
      rw [State.movePiece, easel_modEasel_same]
      exact h.landPiece _ _
    obtain ⟨wrote, eq⟩ := ih (s := s.movePiece n t p) next
    refine ⟨wrote, fun f => ?_⟩
    rw [List.foldl_cons, eq f, State.movePiece, modEasel_modEasel]
    simp only [State.modEasel, landPiece_eq h, State.setEasel_mem, landed, List.foldl_cons]

theorem foldl_writePiece (l : List (Nat × Bytes)) : l.foldl (fun s p => s.writePiece p) s =
    { s with mem := l.foldl (fun m p => m.write p.1 p.2) s.mem } := by
  induction l generalizing s with
  | nil => rfl
  | cons p l ih => exact ih

/-! The end of an operation. -/

/-- The operation with the last of its pieces moved, and no longer outstanding. -/
def opMoved (s : State) (n id : Nat) (o : MemOp) : State :=
  (o.todo.foldl (fun s p => s.movePiece n o.issued p) s).modEasel n (fun x => { x with ops := x.ops.filter (fun z => z.id != id) })

/-- A checked LOAD keeps its pieces, and is otherwise the same operation. -/
theorem keep_eq (o : MemOp) (m : Mem) (l : List (Nat × Nat)) : ∃ got, o.keep m l = { o with got } := by
  unfold MemOp.keep
  split
  · exact ⟨_, rfl⟩
  · exact ⟨o.got, rfl⟩

section
variable {id : Nat} {o : MemOp} {kind : MemKind} (easel : s.isEasel n = true) (works : s.computing = true) (noReset : s.board.warmSeq = false)
  (due : o.issued < s.now) (unspoilt : o.spoilt = none)
  (found : (s.easel n).ops.find? (fun p => p.id == id && p.kind == kind) = some o)
include easel works noReset due unspoilt found

/-- A completion with clean data: the check of a LOAD that verifies its tiles, or the data, and the signal. -/
theorem completeOp_clean (noTakeover : s.mem.takeover = []) : completeOp s n id kind .clean = .next
    (match (if o.check then badTile 2048 (o.keep s.mem o.todo).area else none) with
      | some (t, c, k) => ((opMoved s n id o).spoil n o.tray o.len).checkFail n 2 t c k o.ctx o.gen o.chunk
      | none => (o.data.foldl (fun s p => s.writePiece p) (opMoved s n id o)).complete n o.sem o.eng o.pc) := by
  have outcome : o.outcome .clean = .clean := by rw [MemOp.outcome, unspoilt]
  obtain ⟨got, kept⟩ := keep_eq o s.mem o.todo
  unfold completeOp
  rw [onUnit_present easel]
  simp only [found, outcome]
  rw [when'_true (by simp [works, noReset, due, Mem.waits, noTakeover]), kept]
  rfl

/-- A completion whose data has an uncorrected error in channel `ch`: a failed check, its area free where it is one of the Tray. -/
theorem completeOp_uncorrected (ch : Nat) : completeOp s n id kind (.uncorrected ch) = .next
    (let u := opMoved s n id o
     let v := ({ u with mem := u.mem.countUe u.now ch } : State).note 326 0 3 ch 0 [ch]
     let area := (v.easel n).read o.tray o.len
     (if o.eng == .intake then v.spoil n o.tray o.len else v).checkFail n 2 (tTile area) (tChunk area) (tCheck area) o.ctx o.gen o.chunk) := by
  have outcome : o.outcome (.uncorrected ch) = .uncorrected ch := by rw [MemOp.outcome, unspoilt]
  obtain ⟨got, kept⟩ := keep_eq o s.mem o.todo
  unfold completeOp
  rw [onUnit_present easel]
  simp only [found, outcome]
  rw [when'_true (by simp [works, noReset, due, memErrBad]), kept]
  rfl

end

/-- An operation to the Tray whose last pieces have moved. -/
theorem opMoved_tray {id : Nat} {o : MemOp} (quiet : ∀ w ∈ (s.easel n).wrote, w.at' ≠ s.now) : ∃ wrote, opMoved s n id o =
    (s.modEasel n (fun x => { x with ops := x.ops.filter (fun z => z.id != id) })).modEasel n (fun x =>
      { x with wrote, tray := landed s.mem o.todo x.tray }) := by
  obtain ⟨wrote, eq⟩ := foldl_movePiece (s := s) (n := n) (t := o.issued) o.todo fun w mem same => absurd same (quiet w mem)
  refine ⟨wrote, ?_⟩
  rw [opMoved, eq, modEasel_modEasel]

/-- An operation to memory moves no piece to the Tray. -/
theorem opMoved_memory {id : Nat} {o : MemOp} (none : o.todo = []) :
    opMoved s n id o = s.modEasel n (fun x => { x with ops := x.ops.filter (fun z => z.id != id) }) := by
  rw [opMoved, none]
  rfl

theorem note_easel (r e c i st : Nat) (p : List Nat) (m : Nat) : (s.note r e c i st p).easel m = s.easel m := by
  unfold State.easel
  rw [State.note_easels]

theorem memoryCompletions : Claims.MemoryCompletions := by
  intro s n id o easel works noReset noTakeover hid due unspoilt left signal
  dsimp only [exec]
  refine ⟨fun g kind plain data quiet found => ?fetched, fun g kind plain todo found => ?written, fun kind checked data quiet found => ?checked,
    fun g ch kind eng data quiet found => ?spoilt, fun ch kind eng todo found => ?lost⟩
  case fetched =>
    obtain ⟨wrote, moved⟩ := opMoved_tray (id := id) (o := o) quiet
    have done := completeOp_clean easel works noReset due unspoilt found noTakeover
    rw [plain, data, moved, kind] at done
    exact ⟨wrote, by cases g <;> exact done⟩
  case written =>
    have done := completeOp_clean easel works noReset due unspoilt found noTakeover
    rw [plain, opMoved_memory todo, foldl_writePiece, kind] at done
    cases g <;> exact done
  case checked =>
    obtain ⟨wrote, moved⟩ := opMoved_tray (id := id) (o := o) quiet
    have done := completeOp_clean easel works noReset due unspoilt found noTakeover
    rw [checked, data, moved] at done
    refine ⟨wrote, done.trans ?_⟩
    simp only [if_true]
    cases badTile 2048 (o.keep s.mem o.todo).area <;> rfl
  case spoilt =>
    obtain ⟨wrote, moved⟩ := opMoved_tray (id := id) (o := o) quiet
    have done := completeOp_uncorrected easel works noReset due unspoilt found ch
    rw [eng, moved, kind] at done
    simp only [note_easel, BEq.rfl, if_true] at done
    exact ⟨wrote, by cases g <;> exact done⟩
  case lost =>
    have done := completeOp_uncorrected easel works noReset due unspoilt found ch
    rw [eng, opMoved_memory todo] at done
    exact ⟨_, _, _, done⟩

/-- Settles O11: the operations at their issue, and their completions by the outcome of their data. -/
theorem memoryOperations : Obligations.MemoryOperations := ⟨memoryInstructions, memoryCompletions⟩

end Sys2Proof.Proofs
end

section
/-!
SEND_COMPLETION (05 R157; 07 R204; 13 R377).
-/

namespace Sys2Proof.Proofs

open Sys2Proof Sys2Proof.Machine Sys2Proof.Claims

variable {s : State} {n : Nat} {t : OutTile} {rest : List OutTile} {y : Gen}

/-! A tile for one rank. -/

/-- A selector of KIND 0 names its rank (07 R204). -/
theorem movesOf_rank {x : Ctx} {a ch num r : Nat} {sel : Word} (rank : sel.toNat = 8 * r) (listed : r < x.rosterN) (field : r < 2 ^ 20) :
    s.movesOf x y a ch num sel = some [.rank r] := by
  have high : fld (8 * r) 23 9 = 0 := by
    rw [fld, Nat.shiftRight_eq_div_pow, Nat.div_eq_of_lt (by omega), Nat.zero_mod]
  have target : fld (8 * r) 3 20 = r := by
    rw [fld, Nat.shiftRight_eq_div_pow, show (2 : Nat) ^ 3 = 8 from rfl, Nat.mul_div_cancel_left _ (by decide), Nat.mod_eq_of_lt field]
  unfold State.movesOf
  simp [rank, high, target, Nat.not_le.mpr listed]

/-- A tile for a rank waits for no stage of a ring: its rank receives it, and the stages that may start do. -/
theorem leaveFor_rank (c : Nat) (num : Word) (key ch tile : Nat) (b : Bytes) (r : Nat) :
    s.leaveFor c num key ch tile b [.rank r] = (s.toRanks c num (key / 2 ^ 32) tile b [r]).startStages c num := by
  cases there : (s.ctx c).gen? num with
  | none => simp [State.leaveFor, State.toRanks, State.startStages, there]
  | some y => simp [State.leaveFor, there, State.stagedIn, State.runMoves]

/-! The branches of the command. -/

section
variable (easel : s.isEasel n = true) (works : s.computing = true) (egress : (s.easel n).egress = t :: rest)
include easel works egress

/-- A test tile, and one of a generation that is not in flight, go nowhere. -/
theorem execSendCompletion_nowhere (none : (if t.test then none else (s.ctx t.ctx).gen? t.gen) = none) :
    execSendCompletion n s = .next (s.leaveEgress n t rest) := by
  unfold execSendCompletion
  rw [onUnit_present easel]
  simp only [egress, works, none, Bool.not_true, Bool.false_eq_true, if_false]

theorem execSendCompletion_failed (test : t.test = false) (inFlight : (s.ctx t.ctx).gen? t.gen = some y) (failed : y.failed.isSome = true) :
    execSendCompletion n s = .next (s.leaveEgress n t rest) := by
  unfold execSendCompletion
  rw [onUnit_present easel]
  simp only [egress, works, test, inFlight, failed, Bool.not_true, Bool.false_eq_true, if_false, if_true]

variable (test : t.test = false) (inFlight : (s.ctx t.ctx).gen? t.gen = some y) (good : y.failed = none)
include test inFlight good

/-- A selector with no destination fails the generation. -/
theorem execSendCompletion_badSelector (moves : s.movesOf (s.ctx t.ctx) y ((s.geo (s.ctx t.ctx)).node (t.chunk / 2 ^ 32))
      (tTile t.bytes / 2 ^ (s.ctx t.ctx).ctLog2) (tTile t.bytes) t.sel = none) :
    execSendCompletion n s = .next ((s.leaveEgress n t rest).failGen t.ctx t.gen stBadField) := by
  unfold execSendCompletion
  rw [onUnit_present easel]
  simp only [egress, works, test, inFlight, good, Nat.shiftRight_eq_div_pow (tTile t.bytes), moves, Bool.not_true, Bool.false_eq_true, if_false, Option.isSome_none]

variable {l : List Move} (moves : s.movesOf (s.ctx t.ctx) y ((s.geo (s.ctx t.ctx)).node (t.chunk / 2 ^ 32))
  (tTile t.bytes / 2 ^ (s.ctx t.ctx).ctLog2) (tTile t.bytes) t.sel = some l)
include moves

/-- A replayed position keeps what it would have sent (13 R377). -/
theorem execSendCompletion_replay (replay : (s.ctx t.ctx).replay = true) : execSendCompletion n s = .next ((s.leaveEgress n t rest).keepSent
    t.ctx t.gen ((s.geo (s.ctx t.ctx)).node (t.chunk / 2 ^ 32)) t.chunk t.bytes l) := by
  unfold execSendCompletion
  rw [onUnit_present easel]
  simp only [egress, works, test, inFlight, good, Nat.shiftRight_eq_div_pow (tTile t.bytes), moves, replay, Bool.not_true,
    Bool.false_eq_true, if_false, if_true, Option.isSome_none]

/-- The tile leaves where its peers and its account are clear, and else waits (10 R286). -/
theorem execSendCompletion_leaves (live : (s.ctx t.ctx).replay = false) :
    let x := s.ctx t.ctx
    let ch := tTile t.bytes / 2 ^ x.ctLog2
    execSendCompletion n s =
      if s.clearFor (x.vcOf y) (l.flatMap (s.peersOf x y ch)) (s.bodiesOf x y ch l) t.bytes then
        .next (((s.leaveEgress n t rest).noteSent t.ctx t.gen ((s.geo x).node (t.chunk / 2 ^ 32)) t.chunk t.bytes l).leaveFor
          t.ctx t.gen t.chunk ch (tTile t.bytes) t.bytes l)
      else .next s := by
  intro x ch
  unfold execSendCompletion
  rw [onUnit_present easel]
  simp only [egress, works, test, inFlight, good, Bool.not_true, Bool.false_eq_true, if_false, Option.isSome_none,
    Nat.shiftRight_eq_div_pow (tTile t.bytes), moves, live, x, ch]
  generalize s.clearFor _ _ _ _ = clear
  cases clear <;> rfl

end

/-- Settles O29: the branches of the command, and the one move of a selector that names a rank. -/
theorem sendCompletions : Obligations.SendCompletions := by
  intro s n t rest easel works egress left x num ch
  dsimp only [exec]
  refine ⟨fun test => ?test, fun none => ?gone, fun y inFlight failed => ?failed, fun y test inFlight good => ⟨fun moves => ?selector,
    fun r live rank listed field clear => ?rank, fun l live moves clear => ?leaves, fun l live moves blocked => ?waits, fun l replay moves => ?replay⟩⟩
  case test => exact execSendCompletion_nowhere easel works egress (by simp [test])
  case gone => exact execSendCompletion_nowhere easel works egress (by rw [none, ite_self])
  case failed =>
    by_cases test : t.test = true
    · exact execSendCompletion_nowhere easel works egress (by simp [test])
    · exact execSendCompletion_failed easel works egress (by simpa using test) inFlight failed
  case selector => exact execSendCompletion_badSelector easel works egress test inFlight good moves
  case rank =>
    rw [execSendCompletion_leaves easel works egress test inFlight good (movesOf_rank rank listed field) live, if_pos (by simpa using clear),
      leaveFor_rank]
    rfl
  case leaves =>
    rw [execSendCompletion_leaves easel works egress test inFlight good moves live, if_pos clear]
    rfl
  case waits =>
    rw [execSendCompletion_leaves easel works egress test inFlight good moves live, if_neg (by simpa using blocked)]
  case replay => exact execSendCompletion_replay easel works egress test inFlight good moves replay

end Sys2Proof.Proofs
end

section
/-!
Contexts and generations (07 R185, R194): what is read back once a generation in flight, or a chunk of it, has changed.
-/

namespace Sys2Proof.Proofs

open Sys2Proof Sys2Proof.Machine Sys2Proof.Claims

variable {s : State} {c : Nat} {num : Word}

/-- A read after a write of what is not the default, whatever the form of the table. -/
theorem tget_tset_of_ne {α : Type} [DecidableEq α] {d a : α} (h : a ≠ d) (t : Tab α) (k j : Nat) :
    tget d (tset d t k a) j = if j = k then a else tget d t j := by
  induction t with
  | nil =>
    by_cases same : j = k
    · simp [tset, tget, h, same]
    · simp [tset, tget, h, same, Ne.symm same]
  | cons p t ih =>
    obtain ⟨i, b⟩ := p
    rcases Nat.lt_trichotomy k i with before | rfl | after
    · rcases Nat.lt_trichotomy j k with hj | rfl | hj
      · simp [tset, tget, h, before, hj, Nat.ne_of_lt hj, Nat.ne_of_gt hj, Nat.lt_trans hj before, Nat.ne_of_gt (Nat.lt_trans hj before)]
      · simp [tset, tget, h, before]
      · simp [tset, tget, h, before, Nat.lt_asymm hj, Nat.ne_of_lt hj, Nat.ne_of_gt hj]
    · rcases Nat.lt_trichotomy j k with hj | rfl | hj
      · simp [tset, tget, h, hj, Nat.ne_of_lt hj, Nat.ne_of_gt hj]
      · simp [tset, tget, h]
      · simp [tset, tget, h, Nat.lt_asymm hj, Nat.ne_of_lt hj, Nat.ne_of_gt hj]
    · have skip : tset d ((i, b) :: t) k a = (i, b) :: tset d t k a := by
        simp [tset, Nat.lt_asymm after, Nat.ne_of_lt after]
      rw [skip]
      simp only [tget, ih]
      split
      · next same => rw [if_neg (by omega)]
      · split
        · rw [if_neg (by omega)]
        · rfl

/-! A context that holds a generation is not the default of the table. -/

theorem mem_gens {x : Ctx} {y : Gen} (h : x.gen? num = some y) : y ∈ x.gens := List.mem_of_find?_eq_some h

theorem gen?_num {x : Ctx} {y : Gen} (h : x.gen? num = some y) : y.num = num := by
  simpa using List.find?_some h

theorem setGen_ne_default {x : Ctx} {y z : Gen} (h : x.gen? num = some y) : x.setGen z ≠ {} := by
  intro same
  have empty : x.gens.map (fun w => if w.num == z.num then z else w) = [] := congrArg Ctx.gens same
  rw [List.map_eq_nil_iff] at empty
  simpa [empty] using mem_gens h

theorem modGen_some {y : Gen} {f : Gen → Gen} (h : (s.ctx c).gen? num = some y) :
    s.modGen c num f = s.setCtx c ((s.ctx c).setGen (f y)) := by
  simp [State.modGen, h]

theorem modGen_none {f : Gen → Gen} (h : (s.ctx c).gen? num = none) : s.modGen c num f = s := by
  simp [State.modGen, h]

theorem modGen_ctx {y : Gen} {f : Gen → Gen} (h : (s.ctx c).gen? num = some y) (d : Nat) :
    (s.modGen c num f).ctx d = if d = c then (s.ctx c).setGen (f y) else s.ctx d := by
  rw [modGen_some h]
  exact tget_tset_of_ne (setGen_ne_default h) _ _ _

/-- A generation that keeps its number is read back as changed. -/
theorem gen?_setGen {x : Ctx} {y z : Gen} (h : x.gen? num = some y) (keeps : z.num = num) : (x.setGen z).gen? num = some z := by
  unfold Ctx.gen? Ctx.setGen at *
  generalize x.gens = l at h
  simp only [keeps]
  induction l with
  | nil => simp at h
  | cons w l ih =>
    rw [List.map_cons, List.find?_cons]
    by_cases mine : w.num = num
    · simp [mine, keeps]
    · rw [List.find?_cons, beq_eq_false_iff_ne.mpr mine] at h
      simp only [beq_eq_false_iff_ne.mpr mine, Bool.false_eq_true, if_false]
      exact ih h

theorem modGen_gen? {f : Gen → Gen} (keeps : ∀ y, (f y).num = y.num) :
    ((s.modGen c num f).ctx c).gen? num = ((s.ctx c).gen? num).map f := by
  cases h : (s.ctx c).gen? num with
  | none => rw [modGen_none h, h, Option.map_none]
  | some y => rw [modGen_ctx h, if_pos rfl, gen?_setGen h ((keeps y).trans (gen?_num h)), Option.map_some]

@[simp] theorem modGen_fab (f : Gen → Gen) : (s.modGen c num f).fab = s.fab := by
  unfold State.modGen
  split <;> rfl

@[simp] theorem modGen_mem (f : Gen → Gen) : (s.modGen c num f).mem = s.mem := by
  unfold State.modGen
  split <;> rfl

/-! The chunks of a generation. -/

section
variable (y : Gen) (k : Nat)

theorem chunk_modChunk (f : Chunk → Chunk) : (y.modChunk k f).chunk k = f (y.chunk k) := by
  simp [Gen.modChunk, Gen.setChunk, Gen.chunk]

theorem num_modChunk (f : Chunk → Chunk) : (y.modChunk k f).num = y.num := rfl
theorem num_markNd (pos : Nat) (b : Bool) : (y.markNd pos b).num = y.num := rfl
theorem num_addPromos (p : Nat) : (y.addPromos k p).num = y.num := rfl
theorem num_grant (x : Ctx) : (y.grant x k).num = y.num := rfl

theorem chunk_markNd (pos j : Nat) (b : Bool) : (y.markNd pos b).chunk j = y.chunk j := rfl

theorem chunk_addPromos (p : Nat) : (y.addPromos k p).chunk k = { y.chunk k with promos := (y.chunk k).promos + p } :=
  chunk_modChunk y k (fun z => { z with promos := z.promos + p })

theorem chunk_addInput (i : Input) (j : Nat) : (y.addInput i).chunk j = y.chunk j := by
  unfold Gen.addInput
  split <;> rfl

theorem num_addInput (i : Input) : (y.addInput i).num = y.num := by
  unfold Gen.addInput
  split <;> rfl

/-- A chunk that is granted holds an entry, and what was taken stays (07 R205). -/
theorem chunk_grant (x : Ctx) : ((y.grant x k).chunk k).entry = true ∧ ((y.grant x k).chunk k).taken = (y.chunk k).taken := by
  rw [Gen.grant, chunk_modChunk]
  split
  · next held => exact ⟨held, rfl⟩
  · exact ⟨rfl, rfl⟩

end

end Sys2Proof.Proofs
end

section
/-!
Waking Easels (04 R133): a wake is recorded in the Easels that rest, and nothing else changes.
-/

namespace Sys2Proof.Proofs

open Sys2Proof Sys2Proof.Machine Sys2Proof.Claims

variable {s t u : State}

/-- Some Easels have been woken. -/
structure Woken (s t : State) : Prop where
  now : t.now = s.now
  coll : t.coll = s.coll
  fab : t.fab = s.fab
  mem : t.mem = s.mem
  easel : ∀ m, ∃ k, t.easel m = { s.easel m with wakeBy := k }

theorem Woken.refl : Woken s s := ⟨rfl, rfl, rfl, rfl, fun _ => ⟨_, rfl⟩⟩

theorem Woken.trans (h : Woken s t) (k : Woken t u) : Woken s u where
  now := k.now.trans h.now
  coll := k.coll.trans h.coll
  fab := k.fab.trans h.fab
  mem := k.mem.trans h.mem
  easel m := by
    obtain ⟨i, first⟩ := h.easel m
    obtain ⟨j, second⟩ := k.easel m
    exact ⟨j, by rw [second, first]⟩

theorem woken_wake (n : Nat) : Woken s (s.wake n) := by
  refine ⟨rfl, rfl, rfl, rfl, fun m => ?_⟩
  simp only [State.wake, State.modEasel, State.easel_setEasel]
  split
  · next same =>
    subst same
    split <;> exact ⟨_, rfl⟩
  · exact ⟨_, rfl⟩

theorem woken_foldl {α : Type} {f : State → α → State} (h : ∀ s x, Woken s (f s x)) (l : List α) : Woken s (l.foldl f s) := by
  induction l generalizing s with
  | nil => exact .refl
  | cons x l ih => exact (h s x).trans ih

theorem woken_wakeBound (c : Nat) : Woken s (s.wakeBound c) := woken_foldl (fun _ n => woken_wake n) _

theorem Woken.ctx (h : Woken s t) (c : Nat) : t.ctx c = s.ctx c := by
  unfold State.ctx
  rw [h.coll]

end Sys2Proof.Proofs
end

section
/-!
CONTRIBUTION_TILE (05 R148; 07 R194, R205; 12 R341, R348): what a tile of an endpoint is, and where it is placed.
-/

namespace Sys2Proof.Proofs

open Sys2Proof Sys2Proof.Machine Sys2Proof.Claims

variable {s : State} {src vc : Nat} {a : Arrived}

theorem front_eq (h : s.front src vc = some a) : a.src = src ∧ a.vc = vc := by
  simpa using List.find?_some h

section
variable (up : s.fabricUp = true) (front : s.front src vc = some a) (ftype : a.ftype = 0) (free : s.flowWaits src vc = false)
include up front ftype free

/-- The command acts as the tile at the front of its flow asks. -/
theorem execContributionTile_drop {rule : Nat} (what : s.tileAs a = .drop rule) : execContributionTile src vc s =
    .next (if rule = 0 then s.consume a else (s.consume a).noteDev rule 0 (if rule = 352 then stFenced else 0) []) := by
  simp [execContributionTile, front, ftype, up, free, what]

theorem execContributionTile_fenced {c r : Nat} {num : Word} (what : s.tileAs a = .fenced c r num) : execContributionTile src vc s =
    .next ((s.consume a).fencedFrame c r num src ((s.ctx c).rank r).fencedEpoch) := by
  simp [execContributionTile, front, ftype, up, free, what]

theorem execContributionTile_fails {c : Nat} {num : Word} (what : s.tileAs a = .fails c num) : execContributionTile src vc s =
    .next (((s.consume a).addHealth src 4).failGen c num stBadField) := by
  simp [execContributionTile, front, ftype, up, free, what]

theorem execContributionTile_place {c key from' : Nat} {num : Word} {inp : Option (Nat × Nat)} (what : s.tileAs a = .place c num key from' inp) :
    execContributionTile src vc s = when' (s.entryRoom c num key) s (s.placeTile a c num key from' inp) := by
  simp [execContributionTile, front, ftype, up, free, what]

end

/-! What a tile of an endpoint is. -/

section
variable (front : s.front src vc = some a) (endpoint : keySw src = false)
include front endpoint

/-- A tile of an endpoint belongs to the ENTER that its flow has come to (07 R194). -/
theorem tileAs_some {en : Nat × Word × Nat} (entered : s.flowEnter src vc = some en) : s.tileAs a = s.contribution src a.body en := by
  obtain ⟨rfl, rfl⟩ := front_eq front
  simp [State.tileAs, endpoint, entered]

theorem tileAs_none (noEnter : s.flowEnter src vc = none) : s.tileAs a = .drop 194 := by
  obtain ⟨rfl, rfl⟩ := front_eq front
  simp [State.tileAs, endpoint, noEnter]

theorem tileAs_noEnter (none : ∀ fl r en, s.flow? src vc = some fl → fl.rx = some r → r.enter ≠ some (some en)) : s.tileAs a = .drop 194 := by
  have noEnter : s.flowEnter src vc = Option.none := by
    unfold State.flowEnter
    cases flow : s.flow? src vc with
    | none => rfl
    | some fl =>
      cases rx : fl.rx with
      | none => simp [rx]
      | some r =>
        cases enter : r.enter with
        | none => simp [rx, enter]
        | some en =>
          cases en with
          | none => simp [rx, enter]
          | some en => exact absurd enter (none fl r en flow rx)
  exact tileAs_none front endpoint noEnter

variable {fl : Flow} {rx : FlowRx} {c r : Nat} {num : Word} (flow : s.flow? src vc = some fl) (at' : fl.rx = some rx)
  (enter : rx.enter = some (some (c, num, r))) (ready : (s.ctx c).st = .ready)
include flow at' enter

theorem tileAs_enter : s.tileAs a = s.contribution src a.body (c, num, r) := by
  have entered : s.flowEnter src vc = some (c, num, r) := by simp [State.flowEnter, flow, at', enter]
  exact tileAs_some front endpoint entered

include ready

/-- A tile from another endpoint than the one its rank names is of a superseded epoch (12 R341). -/
theorem tileAs_superseded (other : ((s.ctx c).rank r).endpoint ≠ src) : s.tileAs a = .fenced c r num := by
  rw [tileAs_enter front endpoint flow at' enter]
  simp [State.contribution, Ctx.live, ready, other]

/-- A tile whose chunk, or whose number, is not its sender's (07 R194). -/
theorem tileAs_notSenders {y : Gen} (own : ((s.ctx c).rank r).endpoint = src) (live : ((s.ctx c).rank r).live = true)
    (inFlight : (s.ctx c).gen? num = some y) (good : y.failed = none) (op : (s.ctx c).op ≠ 0)
    (bad : tChunk a.body ≠ tTile a.body / 2 ^ (s.ctx c).ctLog2 ∨ s.contributes (s.ctx c) y.ref r (tTile a.body) = false) :
    s.tileAs a = .fails c num := by
  rw [tileAs_enter front endpoint flow at' enter]
  have refused : (tChunk a.body != tTile a.body >>> (s.ctx c).ctLog2 || !s.contributes (s.ctx c) y.ref r (tTile a.body)) = true := by
    rw [Nat.shiftRight_eq_div_pow]
    simpa using bad
  simp [State.contribution, Ctx.live, ready, own, live, inFlight, good, op, refused]

end

/-! A tile is placed. -/

@[simp] theorem popFront_ctx (src vc c : Nat) : (s.popFront src vc).ctx c = s.ctx c := by
  unfold State.popFront
  split <;> rfl

@[simp] theorem popFront_easel (src vc n : Nat) : (s.popFront src vc).easel n = s.easel n := by
  unfold State.popFront
  split <;> rfl

section
variable {c key from' : Nat} {num : Word} {inp : Option (Nat × Nat)}

theorem placeTile_fab : (s.placeTile a c num key from' inp).fab = (s.popFront a.src a.vc).fab := by
  unfold State.placeTile
  rw [(woken_wakeBound c).fab]
  cases inp <;> simp [State.noteInput, State.modEasel]

theorem placeTile_waiting : ((s.placeTile a c num key from' inp).easel ((s.ctx c).easelOf (tTile a.body))).waiting =
    (s.easel ((s.ctx c).easelOf (tTile a.body))).waiting ++
      [{ bytes := a.body, ctx := c, gen := num, chunk := key, from', src := a.src, vc := a.vc, cells := a.cells }] := by
  unfold State.placeTile
  extract_lets x t n tile arr u v w
  obtain ⟨k, woken⟩ := (woken_wakeBound (s := w) c).easel n
  have placed : w.easel n = u.easel n := by
    simp only [w, v]
    split <;> simp [State.noteInput]
  change ((w.wakeBound c).easel n).waiting = _
  rw [woken, placed]
  simp [u, State.modEasel, n, x, t, tile]

/-- What a placement makes of its chunk, whatever it counts beside (07 R205). -/
theorem chunk_placed (y : Gen) (x : Ctx) (p : Nat × Nat) (pos promos : Nat) (nd : Bool) :
    let z := (((y.grant x key).modChunk key (fun k => { k with taken := k.taken ++ [p] })).markNd pos nd).addPromos key promos
    (z.chunk key).entry = true ∧ (z.chunk key).taken = (y.chunk key).taken ++ [p] := by
  obtain ⟨entry, taken⟩ := chunk_grant y key x
  intro z
  simp only [z, chunk_addPromos, chunk_markNd, chunk_modChunk]
  exact ⟨entry, by rw [taken]⟩

theorem placeTile_chunk {y z : Gen} (before : (s.ctx c).gen? num = some y)
    (after : ((s.placeTile a c num key from' inp).ctx c).gen? num = some z) :
    (z.chunk key).entry = true ∧ (z.chunk key).taken = (y.chunk key).taken ++ [(tTile a.body, from')] := by
  unfold State.placeTile at after
  extract_lets x t n tile arr u v w at after
  have there : (u.ctx c).gen? num = some y := by
    rw [← before]
    exact congrArg (·.gen? num) (popFront_ctx a.src a.vc c)
  rw [(woken_wakeBound c).ctx] at after
  have granted (z' : Gen) (h : (v.ctx c).gen? num = some z') :
      (z'.chunk key).entry = true ∧ (z'.chunk key).taken = (y.chunk key).taken ++ [(tTile a.body, from')] := by
    simp only [v] at h
    rw [modGen_gen?, there] at h
    · cases h
      exact chunk_placed y x _ _ _ _
    · exact fun _ => by simp only [num_addPromos, num_markNd, num_modChunk, num_grant]
  cases inp with
  | none => exact granted z after
  | some p =>
    simp only [w, State.noteInput] at after
    rw [modGen_gen? (fun _ => num_addInput _ _), Option.map_eq_some_iff] at after
    obtain ⟨z', placed, rfl⟩ := after
    rw [chunk_addInput]
    exact granted z' placed

end

/-- Settles O31: what the tile is, and what its placement makes of its Easel and its chunk. -/
theorem contributionTiles : Obligations.ContributionTiles := by
  intro s src vc a up front ftype free endpoint
  dsimp only [exec]
  refine ⟨fun noEnter => ?dropped, fun fl rx c num r flow at' enter ready => ⟨fun other => ?fenced, fun y own live inFlight good op bad => ?fails,
    fun key from' inp what room inFlight => ?placed, fun key from' inp what full => ?waits⟩⟩
  case dropped => exact execContributionTile_drop up front ftype free (tileAs_noEnter front endpoint noEnter)
  case fenced => exact execContributionTile_fenced up front ftype free (tileAs_superseded front endpoint flow at' enter ready other)
  case fails =>
    exact execContributionTile_fails up front ftype free (tileAs_notSenders front endpoint flow at' enter ready own live inFlight good op bad)
  case placed =>
    obtain ⟨rfl, rfl⟩ := front_eq front
    exact ⟨_, (execContributionTile_place up front ftype free what).trans (when'_true room), congrArg _ placeTile_fab, placeTile_waiting,
      fun y z before after => placeTile_chunk before after⟩
  case waits => exact (execContributionTile_place up front ftype free what).trans (when'_false full)

end Sys2Proof.Proofs
end

section
/-!
The ejection accounts (09 R274; 10 R286): what a switch sends charges none of them, and what it takes out of the packet buffer is freed.
-/

namespace Sys2Proof.Proofs

open Sys2Proof Sys2Proof.Machine Sys2Proof.Claims

variable {s : State}

@[simp] theorem setFlow_ejected (x : Flow) : (s.setFlow x).fab.ejected = s.fab.ejected := by
  unfold State.setFlow
  dsimp only
  split <;> rfl

@[simp] theorem freeAccount_ejected (x : Account) (cells : Nat) : (s.freeAccount x cells).fab.ejected = s.fab.ejected := by
  cases x <;> rfl

@[simp] theorem dropCopy_ejected (id : Nat) : (s.dropCopy id).fab.ejected = s.fab.ejected := by
  unfold State.dropCopy
  split
  · rfl
  · split
    · rw [freeAccount_ejected]
      rfl
    · rfl

@[simp] theorem takeHop_ejected (arr : Option Nat) (body : Nat) (requeued : Bool) (h : Hop) :
    (s.takeHop arr body requeued h).fab.ejected = s.fab.ejected := by
  cases h with
  | out p f entry => rfl
  | held p f entry => rfl
  | drop rule => simp [State.takeHop, State.noteDev]
  | here f => exact dropCopy_ejected body

@[simp] theorem crossOut_ejected (ftype : Nat) (tile : Bytes) (id : Nat) (h : Hop) :
    (s.crossOut ftype tile id h).fab.ejected = s.fab.ejected := by
  unfold State.crossOut
  split
  · simp [State.notePort]
  · exact takeHop_ejected _ _ _ _

theorem store_ejected (acct : Account) (cells copies : Nat) : (s.store acct cells copies).1.fab.ejected = s.fab.ejected := by
  cases acct <;> rfl

@[simp] theorem placeFrame_ejected (o : Orig) (body : Option Nat) : (s.placeFrame o body).fab.ejected = s.fab.ejected := by
  unfold State.placeFrame
  extract_lets fl t f u
  have numbered : u.fab.ejected = s.fab.ejected := by
    simp only [u]
    split
    · rfl
    · exact setFlow_ejected _
  cases body with
  | some id => simp [numbered]
  | none => simp [store_ejected, numbered]

theorem drainGo_ejected (kept l : List Orig) : (drainGo s kept l).fab.ejected = s.fab.ejected := by
  induction l generalizing s kept with
  | nil => rfl
  | cons o l ih =>
    unfold drainGo
    split
    · rw [ih, placeFrame_ejected]
    · exact ih _

@[simp] theorem queueOrig_ejected (o : Orig) : (s.queueOrig o).fab.ejected = s.fab.ejected := drainGo_ejected _ _

/-- A TACK is no privileged frame, so it waits for no span (09 R277). -/
@[simp] theorem sendTack_ejected (dest kind vc epoch seq window echo : Nat) :
    (s.sendTack dest kind vc epoch seq window echo).fab.ejected = s.fab.ejected := queueOrig_ejected _

@[simp] theorem ackFlow_ejected (peer vc : Nat) : (s.ackFlow peer vc).fab.ejected = s.fab.ejected := by
  unfold State.ackFlow
  split
  · rfl
  · unfold State.tackFlow
    dsimp only
    split
    · rfl
    · rw [sendTack_ejected, setFlow_ejected]

theorem freeEject_ejected (src vc cells : Nat) :
    (s.freeEject src vc cells).fab.ejected = tset 0 s.fab.ejected vc (tget 0 s.fab.ejected vc - cells) := by
  have freed : (s.freeCells vc cells).fab.ejected = tset 0 s.fab.ejected vc (tget 0 s.fab.ejected vc - cells) := rfl
  unfold State.freeEject
  extract_lets u
  split
  · split
    · dsimp only
      split
      · rw [ackFlow_ejected, setFlow_ejected, freed]
      · rw [setFlow_ejected, freed]
    · exact freed
  · exact freed

/-- Freeing cells changes the fabric and, by what it sends, the Diary. -/
theorem freeEject_keeps (src vc cells : Nat) : Keeps true true true true true false true true true false true true true s
    (s.freeEject src vc cells) := keeps_State_freeEject _ _ _ (.refl s)

theorem freeEject_easel (src vc cells m : Nat) : (s.freeEject src vc cells).easel m = s.easel m := by
  unfold State.easel
  rw [(freeEject_keeps src vc cells).easels rfl]

theorem freeEject_now (src vc cells : Nat) : (s.freeEject src vc cells).now = s.now := by
  unfold State.now
  rw [(freeEject_keeps src vc cells).clock rfl]

end Sys2Proof.Proofs
end

section
/-!
INGRESS_STAGE_PLACE (05 R148): the first waiting tile that may enter.
-/

namespace Sys2Proof.Proofs

open Sys2Proof Sys2Proof.Machine Sys2Proof.Claims

variable {s : State} {n : Nat}

theorem pick_append {α : Type} {p : α → Bool} {t : α} {l1 l2 : List α} (skip : ∀ u ∈ l1, p u = false) (first : p t = true) :
    pick p (l1 ++ t :: l2) = some (t, l1 ++ l2) := by
  induction l1 with
  | nil => simp [pick, first]
  | cons u l1 ih =>
    rw [List.forall_mem_cons] at skip
    simp [pick, skip.1, ih skip.2]

theorem pick_none {α : Type} {p : α → Bool} {l : List α} (none : ∀ u ∈ l, p u = false) : pick p l = Option.none := by
  induction l with
  | nil => rfl
  | cons u l ih =>
    rw [List.forall_mem_cons] at none
    simp [pick, none.1, ih none.2]

/-- Tile `t` has entered the stage, those of `rest` wait on, and its buffer cells and its chunk know of it. -/
def stagePlaced (s : State) (n : Nat) (t : InTile) (rest : List InTile) : State :=
  ((s.setEasel n { s.easel n with waiting := rest, stage := (s.easel n).stage ++ [t] }).freeEject t.src t.vc t.cells).modGen t.ctx t.gen
    (fun y => y.modChunk t.chunk (fun k => { k with
      entered := k.entered ++ [(tTile t.bytes, t.from')], stallAt := some (k.stallAt.getD s.now),
      came := if k.came.any (fun p => p.1 == n) then k.came else k.came ++ [(n, s.now)] }))

/-- The Easel takes a tile into its stage (04 R127, R132; 05 R148). -/
def stageTakes (s : State) (n : Nat) : Bool :=
  (s.easel n).power == .awake && (s.easel n).stopAt.isNone && decide ((s.easel n).stage.length < 8)

theorem execIngressStagePlace_none (easel : s.isEasel n = true) (none : pick (s.mayEnter n) (s.easel n).waiting = Option.none) :
    execIngressStagePlace n s = .next s := by
  unfold execIngressStagePlace
  simp only [none]
  exact onUnit_present easel

theorem execIngressStagePlace_some {t : InTile} {rest : List InTile} (picked : pick (s.mayEnter n) (s.easel n).waiting = some (t, rest)) :
    execIngressStagePlace n s = onEasel s n (stageTakes s n) (stagePlaced s n t rest) := by
  unfold execIngressStagePlace
  simp only [picked, freeEject_now]
  rfl

section
variable {t : InTile} {rest : List InTile}

theorem stagePlaced_easel (m : Nat) : (stagePlaced s n t rest).easel m =
    if m = n then { s.easel n with waiting := rest, stage := (s.easel n).stage ++ [t] } else s.easel m := by
  rw [stagePlaced, modGen_easel, freeEject_easel, State.easel_setEasel]

theorem stagePlaced_engine (e : EngId) : (stagePlaced s n t rest).engine n e = s.engine n e := by
  rw [State.engine, stagePlaced_easel, if_pos rfl]
  rfl

theorem stagePlaced_easel_other {m : Nat} (other : m ≠ n) : (stagePlaced s n t rest).easel m = s.easel m := by
  rw [stagePlaced_easel, if_neg other]

theorem stagePlaced_ejected (canon : tcanon 0 s.fab.ejected = true) :
    tget 0 (stagePlaced s n t rest).fab.ejected t.vc = tget 0 s.fab.ejected t.vc - t.cells := by
  rw [stagePlaced, modGen_fab, freeEject_ejected]
  exact (tget_tset _ _ _ canon).trans (if_pos rfl)

end

/-- Nothing changes, or one tile is placed. -/
theorem execIngressStagePlace_cases (easel : s.isEasel n = true) :
    execIngressStagePlace n s = .next s ∨ ∃ t rest, execIngressStagePlace n s = .next (stagePlaced s n t rest) := by
  cases picked : pick (s.mayEnter n) (s.easel n).waiting with
  | none => exact .inl (execIngressStagePlace_none easel picked)
  | some p =>
    rw [execIngressStagePlace_some picked, onEasel, onUnit_present easel]
    by_cases takes : (s.computing && stageTakes s n) = true
    · exact .inr ⟨p.1, p.2, when'_true takes⟩
    · exact .inl (when'_false (by simpa using takes))

theorem execIngressStagePlace_frame (easel : s.isEasel n = true) : ∃ u, execIngressStagePlace n s = .next u ∧ u.mem = s.mem ∧
    u.clock = s.clock ∧ u.dev = s.dev ∧ u.formats = s.formats ∧ (∀ e, u.engine n e = s.engine n e) ∧ (∀ m, m ≠ n → u.easel m = s.easel m) := by
  have keeps : OutKeeps true true true false false false true true true false true true true s (execIngressStagePlace n s) :=
    keeps_execIngressStagePlace n (.refl s)
  rcases execIngressStagePlace_cases easel with idle | ⟨t, rest, placed⟩
  · exact ⟨s, idle, rfl, rfl, rfl, rfl, fun _ => rfl, fun _ _ => rfl⟩
  · have kept := keeps _ placed
    obtain ⟨formats, -⟩ := kept.tables rfl
    exact ⟨_, placed, kept.mem rfl, kept.clock rfl, kept.dev rfl, formats, stagePlaced_engine, fun _ => stagePlaced_easel_other⟩

/-- Where no tile may enter, or the Easel takes none, nothing changes. -/
theorem execIngressStagePlace_idle (easel : s.isEasel n = true) (idle : (∀ t ∈ (s.easel n).waiting, s.mayEnter n t = false) ∨
      (s.computing && stageTakes s n) = false) : execIngressStagePlace n s = .next s := by
  rcases idle with none | full
  · exact execIngressStagePlace_none easel (pick_none none)
  · cases picked : pick (s.mayEnter n) (s.easel n).waiting with
    | none => exact execIngressStagePlace_none easel picked
    | some p => rw [execIngressStagePlace_some picked, onEasel, onUnit_present easel, when'_false full]

end Sys2Proof.Proofs
end

section
/-!
START_ENTRY_PUSH (04 R124; 07 R203): the entry of Intake, and that of another engine.
-/

namespace Sys2Proof.Proofs

open Sys2Proof Sys2Proof.Machine Sys2Proof.Claims

variable {s t : State} {n c : Nat} {num : Word}

/-! Without a generation on the ring no walk begins at a position with no rank (08 R219). -/

/-- No generation of a context bound to the Easel runs on the ring. -/
def NoRing (s : State) (n : Nat) : Prop := ∀ d ∈ s.boundTo n, ∀ z ∈ (s.ctx d).gens, z.path ≠ .ring

theorem NoRing.of_coll (h : NoRing s n) (coll : t.coll = s.coll) : NoRing t n := by
  unfold NoRing State.boundTo State.openCtxs State.ctx
  rw [coll]
  exact h

/-- The listed keys of a table stay where an entry changes into one that the filter treats alike. -/
theorem map_filter_tset {α : Type} [DecidableEq α] {d a : α} {k : Nat} {p : Nat × α → Bool} (t : Tab α) (listed : tget d t k ≠ d) (ne : a ≠ d)
    (alike : p (k, a) = p (k, tget d t k)) : ((tset d t k a).filter p).map (·.1) = (t.filter p).map (·.1) := by
  induction t with
  | nil => exact absurd rfl listed
  | cons q t ih =>
    obtain ⟨i, b⟩ := q
    rcases Nat.lt_trichotomy k i with before | rfl | after
    · simp [tget, before, Nat.ne_of_gt before] at listed
    · have own : tget d ((k, b) :: t) k = b := by simp [tget]
      rw [own] at alike
      simp only [tset, Nat.lt_irrefl, if_false, if_true, ne, List.filter_cons, alike]
      split <;> rfl
    · have skip : tget d ((i, b) :: t) k = tget d t k := by simp [tget, Nat.ne_of_lt after, Nat.lt_asymm after]
      rw [skip] at listed alike
      simp only [tset, Nat.lt_asymm after, Nat.ne_of_lt after, if_false, List.filter_cons]
      split
      · rw [List.map_cons, List.map_cons, ih listed alike]
      · exact ih listed alike

theorem ctx_ne_default {x : Ctx} {y : Gen} (h : x.gen? num = some y) : x ≠ {} := by
  rintro rfl
  simp [Ctx.gen?] at h

theorem modGen_openCtxs (f : Gen → Gen) : (s.modGen c num f).openCtxs = s.openCtxs := by
  cases h : (s.ctx c).gen? num with
  | none => rw [modGen_none h]
  | some y =>
    rw [modGen_some h]
    exact map_filter_tset _ (ctx_ne_default h) (setGen_ne_default h) rfl

/-- A change of a generation leaves what its context holds beside the generations. -/
theorem modGen_field {α : Type} (p : Ctx → α) (beside : ∀ x gens, p { x with gens } = p x) (f : Gen → Gen) (d : Nat) :
    p ((s.modGen c num f).ctx d) = p (s.ctx d) := by
  cases h : (s.ctx c).gen? num with
  | none => rw [modGen_none h]
  | some y =>
    rw [modGen_ctx h]
    split
    · next same =>
      rw [same]
      exact beside _ _
    · rfl

theorem modGen_boundTo (f : Gen → Gen) : (s.modGen c num f).boundTo n = s.boundTo n := by
  simp only [State.boundTo, modGen_openCtxs, modGen_field Ctx.base (fun _ _ => rfl), modGen_field Ctx.log2 (fun _ _ => rfl)]

theorem NoRing.modGen (h : NoRing s n) {f : Gen → Gen} (path : ∀ y, (f y).path = y.path) : NoRing (s.modGen c num f) n := by
  intro d hd z hz
  rw [modGen_boundTo] at hd
  cases there : (s.ctx c).gen? num with
  | none =>
    rw [modGen_none there] at hz
    exact h d hd z hz
  | some y =>
    rw [modGen_ctx there] at hz
    split at hz
    · next same =>
      subst same
      obtain ⟨w, mem, rfl⟩ := List.mem_map.mp hz
      split
      · rw [path]
        exact h d hd y (mem_gens there)
      · exact h d hd w mem
    · exact h d hd z hz

theorem foldl_idle {α : Type} {f : State → α → State} {l : List α} (h : ∀ x ∈ l, f s x = s) : l.foldl f s = s := by
  induction l with
  | nil => rfl
  | cons x l ih =>
    rw [List.foldl_cons, h x List.mem_cons_self]
    exact ih fun z hz => h z (List.mem_cons_of_mem _ hz)

theorem pushEmpty_of_noRing (h : NoRing s n) : s.pushEmpty n = s := by
  unfold State.pushEmpty
  refine foldl_idle fun d hd => ?_
  have none : ∀ y ∈ (s.ctx d).gens, (y.path == .ring) = false := fun y hy => beq_eq_false_iff_ne.mpr (h d hd y hy)
  dsimp only
  rw [List.filter_eq_nil_iff.mpr fun y hy => by simp [none y hy]]
  rfl

/-! Intake's entry. -/

/-- The chunk that Intake's entry is for is the lowest of the uncovered ones (07 R203): the one that stands before all others. -/
theorem foldl_lowest {order : Nat → Nat} {k m : Nat} {l : List InTile} (start : m = k ∨ order k < order m)
    (least : ∀ t ∈ l, t.chunk = k ∨ order k < order t.chunk) (there : m = k ∨ ∃ t ∈ l, t.chunk = k) :
    l.foldl (fun m t => if order t.chunk < order m then t.chunk else m) m = k := by
  induction l generalizing m with
  | nil => simpa using there
  | cons t l ih =>
    rw [List.forall_mem_cons] at least
    obtain ⟨own, least⟩ := least
    rw [List.foldl_cons]
    refine ih ?start least ?there
    case start => split <;> assumption
    case there =>
      rcases there with rfl | ⟨z, mem, found⟩
      · left
        rcases own with own | own
        · rw [own, if_neg (Nat.lt_irrefl _)]
        · rw [if_neg (Nat.lt_asymm own)]
      · rcases List.mem_cons.mp mem with rfl | mem
        · left
          rcases start with rfl | start
          · rw [found, ite_self]
          · rw [found, if_pos start]
        · exact .inr ⟨z, mem, found⟩

/-- The state behind Intake's entry for the tiles that `cov` covers, of chunk `k` of generation `y`. -/
def intakePushed (s : State) (n : Nat) (t0 : InTile) (y : Gen) (k : Nat) (cov : InTile → Bool) : State :=
  ((s.setEasel n { s.easel n with stage := (s.easel n).stage.map (fun t => if cov t then { t with covered := true } else t) }).pushStart n .intake
      (s.entryOf (s.ctx t0.ctx) t0.ctx n y k ((s.easel n).stage.filter cov).length .intake)).modGen t0.ctx t0.gen
    (fun y => y.modChunk k (fun z => { z with pushed := if z.pushed.contains (n, .intake) then z.pushed else z.pushed ++ [(n, .intake)] }))

/-- Chunks in the order of their numbers, then of their positions. -/
def chunkOrder (k : Nat) : Nat := k % 2 ^ 32 * 2 ^ 32 + k / 2 ^ 32

section
variable {t0 : InTile} {y : Gen} {k : Nat} {cov : InTile → Bool}

theorem pushIntake_eq (oldest : (s.easel n).stage.find? (fun t => !t.covered) = some t0) (inFlight : (s.ctx t0.ctx).gen? t0.gen = some y)
    (good : y.failed = none) (serves : EngId.intake ∈ (s.ctx t0.ctx).engines) (room : (s.engine n .intake).startq = [])
    (hcov : cov = fun t => !t.covered && t.ctx == t0.ctx && t.gen == t0.gen && t.chunk == k) (there : ∃ t ∈ (s.easel n).stage, cov t = true)
    (least : ∀ t ∈ (s.easel n).stage, t.covered = false → t.ctx = t0.ctx → t.gen = t0.gen → t.chunk = k ∨ chunkOrder k < chunkOrder t.chunk) :
    s.pushIntake n = intakePushed s n t0 y k cov := by
  have chunk : ((s.easel n).stage.filter (fun t => !t.covered && t.ctx == t0.ctx && t.gen == t0.gen)).foldl
      (fun m t => if chunkOrder t.chunk < chunkOrder m then t.chunk else m) t0.chunk = k := by
    refine foldl_lowest ?start (fun t mem => ?least) (.inr ?there)
    case start => exact least t0 (List.mem_of_find?_eq_some oldest) (by simpa using List.find?_some oldest) rfl rfl
    case least =>
      obtain ⟨mem, mine⟩ := List.mem_filter.mp mem
      simp only [Bool.and_eq_true, Bool.not_eq_true', beq_iff_eq] at mine
      obtain ⟨⟨uncovered, ctx⟩, gen⟩ := mine
      exact least t mem uncovered ctx gen
    case there =>
      obtain ⟨t, mem, covers⟩ := there
      rw [hcov, Bool.and_eq_true, beq_iff_eq] at covers
      exact ⟨t, List.mem_filter.mpr ⟨mem, covers.1⟩, covers.2⟩
  have contains : (s.ctx t0.ctx).engines.contains .intake = true := List.contains_iff_mem.mpr serves
  unfold State.pushIntake
  unfold chunkOrder at chunk
  simp only [oldest, chunk, inFlight, good, contains, room]
  subst hcov
  rfl

variable (s n t0 y k cov)

theorem pushStart_engine (e : EngId) (q : StartEntry) :
    (s.pushStart n e q).engine n e = { s.engine n e with startq := (s.engine n e).startq ++ [q] } := by
  rw [State.pushStart, wake_engine, State.modEngine_eq, State.engine_setEngine]

theorem pushStart_engine_other {d e : EngId} (q : StartEntry) (other : d ≠ e) : (s.pushStart n e q).engine n d = s.engine n d := by
  rw [State.pushStart, wake_engine, State.modEngine_eq, engine_setEngine_other other]

theorem pushStart_stage (e : EngId) (q : StartEntry) : ((s.pushStart n e q).easel n).stage = (s.easel n).stage := by
  obtain ⟨k, eq⟩ := (woken_wake (s := s.modEngine n e (fun g => { g with startq := g.startq ++ [q] })) n).easel n
  rw [State.pushStart, eq, State.modEngine_eq, State.easel_setEngine]

theorem pushStart_coll (e : EngId) (q : StartEntry) : (s.pushStart n e q).coll = s.coll := by
  rw [State.pushStart, (woken_wake n).coll, State.modEngine_eq]
  rfl

variable {s n t0 y k cov}

/-- Intake's entry leaves what runs on the ring as it was. -/
theorem intakePushed_noRing (noRing : NoRing s n) : NoRing (intakePushed s n t0 y k cov) n := by
  unfold intakePushed
  refine NoRing.modGen (NoRing.of_coll (s := s) noRing ?coll) fun _ => rfl
  case coll =>
    rw [pushStart_coll]
    rfl

theorem intakePushed_engine : (intakePushed s n t0 y k cov).engine n .intake = { s.engine n .intake with startq := (s.engine n .intake).startq ++
    [s.entryOf (s.ctx t0.ctx) t0.ctx n y k ((s.easel n).stage.filter cov).length .intake] } := by
  rw [intakePushed, modGen_engine, pushStart_engine, State.engine, State.easel_setEasel, if_pos rfl]
  rfl

theorem intakePushed_engine_other {d : EngId} (other : d ≠ .intake) : (intakePushed s n t0 y k cov).engine n d = s.engine n d := by
  rw [intakePushed, modGen_engine, pushStart_engine_other _ _ _ other, State.engine, State.easel_setEasel, if_pos rfl]
  rfl

theorem intakePushed_stage : ((intakePushed s n t0 y k cov).easel n).stage =
    (s.easel n).stage.map (fun t => if cov t then { t with covered := true } else t) := by
  rw [intakePushed, modGen_easel, pushStart_stage, State.easel_setEasel, if_pos rfl]

end

/-- Where every tile of the stage is covered Intake is owed nothing. -/
theorem pushIntake_covered (covered : ∀ t ∈ (s.easel n).stage, t.covered = true) : s.pushIntake n = s := by
  have none : (s.easel n).stage.find? (fun t => !t.covered) = Option.none := List.find?_eq_none.mpr fun t mem => by simp [covered t mem]
  simp only [State.pushIntake, none]

/-! The entry of another engine. -/

section
variable {y : Gen} {k : Nat} {e : EngId}

/-- The state behind the entry of engine `e` for chunk `k` of generation `y`. -/
def chunkPushed (s : State) (n c : Nat) (num : Word) (y : Gen) (k : Nat) (e : EngId) : State :=
  (s.pushStart n e (s.entryOf (s.ctx c) c n y k
      (s.tilesOn (s.ctx c) (s.geo (s.ctx c)) y ((s.geo (s.ctx c)).node (k / 2 ^ 32)) (k % 2 ^ 32) n).length e)).modGen c num
    (fun y => y.modChunk k (fun z => { z with pushed := z.pushed ++ [(n, e)] }))

theorem pushChunk_eq (inFlight : (s.ctx c).gen? num = some y) (good : y.failed = none) (due : (n, e) ∉ (y.chunk k).pushed)
    (room : (s.engine n e).startq.length < 16) : s.pushChunk n c num k e = chunkPushed s n c num y k e := by
  have unpushed : (y.chunk k).pushed.contains (n, e) = false := by simpa using due
  have free : s.startRoom n e = true := decide_eq_true room
  unfold State.pushChunk
  simp only [inFlight, good, unpushed, free]
  rfl

theorem chunkPushed_noRing (noRing : NoRing s n) : NoRing (chunkPushed s n c num y k e) n := by
  unfold chunkPushed
  exact NoRing.modGen (noRing.of_coll (pushStart_coll ..)) fun _ => rfl

theorem chunkPushed_engine : (chunkPushed s n c num y k e).engine n e = { s.engine n e with startq := (s.engine n e).startq ++
    [s.entryOf (s.ctx c) c n y k
      (s.tilesOn (s.ctx c) (s.geo (s.ctx c)) y ((s.geo (s.ctx c)).node (k / 2 ^ 32)) (k % 2 ^ 32) n).length e] } := by
  rw [chunkPushed, modGen_engine, pushStart_engine]

theorem chunkPushed_engine_other {d : EngId} (other : d ≠ e) : (chunkPushed s n c num y k e).engine n d = s.engine n d := by
  rw [chunkPushed, modGen_engine, pushStart_engine_other _ _ _ other]

theorem chunkPushed_stage : ((chunkPushed s n c num y k e).easel n).stage = (s.easel n).stage := by
  rw [chunkPushed, modGen_easel, pushStart_stage]

end

/-! The command. -/

/-- Entries are pushed in this cycle (04 R124, R127, R132; 16 R439). -/
def pushTakes (s : State) (n : Nat) : Bool := (s.easel n).power == .awake && (s.easel n).stopAt.isNone && s.pushCycle

/-- The state behind the entries that the engines other than Intake are owed. -/
def owedPushed (s : State) (n : Nat) : State :=
  (s.owedChunks n).foldl (fun s k => ((s.ctx k.2.1).engines.filter (· != .intake)).foldl (fun s e => s.pushChunk n k.2.1 k.2.2.1 k.2.2.2 e) s) s

theorem execStartEntryPush_eq : execStartEntryPush n s = onEasel s n (pushTakes s n) (((owedPushed s n).pushIntake n).pushEmpty n) := rfl

theorem execStartEntryPush_frame (easel : s.isEasel n = true) : ∃ u, execStartEntryPush n s = .next u ∧ u.mem = s.mem ∧ u.clock = s.clock ∧
    u.dev = s.dev ∧ u.fab = s.fab ∧ u.formats = s.formats := by
  have keeps : OutKeeps true true true false false true true true true true true true true s (execStartEntryPush n s) :=
    keeps_execStartEntryPush n (.refl s)
  have answers : ∃ u, execStartEntryPush n s = .next u := by
    rw [execStartEntryPush_eq, onEasel, onUnit_present easel]
    exact ⟨_, rfl⟩
  obtain ⟨u, pushed⟩ := answers
  have kept := keeps _ pushed
  obtain ⟨formats, -⟩ := kept.tables rfl
  exact ⟨u, pushed, kept.mem rfl, kept.clock rfl, kept.dev rfl, kept.fab rfl, formats⟩

/-- Settles O16: the tile that enters the stage, and the entry that is pushed. -/
theorem stageAndStartEntries : Obligations.StageAndStartEntries := by
  intro s n easel awake noRing
  dsimp only [exec]
  have working (h : awake) : s.computing = true ∧ (s.easel n).power = .awake ∧ (s.easel n).stopAt = none := h
  have resting (c : Bool) (h : ¬awake) : (s.computing && ((s.easel n).power == .awake && (s.easel n).stopAt.isNone && c)) = false := by
    cases c
    · simp
    · simpa [awake, Option.ne_none_iff_isSome] using h
  refine ⟨execIngressStagePlace_frame easel, execStartEntryPush_frame easel, fun l1 t l2 h waiting skip enters room canon => ?enters, fun idle => ?none,
    fun idle => ?rests, fun t0 c y k cov h cycle owed ring oldest ctx inFlight good serves free covers there least => ?intake,
    fun at' c g k e y h cycle owed ring covered inFlight good serves due room => ?other⟩
  case enters =>
    obtain ⟨works, power, stop⟩ := working h
    have placed : execIngressStagePlace n s = .next (stagePlaced s n t (l1 ++ l2)) := by
      rw [execIngressStagePlace_some (by rw [waiting]; exact pick_append skip enters)]
      exact onEasel_acts easel works (by simp [stageTakes, power, stop, room])
    obtain ⟨u, same, mem, -, -, -, engine, others⟩ := execIngressStagePlace_frame easel
    cases placed.symm.trans same
    have placedHere : (stagePlaced s n t (l1 ++ l2)).easel n = { s.easel n with waiting := l1 ++ l2, stage := (s.easel n).stage ++ [t] } := by
      rw [stagePlaced_easel, if_pos rfl]
    exact ⟨_, placed, by rw [placedHere], by rw [placedHere], engine, stagePlaced_ejected canon, mem, others⟩
  case none =>
    refine execIngressStagePlace_idle easel (idle.imp_right fun full => ?_)
    rcases full with full | sleeps
    · simp [stageTakes, Nat.not_lt.mpr full]
    · exact resting _ sleeps
  case rests =>
    rw [execStartEntryPush_eq, onEasel, onUnit_present easel]
    refine when'_false ?_
    rcases idle with slow | sleeps
    · simp [pushTakes, slow]
    · exact resting _ sleeps
  case intake =>
    obtain ⟨works, power, stop⟩ := working h
    subst ctx
    have pushed : ((owedPushed s n).pushIntake n).pushEmpty n = intakePushed s n t0 y k cov := by
      rw [owedPushed, owed, List.foldl_nil, pushIntake_eq oldest inFlight good serves free covers there least]
      exact pushEmpty_of_noRing (intakePushed_noRing ring)
    have done : execStartEntryPush n s = .next (intakePushed s n t0 y k cov) := by
      rw [execStartEntryPush_eq, pushed]
      exact onEasel_acts easel works (by simp [pushTakes, power, stop, cycle])
    refine ⟨_, s.entryOf (s.ctx t0.ctx) t0.ctx n y k ((s.easel n).stage.filter cov).length .intake, done, ?queue, rfl, rfl, gen?_num inFlight, rfl, rfl,
      rfl, rfl, intakePushed_stage, fun _ => intakePushed_engine_other⟩
    rw [intakePushed_engine, free]
    rfl
  case other =>
    obtain ⟨works, power, stop⟩ := working h
    have pushed : ((owedPushed s n).pushIntake n).pushEmpty n = chunkPushed s n c g y k e := by
      rw [owedPushed, owed, List.foldl_cons, List.foldl_nil, serves, List.foldl_cons, List.foldl_nil, pushChunk_eq inFlight good due room,
        pushIntake_covered (by rwa [chunkPushed_stage])]
      exact pushEmpty_of_noRing (chunkPushed_noRing ring)
    have done : execStartEntryPush n s = .next (chunkPushed s n c g y k e) := by
      rw [execStartEntryPush_eq, pushed]
      exact onEasel_acts easel works (by simp [pushTakes, power, stop, cycle])
    exact ⟨_, _, done, congrArg Engine.startq chunkPushed_engine, rfl, rfl, rfl, rfl, rfl, rfl, rfl, fun _ => chunkPushed_engine_other, chunkPushed_stage⟩

end Sys2Proof.Proofs
end

section
/-!
The host's commands at their effect points (14 R396-R398): what a command that none of its conditions refuses answers, and what its completion
leaves as it was.
-/

namespace Sys2Proof.Proofs

open Sys2Proof Sys2Proof.Machine Sys2Proof.Claims

variable {s u : State} {f o : Nat} {t : Taken} {rest : List Taken}

theorem minOf_eq_none {l : List Nat} : minOf l = none ↔ l = [] := by
  cases l with
  | nil => simp [minOf]
  | cons a l =>
    rw [minOf]
    split <;> simp

/-- No status is due exactly where no condition is met. -/
theorem lowest_eq_none {l : List (Bool × Nat)} : lowest l = none ↔ ∀ c ∈ l, c.1 = false := by
  simp [lowest, minOf_eq_none]

theorem checked_none {l : List (Bool × Nat)} {go : CmdEnd} (none : lowest l = Option.none) : checked l go = go := by
  simp [checked, none]

/-- The rows that hold for every command refuse none that is accepted. -/
theorem common_of_accepted (h : Accepted s f o t rest) (known : o ≤ 0x14) : ∀ c ∈ s.common f t, c.1 = false := by
  obtain ⟨⟨-, -, -, rfl, -⟩, runs, read, own⟩ := h
  have pf0 : (f != 0 && [0x0F, 0x11, 0x12, 0x14].contains t.opc) = false := by
    simpa [Taken.opc, imp_iff_not_or, or_comm] using own
  simp only [State.common, runs, read, pf0, List.forall_mem_cons]
  simpa [Taken.opc] using known

theorem common_took : (took s f rest).common f t = s.common f t := rfl

/-- A command that has an effect completes with status OK. -/
theorem runCmd_done {isOp : Nat → Bool} {k : Taken → State → CmdEnd} {p : Bytes} (h : AtEffect s f o t rest) (mine : isOp o = true)
    (effect : k t (took s f rest) = .done u p) : runCmd s f isOp k = .next (ended u f t stOk p) := by
  obtain ⟨hf, works, taken, rfl, ready, loud, turn, idle⟩ := h
  have happens : (s.hostWorks && isOp t.opc && t.ready && s.turnOf f t && !s.norBusy f) = true := by
    simp [works, Taken.opc, mine, ready, turn, idle]
  unfold took at effect
  unfold runCmd
  rw [onUnit_present (decide_eq_true hf)]
  simp only [taken, when'_true happens, effect, loud]
  rfl

section
variable (st : Nat) (p : Bytes)

theorem ended_keeps : Keeps true true true true true true true true false true true true true s (ended s f t st p) :=
  keeps_State_finish _ _ _ _ _ _ _ (.refl s)

theorem ended_coll : (ended s f t st p).coll = s.coll := (ended_keeps st p).coll rfl

theorem ended_easel (k : Nat) : (ended s f t st p).easel k = s.easel k := by
  rw [State.easel, (ended_keeps st p).easels rfl]
  rfl

end

/-! The Easels of a range are woken. -/

theorem woken_wakeRange (base n : Nat) : Woken s (s.wakeRange base n) := by
  refine woken_foldl (fun s i => ?_) _
  split
  · exact woken_wake _
  · exact .refl

theorem ended_wakeRange_coll (base n st : Nat) (p : Bytes) : (ended (s.wakeRange base n) f t st p).coll = s.coll := by
  rw [ended_coll, (woken_wakeRange base n).coll]

/-- What is done to each of a list of Easels leaves every other as it was. -/
theorem foldl_easel_other {α : Type} {g : State → α → State} {k : Nat} {l : List α} (h : ∀ s, ∀ x ∈ l, (g s x).easel k = s.easel k) :
    (l.foldl g s).easel k = s.easel k := by
  induction l generalizing s with
  | nil => rfl
  | cons x l ih =>
    rw [List.foldl_cons, ih fun s y mem => h s y (List.mem_cons_of_mem _ mem)]
    exact h s x List.mem_cons_self

theorem modEasel_easel_other {g : Easel → Easel} {n k : Nat} (other : k ≠ n) : (s.modEasel n g).easel k = s.easel k := by
  rw [State.modEasel, State.easel_setEasel, if_neg other]

theorem wakeRange_easel_other {base n k : Nat} (other : k < base ∨ base + n ≤ k) : (s.wakeRange base n).easel k = s.easel k := by
  refine foldl_easel_other fun s i mem => ?_
  have := List.mem_range.mp mem
  split
  · exact modEasel_easel_other (by omega)
  · rfl

end Sys2Proof.Proofs
end

section
/-!
LOAD, GROUP, START and ASSIGN (05 R161, R162; 01 R21-R24; 14 R384, R448; 04 R124, R133; 16 R439).
-/

namespace Sys2Proof.Proofs

open Sys2Proof Sys2Proof.Machine Sys2Proof.Claims

variable {s : State} {f base log2 : Nat} {t : Taken} {rest : List Taken}

/-! GROUP. -/

theorem find?_insertBy {α : Type} {key : α → Nat} {p : α → Bool} {x : α} {l : List α} (others : ∀ y ∈ l, p y = false) (own : p x = true) :
    (insertBy key x l).find? p = some x := by
  induction l with
  | nil => simp [insertBy, own]
  | cons y l ih =>
    rw [List.forall_mem_cons] at others
    rw [insertBy]
    split
    · simp [own]
    · simp [others.1, ih others.2]

/-- The groups behind a GROUP command (01 R24; 14 R448). -/
def regrouped (s : State) (base log2 nest : Nat) : List Group :=
  if log2 = 0 then s.coll.groups.filter (fun g => g.base != base)
  else insertBy (·.base) { base, log2, nest := if nest = 0 then [log2] else nestOf nest } (s.coll.groups.filter (fun g => g.base != base))

/-- A group that passes its checks meets no group of another base. -/
theorem groupChecks_same {nest : Nat} (ok : lowest (s.groupChecks f base log2 nest) = none) (many : log2 ≠ 0) :
    ∀ g ∈ s.coll.groups, meets (g.base, 2 ^ g.log2) (base, 2 ^ log2) = true → g.base = base := by
  rw [lowest_eq_none] at ok
  simp only [State.groupChecks, many, if_false, List.forall_mem_cons] at ok
  obtain ⟨-, -, fields, -⟩ := ok
  simp only [Bool.or_eq_false_iff, Bool.and_eq_false_imp, Bool.not_eq_false', List.all_eq_true, List.mem_filter, Bool.and_eq_true, beq_iff_eq] at fields
  obtain ⟨-, range⟩ := fields
  obtain ⟨-, same⟩ := range (by simpa using many)
  exact fun g mem meet => (same g ⟨mem, meet⟩).1

/-- So it is the one that holds its Easels. -/
theorem find?_regrouped {nest : Nat} (ok : lowest (s.groupChecks f base log2 nest) = none) (many : log2 ≠ 0) :
    (regrouped s base log2 nest).find? (fun g => decide (g.base ≤ base) && decide (base < g.base + 2 ^ g.log2)) =
      some { base, log2, nest := if nest = 0 then [log2] else nestOf nest } := by
  rw [regrouped, if_neg many]
  refine find?_insertBy (fun g mem => ?_) (by simp)
  obtain ⟨mem, other⟩ := List.mem_filter.mp mem
  have apart := mt (groupChecks_same ok many g mem) (by simpa using other)
  have := Nat.two_pow_pos log2
  simp [meets] at apart ⊢
  omega

/-! ASSIGN. -/

/-- The owner of the listed Easels is function `g` (14 R384). -/
def assigned (s : State) (l : List Nat) (g : Nat) : State := l.foldl (fun s k => s.modEasel k (fun x => { x with owner := g })) s

theorem assigned_owner_keeps {l : List Nat} {g k : Nat} (own : (s.easel k).owner = g) : ((assigned s l g).easel k).owner = g := by
  induction l generalizing s with
  | nil => exact own
  | cons n l ih =>
    refine ih ?_
    by_cases same : k = n
    · rw [same, easel_modEasel_same]
    · rw [modEasel_easel_other same, own]

theorem assigned_owner {l : List Nat} {g k : Nat} (mem : k ∈ l) : ((assigned s l g).easel k).owner = g := by
  induction l generalizing s with
  | nil => simp at mem
  | cons n l ih =>
    rcases List.mem_cons.mp mem with rfl | later
    · exact assigned_owner_keeps (l := l) (by rw [easel_modEasel_same])
    · exact ih later

theorem assigned_easel_other {l : List Nat} {g k : Nat} (other : k ∉ l) : (assigned s l g).easel k = s.easel k :=
  foldl_easel_other fun _ _ mem => modEasel_easel_other (fun same => other (same ▸ mem))

theorem mem_range_add {n k : Nat} : k ∈ (List.range n).map (base + ·) ↔ base ≤ k ∧ k < base + n := by
  simp only [List.mem_map, List.mem_range]
  exact ⟨by rintro ⟨i, less, rfl⟩; omega, fun h => ⟨k - base, by omega, by omega⟩⟩

/-! What each command answers. -/

section
variable (hbase : base = leAt t.bytes 4 1) (hlog2 : log2 = leAt t.bytes 5 1 % 16)
include hbase hlog2

theorem execCmdLoad_done {img : Bytes} (h : Accepted s f 6 t rest) (aligned : leAt t.bytes 16 8 % 64 = 0) (least : 64 ≤ leAt t.bytes 8 4)
    (most : leAt t.bytes 8 4 ≤ 1048576) (got : t.got = some (some img)) (there : base + 2 ^ log2 ≤ s.easelCount)
    (own : s.foreignEasel f base (2 ^ log2) = false) (sound : lowest ((took s f rest).loadChecks img base log2) = none) :
    execCmdLoad f s = .next (ended (((took s f rest).loadImage img base log2).wakeRange base (2 ^ log2)) f t stOk (sha256 img)) := by
  subst hbase hlog2
  have data : t.data = some img := by simp [Taken.data, got]
  refine runCmd_done h.1 rfl ?_
  simp only [data]
  refine checked_none (lowest_eq_none.mpr ?_)
  rw [List.forall_mem_append, List.forall_mem_append, common_took]
  refine ⟨⟨common_of_accepted h (by decide), ?operands⟩, lowest_eq_none.mp sound⟩
  simp only [List.forall_mem_cons, Taken.haddr, aligned]
  refine ⟨?_, ?_, own, by simp⟩
  · simp; omega
  · exact decide_eq_false (Nat.not_lt.mpr there)

theorem execGroup_done (h : Accepted s f 7 t rest) (ok : lowest ((took s f rest).groupChecks f base log2 (leAt t.bytes 8 4)) = none) :
    execGroup f s = .next (ended (State.wakeRange { took s f rest with coll := { s.coll with
      groups := regrouped s base log2 (leAt t.bytes 8 4) } } base (2 ^ log2)) f t stOk []) := by
  subst hbase hlog2
  refine runCmd_done h.1 rfl (checked_none (lowest_eq_none.mpr ?_))
  rw [List.forall_mem_append, common_took]
  exact ⟨common_of_accepted h (by decide), lowest_eq_none.mp ok⟩

end

theorem execStart_waits (h : Accepted s f 8 t rest) (waits : s.startWaits f t = true) : execStart f s = .next s := by
  obtain ⟨⟨-, -, taken, -⟩, -⟩ := h
  simp [execStart, taken, waits, same]

section
variable (hbase : base = leAt t.bytes 4 1)
include hbase

theorem execAssign_done {n g : Nat} (h : Accepted s f 0x12 t rest) (hn : n = leAt t.bytes 5 2) (hg : g = leAt t.bytes 7 1 % 4) (least : 1 ≤ n)
    (most : n ≤ 256) (works : s.enabled g = true) (there : base + n ≤ s.easelCount)
    (free : ∀ k, base ≤ k → k < base + n → s.groupOf k = none ∧ s.boundTo k = []) :
    execAssign f s = .next (ended ((assigned (took s f rest) ((List.range n).map (base + ·)) g).wakeRange base n) f t stOk []) := by
  subst hbase hg
  have all : min n 256 = n := Nat.min_eq_left most
  refine runCmd_done h.1 rfl ?_
  simp only [← hn, all]
  refine checked_none (lowest_eq_none.mpr ?_)
  rw [List.forall_mem_append, common_took]
  refine ⟨common_of_accepted h (by decide), ?_⟩
  simp only [List.forall_mem_cons]
  refine ⟨?fields, decide_eq_false (Nat.not_lt.mpr there), ?range, by simp⟩
  case fields =>
    change (n == 0 || decide (256 < n) || !s.enabled _) = false
    simp [works]
    omega
  case range =>
    rw [List.any_eq_false]
    intro k mem
    obtain ⟨low, high⟩ := mem_range_add.mp mem
    obtain ⟨single, unbound⟩ := free k low high
    change ¬((s.groupOf k).isSome || !(s.boundTo k).isEmpty) = true
    simp [single, unbound]

variable {e : EngId} {j : Nat}

/-- What a START needs of the Easel and of the engine that it names (14 R398). -/
theorem startChecks_none (h : Accepted s f 8 t rest) (there : s.isEasel base = true) (own : (s.easel base).owner = f) (unbound : s.boundTo base = [])
    (engine : EngId.ofId? (leAt t.bytes 5 1 % 8) = some e) (has : s.hasEngine e = true) (idle : (s.engine base e).st = .idle)
    (runs : (s.easel base).stopAt = none) (hj : j = leAt t.bytes 6 1 % 16) (valid : ((s.engine base e).studyAt j).valid = true) :
    lowest (s.startChecks f t) = none := by
  subst hbase hj
  rw [lowest_eq_none]
  simp only [State.startChecks, engine, List.forall_mem_append]
  exact ⟨⟨common_of_accepted h (by decide), by simp [there, own, unbound]⟩, by simp [has, idle, runs, valid]⟩

theorem startWaits_eq (h : Accepted s f 8 t rest) (engine : EngId.ofId? (leAt t.bytes 5 1 % 8) = some e) (ok : lowest (s.startChecks f t) = none) :
    s.startWaits f t = !(s.pushCycle && decide ((s.engine base e).startq.length < 16)) := by
  subst hbase
  obtain ⟨⟨-, -, -, opc, -⟩, -⟩ := h
  simp [State.startWaits, State.startRoom, Taken.opc, opc, ok, engine]

theorem execStart_done (h : Accepted s f 8 t rest) (engine : EngId.ofId? (leAt t.bytes 5 1 % 8) = some e) (ok : lowest (s.startChecks f t) = none)
    (goes : s.startWaits f t = false) : execStart f s = .next (ended ((took s f rest).pushStart base e
      { study := leAt t.bytes 6 1 % 16, ctx := 0, gen := 0, chunk := BitVec.ofNat 32 (leAt t.bytes 8 4), a0 := BitVec.ofNat 32 (leAt t.bytes 12 4),
        a1 := BitVec.ofNat 32 (leAt t.bytes 16 4), a2 := BitVec.ofNat 32 (leAt t.bytes 20 4), a3 := BitVec.ofNat 32 (leAt t.bytes 24 4),
        arrived := s.now, test := true }) f t stOk []) := by
  subst hbase
  obtain ⟨⟨-, -, taken, -⟩, -⟩ := id h
  have front : ((s.func f).taken.take 1).any (s.startWaits f) = false := by simp [taken, goes]
  rw [execStart, if_neg (by simp [front])]
  refine runCmd_done h.1 rfl ?_
  simp only [engine]
  exact checked_none ok

end

/-- Settles O25: none of its conditions refuses the command, and it completes with its effect. -/
theorem easelCommands : Obligations.EaselCommands := by
  intro s f t rest base log2 hbase hlog2
  dsimp only [exec]
  refine ⟨fun img h aligned least most got there own sound => ?load, fun h ok => ?group,
    fun e j h there own unbound engine has idle runs hj valid => ?start, fun n g h hn hg least most works there free => ?assign⟩
  case load => exact execCmdLoad_done hbase hlog2 h aligned least most got there own sound
  case group =>
    have done := execGroup_done hbase hlog2 h ok
    have keeps : OutKeeps true true true false false true true true false true true true true s (execGroup f s) := keeps_execGroup f (.refl s)
    have kept := keeps _ done
    refine ⟨_, done, kept.mem rfl, kept.fab rfl, fun single => ?single, fun many => ?many⟩
    case single =>
      rw [ended_wakeRange_coll]
      exact if_pos single
    case many =>
      rw [State.groupOf, ended_wakeRange_coll]
      exact find?_regrouped ok many
  case start =>
    have ok := startChecks_none hbase h there own unbound engine has idle runs hj valid
    refine ⟨fun full => execStart_waits h ?_, fun cycle room => ?_⟩
    · rw [startWaits_eq hbase h engine ok]
      simpa [imp_iff_not_or] using full
    · subst hj
      exact execStart_done hbase h engine ok (by simp [startWaits_eq hbase h engine ok, cycle, room])
  case assign =>
    have done := execAssign_done hbase h hn hg least most works there free
    have keeps : OutKeeps true true true false true true true true false true true true true s (execAssign f s) := keeps_execAssign f (.refl s)
    refine ⟨_, done, fun k low high => ?owner, fun k out => ?others, (keeps _ done).mem rfl⟩
    case owner =>
      obtain ⟨w, woken⟩ := (woken_wakeRange (s := assigned (took s f rest) ((List.range n).map (base + ·)) g) base n).easel k
      rw [ended_easel, woken]
      exact assigned_owner (mem_range_add.mpr ⟨low, high⟩)
    case others =>
      rw [ended_easel, wakeRange_easel_other out, assigned_easel_other (fun mem => by have := mem_range_add.mp mem; omega)]
      rfl

end Sys2Proof.Proofs
end

section
/-!
The host's commands at their effect points, where a condition refuses them (14 R398): the lowest status among the conditions met (00 R13).
-/

namespace Sys2Proof.Proofs

open Sys2Proof Sys2Proof.Machine Sys2Proof.Claims

variable {s : State} {f o st : Nat} {t : Taken} {rest : List Taken}

theorem minOf_eq_min? (l : List Nat) : minOf l = l.min? := by
  induction l with
  | nil => rfl
  | cons a l ih =>
    rw [minOf, ih, List.min?_cons]
    cases l.min? <;> rfl

/-- The status due is the least among those of the conditions met (00 R13). -/
theorem lowest_eq_some {l : List (Bool × Nat)} (met : (true, st) ∈ l) (least : ∀ c ∈ l, c.1 = true → st ≤ c.2) : lowest l = some st := by
  rw [lowest, minOf_eq_min?, List.min?_eq_some_iff]
  refine ⟨List.mem_map.mpr ⟨_, List.mem_filter.mpr ⟨met, rfl⟩, rfl⟩, fun a due => ?_⟩
  obtain ⟨c, kept, rfl⟩ := List.mem_map.mp due
  obtain ⟨mem, holds⟩ := List.mem_filter.mp kept
  exact least c mem holds

theorem checked_some {l : List (Bool × Nat)} {go : CmdEnd} (due : lowest l = some st) : checked l go = .fail st := by
  simp [checked, due]

@[simp] theorem took_ctx (c : Nat) : (took s f rest).ctx c = s.ctx c := rfl

/-- Of an accepted command only its own conditions count. -/
theorem lowest_common (h : Accepted s f o t rest) (known : o ≤ 0x14) (l : List (Bool × Nat)) :
    lowest ((took s f rest).common f t ++ l) = lowest l := by
  have none : (s.common f t).filter (·.1) = [] := by simpa using common_of_accepted h known
  rw [common_took, lowest, List.filter_append, none, List.nil_append, ← lowest]

/-- A command that is refused completes with its status, and has no other effect. -/
theorem runCmd_fail {isOp : Nat → Bool} {k : Taken → State → CmdEnd} (h : AtEffect s f o t rest) (mine : isOp o = true)
    (refused : k t (took s f rest) = .fail st) : runCmd s f isOp k = .next (ended (took s f rest) f t st []) := by
  obtain ⟨hf, works, taken, rfl, ready, loud, turn, idle⟩ := h
  have happens : (s.hostWorks && isOp t.opc && t.ready && s.turnOf f t && !s.norBusy f) = true := by
    simp [works, Taken.opc, mine, ready, turn, idle]
  unfold took at refused
  unfold runCmd
  rw [onUnit_present (decide_eq_true hf)]
  simp only [taken, when'_true happens, refused, loud]
  rfl

end Sys2Proof.Proofs
end

section
/-!
ROSTER and COMMIT (07 R189, R193): the entries that a ROSTER command writes, and what both commands answer.
-/

namespace Sys2Proof.Proofs

open Sys2Proof Sys2Proof.Machine Sys2Proof.Claims

variable {s : State} {f n : Nat} {t : Taken} {rest : List Taken}

theorem leAt_drop (d : Bytes) (k off len : Nat) : leAt (d.drop k) off len = leAt d (k + off) len := by
  simp [leAt, slice, List.drop_drop]

/-! The entries. -/

section
variable (b : Fabric) (x : Ctx) (r n : Nat) (d : Bytes)

/-- A ROSTER command changes the roster and the list of the ranks written. -/
theorem writeRoster_eq : ∃ roster written, writeRoster b x r n d = { x with roster, written } := by
  induction n generalizing x r d with
  | zero => exact ⟨_, _, rfl⟩
  | succ n ih =>
    obtain ⟨roster, written, eq⟩ := ih { x with roster := _, written := _ } (r + 1) (d.drop 8)
    exact ⟨roster, written, eq⟩

theorem writeRoster_rank_other {q : Nat} (other : q < r ∨ r + n ≤ q) : (writeRoster b x r n d).rank q = x.rank q := by
  induction n generalizing x r d with
  | zero => rfl
  | succ n ih =>
    rw [writeRoster, ih _ _ _ (by omega)]
    simp only [Ctx.rank, tget_tput]
    rw [if_neg (by omega)]

theorem writeRoster_written {q : Nat} (before : q ∈ x.written) : q ∈ (writeRoster b x r n d).written := by
  induction n generalizing x r d with
  | zero => exact before
  | succ n ih =>
    refine ih _ _ _ ?_
    dsimp only
    split
    · exact before
    · exact List.mem_append_left _ before

/-- The rank written first is read back as its 8 bytes give it (07 R189). -/
theorem writeRoster_first : ((writeRoster b x r (n + 1) d).rank r).endpoint = leAt d 0 3 ∧
    ((writeRoster b x r (n + 1) d).rank r).epoch = leAt d 4 4 ∧ r ∈ (writeRoster b x r (n + 1) d).written := by
  rw [writeRoster, writeRoster_rank_other _ _ _ _ _ (.inl (Nat.lt_succ_self r))]
  refine ⟨by simp [Ctx.rank], by simp [Ctx.rank], writeRoster_written _ _ _ _ _ ?_⟩
  dsimp only
  split
  · next before => exact List.contains_iff_mem.mp before
  · exact List.mem_append_right _ List.mem_cons_self

theorem writeRoster_rank {i : Nat} (less : i < n) : ((writeRoster b x r n d).rank (r + i)).endpoint = leAt d (8 * i) 3 ∧
    ((writeRoster b x r n d).rank (r + i)).epoch = leAt d (8 * i + 4) 4 ∧ r + i ∈ (writeRoster b x r n d).written := by
  induction i generalizing x r n d with
  | zero =>
    obtain ⟨n, rfl⟩ := Nat.exists_eq_succ_of_ne_zero (Nat.ne_of_gt less)
    exact writeRoster_first b x r n d
  | succ i ih =>
    obtain ⟨n, rfl⟩ := Nat.exists_eq_succ_of_ne_zero (Nat.ne_of_gt (Nat.zero_lt_of_lt less))
    rw [writeRoster, Nat.add_comm i, ← Nat.add_assoc r, Nat.mul_add, Nat.add_assoc (8 * 1), ← leAt_drop, ← leAt_drop]
    exact ih _ _ _ _ (Nat.lt_of_succ_lt_succ less)

end

/-! What the commands answer. -/

theorem loading_state {x : Ctx} (own : x.owner = f) (loading : x.st = .loading) (kept : x.replay = false) :
    (foreign x f || x.st != .loading || x.replay) = false := by
  simp [foreign, own, loading, kept]

theorem roster_fields (aligned : leAt t.bytes 16 8 % 64 = 0) (least : 1 ≤ n) (most : n ≤ 2 ^ 20) :
    (t.haddr 16 % 64 != 0 || n == 0 || decide (2 ^ 20 < n)) = false := by
  simp [Taken.haddr, aligned]
  omega

section
variable (own : (s.ctx t.ctx).owner = f) (loading : (s.ctx t.ctx).st = .loading) (kept : (s.ctx t.ctx).replay = false)
include own loading kept

section
variable (h : Accepted s f 2 t rest) (aligned : leAt t.bytes 16 8 % 64 = 0) (least : 1 ≤ leAt t.bytes 8 4) (most : leAt t.bytes 8 4 ≤ 2 ^ 20)
include h aligned least most

theorem execRoster_done {d : Bytes} (fits : leAt t.bytes 4 4 % 2 ^ 20 + leAt t.bytes 8 4 ≤ (s.ctx t.ctx).rosterN) (got : t.got = some (some d)) :
    execRoster f s = .next (ended ((took s f rest).setCtx t.ctx
      (writeRoster s.fab (s.ctx t.ctx) (leAt t.bytes 4 4 % 2 ^ 20) (leAt t.bytes 8 4) d)) f t stOk []) := by
  have data : t.data = some d := by simp [Taken.data, got]
  refine runCmd_done h.1 rfl ?_
  simp only [data]
  refine checked_none ((lowest_common h (by decide) _).trans (lowest_eq_none.mpr ?_))
  simp only [List.forall_mem_cons]
  refine ⟨roster_fields aligned least most, loading_state own loading kept, ?room, by simp⟩
  rw [took_ctx, decide_eq_false (Nat.not_lt.mpr fits), Bool.and_false]

theorem execRoster_beyond (beyond : (s.ctx t.ctx).rosterN < leAt t.bytes 4 4 % 2 ^ 20 + leAt t.bytes 8 4) :
    execRoster f s = .next (ended (took s f rest) f t stBadField []) := by
  refine runCmd_fail h.1 rfl (checked_some ((lowest_common h (by decide) _).trans ?_))
  rw [decide_eq_true (show ((took s f rest).ctx t.ctx).rosterN < _ from beyond), took_ctx, roster_fields aligned least most,
    loading_state own loading kept, loading]
  rfl

end

theorem execCommit_done (h : Accepted s f 3 t rest) (sound : (took s f rest).commitBad (s.ctx t.ctx) = false) :
    execCommit f s = .next (ended (((took s f rest).setCtx t.ctx ((took s f rest).ready (s.ctx t.ctx))).sendChecks t.ctx) f t stOk
      ((took s f rest).ready (s.ctx t.ctx)).rosterDigest) := by
  refine runCmd_done h.1 rfl (checked_none ((lowest_common h (by decide) _).trans (lowest_eq_none.mpr ?_)))
  simp only [List.forall_mem_cons]
  exact ⟨loading_state own loading kept, Bool.and_eq_false_imp.mpr fun _ => sound, by simp⟩

theorem execCommit_bad (h : Accepted s f 3 t rest) (bad : (took s f rest).commitBad (s.ctx t.ctx) = true) :
    execCommit f s = .next (ended (took s f rest) f t stBadField []) := by
  refine runCmd_fail h.1 rfl (checked_some ((lowest_common h (by decide) _).trans ?_))
  rw [took_ctx, loading_state own loading kept, loading, bad]
  rfl

end

/-- Settles O24: a ROSTER command writes its entries where the roster has room, and a COMMIT checks the whole and latches it. -/
theorem rosterAndCommit : Obligations.RosterAndCommit := by
  rintro s f t rest c first n rfl own loading kept rfl rfl
  refine ⟨fun d h aligned least most fits got => ?roster, fun h aligned least most beyond => ?beyond, fun h sound => ?commit, fun h bad => ?bad⟩
  case roster =>
    obtain ⟨roster, written, eq⟩ := writeRoster_eq s.fab (s.ctx t.ctx) (leAt t.bytes 4 4 % 2 ^ 20) (leAt t.bytes 8 4) d
    refine ⟨_, execRoster_done own loading kept h aligned least most fits got, ?_, ?_, fun i less => writeRoster_rank _ _ _ _ _ less,
      fun r other => writeRoster_rank_other _ _ _ _ _ other⟩
    · rw [eq]
      exact loading
    · rw [eq]
      rfl
  case beyond => exact execRoster_beyond own loading kept h aligned least most beyond
  case commit => exact ⟨execCommit_done own loading kept h sound, rfl, rfl⟩
  case bad => exact execCommit_bad own loading kept h bad

end Sys2Proof.Proofs
end

section
/-!
GEN_TIMEOUT, CHUNK_RETIRE and GENERATION_RETIRE (07 R201, R205, R212): what a report of a failure leaves of the context, and how a
generation retires.
-/

namespace Sys2Proof.Proofs

open Sys2Proof Sys2Proof.Machine Sys2Proof.Claims

variable {s t u : State} {c : Nat} {num : Word} {y : Gen}

/-- What is told of generation `num` of context `c` leaves the context's state and every other generation of it. -/
structure Told (c : Nat) (num : Word) (s t : State) : Prop where
  st : (t.ctx c).st = (s.ctx c).st
  others : (t.ctx c).gens.filter (fun z => z.num != num) = (s.ctx c).gens.filter (fun z => z.num != num)

theorem Told.refl : Told c num s s := ⟨rfl, rfl⟩

theorem Told.trans (h : Told c num s t) (k : Told c num t u) : Told c num s u := ⟨k.st.trans h.st, k.others.trans h.others⟩

theorem told_of_ctx (h : t.ctx c = s.ctx c) : Told c num s t := by
  constructor <;> rw [h]

theorem told_of_coll (h : t.coll = s.coll) : Told c num s t := told_of_ctx (by rw [State.ctx, h, State.ctx])

theorem told_foldl {α : Type} {f : State → α → State} (h : ∀ s x, Told c num s (f s x)) (l : List α) : Told c num s (l.foldl f s) := by
  induction l generalizing s with
  | nil => exact .refl
  | cons x l ih => exact (h s x).trans ih

/-- What replaces a generation is among those of its number. -/
theorem setGen_others (x : Ctx) : (x.setGen y).gens.filter (fun z => z.num != y.num) = x.gens.filter (fun z => z.num != y.num) := by
  unfold Ctx.setGen
  dsimp only
  induction x.gens with
  | nil => rfl
  | cons z l ih =>
    rw [List.map_cons, List.filter_cons, List.filter_cons, ih]
    by_cases same : z.num = y.num
    · simp [same]
    · simp [same]

theorem told_modGen {f : Gen → Gen} (keeps : ∀ y, (f y).num = y.num) : Told c num s (s.modGen c num f) := by
  cases h : (s.ctx c).gen? num with
  | none => rw [modGen_none h]; exact .refl
  | some y =>
    have others := setGen_others (y := f y) (s.ctx c)
    rw [keeps, gen?_num h] at others
    have changed := modGen_ctx (f := f) h c
    rw [if_pos rfl] at changed
    constructor <;> rw [changed]
    · rfl
    · exact others

theorem originate_coll (dest vc ftype bucket : Nat) (body : Bytes) : (s.originate dest vc ftype bucket body).coll = s.coll :=
  (keeps_State_originate _ _ _ _ _ (.refl s) : Keeps true true true true true false true true true false true true true s _).coll rfl

theorem holdCells_coll (vc : Nat) (body : Bytes) : (s.holdCells vc body).coll = s.coll :=
  (keeps_State_holdCells _ _ (.refl s) : Keeps true true true true true false true true true true true true true s _).coll rfl

/-- A frame for a node that is not confirmed waits in the context (08 R217). -/
theorem told_sendNode (a vc ftype : Nat) (body : Bytes) (assoc : Option (Nat × Word × Nat)) : Told c num s (s.sendNode c a vc ftype body assoc) := by
  unfold State.sendNode
  extract_lets x g h room w
  have waits : Told c num s w := by
    have read : w.ctx c = _ := (tget_tset_of_ne (fun same => by simpa using congrArg Ctx.held same) _ _ _).trans (if_pos rfl)
    constructor <;> rw [read]
  split
  · exact told_of_coll rfl
  · split
    · split
      · exact waits.trans (told_of_coll (holdCells_coll _ _))
      · exact waits
    · exact told_of_coll (originate_coll _ _ _ _ _)

theorem told_downTree (body : Bytes) : Told c num s (s.downTree c body) := told_foldl (fun _ _ => told_sendNode _ _ _ _ _) _

theorem told_report (status : Nat) : Told c num s (s.report c num status) := by
  unfold State.report
  dsimp only
  split
  · exact .refl
  · split
    · split
      · exact .refl
      · exact (told_downTree _).trans (told_modGen fun _ => rfl)
    · split
      · exact told_sendNode _ _ _ _ _
      · exact .refl

theorem told_tell : Told c num s (s.tell c num) := by
  unfold State.tell
  split
  · exact .refl
  · split
    · exact (told_modGen (f := fun y => { y with owed := false }) fun _ => rfl).trans (told_report _)
    · exact .refl

/-- The context once generation `y` has retired, where it is not DRAINING. -/
theorem retireGen_read (stays : ((s.tell c y.num).ctx c).st ≠ .draining) : ∃ carry kept, (s.retireGen c y).ctx c =
    { (s.tell c y.num).ctx c with gens := ((s.tell c y.num).ctx c).gens.filter (fun z => z.num != y.num), gLow := y.num + 1, lastGen := y.num,
                                  lastStat := y.failed.getD stOk, lastValid := true, carry, kept } := by
  unfold State.retireGen
  extract_lets s1 x g status captured s2 s3 tiles kept s4 s5 coll s6
  rw [show (x.st == .draining) = false from beq_eq_false_iff_ne.mpr stays, Bool.false_and, if_neg Bool.false_ne_true]
  have valid : ∀ z : Ctx, z.lastValid = true → z ≠ {} := by
    rintro z valid rfl
    exact Bool.noConfusion valid
  exact ⟨_, kept, (tget_tset_of_ne (valid _ rfl) _ _ _).trans (if_pos rfl)⟩

/-- Settles O32: a failure is told and a retirement read back from the context; the rest are the conditions of the commands. -/
theorem timeoutsAndRetirement : Obligations.TimeoutsAndRetirement := by
  intro s c y works ready
  have live : (s.ctx c).live = true := by simp [Ctx.live, ready]
  dsimp only [exec]
  refine ⟨fun g inFlight good begun due => ?timeout, fun g inFlight early => ?early, fun g k inFlight good held still here ended => ?chunk,
    fun inFlight may => ?retire, fun inFlight good open' => ?stays⟩
  case timeout =>
    simp only [execGenTimeout, inFlight]
    exact when'_true (by simp [works, live, good, begun, due])
  case early =>
    simp only [execGenTimeout, inFlight]
    exact when'_false (by simp [early])
  case chunk =>
    simp only [execChunkRetire, inFlight]
    exact when'_true (by simp [works, good, held, still, here, ended])
  case retire =>
    have told := told_tell (s := s) (c := c) (num := y.num)
    have st := told.st.trans ready
    obtain ⟨carry, kept, read⟩ := retireGen_read (s := s) (c := c) (y := y) (by simp [st])
    refine ⟨s.retireGen c y, ?_, ?_⟩
    · simp only [execGenerationRetire, inFlight]
      exact when'_true (by simp [works, live, may])
    · rw [read]
      exact ⟨rfl, told.others, rfl, rfl, rfl, st⟩
  case stays =>
    simp only [execGenerationRetire, inFlight]
    exact when'_false (by simp [State.mayRetire, good, open'])

end Sys2Proof.Proofs
end

section
/-!
The place of the switch in the fabric (09 R252-R254): what frees cells of the packet buffer, or sends a TACK, leaves it as it was.
-/

namespace Sys2Proof.Proofs

open Sys2Proof Sys2Proof.Machine Sys2Proof.Claims

variable {s t : State}

/-- The shape of the fabric, the widths of its coordinates, and the switch's own address. -/
def place (b : Fabric) : Word × Word × Word := (b.shape, b.widths, b.here)

@[simp] theorem setFlow_place (x : Flow) : place (s.setFlow x).fab = place s.fab := by
  unfold State.setFlow
  dsimp only
  split <;> rfl

@[simp] theorem freeAccount_place (x : Account) (cells : Nat) : place (s.freeAccount x cells).fab = place s.fab := by
  cases x <;> rfl

@[simp] theorem dropCopy_place (id : Nat) : place (s.dropCopy id).fab = place s.fab := by
  unfold State.dropCopy
  split
  · rfl
  · split
    · rw [freeAccount_place]
      rfl
    · rfl

@[simp] theorem takeHop_place (arr : Option Nat) (body : Nat) (requeued : Bool) (h : Hop) :
    place (s.takeHop arr body requeued h).fab = place s.fab := by
  cases h with
  | out p f entry => rfl
  | held p f entry => rfl
  | drop rule => simp [State.takeHop, State.noteDev]
  | here f => exact dropCopy_place body

@[simp] theorem crossOut_place (ftype : Nat) (tile : Bytes) (id : Nat) (h : Hop) : place (s.crossOut ftype tile id h).fab = place s.fab := by
  unfold State.crossOut
  split
  · simp [State.notePort]
  · exact takeHop_place _ _ _ _

theorem store_place (acct : Account) (cells copies : Nat) : place (s.store acct cells copies).1.fab = place s.fab := by
  cases acct <;> rfl

@[simp] theorem placeFrame_place (o : Orig) (body : Option Nat) : place (s.placeFrame o body).fab = place s.fab := by
  unfold State.placeFrame
  extract_lets fl t f u
  have numbered : place u.fab = place s.fab := by
    simp only [u]
    split
    · rfl
    · exact setFlow_place _
  cases body with
  | some id => simp [numbered]
  | none => simp [store_place, numbered]

theorem drainGo_place (kept l : List Orig) : place (drainGo s kept l).fab = place s.fab := by
  induction l generalizing s kept with
  | nil => rfl
  | cons o l ih =>
    unfold drainGo
    split
    · rw [ih, placeFrame_place]
    · exact ih _

@[simp] theorem queueOrig_place (o : Orig) : place (s.queueOrig o).fab = place s.fab := drainGo_place _ _

/-- A TACK is no privileged frame, so it waits for no span (09 R277). -/
@[simp] theorem sendTack_place (dest kind vc epoch seq window echo : Nat) :
    place (s.sendTack dest kind vc epoch seq window echo).fab = place s.fab := queueOrig_place _

@[simp] theorem ackFlow_place (peer vc : Nat) : place (s.ackFlow peer vc).fab = place s.fab := by
  unfold State.ackFlow
  split
  · rfl
  · unfold State.tackFlow
    dsimp only
    split
    · rfl
    · rw [sendTack_place, setFlow_place]

theorem freeEject_place (src vc cells : Nat) : place (s.freeEject src vc cells).fab = place s.fab := by
  have freed : place (s.freeCells vc cells).fab = place s.fab := rfl
  unfold State.freeEject
  extract_lets u
  split
  · split
    · dsimp only
      split
      · rw [ackFlow_place, setFlow_place, freed]
      · rw [setFlow_place, freed]
    · exact freed
  · exact freed

theorem popFront_place (src vc : Nat) : place (s.popFront src vc).fab = place s.fab := by
  unfold State.popFront
  split <;> rfl

theorem consume_place (a : Arrived) : place (s.consume a).fab = place s.fab := by
  rw [State.consume, freeEject_place, popFront_place]

theorem consume_coll (a : Arrived) : (s.consume a).coll = s.coll :=
  (keeps_State_consume a (.refl s) : Keeps true true true true true false true true true false true true true s _).coll rfl

/-- Which ranks are local depends on the fabric by the switch's place alone (07 R189; 08 R214). -/
theorem isLocal_of_place (same : place t.fab = place s.fab) (x : Ctx) (r : Nat) : t.isLocal x r = s.isLocal x r := by
  obtain ⟨shape, widths, here⟩ : t.fab.shape = s.fab.shape ∧ t.fab.widths = s.fab.widths ∧ t.fab.here = s.fab.here := by
    simpa [place] using same
  have dims : t.fab.dims = s.fab.dims := by simp only [Fabric.dims, shape]
  have width : t.fab.widthOf = s.fab.widthOf := by funext d; simp only [Fabric.widthOf, widths]
  have coord : t.fab.coord = s.fab.coord := by funext a d; simp only [Fabric.coord, Fabric.fieldAt, dims, width]
  have ring : t.fab.ring = s.fab.ring := by funext d; simp only [Fabric.ring, dims, shape]
  have box : x.box t.fab = x.box s.fab := by simp only [Ctx.box, dims, ring, coord]
  have me : t.fab.hereAddr = s.fab.hereAddr := by simp only [Fabric.hereAddr, here]
  have within : positions t.fab = positions s.fab := by
    unfold positions
    rw [dims, coord]
  have held : (t.geo x).held = (s.geo x).held := by
    unfold Geo.held State.geo
    simp only [within, box, me]
  rw [State.isLocal, held, State.isLocal]

end Sys2Proof.Proofs
end

section
/-!
ENTER, HAIRLINE_ENTER and ENTER_WAIT_RELEASE (07 R194-R196, R205, R447): what becomes of an ENTER, and what the commands answer.
-/

namespace Sys2Proof.Proofs

open Sys2Proof Sys2Proof.Machine Sys2Proof.Claims

variable {s t : State} {src vc : Nat} {a : Arrived} {b : Bytes}

/-! The fields of the ENTER are among the first 64 bytes of its frame. -/

theorem getElem_slice (b : Bytes) {off len i : Nat} (less : i < (slice b off len).length) : (slice b off len)[i] = b.getD (off + i) 0#8 := by
  rw [length_slice] at less
  simp only [slice, List.getElem_append, List.getElem_take, List.getElem_drop, List.getElem_replicate, List.length_take, List.length_drop]
  split
  · next inside => rw [List.getD_eq_getElem]
  · next beyond => rw [List.getD_eq_default _ _ (by omega)]

theorem slice_slice {off len n : Nat} (within : off + len ≤ n) (b : Bytes) : slice (slice b 0 n) off len = slice b off len := by
  refine List.ext_getElem (by rw [length_slice, length_slice]) fun i less _ => ?_
  rw [getElem_slice, getElem_slice]
  rw [length_slice] at less
  rw [List.getD_eq_getElem _ _ (by rw [length_slice]; omega), getElem_slice, Nat.zero_add]

theorem msgCtx_slice (b : Bytes) : msgCtx (slice b 0 64) = msgCtx b := by
  rw [msgCtx, leAt, slice_slice (by decide), ← leAt, ← msgCtx]

theorem msgGen_slice (b : Bytes) : msgGen (slice b 0 64) = msgGen b := by
  rw [msgGen, leAt, slice_slice (by decide), ← leAt, ← msgGen]

/-! What becomes of an ENTER (07 R195). -/

/-- That the frame has been taken changes nothing of it. -/
theorem judge_consume : (s.consume a).judge src b = s.judge src b := by
  have ctx (c : Nat) : (s.consume a).ctx c = s.ctx c := by rw [State.ctx, consume_coll, State.ctx]
  simp only [State.judge, ctx, isLocal_of_place (consume_place a)]

section
variable (s : State) (x : Ctx) (num : Word) (e : Entered) (reserved : Bool)

/-- The ENTER that the rank of `e` has brought for the generation before. -/
def enterBefore : Option Entered := (x.gen? num).bind (fun y => y.enters.find? (fun o => o.rank == e.rank))

/-- Generations from G_low on. -/
def enterAhead : Nat := dist32 x.gLow.toNat num.toNat

/-- The ENTER repeats the one before. -/
def enterRepeats : Bool := (enterBefore x num e).any (fun o => o.raw == e.raw)

/-- The context takes no such ENTER: STATE. -/
def enterClosed : Bool := !x.live || (x.st == .draining && !(x.gen? num).any (fun y => !y.enters.isEmpty))

/-- A reserved field is set, or the rank is none of this switch: BAD_FIELD. -/
def enterBad : Bool := reserved || decide (x.rosterN ≤ e.rank) || !s.isLocal x e.rank

/-- The epoch is not the rank's, or is fenced: FENCED. -/
def enterFenced : Bool := e.epoch != (x.rank e.rank).epoch || !(x.rank e.rank).live

/-- The generation lies behind G_low, or the rank has brought another ENTER for it: SEQUENCE. -/
def enterStale : Bool :=
  decide (2 ^ 31 ≤ enterAhead x num) ||
    ((enterBefore x num e).isSome && !enterRepeats x num e && !(enterBefore x num e).any (fun o => o.epoch != e.epoch))

/-- The conditions of 07 R195 with their statuses. -/
def enterConditions : List (Bool × Nat) :=
  [(enterClosed x num, stState), (enterBad s x e reserved, stBadField), (enterFenced x e, stFenced), (enterStale x num e, stSequence)]

end

section
variable {c st : Nat} {num : Word} (hc : msgCtx b = c) (hnum : msgGen b = num)
include hc hnum

theorem judge_refused (due : lowest (enterConditions s (s.ctx c) num (enteredOf src b) (enterReserved b)) = some st) :
    s.judge src b = .refuse st := by
  subst hc hnum
  unfold State.judge
  dsimp only
  split
  · next other => exact congrArg Judge.refuse (Option.some.inj (other.symm.trans due))
  · next none => exact absurd (none.symm.trans due) nofun

theorem judge_clear (clear : lowest (enterConditions s (s.ctx c) num (enteredOf src b) (enterReserved b)) = none) :
    s.judge src b = if 8 ≤ enterAhead (s.ctx c) num then .hold
      else if enterRepeats (s.ctx c) num (enteredOf src b) = true then .again else .take := by
  subst hc hnum
  unfold State.judge
  dsimp only
  split
  · next due => exact absurd (due.symm.trans clear) nofun
  · rfl

theorem judge_hold (clear : lowest (enterConditions s (s.ctx c) num (enteredOf src b) (enterReserved b)) = none)
    (far : 8 ≤ enterAhead (s.ctx c) num) : s.judge src b = .hold := by
  rw [judge_clear hc hnum clear, if_pos far]

theorem judge_again (clear : lowest (enterConditions s (s.ctx c) num (enteredOf src b) (enterReserved b)) = none)
    (near : enterAhead (s.ctx c) num < 8) (again : enterRepeats (s.ctx c) num (enteredOf src b) = true) : s.judge src b = .again := by
  rw [judge_clear hc hnum clear, if_neg (Nat.not_le.mpr near), if_pos again]

theorem judge_take (clear : lowest (enterConditions s (s.ctx c) num (enteredOf src b) (enterReserved b)) = none)
    (near : enterAhead (s.ctx c) num < 8) (first : enterRepeats (s.ctx c) num (enteredOf src b) = false) : s.judge src b = .take := by
  rw [judge_clear hc hnum clear, if_neg (Nat.not_le.mpr near), first, if_neg Bool.false_ne_true]

end

theorem lowest_cons_false {st : Nat} {l : List (Bool × Nat)} : lowest ((false, st) :: l) = lowest l := rfl

/-- Where the statuses rise, the first condition that is met counts. -/
theorem lowest_cons_true {st : Nat} {l : List (Bool × Nat)} (least : ∀ c ∈ l, st ≤ c.2) : lowest ((true, st) :: l) = some st :=
  lowest_eq_some List.mem_cons_self (List.forall_mem_cons.mpr ⟨fun _ => Nat.le_refl _, fun c mem _ => least c mem⟩)

section
variable {x : Ctx} {num : Word} {e : Entered} {reserved : Bool}

theorem enterConditions_closed (ready : x.st ≠ .ready) (draining : x.st ≠ .draining) :
    lowest (enterConditions s x num e reserved) = some stState := by
  have closed : enterClosed x num = true := by simp [enterClosed, Ctx.live, ready, draining]
  rw [enterConditions, closed]
  exact lowest_cons_true (by simp [stState, stBadField, stFenced, stSequence])

section
variable (ready : x.st = .ready)
include ready

theorem enterClosed_of_ready : enterClosed x num = false := by simp [enterClosed, Ctx.live, ready]

theorem enterConditions_badField (bad : reserved = true ∨ x.rosterN ≤ e.rank) :
    lowest (enterConditions s x num e reserved) = some stBadField := by
  have bad : enterBad s x e reserved = true := by
    rw [enterBad, Bool.or_eq_true, Bool.or_eq_true, decide_eq_true_eq]
    exact .inl bad
  rw [enterConditions, enterClosed_of_ready ready, bad]
  exact lowest_cons_true (by simp [stBadField, stFenced, stSequence])

variable (fields : reserved = false) (member : e.rank < x.rosterN) (here : s.isLocal x e.rank = true)
include fields member here

/-- An ENTER in order meets the conditions on its epoch and its generation alone. -/
theorem enterConditions_inOrder : lowest (enterConditions s x num e reserved) =
    lowest [(enterFenced x e, stFenced), (enterStale x num e, stSequence)] := by
  have good : enterBad s x e reserved = false := by simp [enterBad, fields, member, here]
  rw [enterConditions, enterClosed_of_ready ready, good, lowest_cons_false, lowest_cons_false]

theorem enterConditions_fenced (other : ¬(e.epoch = (x.rank e.rank).epoch ∧ (x.rank e.rank).live = true)) :
    lowest (enterConditions s x num e reserved) = some stFenced := by
  have fenced : enterFenced x e = true := by simpa [enterFenced, imp_iff_not_or] using other
  rw [enterConditions_inOrder ready fields member here, fenced]
  exact lowest_cons_true (by simp [stFenced, stSequence])

variable (current : e.epoch = (x.rank e.rank).epoch ∧ (x.rank e.rank).live = true)
include current

theorem enterConditions_current : lowest (enterConditions s x num e reserved) = lowest [(enterStale x num e, stSequence)] := by
  have unfenced : enterFenced x e = false := by simp [enterFenced, current]
  rw [enterConditions_inOrder ready fields member here, unfenced, lowest_cons_false]

theorem enterConditions_behind (behind : 2 ^ 31 ≤ enterAhead x num) : lowest (enterConditions s x num e reserved) = some stSequence := by
  have stale : enterStale x num e = true := by rw [enterStale, decide_eq_true behind, Bool.true_or]
  rw [enterConditions_current ready fields member here current, stale]
  exact lowest_cons_true (by simp)

/-- An ENTER that is the rank's first for its generation, or repeats that one, is not refused. -/
theorem enterConditions_none (less : enterAhead x num < 2 ^ 31) (fresh : x.gen? num = none ∨ enterRepeats x num e = true) :
    lowest (enterConditions s x num e reserved) = none := by
  have timely : enterStale x num e = false := by
    rw [enterStale, decide_eq_false (Nat.not_le.mpr less), Bool.false_or]
    rcases fresh with new | again
    · simp [enterBefore, new]
    · simp [again]
  rw [enterConditions_current ready fields member here current, timely]
  rfl

end

theorem enterRepeats_of_new (new : x.gen? num = none) : enterRepeats x num e = false := by simp [enterRepeats, enterBefore, new]

theorem enterRepeats_of_same {y : Gen} {old : Entered} (inFlight : x.gen? num = some y)
    (before : y.enters.find? (fun o => o.rank == e.rank) = some old) (same : old.raw = e.raw) : enterRepeats x num e = true := by
  simp [enterRepeats, enterBefore, inFlight, before, same]

end

/-! What the commands answer. -/

section
variable {st : Nat} {body : Bytes}

/-- The switch behind an ENTER that it refuses (07 R196; 12 R341, R357). -/
def refusal (s : State) (src vc : Nat) (body : Bytes) (st : Nat) : State :=
  let v := (s.enterAck src vc (slice body 0 64) st).setEnter src vc none
  let w := if st = stBadField || st = stSequence then v.addHealth src 4 else v
  if st = stFenced then w.fencedFrame (msgCtx body) (enteredOf src (slice body 0 64)).rank (msgGen body) src
    (enteredOf src (slice body 0 64)).epoch else w

theorem settleEnter_refused (judged : s.judge src (slice body 0 64) = .refuse st) : s.settleEnter src vc body = refusal s src vc body st := by
  simp only [State.settleEnter, judged]
  rfl

theorem refusal_state : refusal s src vc body stState = (s.enterAck src vc (slice body 0 64) stState).setEnter src vc none := by
  simp [refusal, stState, stBadField, stFenced, stSequence]

theorem refusal_badField : refusal s src vc body stBadField =
    ((s.enterAck src vc (slice body 0 64) stBadField).setEnter src vc none).addHealth src 4 := by
  simp [refusal, stBadField, stFenced]

theorem refusal_sequence : refusal s src vc body stSequence =
    ((s.enterAck src vc (slice body 0 64) stSequence).setEnter src vc none).addHealth src 4 := by
  simp [refusal, stFenced, stSequence]

theorem refusal_fenced : refusal s src vc body stFenced = ((s.enterAck src vc (slice body 0 64) stFenced).setEnter src vc none).fencedFrame
    (msgCtx body) (enteredOf src (slice body 0 64)).rank (msgGen body) src (enteredOf src (slice body 0 64)).epoch := by
  simp [refusal, stBadField, stFenced, stSequence]

/-- The switch behind an ENTER that it answers with OK: the tiles behind it on the flow are its (07 R194, R196). -/
def admission (s : State) (src vc : Nat) (body : Bytes) : State :=
  (s.enterAck src vc (slice body 0 64) stOk).setEnter src vc (some (msgCtx body, msgGen body, (enteredOf src (slice body 0 64)).rank))

theorem settleEnter_again (judged : s.judge src (slice body 0 64) = .again) : s.settleEnter src vc body = if 64 < body.length
    then (((admission s src vc body).hairAdd (msgCtx body) (msgGen body) (enteredOf src (slice body 0 64)).rank (body.drop 64)).hairPump
      (msgCtx body) (msgGen body)).hairTake (msgCtx body) (msgGen body)
    else admission s src vc body := by
  simp only [State.settleEnter, judged]
  rfl

theorem settleEnter_take (judged : s.judge src (slice body 0 64) = .take) : s.settleEnter src vc body =
    ((admission s src vc body).accept (msgCtx body) (msgGen body) (enteredOf src (slice body 0 64))
      (if 64 < body.length then some (body.drop 64) else none)).wakeBound (msgCtx body) := by
  simp only [State.settleEnter, judged]
  rfl

end

theorem takeEnter_hold (judged : s.judge a.src (slice a.body 0 64) = .hold) : s.takeEnter a =
    (s.popFront a.src a.vc).modCtx (msgCtx a.body) (fun x =>
      { x with waits := x.waits ++ [{ src := a.src, vc := a.vc, body := a.body, cells := a.cells }] }) := by
  simp only [State.takeEnter, judged]

theorem takeEnter_settles (judged : s.judge a.src (slice a.body 0 64) ≠ .hold) : s.takeEnter a = (s.consume a).settleEnter a.src a.vc a.body := by
  unfold State.takeEnter
  split
  · next hold => exact absurd hold judged
  · rfl

/-- The command handles the ENTER at the front of its flow. -/
theorem execEnters {hair : Bool} (up : s.fabricUp = true) (front : s.front src vc = some a) (free : s.flowWaits src vc = false)
    (plain : hair = false → a.ftype = 1 ∧ leAt a.body 0 1 = 1 ∧ a.body.length = 64)
    (tiled : hair = true → vc = 1 ∧ a.ftype = 2 ∧ 64 < a.body.length ∧ s.hairBlocked src a.body = false) :
    exec (if hair then .hairlineEnter src else .enter src vc) s = .next (s.takeEnter a) := by
  cases hair with
  | false =>
    obtain ⟨ftype, mtype, -⟩ := plain rfl
    change execEnter src vc s = _
    simp only [execEnter, front]
    exact when'_true (by simp [up, ftype, mtype, free])
  | true =>
    obtain ⟨rfl, ftype, -, room⟩ := tiled rfl
    change execHairlineEnter src s = _
    simp only [execHairlineEnter, front]
    exact when'_true (by simp [up, ftype, free, room])

/-- The first part of O30: the lowest status that applies decides what becomes of the ENTER, and so what the command answers. -/
theorem enterMessages : Claims.EnterMessages := by
  intro s src vc hair a up front free plain tiled
  obtain ⟨rfl, rfl⟩ := front_eq front
  rw [execEnters up front free plain tiled]
  intro b c num x e u run inOrder current ahead
  have long : 64 < a.body.length ↔ hair = true := by
    cases hair with
    | false => simp [(plain rfl).2.2]
    | true => simp [(tiled rfl).2.2.1]
  have hc : msgCtx b = c := msgCtx_slice a.body
  have hnum : msgGen b = num := msgGen_slice a.body
  have refused {st : Nat} (due : lowest (enterConditions s x num e (enterReserved b)) = some st) :
      s.takeEnter a = refusal u a.src a.vc a.body st := by
    have judged := judge_refused (src := a.src) hc hnum due
    exact (takeEnter_settles (by rw [judged]; simp)).trans (settleEnter_refused (judge_consume.trans judged))
  refine ⟨fun ⟨ready, draining⟩ => ?closed, fun ⟨ready, bad⟩ => ?badField, fun ⟨order, other⟩ => ?fenced, fun ⟨order, same, behind⟩ => ?behind,
    fun ⟨order, same, new, far, less⟩ => ?hold, fun ⟨order, same, new, near⟩ => ?take,
    fun y old ⟨order, same, near⟩ inFlight before repeats => ?again⟩
  case closed => exact congrArg _ ((refused (enterConditions_closed ready draining)).trans refusal_state)
  case badField => exact congrArg _ ((refused (enterConditions_badField ready bad)).trans refusal_badField)
  case fenced =>
    obtain ⟨ready, fields, member, here⟩ := order
    exact congrArg _ ((refused (enterConditions_fenced ready fields member here other)).trans refusal_fenced)
  case behind =>
    obtain ⟨ready, fields, member, here⟩ := order
    exact congrArg _ ((refused (enterConditions_behind ready fields member here same behind)).trans refusal_sequence)
  case hold =>
    obtain ⟨ready, fields, member, here⟩ := order
    have judged := judge_hold hc hnum (enterConditions_none ready fields member here same less (.inl new)) far
    exact congrArg _ (takeEnter_hold judged)
  case take =>
    obtain ⟨ready, fields, member, here⟩ := order
    have clear := enterConditions_none ready fields member here same (Nat.lt_trans near (by decide)) (.inl new)
    have judged := judge_take hc hnum clear near (enterRepeats_of_new new)
    have taken := settleEnter_take (s := u) (vc := a.vc) (judge_consume.trans judged)
    rw [if_congr long rfl rfl] at taken
    exact congrArg _ ((takeEnter_settles (by rw [judged]; simp)).trans taken)
  case again =>
    obtain ⟨ready, fields, member, here⟩ := order
    have repeats := enterRepeats_of_same inFlight before repeats
    have clear := enterConditions_none ready fields member here same (Nat.lt_trans near (by decide)) (.inr repeats)
    have judged := judge_again hc hnum clear near repeats
    have taken := settleEnter_again (s := u) (vc := a.vc) (judge_consume.trans judged)
    rw [if_congr long rfl rfl] at taken
    exact congrArg _ ((takeEnter_settles (by rw [judged]; simp)).trans taken)

/-- The second part of O30: the first ENTER that no longer waits is settled. -/
theorem waitingEnters : Claims.WaitingEnters := by
  intro s c up
  dsimp only [exec]
  refine ⟨fun l1 w l2 waits ahead free short => ?first, fun all => ?none⟩
  case first =>
    have picked : pick (fun w => s.judge w.src (slice w.body 0 64) != .hold) (s.ctx c).waits = some (w, l1 ++ l2) := by
      rw [waits]
      exact pick_append (fun v mem => by simp [ahead v mem]) (by simpa using free)
    simp only [execEnterWaitRelease, picked]
    exact when'_true (by simp [up, Nat.not_lt.mpr short])
  case none =>
    have none : pick (fun w => s.judge w.src (slice w.body 0 64) != .hold) (s.ctx c).waits = none := pick_none fun v mem => by simp [all v mem]
    simp only [execEnterWaitRelease, none]
    rfl

/-- Settles O30: what becomes of an ENTER that arrives, and of one that waited. -/
theorem entersAndWaits : Obligations.EntersAndWaits := ⟨enterMessages, waitingEnters⟩

end Sys2Proof.Proofs
end

section
/-!
OPEN_WAIT_EXPIRY (07 R191): the context is deleted from the table of contexts, which frees it where the table lists it once.
-/

namespace Sys2Proof.Proofs

open Sys2Proof Sys2Proof.Machine Sys2Proof.Claims

variable {s : State} {c : Nat} {o : OpenWait}

/-- What a context that is freed leaves behind: its own entry goes, and the OPENs that waited for it (07 R191, R192). -/
theorem freeCtx_coll (s : State) (c : Nat) :
    (s.freeCtx c).coll.ctxs = tset {} s.coll.ctxs c {} ∧ (s.freeCtx c).coll.opens = s.coll.opens.filter (fun o => o.ctx != c) := by
  unfold State.freeCtx
  extract_lets x s1 coll s2 s3 s4
  have holds : Keeps true true true true true false true true true false true true true s2 s3 := keeps_State_freeHolds _ (.refl s2)
  have enters : Keeps true true true true true false true true true false true true true s3 s4 :=
    .foldl _ (fun _ _ before => keeps_State_freeEject _ _ _ (keeps_State_enterAck _ _ _ _ before)) (.refl s3)
  have ends : Keeps true true true true true true true true false true true true true s4
      (((s4.endWaits (WaitsOn.isOpen c) stState []).endWaits (WaitsOn.isReplay c) stState []).endWaits (WaitsOn.isFree c) stOk []) :=
    keeps_State_endWaits _ _ _ (keeps_State_endWaits _ _ _ (keeps_State_endWaits _ _ _ (.refl s4)))
  rw [ends.coll rfl, enters.coll rfl, holds.coll rfl]
  exact ⟨rfl, rfl⟩

/-- The OPEN that waited for context `c` has failed with NO_SPACE. -/
def openExpired (s : State) (c : Nat) : State :=
  ((s.endWaits (WaitsOn.isOpen c) stNoSpace []).endWaits (WaitsOn.isReplay c) stNoSpace []).freeCtx c

theorem openExpired_coll (s : State) (c : Nat) :
    (openExpired s c).coll.ctxs = tset {} s.coll.ctxs c {} ∧ (openExpired s c).coll.opens = s.coll.opens.filter (fun o => o.ctx != c) := by
  have ends : Keeps true true true true true true true true false true true true true s
      ((s.endWaits (WaitsOn.isOpen c) stNoSpace []).endWaits (WaitsOn.isReplay c) stNoSpace []) :=
    keeps_State_endWaits _ _ _ (keeps_State_endWaits _ _ _ (.refl s))
  rw [openExpired, (freeCtx_coll _ c).1, (freeCtx_coll _ c).2, ends.coll rfl]
  exact ⟨rfl, rfl⟩

section
variable (waits : s.coll.opens.find? (fun o => o.ctx == c) = some o) (runs : s.aclk = true) (limited : 0 < o.limit)
  (due : o.accepted + o.limit * Config.msAclk ≤ s.now)
include waits runs limited due

theorem execOpenWaitExpiry_due : execOpenWaitExpiry c s = .next (openExpired s c) := by
  simp only [execOpenWaitExpiry, waits]
  exact when'_true (by simp [runs, Nat.ne_of_gt limited, due])

/-- Where the table of contexts is canonical, the context is FREE behind the command, and no OPEN waits for it. -/
theorem execOpenWaitExpiry_frees (canon : tcanon {} s.coll.ctxs = true) : ∃ u, execOpenWaitExpiry c s = .next u ∧ (u.ctx c).st = .free ∧
    ∀ p ∈ u.coll.opens, p.ctx ≠ c := by
  obtain ⟨ctxs, opens⟩ := openExpired_coll s c
  refine ⟨_, execOpenWaitExpiry_due waits runs limited due, ?_, fun p mem => ?_⟩
  · rw [State.ctx, ctxs, tget_tset _ _ _ canon, if_pos rfl]
  · rw [opens] at mem
    simpa using (List.mem_filter.mp mem).2

end

/-- A switch in RUNNING whose table of contexts lists context 0 twice, GRANTING and then READY, as an OPEN for it waits longer than its limit. -/
def listedTwice : State :=
  { State.reset with
    dev := .running, clock := { State.reset.clock with cycle := Config.msAclk },
    coll := { State.reset.coll with ctxs := [(0, { st := .granting }), (0, { st := .ready })], opens := [{ ctx := 0, accepted := 0, limit := 1 }] } }

/-- Behind the deletion of its first entry the context reads as the second gives it. -/
theorem listedTwice_expired : ((openExpired listedTwice 0).ctx 0).st = .ready := by
  rw [State.ctx, (openExpired_coll listedTwice 0).1]
  rfl

/-- Refutes O23, in its clause on OPEN_WAIT_EXPIRY: it holds of every state whose table of contexts is canonical
(`execOpenWaitExpiry_frees`), but the statement asks that of no state, and `listedTwice` has no such table. -/
theorem not_contextLife : ¬ Obligations.ContextLife := by
  intro h
  obtain ⟨-, -, -, -, expiry, -⟩ := h listedTwice 0 { slot := 0, seq := 0, bytes := [], at' := 0, wants := none, got := none } [] 0 rfl
  obtain ⟨u, expired, free, -⟩ := expiry { ctx := 0, accepted := 0, limit := 1 } rfl rfl (by decide) (by decide)
  obtain rfl : openExpired listedTwice 0 = u :=
    Host.Outcome.next.inj ((execOpenWaitExpiry_due rfl rfl (by decide) (by decide)).symm.trans expired)
  rw [listedTwice_expired] at free
  exact CtxSt.noConfusion free

end Sys2Proof.Proofs
end

section
/-!
The geometry of a context at a switch (08 R214, R215): it depends on the fabric by the switch's place alone, so a message that is
consumed leaves it as it was.
-/

namespace Sys2Proof.Proofs

open Sys2Proof Sys2Proof.Machine Sys2Proof.Claims

variable {s : State} {a : Arrived}

/-- The fabric as a switch at place `p` knows it, with nothing configured or under way. -/
def fabricAt (p : Word × Word × Word) : Fabric := { shape := p.1, widths := p.2.1, here := p.2.2 }

/-- The geometry of context `x` at a switch at place `p`. -/
def geoAt (p : Word × Word × Word) (x : Ctx) : Geo :=
  { fab := fabricAt p, box := x.box (fabricAt p), anchor := x.anchor, homes := x.homes, lost := x.lost }

theorem geo_held (x : Ctx) : (s.geo x).held = (geoAt (place s.fab) x).held := rfl
theorem geo_up (x : Ctx) : (s.geo x).up = (geoAt (place s.fab) x).up := rfl
theorem geo_feeding (x : Ctx) : (s.geo x).feeding = (geoAt (place s.fab) x).feeding := rfl

@[simp] theorem consume_ctx (c : Nat) : (s.consume a).ctx c = s.ctx c := by
  rw [State.ctx, consume_coll, State.ctx]

@[simp] theorem consume_held (x : Ctx) : ((s.consume a).geo x).held = (s.geo x).held := by
  rw [geo_held, consume_place, ← geo_held]

@[simp] theorem consume_up (x : Ctx) : ((s.consume a).geo x).up = (s.geo x).up := by
  rw [geo_up, consume_place, ← geo_up]

@[simp] theorem consume_feeding (x : Ctx) : ((s.consume a).geo x).feeding = (s.geo x).feeding := by
  rw [geo_feeding, consume_place, ← geo_feeding]

@[simp] theorem consume_holder (x : Ctx) : ((s.consume a).geo x).holder = (s.geo x).holder := rfl

end Sys2Proof.Proofs
end

section
/-!
The messages between the switches of a context (08 R217, R223-R225, R231).
-/

namespace Sys2Proof.Proofs

open Sys2Proof Sys2Proof.Machine Sys2Proof.Claims

variable {s : State} {src c : Nat} {num : Word} {a : Arrived} {y : Gen}

/-- What is not the default and then replaced leaves no trace in a table, whatever its form. -/
theorem tset_tset_of_ne {α : Type} [DecidableEq α] {d x : α} (ne : x ≠ d) (t : Tab α) (k : Nat) (z : α) :
    tset d (tset d t k x) k z = tset d t k z := by
  induction t with
  | nil => simp [tset, ne]
  | cons p t ih =>
    obtain ⟨i, b⟩ := p
    by_cases before : k < i
    · simp [tset, before, ne]
    · by_cases same : i = k
      · simp [tset, same, ne]
      · simp [tset, before, same, ih]

theorem setCtx_setCtx {x : Ctx} (ne : x ≠ {}) (z : Ctx) : (s.setCtx c x).setCtx c z = s.setCtx c z := by
  simp only [State.setCtx, tset_tset_of_ne ne]

theorem ctx_setCtx {x : Ctx} (ne : x ≠ {}) : (s.setCtx c x).ctx c = x :=
  (tget_tset_of_ne ne _ _ _).trans (if_pos rfl)

/-! A message that arrives from a switch not lost, for a generation known here. -/

theorem onMessage_front {ftype mtype : Nat} (h : Message s src 0 ftype mtype a) (go : Arrived → State → State) :
    onMessage src ftype mtype s go = .next (go a (s.consume a)) := by
  obtain ⟨up, front, ft, mt⟩ := h
  simp only [onMessage, front]
  exact when'_true (by simp [up, ft, mt])

theorem notLost_of_nil (noLoss : (s.ctx c).lost = []) (go : State) : s.notLost src c go = go := by
  simp [State.notLost, noLoss]

/-- A stage message counts here once its context is READY and has lost no switch. -/
theorem onMessage_counts {mtype : Nat} (h : Message s src 0 3 mtype a) (ready : (s.ctx (msgCtx a.body)).st = .ready)
    (noLoss : (s.ctx (msgCtx a.body)).lost = []) (go : Arrived → State → State) :
    onMessage src 3 mtype s (fun a s => s.notLost src (msgCtx a.body) (if !(s.ctx (msgCtx a.body)).live then s else go a s)) =
      .next (go a (s.consume a)) := by
  rw [onMessage_front h, notLost_of_nil (by simpa using noLoss)]
  exact congrArg _ (if_neg (by simp [Ctx.live, ready]))

/-- A generation that a local ENTER has opened is not learnt of again (08 R219). -/
theorem learn_consume (inFlight : (s.ctx c).gen? num = some y) (entered : y.enters ≠ []) (f : Fields) :
    (s.consume a).learn c num f = s.consume a := by
  simp [State.learn, inFlight, entered]

/-! CHECK (08 R217). -/

theorem stageChecks : Claims.StageChecks := by
  intro s src c
  dsimp only [exec]
  refine ⟨fun a message own ready noLoss => ?check, fun up ready due missing => ?resend, fun early => ?stays⟩
  case check =>
    subst own
    have heard : ∀ l, { s.ctx (msgCtx a.body) with checked := keyAddr src :: l } ≠ {} :=
      fun l same => List.cons_ne_nil _ _ (congrArg Ctx.checked same)
    rw [execStageCheck, onMessage_front message]
    dsimp only
    rw [notLost_of_nil (by simpa using noLoss), consume_ctx, ctx_setCtx (heard _), setCtx_setCtx (heard _), setCtx_setCtx (heard _)]
    exact ⟨fun agrees => by simp [ready, agrees], fun differs => by simp [ready, differs]⟩
  case resend =>
    exact when'_true (by simpa [up, ready, due] using missing)
  case stays =>
    refine when'_false ?_
    rcases early with early | all
    · simp [early]
    · have heard : (s.neighbourSw c).any (fun h => !(s.ctx c).checked.contains h) = false := by simpa using all
      rw [heard, Bool.and_false]

/-! SUMMARY, VERDICT and FAIL of a generation known here (08 R223-R225). -/

/-- Generation `y` of context `c` holds the SUMMARY `a` of the switch `src` from before. -/
def SummaryHeld (s : State) (c src : Nat) (y : Gen) (a : Arrived) : Prop :=
  ∃ m ∈ y.summaries, (s.geo (s.ctx c)).holder m.1 = keyAddr src ∧ m.2.1 = msgFields a.body ∧ m.2.2 = bitAt (leAt a.body 14 1) 0

section

variable (own : c = msgCtx a.body) (number : num = msgGen a.body) (ready : (s.ctx c).st = .ready) (noLoss : (s.ctx c).lost = [])

include own ready noLoss

/-- A failure goes on to the node that the ones held here report to. -/
theorem execFail_up {p : Nat} (message : Message s src 0 3 0x14 a) (elsewhere : (s.geo (s.ctx c)).held.contains (s.geo (s.ctx c)).anchor = false)
    (up : (s.geo (s.ctx c)).up = some p) : execFail src s = .next ((s.consume a).toNode c p 0 3 a.body) := by
  subst own
  refine (onMessage_counts message ready noLoss _).trans ?_
  dsimp only
  rw [consume_ctx, consume_held, consume_up, up]
  exact congrArg _ (if_neg (ne_true_of_eq_false elsewhere))

variable (inFlight : (s.ctx c).gen? num = some y) (entered : y.enters ≠ [])

include number inFlight entered

theorem execSummary_told (message : Message s src 0 3 0x12 a) (told : SummaryHeld s c src y a) :
    execSummary src s = .next (s.consume a) := by
  subst own number
  refine (onMessage_counts message ready noLoss _).trans ?_
  dsimp only
  rw [learn_consume inFlight entered, consume_ctx, inFlight]
  exact congrArg _ (if_pos (by simpa [SummaryHeld, and_assoc] using told))

theorem execSummary_new {k : Nat} (message : Message s src 0 3 0x12 a)
    (new : ¬SummaryHeld s c src y a)
    (next : ((s.geo (s.ctx c)).held.flatMap (s.geo (s.ctx c)).feeding).find? (fun k =>
      (s.geo (s.ctx c)).holder k == keyAddr src && !y.summaries.any (fun m => m.1 == k)) = some k) :
    execSummary src s = .next (((s.consume a).modGen c num (fun y => { y with summaries := y.summaries ++
      [(k, msgFields a.body, bitAt (leAt a.body 14 1) 0)] })).pumpSummary c num) := by
  subst own number
  refine (onMessage_counts message ready noLoss _).trans ?_
  dsimp only
  rw [learn_consume inFlight entered, consume_ctx, inFlight]
  dsimp only
  rw [if_neg (by simpa [SummaryHeld, and_assoc] using new)]
  simp only [consume_held, consume_feeding, consume_holder, next]

theorem execVerdict_told (message : Message s src 0 3 0x13 a) (told : y.verdict = some (leAt a.body 1 1, msgFields a.body)) :
    execVerdict src s = .next (s.consume a) := by
  subst own number
  refine (onMessage_counts message ready noLoss _).trans ?_
  dsimp only
  rw [learn_consume inFlight entered, consume_ctx, inFlight]
  exact congrArg _ (if_pos (by simpa using told))

theorem execVerdict_new (message : Message s src 0 3 0x13 a) (new : y.verdict ≠ some (leAt a.body 1 1, msgFields a.body)) :
    execVerdict src s = .next ((((s.consume a).downTree c a.body).takeVerdict c num (leAt a.body 1 1) (msgFields a.body)
      (leAt a.body 28 8)).wakeBound c) := by
  subst own number
  refine (onMessage_counts message ready noLoss _).trans ?_
  dsimp only
  rw [learn_consume inFlight entered, consume_ctx, inFlight]
  exact congrArg _ (if_neg (by simpa using new))

/-- The anchor answers a failure that is lower than any it has told. -/
theorem execFail_anchor (message : Message s src 0 3 0x14 a) (anchor : (s.geo (s.ctx c)).held.contains (s.geo (s.ctx c)).anchor = true)
    (lower : ∀ v, y.verdict = some v → v.1 = stOk ∨ leAt a.body 1 1 < v.1) :
    execFail src s = .next ((s.consume a).sendVerdict c num (leAt a.body 1 1) y.known) := by
  have unanswered : y.verdict.any (fun v => v.1 != stOk && decide (v.1 ≤ leAt a.body 1 1)) = false := by
    cases told : y.verdict with
    | none => rfl
    | some v => rcases lower v told with ok | less <;> simp [*]
  subst own number
  refine (onMessage_counts message ready noLoss _).trans ?_
  dsimp only
  rw [consume_ctx, consume_held]
  refine congrArg _ ((if_pos anchor).trans ?_)
  rw [learn_consume inFlight entered, consume_ctx, inFlight]
  exact if_neg (ne_true_of_eq_false unanswered)

end

/-! POSE_RELEASE (08 R231). -/

theorem execPoseRelease_due {r : Nat} (inFlight : (s.ctx c).gen? num = some y) (works : s.computing = true) (unposed : y.posed = false)
    (good : y.failed = none) (released : y.release = some r) (due : r ≤ s.clock.ftime.toNat)
    (room : ∀ n ∈ (s.ctx c).bound, (s.easel n).stopAt = none ∧ ∀ e ∈ (s.ctx c).engines, s.startRoom n e = true) :
    execPoseRelease c num s = .next (((s.ctx c).bound.foldl (fun s' n => (s.ctx c).engines.foldl (fun s' e => s'.pushStart n e
      { study := (s.ctx c).studyOf e, ctx := c, gen := num, chunk := 0, a0 := 0, a1 := 0, a2 := 0, a3 := 0, arrived := s.now, test := false })
      s') s).modGen c num (fun y => { y with posed := true })) := by
  have reached : y.release.any (fun r => decide (r ≤ s.clock.ftime.toNat)) = true := by simpa [released] using due
  simp only [execPoseRelease, inFlight]
  exact when'_true (by simpa [works, unposed, good, reached] using room)

theorem execPoseRelease_early {r : Nat} (inFlight : (s.ctx c).gen? num = some y) (released : y.release = some r)
    (early : s.clock.ftime.toNat < r) : execPoseRelease c num s = .next s := by
  simp only [execPoseRelease, inFlight]
  exact when'_false (by simp [released, early])

theorem stageMessages : Claims.StageMessages := by
  intro s src c num a y ready noLoss inFlight entered
  dsimp only [exec]
  refine ⟨fun k message own number => execSummary_new own number ready noLoss inFlight entered message,
    fun message own number => execSummary_told own number ready noLoss inFlight entered message,
    fun message own number => execVerdict_new own number ready noLoss inFlight entered message,
    fun message own number => execVerdict_told own number ready noLoss inFlight entered message,
    fun message own number => execFail_anchor own number ready noLoss inFlight entered message,
    fun p message own _ => execFail_up own ready noLoss message, fun r => execPoseRelease_due inFlight,
    fun r => execPoseRelease_early inFlight⟩

/-- Settles O33: what CHECK and its timer answer, and the messages about a generation that a local ENTER has opened here. -/
theorem stageTraffic : Obligations.StageTraffic := ⟨stageChecks, stageMessages⟩

end Sys2Proof.Proofs
end

section
/-!
What the passing of frames leaves of the fabric (09 R249-R277; 10 R282-R292): the settings and the link state of every port, and the
circuits. Frames move through queues, accounts and flows alone.
-/

namespace Sys2Proof.Proofs

open Sys2Proof Sys2Proof.Machine Sys2Proof.Claims

variable {s t u : State}

/-- A logical port without its queues and without its ingress accounts: its settings and the state of its link. -/
def linkOf (x : LPort) : LPort := { x with queues := [], deficit := [], used := [], granted := [], report := false }

/-- What lies between the two states moved frames and changed other units: the ports keep their settings and their link states, and the
circuits stay. -/
structure Carried (s t : State) : Prop where
  site : place t.fab = place s.fab
  ports : t.fab.ports = s.fab.ports
  circuits : t.fab.circuits = s.fab.circuits
  link : ∀ q, linkOf (t.lport q) = linkOf (s.lport q)
  edges : ∀ e, t.fab.portsThat (isEdge e) = s.fab.portsThat (isEdge e)

theorem Carried.refl (s : State) : Carried s s := ⟨rfl, rfl, rfl, fun _ => rfl, fun _ => rfl⟩

theorem Carried.trans (h : Carried s t) (g : Carried t u) : Carried s u :=
  ⟨g.site.trans h.site, g.ports.trans h.ports, g.circuits.trans h.circuits, fun q => (g.link q).trans (h.link q),
    fun e => (g.edges e).trans (h.edges e)⟩

theorem Carried.foldl {α : Type} {f : State → α → State} (l : List α) (each : ∀ s x, Carried s (f s x)) : Carried s (l.foldl f s) := by
  induction l generalizing s with
  | nil => exact .refl s
  | cons x l ih => exact (each s x).trans ih

theorem Carried.ite {p : Prop} [Decidable p] (yes : Carried s t) (no : Carried s u) : Carried s (if p then t else u) := by
  split
  · exact yes
  · exact no

/-- A change outside the settings, the ports and the circuits. -/
theorem Carried.of_eq (site : place t.fab = place s.fab) (ports : t.fab.ports = s.fab.ports) (circuits : t.fab.circuits = s.fab.circuits)
    (lports : t.fab.lports = s.fab.lports) : Carried s t := by
  refine ⟨site, ports, circuits, fun q => ?_, fun e => ?_⟩
  · simp only [State.lport, Fabric.lport, lports]
  · unfold Fabric.portsThat Fabric.exists' Fabric.port
    rw [lports, ports]

theorem Carried.of_fab (same : t.fab = s.fab) : Carried s t := by
  apply Carried.of_eq <;> rw [same]

/-- An entry that reads under a test as before, and fails it by default, leaves the list of the entries that pass. -/
theorem filter_tput_keys {α : Type} {d a : α} {k : Nat} {p : Nat × α → Bool} (t : Tab α) (same : p (k, a) = p (k, tget d t k))
    (unlisted : p (k, d) = false) : ((tput t k a).filter p).map (·.1) = (t.filter p).map (·.1) := by
  induction t with
  | nil =>
    have fails : p (k, a) = false := same.trans unlisted
    simp [tput, fails]
  | cons q t ih =>
    obtain ⟨i, b⟩ := q
    by_cases before : k < i
    · have fails : p (k, a) = false := by simpa [tget, before, Nat.ne_of_gt before, unlisted] using same
      simp [tput, before, fails]
    · by_cases found : i = k
      · subst found
        have reads : p (i, a) = p (i, b) := by simpa [tget] using same
        simp [tput, List.filter_cons, reads, apply_ite (List.map _)]
      · have later : p (k, a) = p (k, tget d t k) := by simpa [tget, before, found] using same
        simp [tput, before, found, List.filter_cons, apply_ite (List.map _), ih later]

@[simp] theorem lport_setLPort (p q : Nat) (x : LPort) : (s.setLPort p x).lport q = if q = p then x else s.lport q :=
  tget_tput _ _ _ _ _

theorem carried_setLPort {p : Nat} {x : LPort} (link : linkOf x = linkOf (s.lport p)) : Carried s (s.setLPort p x) := by
  refine ⟨rfl, rfl, rfl, fun q => ?_, fun e => ?_⟩
  · rw [lport_setLPort]
    split
    · next same => rw [link, same]
    · rfl
  · have cfg : x.cfg = (s.lport p).cfg := (congrArg LPort.cfg link : (linkOf x).cfg = _)
    have role : isEdge e x = isEdge e (s.lport p) := by simp only [isEdge, LPort.role, LPort.index, cfg]
    exact filter_tput_keys (d := ({} : LPort)) s.fab.lports (congrArg (s.fab.exists' p && ·) role) (by simp [isEdge, LPort.role, roleEdge, fld])

theorem carried_setFlow (x : Flow) : Carried s (s.setFlow x) := by
  unfold State.setFlow
  dsimp only
  split
  · exact .of_eq rfl rfl rfl rfl
  · exact .of_eq rfl rfl rfl rfl

theorem carried_freeAccount (x : Account) (cells : Nat) : Carried s (s.freeAccount x cells) := by
  cases x with
  | ingress p c => exact carried_setLPort rfl
  | hairline p c => exact carried_setLPort rfl
  | inject v => exact .of_eq rfl rfl rfl rfl
  | none => exact .refl s

theorem carried_note (r e c i st : Nat) (p : List Nat) : Carried s (s.note r e c i st p) := .of_fab (by simp)

theorem carried_dropCopy (id : Nat) : Carried s (s.dropCopy id) := by
  unfold State.dropCopy
  split
  · exact .refl s
  · split
    · refine .trans ?_ (carried_freeAccount _ _)
      exact .of_eq rfl rfl rfl rfl
    · exact .of_eq rfl rfl rfl rfl

theorem carried_enqueue (p : Nat) (q : Queued) : Carried s (s.enqueue p q) := by
  unfold State.enqueue
  extract_lets x v m f b bc
  exact .trans (t := s.setFab { b with bucketCount := bc }) (.of_eq rfl rfl rfl rfl) (carried_setLPort rfl)

theorem carried_takeHop (arr : Option Nat) (body : Nat) (requeued : Bool) (h : Hop) : Carried s (s.takeHop arr body requeued h) := by
  cases h with
  | out p f entry => exact carried_enqueue _ _
  | held p f entry => exact carried_enqueue _ _
  | drop rule => exact (carried_note _ _ _ _ _ _).trans (carried_dropCopy _)
  | here f => exact carried_dropCopy _

theorem carried_crossOut (ftype : Nat) (tile : Bytes) (id : Nat) (h : Hop) : Carried s (s.crossOut ftype tile id h) :=
  .ite ((carried_note _ _ _ _ _ _).trans (carried_dropCopy _)) (carried_takeHop _ _ _ _)

theorem carried_store (acct : Account) (cells copies : Nat) : Carried s (s.store acct cells copies).1 := by
  cases acct <;> exact .of_eq rfl rfl rfl rfl

theorem carried_placeFrame (o : Orig) (body : Option Nat) : Carried s (s.placeFrame o body) := by
  unfold State.placeFrame
  extract_lets fl t f u
  have numbered : Carried s u := .ite (.refl s) (carried_setFlow _)
  cases body with
  | some id => exact numbered.trans (carried_crossOut _ _ _ _)
  | none => exact (numbered.trans (carried_store _ _ _)).trans (carried_crossOut _ _ _ _)

theorem carried_drainGo (kept l : List Orig) : Carried s (drainGo s kept l) := by
  induction l generalizing s kept with
  | nil => exact .of_eq rfl rfl rfl rfl
  | cons o l ih =>
    unfold drainGo
    exact .ite ((carried_placeFrame _ _).trans (ih _)) (ih _)

theorem carried_queueOrig (o : Orig) : Carried s (s.queueOrig o) := by
  refine .trans ?_ (carried_drainGo _ _)
  exact .of_eq rfl rfl rfl rfl

theorem carried_endSpan (peer vc : Nat) : Carried s (s.endSpan peer vc) := by
  unfold State.endSpan
  dsimp only
  split
  · exact .refl s
  · exact (carried_setFlow _).trans (carried_queueOrig _)

theorem carried_privOrig (o : Orig) : Carried s (s.privOrig o) := by
  unfold State.privOrig
  dsimp only
  refine .ite (carried_queueOrig _) ?_
  split
  · exact carried_setFlow _
  · exact .ite ((carried_endSpan _ _).trans (carried_setFlow _)) ((carried_setFlow _).trans (carried_queueOrig _))

theorem carried_originate (dest vc ftype bucket : Nat) (body : Bytes) : Carried s (s.originate dest vc ftype bucket body) :=
  .ite (carried_privOrig _) (carried_queueOrig _)

theorem carried_ackFlow (peer vc : Nat) : Carried s (s.ackFlow peer vc) := by
  unfold State.ackFlow
  split
  · exact .refl s
  · unfold State.tackFlow
    dsimp only
    split
    · exact .refl s
    · exact (carried_setFlow _).trans (carried_originate _ _ _ _ _)

theorem carried_freeEject (src vc cells : Nat) : Carried s (s.freeEject src vc cells) := by
  unfold State.freeEject
  extract_lets u
  have freed : Carried s u := .of_eq rfl rfl rfl rfl
  split
  · split
    · exact freed.trans (.ite ((carried_setFlow _).trans (carried_ackFlow _ _)) (carried_setFlow _))
    · exact freed
  · exact freed

end Sys2Proof.Proofs
end

section
/-!
The transport's timers and acknowledgements (09 R271-R277): the flow that a command finds, and what a resend does with what it keeps.
-/

namespace Sys2Proof.Proofs

open Sys2Proof Sys2Proof.Machine Sys2Proof.Claims

variable {s : State} {peer vc : Nat} {fl x : Flow} {t : FlowTx}

/-- A millisecond in ACLK (00 R6). -/
theorem msAclk_eq : Config.msAclk = 1250000 := rfl

theorem flow_of_flow? (known : s.flow? peer vc = some fl) : s.flow peer vc = fl := by
  rw [State.flow, known, Option.getD_some]

theorem flow?_names (known : s.flow? peer vc = some fl) : fl.peer = peer ∧ fl.vc = vc := by
  simpa using List.find?_some known

/-- A flow that is known is read back as it was set, by its peer and its VC. -/
theorem flow?_setFlow (known : s.flow? peer vc = some fl) (names : x.peer = peer ∧ x.vc = vc) :
    (s.setFlow x).flow? peer vc = some x := by
  obtain ⟨rfl, rfl⟩ := names
  have own : (fl.peer == x.peer && fl.vc == x.vc) = true :=
    List.find?_some (p := fun y : Machine.Flow => y.peer == x.peer && y.vc == x.vc) known
  have listed : s.fab.flows.any (fun y => y.peer == x.peer && y.vc == x.vc) = true :=
    List.any_eq_true.mpr ⟨fl, List.mem_of_find?_eq_some known, own⟩
  have kept : (fun y : Flow => y.peer == x.peer && y.vc == x.vc) ∘ (fun y => if y.peer == x.peer && y.vc == x.vc then x else y) =
      fun y => y.peer == x.peer && y.vc == x.vc := by
    funext y
    by_cases own : (y.peer == x.peer && y.vc == x.vc) = true
    · simp only [Function.comp, own, if_true, beq_self_eq_true, Bool.and_self]
    · simp only [Function.comp, own, if_false, Bool.false_eq_true]
  unfold State.flow? at known
  unfold State.setFlow State.flow?
  dsimp only
  rw [if_pos listed]
  refine (List.find?_map ..).trans ?_
  rw [kept, known, Option.map_some, if_pos own]

/-! A resend, or the give-up after MAX_RETX of them (09 R275). -/

section
variable (known : s.flow? peer vc = some fl) (source : fl.tx = some t)
include known source

theorem retransmit_nil (none : t.kept = []) : s.retransmit peer vc = s := by
  simp only [State.retransmit, known, Option.bind_some, source, none]

variable {k : Kept} {rest : List Kept} (kept : t.kept = k :: rest)
include kept

theorem retransmit_again (budget : k.resends < s.fab.maxRetx) : s.retransmit peer vc = s.resendFlow peer vc := by
  simp only [State.retransmit, known, Option.bind_some, source, kept]
  exact if_neg (Nat.not_le.mpr budget)

theorem retransmit_giveUp (spent : s.fab.maxRetx ≤ k.resends) :
    s.retransmit peer vc = (s.closeTx peer vc).sendTack peer 4 vc t.epoch k.frame.seq 0 0 := by
  simp only [State.retransmit, known, Option.bind_some, source, kept]
  exact if_pos spent

end

theorem onFlow_known {c : Flow → Bool} {go : State} (up : s.fabricUp = true) (clock : s.aclk = true) (known : s.flow? peer vc = some fl) :
    onFlow s peer vc c go = when' (c fl) s go := by
  simp only [onFlow, known, up, clock, Bool.true_and]

/-- Settles O41: each timer acts on the flow it finds where its condition holds, and an expired RTO resends or gives up. -/
theorem transportTimers : Obligations.TransportTimers := by
  intro s peer vc fl up clock known
  dsimp only [exec, execRtoExpiry, execAckSendTimer, execFlowIdleExpiry, execSpanIdleEnd]
  simp only [onFlow_known up clock known]
  refine ⟨fun t k rest source kept due budget => ?resend, fun t k rest source kept due spent => ?giveUp,
    fun t k rest source kept early => ?early, fun r sink owed => ?ack, fun r sink none => ?noAck, fun source outbox sink due => ?idle,
    fun early => ?busy, fun t source held => ?span, fun t source none => ?noSpan⟩
  case resend =>
    rw [retransmit_again known source kept budget]
    exact when'_true (by simp [source, kept, due])
  case giveUp =>
    rw [retransmit_giveUp known source kept spent]
    exact when'_true (by simp [source, kept, due])
  case early => exact when'_false (by simp [source, kept, early])
  case ack => exact when'_true (by simp [sink, owed])
  case noAck => exact when'_false (by simp [sink, none])
  case idle =>
    have sourceRests : fl.tx.all (fun t => t.kept.isEmpty && t.held.isNone) = true := by
      simpa [Option.all_eq_true] using source
    have sinkRests : fl.rx.all (fun r => r.unacked == 0 && r.span.isEmpty && r.inUse == 0) = true := by
      simpa [Option.all_eq_true, and_assoc] using sink
    have nothingWaits : s.fab.outbox.any (fun o => o.dest == peer && o.vc == vc) = false := by
      simpa [or_iff_not_imp_left] using outbox
    exact when'_true (by rw [sourceRests, sinkRests, nothingWaits, msAclk_eq, decide_eq_true due]; rfl)
  case busy =>
    exact when'_false (by rw [msAclk_eq, decide_eq_false (Nat.not_le.mpr early), Bool.and_false])
  case span => exact when'_true (by simpa [source, Option.isSome_iff_ne_none] using held)
  case noSpan => exact when'_false (by simp [source, none])

/-! Acknowledgements: the oldest of its source, consumed. -/

/-- The acknowledgement `a` has been taken out of those that wait, and its cells are freed (10 R286). -/
def tackTaken (s : State) (a : Arrived) (l1 l2 : List Arrived) : State := State.freeCells (s.setFab { s.fab with tacks := l1 ++ l2 }) 0 a.cells

/-- The source `t` of the flow `fl` has been told of a window (09 R273). -/
def toldWindow (s : State) (fl : Flow) (t : FlowTx) (window : Nat) : State :=
  s.setFlow { fl with idleAt := s.now, tx := some { t with window := some window } }

@[simp] theorem setFlow_maxRetx : (s.setFlow x).fab.maxRetx = s.fab.maxRetx := by
  unfold State.setFlow
  dsimp only
  split <;> rfl

variable {src kind : Nat} {a : Arrived} {l1 l2 : List Arrived}

theorem onTack_oldest (h : Acknowledged s src kind a l1 l2) (go : Nat → Bytes → State → State) :
    onTack src kind s go = .next (go (leAt a.body 1 1 % 8) a.body (tackTaken s a l1 l2)) := by
  obtain ⟨up, clock, waits, others, own, op⟩ := h
  have oldest : pick (fun a : Arrived => a.src == src) s.fab.tacks = some (a, l1 ++ l2) := by
    rw [waits]
    exact pick_append (fun z mem => by simpa using others z mem) (by simpa using own)
  simp only [onTack, oldest]
  exact when'_true (by simp [up, clock, op])

section
variable (known : s.flow? src vc = some fl) (source : fl.tx = some t)
include known source

/-- An ACK of the flow's epoch: what it covers is no longer kept, and its window is in force (09 R272, R273). -/
theorem covered_ack {b : Bytes} (epoch : leAt b 2 2 = t.epoch) : s.covered src vc true b =
    (toldWindow s fl { t with kept := t.kept.filter (fun k => notBefore (leAt b 4 4) k.frame) } (leAt b 8 2)).keepAgain src vc
      (notBefore (leAt b 4 4)) := by
  simp only [State.covered, flow_of_flow? known, source]
  exact if_neg (by simp [epoch])

/-- A NAK of the flow's epoch covers nothing: its window is in force (09 R272, R273). -/
theorem covered_nak {b : Bytes} (epoch : leAt b 2 2 = t.epoch) : s.covered src vc false b = toldWindow s fl t (leAt b 8 2) := by
  simp only [State.covered, flow_of_flow? known, source]
  exact if_neg (by simp [epoch])

theorem execTackNak_epoch (h : Acknowledged s src 1 a l1 l2) (hvc : vc = leAt a.body 1 1 % 8) (epoch : leAt a.body 2 2 = t.epoch) :
    execTackNak src s = .next ((toldWindow (tackTaken s a l1 l2) fl t (leAt a.body 8 2)).retransmit src vc).drain := by
  subst hvc
  have found : (tackTaken s a l1 l2).flow? src (leAt a.body 1 1 % 8) = some fl := known
  rw [execTackNak, onTack_oldest h, if_pos (by simp [flow_of_flow? found, source, epoch]), covered_nak found source epoch]

theorem execTackNak_late (h : Acknowledged s src 1 a l1 l2) (hvc : vc = leAt a.body 1 1 % 8) (late : leAt a.body 2 2 ≠ t.epoch) :
    execTackNak src s = .next (tackTaken s a l1 l2) := by
  subst hvc
  have found : (tackTaken s a l1 l2).flow? src (leAt a.body 1 1 % 8) = some fl := known
  rw [execTackNak, onTack_oldest h]
  exact congrArg _ (if_neg (by simpa [flow_of_flow? found, source] using Ne.symm late))

theorem execTackAck_epoch (h : Acknowledged s src 0 a l1 l2) (hvc : vc = leAt a.body 1 1 % 8) (epoch : leAt a.body 2 2 = t.epoch) :
    execTackAck src s = .next (State.drain (State.keepAgain (toldWindow (tackTaken s a l1 l2) fl
      { t with kept := t.kept.filter (fun k => notBefore (leAt a.body 4 4) k.frame) } (leAt a.body 8 2)) src vc
      (notBefore (leAt a.body 4 4)))) := by
  subst hvc
  have found : (tackTaken s a l1 l2).flow? src (leAt a.body 1 1 % 8) = some fl := known
  rw [execTackAck, onTack_oldest h, covered_ack found source epoch]

theorem execTackReset_epoch (h : Acknowledged s src 2 a l1 l2) (hvc : vc = leAt a.body 1 1 % 8) (epoch : leAt a.body 2 2 = t.epoch) :
    execTackReset src s = .next (State.resendFlow ((tackTaken s a l1 l2).setFlow { fl with tx := some { t with
      epoch := (t.epoch + 1) % 65536, seq := t.kept.length, kept := renumber ((t.epoch + 1) % 65536) 0 t.kept, window := none } }) src vc) := by
  subst hvc
  have found : (tackTaken s a l1 l2).flow? src (leAt a.body 1 1 % 8) = some fl := known
  rw [execTackReset, onTack_oldest h]
  simp only [flow_of_flow? found, source]
  exact congrArg _ (if_neg (by simp [epoch]))

end

section
variable {r : FlowRx} (known : s.flow? src vc = some fl) (sink : fl.rx = some r)
include known sink

theorem closeRx_sinkOnly (noSpan : r.span = []) (noSource : fl.tx = none) : s.closeRx src vc =
    s.setFab { s.fab with badFlows := s.fab.badFlows.filter (· != (src, vc)),
                          flows := s.fab.flows.filter (fun x => !(x.peer == src && x.vc == vc)) } := by
  have found : (s.setFab { s.fab with badFlows := s.fab.badFlows.filter (· != (src, vc)) }).flow src vc = fl := flow_of_flow? known
  unfold State.closeRx
  simp only [found, sink, noSpan, List.foldl_nil, noSource, Option.isSome_none]
  rfl

theorem execTackGiveup_closes (h : Acknowledged s src 4 a l1 l2) (hvc : vc = leAt a.body 1 1 % 8) (noSpan : r.span = [])
    (epoch : r.epoch ≤ leAt a.body 2 2) (noSource : fl.tx = none) (idle : s.openCtxs = []) :
    execTackGiveup src s = .next ((tackTaken s a l1 l2).closeRx src vc) := by
  subst hvc
  have found : (tackTaken s a l1 l2).flow? src (leAt a.body 1 1 % 8) = some fl := known
  have noCtx : ((tackTaken s a l1 l2).closeRx src (leAt a.body 1 1 % 8)).openCtxs = [] := by
    rw [closeRx_sinkOnly found sink noSpan noSource]
    exact idle
  rw [execTackGiveup, onTack_oldest h]
  dsimp only
  rw [if_neg (by simpa [flow_of_flow? found, sink] using epoch), noCtx]
  rfl

theorem execTackGiveup_late (h : Acknowledged s src 4 a l1 l2) (hvc : vc = leAt a.body 1 1 % 8) (late : leAt a.body 2 2 < r.epoch) :
    execTackGiveup src s = .next (tackTaken s a l1 l2) := by
  subst hvc
  have found : (tackTaken s a l1 l2).flow? src (leAt a.body 1 1 % 8) = some fl := known
  rw [execTackGiveup, onTack_oldest h]
  exact congrArg _ (if_pos (by simpa [flow_of_flow? found, sink] using late))

end

/-- Settles O40: the flow that the TACK names is known behind it, and what the TACK says of it counts where its epoch is the flow's. -/
theorem acknowledgements : Obligations.Acknowledgements := by
  intro s src vc a l1 l2 hvc u
  dsimp only [exec]
  refine ⟨fun fl t seq tack known source epoch own => ?ack, fun fl t tack known source epoch => ?nak,
    fun fl t tack known source late => execTackNak_late known source tack hvc late,
    fun fl t tack known source epoch => execTackReset_epoch known source tack hvc epoch, fun tack => onTack_oldest tack _,
    fun fl r tack known sink noSpan epoch noSource idle => ?giveUp, fun fl r tack known sink late => execTackGiveup_late known sink tack hvc late⟩
  case ack =>
    subst own
    exact execTackAck_epoch known source tack hvc epoch
  case nak =>
    have names := flow?_names known
    have told : (toldWindow (tackTaken s a l1 l2) fl t (leAt a.body 8 2)).flow? src vc =
        some { fl with idleAt := s.now, tx := some { t with window := some (leAt a.body 8 2) } } :=
      flow?_setFlow (known : (tackTaken s a l1 l2).flow? src vc = some fl) names
    have budget : (toldWindow (tackTaken s a l1 l2) fl t (leAt a.body 8 2)).fab.maxRetx = s.fab.maxRetx := setFlow_maxRetx
    rw [execTackNak_epoch known source tack hvc epoch]
    refine ⟨fun none => ?_, fun k rest kept less => ?_, fun k rest kept spent => ?_⟩
    · rw [retransmit_nil told rfl none]
      rfl
    · rw [retransmit_again told rfl kept (by rwa [budget])]
      rfl
    · rw [retransmit_giveUp told rfl kept (by rwa [budget])]
      rfl
  case giveUp =>
    rw [execTackGiveup_closes known sink tack hvc noSpan epoch noSource idle]
    exact congrArg _ (closeRx_sinkOnly (known : (tackTaken s a l1 l2).flow? src vc = some fl) sink noSpan noSource)

end Sys2Proof.Proofs
end

section
/-!
The circuit messages (09 R267-R270): what a message that has been consumed leaves of the switch, and what each of them does to the entry.
-/

namespace Sys2Proof.Proofs

open Sys2Proof Sys2Proof.Machine Sys2Proof.Claims

variable {s : State} {p id op : Nat} {a : Arrived} {l1 l2 : List Arrived} {x : Circuit}

/-- The oldest circuit message of the port is handled behind its own consumption (10 R286). -/
theorem onCctl_oldest (h : CircuitMessage s p op a l1 l2) (go : Nat → Arrived → State → State) :
    onCctl p op s go = .next (go (leAt a.body 2 2 % 4096) a (consumed s a l1 l2)) := by
  obtain ⟨port, up, clock, waits, others, ftype, own, isOp⟩ := h
  have oldest : pick (fun a : Arrived => a.ftype == 5 && a.port == some p) s.fab.inbox = some (a, l1 ++ l2) := by
    rw [waits]
    refine pick_append (fun z mem => ?_) (by simp [ftype, own])
    rcases others z mem with other | other <;> simp [other]
  rw [onCctl, onUnit_present (decide_eq_true port)]
  simp only [oldest]
  exact when'_true (by simp [up, clock, isOp])

/-! A message that has been consumed leaves the circuits, the switch's place and its edge ports. -/

theorem carried_consumed : Carried s (consumed s a l1 l2) := by
  refine .trans ?_ (carried_freeEject _ _ _)
  exact .of_eq rfl rfl rfl rfl

@[simp] theorem consumed_dev : (consumed s a l1 l2).dev = s.dev :=
  (freeEject_keeps a.src a.vc a.cells).dev rfl

@[simp] theorem consumed_circuit? : (consumed s a l1 l2).circuit? id = s.circuit? id := by
  rw [State.circuit?, carried_consumed.circuits, State.circuit?]

@[simp] theorem consumed_hereAddr : (consumed s a l1 l2).fab.hereAddr = s.fab.hereAddr := by
  have here : (consumed s a l1 l2).fab.here = s.fab.here := congrArg (fun z : Word × Word × Word => z.2.2) carried_consumed.site
  rw [Fabric.hereAddr, here, Fabric.hereAddr]

@[simp] theorem consumed_edgePort (ep : Nat) : (consumed s a l1 l2).edgePort ep = s.edgePort ep := by
  unfold State.edgePort
  rw [consumed_hereAddr, carried_consumed.edges]

/-! The table outside Grisaille mode, where it is frozen (12 R361). -/

theorem setCircuit_running (running : s.dev = .running) (x : Circuit) : s.setCircuit id x = withCircuit s id x :=
  if_neg (by simp [running])

theorem freeCircuit_running (running : s.dev = .running) : s.freeCircuit id = s.setFab { s.fab with circuits := tdel s.fab.circuits id } :=
  if_neg (by simp [running])

/-! CSETUP at a switch on its way (09 R268 steps 2 and 3). -/

theorem setUpHop_inUse (used : s.circuit? id ≠ none) :
    s.setUpHop p id a = s.cctlOn p (cctlBody 3 stState id (cctlSource a.body) (cctlDest a.body)) :=
  if_pos (Option.isSome_iff_ne_none.mpr used)

section
variable (free : s.circuit? id = none)
include free

theorem setUpHop_grisaille (frozen : s.dev = .grisaille) : s.setUpHop p id a =
    (s.noteDev 361 0 stDegraded []).cctlOn p (cctlBody 3 stDegraded id (cctlSource a.body) (cctlDest a.body)) := by
  unfold State.setUpHop
  dsimp only
  rw [if_neg (by simp [free]), if_pos (by simp [frozen])]

theorem setUpHop_last {q : Nat} (running : s.dev = .running) (here : switchOf (cctlDest a.body) = s.fab.hereAddr)
    (edge : s.edgePort (cctlDest a.body) = some q) : s.setUpHop p id a =
    (withCircuit s id { ent := circuitEnt 2 false true p q (cctlDest a.body), source := cctlSource a.body }).cctlOn p
      (cctlBody 2 stOk id (cctlSource a.body) (cctlDest a.body)) := by
  unfold State.setUpHop
  dsimp only
  rw [if_neg (by simp [free]), if_neg (by simp [running]), if_pos here, edge, ← setCircuit_running running]

theorem setUpHop_goesOn {q : Nat} {came g : Frame} (running : s.dev = .running) (away : switchOf (cctlDest a.body) ≠ s.fab.hereAddr)
    (brought : a.frame = some came) (way : s.circuitOn p came (cctlSource a.body) (cctlDest a.body) = some (q, g)) : s.setUpHop p id a =
    (withCircuit s id { ent := circuitEnt 1 false false p q (cctlDest a.body), source := cctlSource a.body }).cctlOn q
      (cctlBody 1 stOk id (cctlSource a.body) (cctlDest a.body)) (some g) := by
  unfold State.setUpHop
  dsimp only
  rw [if_neg (by simp [free]), if_neg (by simp [running]), if_neg away, brought, Option.getD_some, way, ← setCircuit_running running]

end

/-! The messages that come back along a circuit count at the entry whose OUT_LPORT they come in on. -/

theorem fromOut_own {go : Circuit → State} (found : s.circuit? id = some x) (out : x.outPort = p) (way : x.term = false) :
    s.fromOut p id go = go x := by
  simp only [State.fromOut, found]
  exact if_pos (by simp [out, way])

theorem fromOut_other {go : Circuit → State} (found : s.circuit? id = some x) (out : x.outPort ≠ p) : s.fromOut p id go = s := by
  simp only [State.fromOut, found]
  exact if_neg (by simp [out])

/-- A circuit torn down from its OUT_LPORT: CTEAR goes on to its IN_LPORT. -/
theorem tearCircuit_fromOut (running : s.dev = .running) (found : s.circuit? id = some x) (out : x.outPort = p) :
    s.tearCircuit id (some p) = if x.orig ∨ x.inPort = p then s.setFab { s.fab with circuits := tdel s.fab.circuits id }
      else State.cctlOn (s.setFab { s.fab with circuits := tdel s.fab.circuits id }) x.inPort (cctlBody 4 stOk id x.source x.dest) := by
  unfold State.tearCircuit
  rw [found]
  have stays : (x.term || some p == some x.outPort) = true := by simp [out]
  simp only [stays, if_true, freeCircuit_running running]
  exact if_congr (by simp [@eq_comm _ p]) rfl rfl

theorem breakCircuit_running (running : s.dev = .running) (found : s.circuit? id = some x) :
    s.breakCircuit id = if x.orig then (withCircuit s id (x.setSt 3)).interrupt x.owner 2
      else (withCircuit s id (x.setSt 3)).cctlOn x.inPort (cctlBody 5 stOk id x.source x.dest) := by
  unfold State.breakCircuit
  rw [found]
  dsimp only
  rw [setCircuit_running running]

section
variable (own : id = leAt a.body 2 2 % 4096) (found : s.circuit? id = some x)
include own found

theorem execCready_inSetup (out : x.outPort = p) (way : x.term = false) (message : CircuitMessage s p 2 a l1 l2) (setup : x.st = 1)
    (running : s.dev = .running) : execCready p s = .next (if x.orig
      then (withCircuit (consumed s a l1 l2) id (x.setSt 2)).endWaits (WaitsOn.isCircuit id) stOk []
      else (withCircuit (consumed s a l1 l2) id (x.setSt 2)).cctlOn x.inPort a.body) := by
  subst own
  have frozen : (consumed s a l1 l2).dev = .running := by simpa using running
  rw [execCready, onCctl_oldest message, fromOut_own (by simpa using found) out way]
  dsimp only
  rw [if_neg (by simp [setup]), if_neg (by simp [running]), setCircuit_running frozen]

theorem execCready_late (out : x.outPort = p) (way : x.term = false) (message : CircuitMessage s p 2 a l1 l2) (late : x.st ≠ 1) :
    execCready p s = .next (consumed s a l1 l2) := by
  subst own
  rw [execCready, onCctl_oldest message, fromOut_own (by simpa using found) out way]
  exact congrArg _ (if_pos (by simpa using late))

theorem execCfail_frees (out : x.outPort = p) (way : x.term = false) (message : CircuitMessage s p 3 a l1 l2) (running : s.dev = .running)
    {gone : State} (freed : gone = (consumed s a l1 l2).setFab
      { (consumed s a l1 l2).fab with circuits := tdel (consumed s a l1 l2).fab.circuits id }) :
    execCfail p s = .next (if x.orig then gone.endWaits (WaitsOn.isCircuit id) (leAt a.body 1 1) [] else gone.cctlOn x.inPort a.body) := by
  subst own freed
  rw [execCfail, onCctl_oldest message, fromOut_own (by simpa using found) out way]
  dsimp only
  rw [freeCircuit_running (by simpa using running)]

theorem execCtear_fromOut (out : x.outPort = p) (message : CircuitMessage s p 4 a l1 l2) (running : s.dev = .running)
    {gone : State} (freed : gone = (consumed s a l1 l2).setFab
      { (consumed s a l1 l2).fab with circuits := tdel (consumed s a l1 l2).fab.circuits id }) :
    execCtear p s = .next ((if x.orig ∨ x.inPort = p then gone else gone.cctlOn x.inPort (cctlBody 4 stOk id x.source x.dest)).endWaits
      (WaitsOn.isCircuit id) stState []) := by
  subst own freed
  rw [execCtear, onCctl_oldest message]
  simp only [consumed_circuit?, found]
  rw [if_pos (by simp [out]), tearCircuit_fromOut (by simpa using running) (by simpa using found) out]

theorem execCbroken_fromOut (out : x.outPort = p) (way : x.term = false) (message : CircuitMessage s p 5 a l1 l2)
    (running : s.dev = .running) : execCbroken p s = .next (if x.orig
      then (withCircuit (consumed s a l1 l2) id (x.setSt 3)).interrupt x.owner 2
      else (withCircuit (consumed s a l1 l2) id (x.setSt 3)).cctlOn x.inPort (cctlBody 5 stOk id x.source x.dest)) := by
  subst own
  rw [execCbroken, onCctl_oldest message, fromOut_own (by simpa using found) out way,
    breakCircuit_running (by simpa using running) (by simpa using found)]

/-- CREADY, CFAIL and CBROKEN that come in elsewhere are consumed and change nothing else. -/
theorem onCctl_fromElsewhere (message : CircuitMessage s p op a l1 l2) (out : x.outPort ≠ p) (go : Nat → Arrived → State → Circuit → State) :
    onCctl p op s (fun id a s => s.fromOut p id (go id a s)) = .next (consumed s a l1 l2) := by
  subst own
  rw [onCctl_oldest message, fromOut_other (by simpa using found) out]

end

theorem circuitTimeouts (found : s.circuit? id = some x) (up : s.fabricUp = true) (clock : s.aclk = true) :
    (x.orig = true → x.st = 1 ∨ s.circuitAwaited id = true → x.sentAt + 12500000 ≤ s.now →
      execCircuitTimeout id s = .next ((s.tearCircuit id none).endWaits (WaitsOn.isCircuit id) stTimeout [])) ∧
    (s.now < x.sentAt + 12500000 → execCircuitTimeout id s = .next s) := by
  simp only [execCircuitTimeout, found]
  exact ⟨fun orig waits due => when'_true (by simpa [up, clock, orig, due] using waits), fun early => when'_false (by simp [early])⟩

/-- Settles O39: each message acts on the entry of its circuit behind its own consumption, which leaves the entry and the ports as they were. -/
theorem circuitMessages : Obligations.CircuitMessages := by
  intro s p id a l1 l2 own u src dst
  have setUp (message : CircuitMessage s p 1 a l1 l2) : execCsetup p s = .next (u.setUpHop p id a) :=
    own ▸ onCctl_oldest message _
  dsimp only [exec]
  refine ⟨fun message used => ?inUse, fun message free frozen => ?grisaille, fun q message free running here edge => ?last,
    fun q message free running away came g brought way => ?goesOn, fun x found out way => ?back,
    fun op x back message found out => ?elsewhere, fun x => circuitTimeouts⟩
  case inUse => exact (setUp message).trans (congrArg _ (setUpHop_inUse fun free => used (consumed_circuit?.symm.trans free)))
  case grisaille =>
    exact (setUp message).trans (congrArg _ (setUpHop_grisaille (consumed_circuit?.trans free) (consumed_dev.trans frozen)))
  case last =>
    exact (setUp message).trans (congrArg _ (setUpHop_last (consumed_circuit?.trans free) (consumed_dev.trans running)
      (here.trans consumed_hereAddr.symm) ((consumed_edgePort _).trans edge)))
  case goesOn =>
    exact (setUp message).trans (congrArg _ (setUpHop_goesOn (consumed_circuit?.trans free) (consumed_dev.trans running)
      (fun here => away (here.trans consumed_hereAddr)) brought way))
  case back =>
    exact ⟨execCready_inSetup own found out way, execCready_late own found out way,
      fun message running => execCfail_frees own found out way message running rfl,
      fun message running => execCtear_fromOut own found out message running rfl, execCbroken_fromOut own found out way⟩
  case elsewhere =>
    have ops : op = 2 ∨ op = 3 ∨ op = 5 := by simpa using back
    rcases ops with rfl | rfl | rfl
    all_goals exact onCctl_fromElsewhere own found message out _

end Sys2Proof.Proofs
end

section
/-!
The link states (09 R239-R247): the flit that HELLO sends, and what a port that comes UP finds.
-/

namespace Sys2Proof.Proofs

open Sys2Proof Sys2Proof.Machine Sys2Proof.Claims

variable {s : State} {p : Nat}

/-! A flit (09 R243): its header, its payload and its LCRC are read back. -/

section
variable (hdr : Nat) (payload : Bytes)

theorem length_flitOf : (flitOf hdr payload).length = 256 := by
  simp [flitOf, length_toLE, length_slice]

theorem lcrc32_lt (b : Bytes) : lcrc32 b < 2 ^ 32 :=
  Nat.xor_lt_two_pow (crcRun_lt (by decide) (by decide) b (by decide)) (by decide)

theorem lcrcOk_flitOf : lcrcOk (flitOf hdr payload) = true := by
  have covered : (toLE 4 hdr ++ slice payload 0 248).length = 252 := by simp [length_toLE, length_slice]
  have front : (flitOf hdr payload).take 252 = toLE 4 hdr ++ slice payload 0 248 := by
    rw [flitOf, ← covered, List.take_left]
  have check : leAt (flitOf hdr payload) 252 4 = lcrc32 (toLE 4 hdr ++ slice payload 0 248) := by
    have read := leAt_toLE (toLE 4 hdr ++ slice payload 0 248) [] 4 (lcrc32 (toLE 4 hdr ++ slice payload 0 248))
    rwa [covered, List.append_nil, Nat.mod_eq_of_lt (show _ < 256 ^ 4 from lcrc32_lt _)] at read
  simp [lcrcOk, length_flitOf, check, front]

theorem flitHdr_flitOf : flitHdr (flitOf hdr payload) = hdr % 256 ^ 4 := by
  rw [flitHdr, flitOf, List.append_assoc]
  exact leAt_toLE [] _ 4 hdr

theorem leAt_flitOf {off len : Nat} (inside : off + len ≤ 248) : leAt (flitOf hdr payload) (4 + off) len = leAt payload off len := by
  have behind : leAt (flitOf hdr payload) (4 + off) len = leAt ((flitOf hdr payload).drop 4) off len := (leAt_drop _ _ _ _).symm
  have payloadThere : (flitOf hdr payload).drop 4 = slice payload 0 248 ++ toLE 4 (lcrc32 (toLE 4 hdr ++ slice payload 0 248)) := by
    rw [flitOf, List.append_assoc, List.drop_left' (length_toLE 4 hdr)]
  have front : slice (slice payload 0 248 ++ toLE 4 (lcrc32 (toLE 4 hdr ++ slice payload 0 248))) off len = slice (slice payload 0 248) off len := by
    have room : len ≤ ((slice payload 0 248).drop off).length := by rw [List.length_drop, length_slice]; omega
    unfold slice at room ⊢
    rw [List.drop_append_of_le_length (by simp at room ⊢; omega), List.take_append_of_le_length room]
  rw [behind, payloadThere, leAt, front, slice_slice inside, ← leAt]

end

/-! A LINK flit that leaves (09 R244). -/

theorem leAt_toLE_at {front behind : Bytes} {off len x : Nat} (length : front.length = off) :
    leAt (front ++ (toLE len x ++ behind)) off len = x % 256 ^ len :=
  length ▸ leAt_toLE front behind len x

/-- The byte of flags of a LINK flit's payload (09 R244). -/
theorem leAt_linkPayload_flags (i : LinkInfo) : leAt (s.linkPayload p i) 56 1 =
    (b2n i.treq + 2 * b2n i.answer.isSome + 4 * b2n s.clock.locked + 8 * b2n i.hello) % 256 := by
  unfold State.linkPayload
  dsimp only
  rw [List.append_assoc, List.append_assoc]
  exact leAt_toLE_at (by simp [length_toLE])

/-- The flit that `sendLink` sends. -/
def sentLink (s : State) (p : Nat) (i : LinkInfo) : Bytes := flitOf (2 ^ 17 * 2) (s.linkPayload p i)

theorem sendLink_outs (i : LinkInfo) : (s.sendLink p i).outs = s.outs ++ [.flit p (sentLink s p i)] := rfl

theorem lport_sendLink_of_ne {q : Nat} (other : q ≠ p) (i : LinkInfo) : (s.sendLink p i).lport q = s.lport q :=
  (lport_setLPort _ _ _).trans (if_neg other)

theorem flitKind_sentLink (i : LinkInfo) : flitKind (sentLink s p i) = 2 := by
  rw [flitKind, sentLink, flitHdr_flitOf]
  rfl

theorem sentLink_flags (i : LinkInfo) : leAt (sentLink s p i) 60 1 =
    (b2n i.treq + 2 * b2n i.answer.isSome + 4 * b2n s.clock.locked + 8 * b2n i.hello) % 256 :=
  (leAt_flitOf (off := 56) _ _ (by decide)).trans (leAt_linkPayload_flags i)

/-! Frames that waited for a link leave it as it is. -/

theorem carried_reroute (q : Option Nat) (f : Queued) : Carried s (s.reroute q f) := by
  unfold State.reroute
  split
  · exact (carried_note _ _ _ _ _ _).trans (carried_dropCopy _)
  · exact (carried_note _ _ _ _ _ _).trans (carried_dropCopy _)
  · exact (carried_note _ _ _ _ _ _).trans (carried_dropCopy _)
  · exact carried_takeHop _ _ _ _

theorem carried_requeueAll (q : Nat) : Carried s (s.requeueAll q) := by
  refine .trans ?_ (.foldl _ fun _ _ => carried_reroute _ _)
  exact carried_setLPort rfl

theorem carried_interruptAll (n : Nat) : Carried s (s.interruptAll n) :=
  .of_fab ((keeps_State_interruptAll n (.refl s) : Keeps true true true true true true true true false true true true true s _).fab rfl)

/-! The port enters UP (09 R242). -/

/-- Port `p` is UP in epoch `e`, with no flit sent or received, none kept and no credit (09 R242, R245). -/
structure Raised (s : State) (p e : Nat) : Prop where
  st : (s.lport p).st = .up
  epoch : (s.lport p).epoch = e
  txSeq : (s.lport p).txSeq = 0
  rxSeq : (s.lport p).rxSeq = 0
  txBuf : (s.lport p).txBuf = []
  credit : (s.lport p).credit = []

theorem Raised.carried {t : State} {e : Nat} (h : Raised s p e) (c : Carried s t) : Raised t p e where
  st := (congrArg LPort.st (c.link p) : (linkOf (t.lport p)).st = _).trans h.st
  epoch := (congrArg LPort.epoch (c.link p) : (linkOf (t.lport p)).epoch = _).trans h.epoch
  txSeq := (congrArg LPort.txSeq (c.link p) : (linkOf (t.lport p)).txSeq = _).trans h.txSeq
  rxSeq := (congrArg LPort.rxSeq (c.link p) : (linkOf (t.lport p)).rxSeq = _).trans h.rxSeq
  txBuf := (congrArg LPort.txBuf (c.link p) : (linkOf (t.lport p)).txBuf = _).trans h.txBuf
  credit := (congrArg LPort.credit (c.link p) : (linkOf (t.lport p)).credit = _).trans h.credit

theorem lport_lapse (q : Nat) : (s.lapse p).lport q =
    if q = p then { s.lport p with rxFrames := (s.lport p).rxFrames.map (fun f => (f.1, f.2.1, f.2.2.lapsed p)) } else s.lport q :=
  lport_setLPort _ _ _

/-- Behind the change of the port itself, coming UP moves the frames that were held. -/
theorem goUp_raises {h : Hello} (heard : (s.lport p).hello = some h) :
    ∃ v, s.goUp p = ((v.heldWith p).foldl (fun w q => w.requeueAll q) v).interruptAll 6 ∧
      Raised v p ((max (s.lport p).epoch h.epoch + 1) % 65536) ∧ (v.lport p).queues = (s.lport p).queues ∧
      ∀ q, q ≠ p → v.lport q = s.lport q := by
  unfold State.goUp
  extract_lets w x peer v
  have own : x = { s.lport p with rxFrames := (s.lport p).rxFrames.map (fun f => (f.1, f.2.1, f.2.2.lapsed p)) } :=
    (lport_lapse p).trans (if_pos rfl)
  have heardThere : peer = h.epoch := by simp [peer, own, heard]
  refine ⟨v, rfl, ⟨?_, ?_, ?_, ?_, ?_, ?_⟩, ?_, fun q other => ?_⟩
  · simp [v]
  · simp [v, own, heardThere]
  · simp [v]
  · simp [v]
  · simp [v]
  · simp [v]
  · simp [v, own]
  · simp [v, other, w, lport_lapse]

/-! The events of a port that exists. -/

theorem onPort_runs (runs : PortRuns s p) (c : Bool) (go : State) : onPort s p c go = when' c s go := by
  obtain ⟨port, up, clock, there⟩ := runs
  rw [onPort, onUnit_present (decide_eq_true port), up, clock, there, Bool.and_self, Bool.and_self, Bool.true_and]

theorem execHelloSend_due (runs : PortRuns s p) (hello : (s.lport p).st = .hello)
    (due : ∀ t, (s.lport p).helloAt = some t → t + 1024 ≤ s.now) :
    execHelloSend p s = .next ((s.sendLink p { hello := true }).modLPort p (fun x => { x with helloAt := some s.now })) := by
  rw [execHelloSend, onPort_runs runs]
  exact when'_true (by simpa [hello, Option.all_eq_true] using due)

/-- What takes a link down (09 R239, R247): the replay budget is spent, or the FEC is lost, or no good flit has come for 10,000 ACLK, or the
port is disabled. -/
def DownDue (s : State) (p : Nat) (why : DownCause) : Prop :=
  why = .replayBudget ∧ 9 ≤ ((s.lport p).events.filter (fun t => decide (s.now < t + 25000))).length ∨ why = .fecLoss ∨
    why = .lcrcSilence ∧ (s.lport p).goodAt + 10000 ≤ s.now ∨ why = .disabled ∧ (s.port (p / 8)).enabled = false

theorem execLinkDown_due {why : DownCause} (runs : PortRuns s p) (up : (s.lport p).st = .up) (due : DownDue s p why) :
    execLinkDown p why s = .next (s.goDown p) := by
  obtain ⟨port, fabric, clock, -⟩ := runs
  unfold execLinkDown
  rw [onUnit_present (decide_eq_true port)]
  refine when'_true ?_
  rcases due with ⟨rfl, spent⟩ | rfl | ⟨rfl, silent⟩ | ⟨rfl, disabled⟩
  · simp [fabric, clock, LPort.up, up, spent]
  · simp [fabric, clock, LPort.up, up]
  · simp [fabric, clock, LPort.up, up, silent]
  · simp [fabric, clock, LPort.up, up, disabled]

theorem execLinkDown_notUp {why : DownCause} (runs : PortRuns s p) (notUp : (s.lport p).st ≠ .up) : execLinkDown p why s = .next s := by
  obtain ⟨port, -⟩ := runs
  unfold execLinkDown
  rw [onUnit_present (decide_eq_true port)]
  exact when'_false (by simp [LPort.up, notUp])

/-- Settles O34: the events of one port in each of its states; what a port that comes UP finds is kept by the frames that then move. -/
theorem linkStates : Obligations.LinkStates := by
  intro s p runs x
  dsimp only [exec]
  refine ⟨fun down due on => ?trains, fun down due off => ?disabled, fun down early => ?waits, fun training => ?trained,
    fun training due => ?failed, fun hello due => ?hello, fun hello fails => ?stays, fun h hello heard passes => ?up,
    fun why up due => execLinkDown_due runs up due, fun notUp why => execLinkDown_notUp runs notUp⟩
  case trains =>
    rw [execLinkDownTimer, onPort_runs runs, msAclk_eq, on]
    exact when'_true (by simpa [x] using ⟨down, due⟩)
  case disabled =>
    rw [execLinkDownTimer, onPort_runs runs, msAclk_eq, off]
    exact when'_true (by simpa [x] using ⟨down, due⟩)
  case waits =>
    rw [execLinkDownTimer, onPort_runs runs, msAclk_eq]
    exact when'_false (by simpa [x, down] using early)
  case trained =>
    rw [execTrainingSuccess, onPort_runs runs]
    exact when'_true (by simpa [x] using training)
  case failed =>
    rw [execTrainingTimeout, onPort_runs runs, msAclk_eq]
    exact when'_true (by simpa [x] using ⟨training, due⟩)
  case hello =>
    refine ⟨_, sentLink s p { hello := true }, execHelloSend_due runs hello due, sendLink_outs _,
      length_flitOf _ _, lcrcOk_flitOf _ _, flitKind_sentLink _, ?_, ?_, fun q other => ?_⟩
    · rw [sentLink_flags]
      cases s.clock.locked <;> rfl
    · rw [State.modLPort, lport_setLPort, if_pos rfl]
    · rw [State.modLPort, lport_setLPort, if_neg other, lport_sendLink_of_ne other]
  case stays =>
    rw [execLinkUp, onPort_runs runs]
    exact when'_false (by simp [fails])
  case up =>
    have leaves : s.helloPasses p = true := by
      simp only [State.helloPasses, show (s.lport p).hello = some h from heard, passes, List.isEmpty_nil]
    obtain ⟨v, change, raised, queues, others⟩ := goUp_raises heard
    have moves : Carried v (s.goUp p) := by
      rw [change]
      exact .trans (.foldl _ fun _ _ => carried_requeueAll _) (carried_interruptAll 6)
    refine ⟨_, v, ?_, change, fun w which => ?_, queues, others⟩
    · rw [execLinkUp, onPort_runs runs]
      exact when'_true (by simpa [leaves] using hello)
    · have moved : Carried v w := by
        rcases which with rfl | rfl
        · exact .refl _
        · exact moves
      obtain ⟨st, epoch, txSeq, rxSeq, txBuf, credit⟩ := raised.carried moved
      refine ⟨st, epoch, txSeq, rxSeq, txBuf, credit, fun q other => ?_⟩
      rw [← others q other]
      exact (congrArg LPort.st (moved.link q) : (linkOf (w.lport q)).st = _)

end Sys2Proof.Proofs
end

section
/-!
What a link that goes down leaves of the physical ports (09 R236, R247; 12 R338, R357, R358): the endpoint's health may cost it its ranks and
their generations, which moves frames alone.
-/

namespace Sys2Proof.Proofs

open Sys2Proof Sys2Proof.Machine Sys2Proof.Claims

variable {s : State}

/-! A rank that is fenced, and the generations that fail with it (12 R338-R342). -/

theorem carried_modGen (c : Nat) (num : Word) (f : Gen → Gen) : Carried s (s.modGen c num f) := .of_fab (modGen_fab f)

theorem carried_dropStaged (c : Nat) (num : Word) (p : Nat → Bool) : Carried s (s.dropStaged c num p) := by
  unfold State.dropStaged
  dsimp only
  split
  · exact .refl s
  · exact .trans (.foldl _ fun _ _ => carried_freeAccount _ _) (carried_modGen _ _ _)

theorem carried_clearEasel (n c : Nat) (num : Word) : Carried s (s.clearEasel n c num) := by
  unfold State.clearEasel
  refine .trans ?_ (.foldl _ fun _ _ => carried_freeEject _ _ _)
  exact .of_fab rfl

theorem carried_failQuiet (c : Nat) (num : Word) (status : Nat) : Carried s (s.failQuiet c num status) := by
  unfold State.failQuiet
  split
  · exact .refl s
  · split
    · exact carried_modGen _ _ _
    · refine .trans ?_ (carried_modGen _ _ _)
      exact .trans (.foldl _ fun _ _ => carried_clearEasel _ _ _) (carried_dropStaged _ _ _)

theorem carried_failGen (c : Nat) (num : Word) (status : Nat) : Carried s (s.failGen c num status) := by
  unfold State.failGen
  split
  · exact .refl s
  · exact .ite ((carried_failQuiet _ _ _).trans (carried_modGen _ _ _)) (carried_failQuiet _ _ _)

theorem carried_fenceGens (c : Nat) : Carried s (s.fenceGens c) :=
  .foldl _ fun s _ => .ite (.refl s) (carried_failGen _ _ _)

theorem carried_rosterTo (dest : Nat) (body : Bytes) : Carried s (s.rosterTo dest body) := carried_originate _ _ _ _ _

theorem carried_toAuthority (body : Bytes) : Carried s (s.toAuthority body) := .ite (carried_rosterTo _ _) (.refl s)

theorem carried_rosterNode (c a : Nat) (body : Bytes) : Carried s (s.rosterNode c a body) :=
  .ite (.of_eq rfl rfl rfl rfl) (carried_originate _ _ _ _ _)

theorem carried_spread (c : Nat) (skip : Option Nat) (body : Bytes) : Carried s (s.spread c skip body) :=
  .foldl _ fun _ _ => carried_rosterNode _ _ _

theorem carried_sendFenced (ep : Nat) (m : Bytes) : Carried s (s.sendFenced ep m) := by
  refine .trans ?_ (carried_rosterTo _ _)
  exact .of_fab rfl

theorem carried_fenceRank (c r : Nat) (skip : Option Nat) : Carried s (s.fenceRank c r skip) := by
  unfold State.fenceRank
  dsimp only
  refine .ite (.refl s) ?_
  refine .trans ?_ (carried_fenceGens _)
  refine .trans ?_ (carried_sendFenced _ _)
  refine .trans ?_ (carried_toAuthority _)
  refine .trans ?_ (carried_spread _ _ _)
  exact .of_fab rfl

theorem carried_fenceEndpoint (ep : Nat) : Carried s (s.fenceEndpoint ep) :=
  .foldl _ fun s _ => .ite (.foldl _ fun _ _ => carried_fenceRank _ _ _) (.refl s)

/-! An endpoint's health (12 R357, R358). -/

theorem carried_alertBit (b : Nat) : Carried s (s.alertBit b) := .of_fab (State.setHot_fab _ _ _ _)

theorem carried_sendExpel (e status : Nat) : Carried s (s.sendExpel e status) :=
  .trans (.trans (carried_toAuthority _) (carried_interruptAll 8)) (carried_alertBit 5)

theorem carried_expulsion (e : Nat) : Carried s (s.expulsion e) := by
  unfold State.expulsion
  dsimp only
  refine .ite (.refl s) (.ite ?_ ?_)
  · unfold State.expel
    refine .trans ?_ (carried_sendExpel _ _)
    refine .trans ?_ (carried_fenceEndpoint _)
    exact .of_fab rfl
  · refine .trans ?_ (carried_sendExpel _ _)
    exact .of_fab rfl

theorem carried_addHealth (ep w : Nat) : Carried s (s.addHealth ep w) := by
  unfold State.addHealth
  refine .ite ?_ (.refl s)
  refine .trans ?_ (carried_expulsion _)
  exact .of_fab rfl

/-! A link goes down (09 R247, R269). -/

theorem carried_takeBack (p : Nat) (q : Queued) : Carried s (s.takeBack p q) :=
  .trans (carried_store _ _ _) (carried_reroute _ _)

theorem carried_cctlOn (p : Nat) (body : Bytes) (route : Option Frame) : Carried s (s.cctlOn p body route) := by
  unfold State.cctlOn
  split
  · exact carried_privOrig _
  · exact .refl s

theorem setCircuit_ports (id : Nat) (x : Circuit) : (s.setCircuit id x).fab.ports = s.fab.ports := by
  unfold State.setCircuit
  split
  · exact (carried_note _ _ _ _ _ _).ports
  · rfl

theorem breakCircuit_ports (id : Nat) : (s.breakCircuit id).fab.ports = s.fab.ports := by
  unfold State.breakCircuit
  split
  · rfl
  · dsimp only
    split
    · exact setCircuit_ports _ _
    · exact (carried_cctlOn _ _ _).ports.trans (setCircuit_ports _ _)

theorem foldl_ports {α : Type} {f : State → α → State} (l : List α) (each : ∀ s x, (f s x).fab.ports = s.fab.ports) :
    (l.foldl f s).fab.ports = s.fab.ports := by
  induction l generalizing s with
  | nil => rfl
  | cons x l ih => exact ih.trans (each s x)

theorem goDown_ports (p : Nat) : (s.goDown p).fab.ports = s.fab.ports := by
  unfold State.goDown
  extract_lets x u broken taken requeued blamed
  split
  · have circuits : broken.fab.ports = u.fab.ports := foldl_ports _ fun _ _ => breakCircuit_ports _
    have back : Carried broken taken := .foldl _ fun _ _ => carried_takeBack _ _
    have health : Carried requeued blamed := .ite (carried_addHealth _ _) (.refl _)
    rw [(carried_interruptAll 6).ports, health.ports, (carried_requeueAll p).ports, back.ports, circuits]
    rfl
  · rfl

end Sys2Proof.Proofs
end

section
/-!
The registers of a port in BAR0 (09 R236, R237, R280; 10 R283-R305): where a write goes, and what it makes of the port.
-/

namespace Sys2Proof.Proofs

open Sys2Proof Sys2Proof.Machine Sys2Proof.Claims

variable {s₀ s : State} {n r k p vc c : Nat} {v : Word}

theorem fld_eq_div_mod (x lo len : Nat) : fld x lo len = x / 2 ^ lo % 2 ^ len := by
  rw [fld, Nat.shiftRight_eq_div_pow]

/-! Where a write of PF0 goes. -/

theorem writeWord_port (port : n < 128) (window : r < 0x1000) :
    s.writeWord 0 (0x10_0000 + 0x1000 * n + r) v.toNat = (s.writePort n r v.toNat).host s 0 := by
  have block : (0x10_0000 + 0x1000 * n + r - 0x10_0000) / 0x1000 = n := by omega
  have offset : (0x10_0000 + 0x1000 * n + r) % 0x1000 = r := by omega
  unfold State.writeWord State.writeShared
  repeat rw [if_neg (by omega)]
  rw [if_pos (by omega), block, offset]
  rfl

theorem writeWord_sched (port : n < 128) (window : r < 0x2000) :
    s.writeWord 0 (0x20_0000 + 0x2000 * n + r) v.toNat = (s.writeSchedBlock false n r v.toNat).host s 0 := by
  have block : (0x20_0000 + 0x2000 * n + r - 0x20_0000) / 0x2000 = n := by omega
  have offset : (0x20_0000 + 0x2000 * n + r) % 0x2000 = r := by omega
  unfold State.writeWord State.writeShared
  repeat rw [if_neg (by omega)]
  rw [if_pos (by omega), block, offset]
  rfl

section
variable (h : Writes s₀ s 0) (port : n < 128)
include h port

theorem onPortReg_port (window : r < 0x1000) :
    onPortReg s₀ 0 n 0x10_0000 0x1000 r v = .next ((s.writePort n r v.toNat).host s 0) := by
  rw [onPortReg, onUnit_present (decide_eq_true port), onWord_of_writes h, writeWord_port port window]

theorem onPortReg_sched (window : r < 0x2000) :
    onPortReg s₀ 0 n 0x20_0000 0x2000 r v = .next ((s.writeSchedBlock false n r v.toNat).host s 0) := by
  rw [onPortReg, onUnit_present (decide_eq_true port), onWord_of_writes h, writeWord_sched port window]

theorem exec_portCfg : exec (.portCfgWrite 0 n .portCfg v) s₀ = .next ((s.writePortCfg n v.toNat).host s 0) :=
  onPortReg_port h port (by decide)

theorem exec_lportCfg (logical : k < 8) :
    exec (.portCfgWrite 0 n (.lportCfg k) v) s₀ = .next ((s.writeLportCfg (8 * n + k) v.toNat).host s 0) := by
  have reg : s.writePort n (0x010 + 4 * k) v.toNat = s.writeLportCfg (8 * n + k) v.toNat := by
    unfold State.writePort
    rw [if_neg (by omega), if_pos (by omega), Nat.add_sub_cancel_left, Nat.mul_div_cancel_left _ (by decide)]
  rw [← reg, ← onPortReg_port h port (by omega)]
  exact onUnit_present (decide_eq_true logical)

theorem exec_lpeer (logical : k < 8) :
    exec (.portCfgWrite 0 n (.lpeer k) v) s₀ = .next ((s.writeLpeer (8 * n + k) v.toNat).host s 0) := by
  have reg : s.writePort n (0x030 + 4 * k) v.toNat = s.writeLpeer (8 * n + k) v.toNat := by
    unfold State.writePort
    rw [if_neg (by omega), if_neg (by omega), if_pos (by omega), Nat.add_sub_cancel_left, Nat.mul_div_cancel_left _ (by decide)]
  rw [← reg, ← onPortReg_port h port (by omega)]
  exact onUnit_present (decide_eq_true logical)

theorem exec_schedCfg : exec (.schedCfgWrite 0 n none v) s₀ = .next ((s.writeSched n v.toNat).host s 0) :=
  onPortReg_sched h port (by decide)

theorem exec_gateArm : exec (.gateArm 0 n v) s₀ = .next ((s.writeGateCtrl n v.toNat).host s 0) :=
  onPortReg_sched h port (by decide)

theorem exec_quantum (channel : vc < 8) :
    exec (.schedCfgWrite 0 n (some vc) v) s₀ = .next ((s.writeQuantum n vc v.toNat).host s 0) := by
  have reg : s.writeSchedBlock false n (0x040 + 4 * vc) v.toNat = s.writeQuantum n vc v.toNat := by
    interval_cases vc <;> rfl
  rw [← reg, ← onPortReg_sched h port (by omega)]
  exact onUnit_present (decide_eq_true channel)

theorem exec_shape (channel : vc < 8) (burst : Bool) :
    exec (.shapeCfgWrite 0 n vc burst v) s₀ = .next ((s.writeShape n vc burst v.toNat).host s 0) := by
  have reg : s.writeSchedBlock false n (0x080 + 8 * vc + (if burst then 4 else 0)) v.toNat = s.writeShape n vc burst v.toNat := by
    cases burst <;> interval_cases vc <;> rfl
  rw [← reg, ← onPortReg_sched h port (by cases burst <;> simp <;> omega)]
  exact onUnit_present (decide_eq_true channel)

theorem exec_bufLimit (cls : c < 16) :
    exec (.bufLimitWrite 0 n c v) s₀ = .next ((s.writeBufLimit false n c v.toNat).host s 0) := by
  have reg : s.writeSchedBlock false n (0x0C0 + 4 * c) v.toNat = s.writeBufLimit false n c v.toNat := by
    interval_cases c <;> rfl
  rw [← reg, ← onPortReg_sched h port (by omega)]
  exact onUnit_present (decide_eq_true cls)

end

theorem port_setPort (m : Nat) (x : Port) : (s.setPort n x).port m = if m = n then x else s.port m := tget_tput _ _ _ _ _

theorem port_of_ports {t : State} (same : t.fab.ports = s.fab.ports) (m : Nat) : t.port m = s.port m := by
  rw [State.port, Fabric.port, same, ← Fabric.port, ← State.port]

/-! PORT_CFG (09 R236, R237, R239). -/

theorem followEnable_ports (q : Nat) : (s.followEnable q).fab.ports = s.fab.ports := by
  unfold State.followEnable
  dsimp only
  split
  · split <;> rfl
  · split
    · exact goDown_ports q
    · split <;> rfl

/-- A logical port that is not UP follows ENABLE by its own state alone (09 R239). -/
theorem followEnable_notUp {q : Nat} (notUp : (s.lport q).up = false) :
    s.followEnable q = s ∨ ∃ x : LPort, x.up = false ∧ s.followEnable q = s.setLPort q x := by
  unfold State.followEnable
  dsimp only
  by_cases on : s.portOn q = true
  · rw [if_pos on]
    split
    · exact .inr ⟨_, rfl, rfl⟩
    · exact .inl rfl
  · rw [if_neg on, if_neg (by simp [notUp])]
    split
    · exact .inl rfl
    · exact .inr ⟨_, rfl, rfl⟩

/-- While none of the logical ports is UP, nothing is recorded. -/
theorem foldl_followEnable_diary (l : List Nat) (notUp : ∀ q ∈ l, (s.lport q).up = false) :
    (l.foldl (fun s q => s.followEnable q) s).diary = s.diary := by
  induction l generalizing s with
  | nil => rfl
  | cons q l ih =>
    obtain ⟨first, later⟩ := List.forall_mem_cons.mp notUp
    rw [List.foldl_cons]
    rcases followEnable_notUp first with same | ⟨x, down, change⟩
    · rw [same, ih later]
    · rw [change, ih]
      · rfl
      · intro m mem
        rw [lport_setLPort]
        split
        · exact down
        · exact later m mem

/-- The port as the command takes its new settings. -/
def reconfigured (s : State) (n v : Nat) : State := s.setPort n { s.port n with cfg := BitVec.ofNat 5 v }

theorem writePortCfg_disabled {v : Nat} (off : (s.port n).enabled = false) (phy : v / 8 % 4 ≠ 3) : s.writePortCfg n v =
    .set (((reconfigured s n v).lportsOf n).foldl (fun s q => s.followEnable q) (reconfigured s n v)) := by
  unfold State.writePortCfg
  dsimp only
  rw [if_neg (by simp [off]), if_neg (by rw [fld_eq_div_mod]; exact phy), if_neg (by simp [off])]
  rfl

theorem writePortCfg_breakout {v : Nat} (on : (s.port n).enabled = true) (other : (s.port n).breakout ≠ v % 4) :
    s.writePortCfg n v = .set (s.notePort 237 0 (8 * n) stState []) :=
  if_pos (by simp [on, other])

theorem writePortCfg_refused {v : Nat} (phy : v / 8 % 4 = 3) (kept : (s.port n).enabled = false ∨ (s.port n).breakout = v % 4) :
    s.writePortCfg n v = .refuse := by
  have noRecord : ((s.port n).enabled && (s.port n).breakout != v % 4) = false := by
    rcases kept with off | same
    · simp [off]
    · simp [same]
  unfold State.writePortCfg
  dsimp only
  rw [if_neg (by simp [noRecord]), if_pos (by rw [fld_eq_div_mod]; exact phy)]

/-! LPORT_CFGk and LPEERk (09 R236-R238). -/

section
variable {v : Nat}

theorem writeLportCfg_absent (absent : s.fab.exists' p = false) : s.writeLportCfg p v = .ignore := if_pos (by simp [absent])

variable (there : s.fab.exists' p = true)
include there

theorem writeLportCfg_enabled (on : (s.port (p / 8)).enabled = true) (change : BitVec.ofNat 12 v ≠ (s.lport p).cfg) :
    s.writeLportCfg p v = .set (s.notePort 237 0 p stState []) := by
  unfold State.writeLportCfg
  dsimp only
  rw [if_neg (by simp [there]), if_pos on, if_neg change]

theorem writeLportCfg_refused (off : (s.port (p / 8)).enabled = false) (role : 5 ≤ v % 8) : s.writeLportCfg p v = .refuse := by
  unfold State.writeLportCfg
  dsimp only
  rw [if_neg (by simp [there]), if_neg (by simp [off]), if_pos role]

theorem writeLportCfg_taken (off : (s.port (p / 8)).enabled = false) (role : v % 8 < 5) (express : v % 8 = roleExpress → v / 64 % 64 < 4) :
    s.writeLportCfg p v = .set (s.setLPort p { s.lport p with cfg := BitVec.ofNat 12 v }) := by
  have noIndex : ¬(v % 8 = roleExpress ∧ 4 ≤ fld v 6 6) := by
    rintro ⟨isExpress, beyond⟩
    rw [fld_eq_div_mod] at beyond
    exact absurd (express isExpress) (Nat.not_lt.mpr beyond)
  unfold State.writeLportCfg
  dsimp only
  rw [if_neg (by simp [there]), if_neg (by simp [off]), if_neg (Nat.not_le.mpr role), if_neg noIndex]

theorem writeLpeer_enabled (on : (s.port (p / 8)).enabled = true) (change : BitVec.ofNat 24 v ≠ (s.lport p).peer) :
    s.writeLpeer p v = .set (s.notePort 237 0 p stState []) := by
  unfold State.writeLpeer
  dsimp only
  rw [if_neg (by simp [there]), if_pos on, if_neg change]

theorem writeLpeer_taken (off : (s.port (p / 8)).enabled = false) :
    s.writeLpeer p v = .set (s.setLPort p { s.lport p with peer := BitVec.ofNat 24 v }) := by
  unfold State.writeLpeer
  dsimp only
  rw [if_neg (by simp [there]), if_neg (by simp [off])]

end

/-- The first part of O17: what each write of a port's settings is taken as. -/
theorem portConfiguration : Claims.PortConfiguration := by
  intro s₀ s n k v h port logical p
  have own : p / 8 = n := by omega
  rw [exec_portCfg h port, exec_lportCfg h port logical, exec_lpeer h port logical]
  refine ⟨fun off phy => ?settings, fun on other => ?breakout, fun phy kept => ?phy, fun there role express off => ?lport,
    fun there on change => ?lportOn, fun there role off => ?role, fun absent => ?absent, fun there on change => ?lpeerOn,
    fun there off => ?lpeer⟩
  case settings =>
    rw [writePortCfg_disabled off phy]
    have ports : (((reconfigured s n v.toNat).lportsOf n).foldl (fun s q => s.followEnable q) (reconfigured s n v.toNat)).fab.ports =
        (reconfigured s n v.toNat).fab.ports := foldl_ports _ fun _ _ => followEnable_ports _
    refine ⟨_, rfl, ?_, fun m other => ?_, fun notUp => ?_⟩
    · rw [Wr.host, port_of_ports ports, reconfigured, port_setPort, if_pos rfl]
    · rw [Wr.host, port_of_ports ports, reconfigured, port_setPort, if_neg other]
    · refine foldl_followEnable_diary _ fun q mem => ?_
      obtain ⟨j, less, rfl⟩ := List.mem_map.mp (List.mem_filter.mp mem).1
      exact notUp j (List.mem_range.mp less)
  case breakout => rw [writePortCfg_breakout on other]; rfl
  case phy => rw [writePortCfg_refused phy kept]; rfl
  case lport => rw [writeLportCfg_taken there (by rwa [own]) role express]; rfl
  case lportOn => rw [writeLportCfg_enabled there (by rwa [own]) change]; rfl
  case role => rw [writeLportCfg_refused there (by rwa [own]) role]; rfl
  case absent => rw [writeLportCfg_absent absent]; rfl
  case lpeerOn => rw [writeLpeer_enabled there (by rwa [own]) change]; rfl
  case lpeer => rw [writeLpeer_taken there (by rwa [own])]; rfl

/-! The logical ports of a port, changed alike (10 R296, R298). -/

theorem foldl_modLPort_ports {f : LPort → LPort} (l : List Nat) : (l.foldl (fun s q => s.modLPort (8 * n + q) f) s).fab.ports = s.fab.ports :=
  foldl_ports _ fun _ _ => rfl

theorem lport_foldl_modLPort {f : LPort → LPort} {l : List Nat} (distinct : l.Nodup) {j : Nat} (mem : j ∈ l) :
    (l.foldl (fun s q => s.modLPort (8 * n + q) f) s).lport (8 * n + j) = f (s.lport (8 * n + j)) := by
  have outside (l : List Nat) (notMem : j ∉ l) (s : State) :
      (l.foldl (fun s q => s.modLPort (8 * n + q) f) s).lport (8 * n + j) = s.lport (8 * n + j) := by
    induction l generalizing s with
    | nil => rfl
    | cons q l ih =>
      obtain ⟨ne, later⟩ := not_or.mp (List.mem_cons.not.mp notMem)
      rw [List.foldl_cons, ih later, State.modLPort, lport_setLPort, if_neg (by omega)]
  induction l generalizing s with
  | nil => exact absurd mem List.not_mem_nil
  | cons q l ih =>
    obtain ⟨first, later⟩ := List.nodup_cons.mp distinct
    rw [List.foldl_cons]
    rcases List.mem_cons.mp mem with rfl | mem
    · rw [outside l first, State.modLPort, lport_setLPort, if_pos rfl]
    · have ne : j ≠ q := fun same => first (same ▸ mem)
      rw [ih later mem, State.modLPort, lport_setLPort, if_neg (by omega)]

theorem restartDrr_port (m : Nat) : (s.restartDrr n).port m = s.port m := port_of_ports (foldl_modLPort_ports _) m

theorem resetCredit_port (m : Nat) : (s.resetCredit n vc).port m = s.port m := port_of_ports (foldl_modLPort_ports _) m

/-- Without the bit that fills it, the credit of a queue starts at 0 on every logical port (10 R298). -/
theorem resetCredit_shaper {j : Nat} (less : j < 8) (empty : bitAt (tget 0 (s.port n).shapeCfg vc).toNat 17 = false)
    (canon : tcanon 0 (s.lport (8 * n + j)).shaper = true) : tget 0 ((s.resetCredit n vc).lport (8 * n + j)).shaper vc = 0 := by
  unfold State.resetCredit
  rw [lport_foldl_modLPort List.nodup_range (List.mem_range.mpr less)]
  dsimp only
  rw [tget_tset _ _ _ canon, if_pos rfl, empty]
  rfl

theorem tget?_tput_same {α : Type} (t : Tab α) (k : Nat) (a : α) : tget? (tput t k a) k = some a := by
  induction t with
  | nil => simp [tput, tget?]
  | cons q t ih =>
    obtain ⟨i, b⟩ := q
    by_cases before : k < i
    · simp [tput, tget?, before]
    · by_cases same : i = k
      · simp [tput, tget?, same]
      · simp [tput, tget?, before, same, ih]

/-! SCHED_CFG and QUANTUMv (10 R294, R295, R305). -/

theorem eraseDups_of_nodup {l : List Nat} (distinct : l.Nodup) : l.eraseDups = l := by
  induction l with
  | nil => rfl
  | cons a l ih =>
    obtain ⟨first, later⟩ := List.nodup_cons.mp distinct
    have others : l.filter (fun b => !b == a) = l := List.filter_eq_self.mpr fun b mem => by
      simpa using fun same : b = a => first (same ▸ mem)
    rw [List.eraseDups_cons, others, ih later]

theorem writeSched_taken {v : Nat} {prios : List Nat} (least : 1 ≤ v / 2 % 8) (most : v / 2 % 8 ≤ 4)
    (listed : prios = (List.range (v / 2 % 8)).map (fun i => v / 2 ^ (8 + 3 * i) % 8)) (noHairline : 1 ∉ prios) (distinct : prios.Nodup) :
    s.writeSched n v = .set ((s.setPort n { s.port n with sched := BitVec.ofNat 20 (v - 16 * (v / 16 % 16)) }).restartDrr n) := by
  subst listed
  have passes : (((List.range (v / 2 % 8)).map (fun i => v / 2 ^ (8 + 3 * i) % 8)).contains 1 ||
      ((List.range (v / 2 % 8)).map (fun i => v / 2 ^ (8 + 3 * i) % 8)).eraseDups.length != v / 2 % 8) = false := by
    rw [eraseDups_of_nodup distinct]
    simpa using noHairline
  unfold State.writeSched
  simp only [fld_eq_div_mod, Nat.pow_one, Nat.reducePow]
  rw [if_neg (by omega), passes]
  rfl

theorem writeSched_refused {v : Nat} (count : v / 2 % 8 = 0 ∨ 4 < v / 2 % 8) : s.writeSched n v = .refuse :=
  if_pos (by simpa [fld_eq_div_mod] using count)

theorem writeQuantum_taken {v : Nat} (other : vc ≠ 1) (least : 1 ≤ v % 512) (most : v % 512 ≤ 256) :
    s.writeQuantum n vc v = .set ((s.setPort n { s.port n with quantum := tput (s.port n).quantum vc (v % 512) }).restartDrr n) :=
  if_pos (by simpa [other, most] using Nat.ne_of_gt least)

/-! SHAPE_CFGv, SHAPE_BURSTv and BUF_LIMITc (10 R283, R285, R298). -/

theorem writeShape_cfg {v : Nat} (other : vc ≠ 1) : s.writeShape n vc false v =
    .set ((s.setPort n { s.port n with shapeCfg := tput (s.port n).shapeCfg vc (BitVec.ofNat 18 v) }).resetCredit n vc) :=
  if_neg other

theorem writeShape_burst {v : Nat} (other : vc ≠ 1) (some : v % 65536 ≠ 0) : s.writeShape n vc true v =
    .set ((s.setPort n { s.port n with burst := tput (s.port n).burst vc (v % 65536) }).resetCredit n vc) :=
  (if_neg other).trans (if_neg some)

section
variable {v : Nat} (notClass2 : c ≠ 2) (notClass3 : c ≠ 3)
include notClass2 notClass3

theorem writeBufLimit_enabled (on : (s.port n).enabled = true) :
    s.writeBufLimit false n c v = .set (s.notePort 283 0 (8 * n) stState []) := by
  unfold State.writeBufLimit
  dsimp only
  rw [if_neg (by simp [notClass2, notClass3]), if_pos on]

theorem writeBufLimit_full (off : (s.port n).enabled = false)
    (full : Config.bufferCells < s.fab.claimed - (s.port n).bufLimitOf c + v % 2 ^ 15) :
    s.writeBufLimit false n c v = .set (s.notePort 285 0 (8 * n) stNoSpace []) := by
  unfold State.writeBufLimit
  dsimp only
  rw [if_neg (by simp [notClass2, notClass3]), if_neg (by simp [off]), if_pos (by simpa using full)]

theorem writeBufLimit_taken (off : (s.port n).enabled = false)
    (fits : s.fab.claimed - (s.port n).bufLimitOf c + v % 2 ^ 15 ≤ Config.bufferCells) :
    s.writeBufLimit false n c v = .set (s.setPort n { s.port n with bufLimit := tput (s.port n).bufLimit c (v % 2 ^ 15) }) := by
  unfold State.writeBufLimit
  dsimp only
  rw [if_neg (by simp [notClass2, notClass3]), if_neg (by simp [off]), if_neg (by simpa using fits)]

end

/-! GATE_CTRL and ARM (10 R299, R303). -/

theorem setPort_setPort (x y : Port) : (s.setPort n x).setPort n y = s.setPort n y := by
  simp only [State.setPort, State.setFab, tput_tput]

/-- A list with an entry to run through, and none of no duration (10 R303). -/
def runnable (l : GateList) : Prop := 0 < l.len ∧ ∀ i, i < l.len → (tget (0, 0) l.ents i).2 ≠ 0

theorem not_runnable_iff (l : GateList) :
    (decide (l.len = 0) || (List.range l.len).any (fun i => (tget (0, 0) l.ents i).2 == 0)) = true ↔ ¬runnable l := by
  rw [runnable, Nat.pos_iff_ne_zero]
  simp only [Bool.or_eq_true, decide_eq_true_eq, List.any_eq_true, List.mem_range, beq_iff_eq]
  constructor
  · rintro (none | ⟨i, less, zero⟩) ⟨some, durations⟩
    · exact some none
    · exact durations i less zero
  · intro stuck
    by_contra! runs
    exact stuck runs

section
variable {x : Port}

theorem armGates_refused (stuck : ¬runnable x.inactive) :
    (s.setPort n x).armGates n = (s.setPort n x).notePort 303 1 (8 * n) stBadField [] := by
  unfold State.armGates
  rw [port_setPort, if_pos rfl]
  exact if_pos ((not_runnable_iff _).mpr stuck)

variable (runs : runnable x.inactive)
include runs

theorem armGates_ahead (ahead : s.clock.ftime.toNat < x.switchAt.toNat) :
    (s.setPort n x).armGates n = s.setPort n { x with armedAt := x.switchAt, gatePending := true } := by
  unfold State.armGates
  rw [port_setPort, if_pos rfl]
  dsimp only
  rw [if_neg fun stuck => (not_runnable_iff _).mp stuck runs]
  refine (if_neg (Nat.not_le.mpr ahead)).trans ?_
  rw [setPort_setPort]

/-- The port right behind a switch-over that ARM came too late for (10 R303). -/
def switchedLate (x : Port) (t : Nat) : Port := (({ x with armedAt := x.switchAt } : Port).switchOver true).refresh t

theorem armGates_late (late : x.switchAt.toNat ≤ s.clock.ftime.toNat) :
    (∀ m, ((s.setPort n x).armGates n).port m = if m = n then switchedLate x s.clock.ftime.toNat else s.port m) ∧
      ((s.setPort n x).armGates n).mem = s.mem := by
  have change : (s.setPort n x).armGates n =
      ((s.setPort n (switchedLate x s.clock.ftime.toNat)).setHot 5 n 0).notePort 303 0 (8 * n) 0 [] := by
    unfold State.armGates
    rw [port_setPort, if_pos rfl]
    dsimp only
    rw [if_neg fun stuck => (not_runnable_iff _).mp stuck runs]
    refine (if_pos late).trans ?_
    rw [setPort_setPort]
    rfl
  have fab : ((s.setPort n x).armGates n).fab = (s.setPort n (switchedLate x s.clock.ftime.toNat)).fab := by
    rw [change, State.notePort, State.note_fab, State.setHot_fab]
  refine ⟨fun m => ?_, ?_⟩
  · rw [port_of_ports (congrArg Fabric.ports fab), port_setPort]
  · rw [change, State.notePort, State.note_mem, State.setHot_mem]
    rfl

end

/-- LEN of a list may change, or the list is in force, or a switch-over is pending (10 R303). -/
theorem mayEdit_or (x : Port) (list : Bool) : x.mayEdit list = true ∨ x.active = list ∨ x.gatePending = true := by
  by_cases inForce : x.active = list
  · exact .inr (.inl inForce)
  · cases pending : x.gatePending with
    | false => exact .inl (by simp [Port.mayEdit, inForce, pending])
    | true => exact .inr (.inr rfl)

/-- A list that may not change keeps its LEN, which a write that names it leaves as it is. -/
theorem lenTaken {l : GateList} {may : Bool} {len : Nat} (taken : may = true ∨ len = l.len) :
    (if may then { l with len := len } else l) = { l with len := len } := by
  split
  · rfl
  · rw [taken.resolve_left ‹_›]

/-- GATE_CTRL takes LEN of both lists where it may, or leaves what it may not change as it is. -/
theorem writeGateCtrl_taken {v : Nat} {x : Port} (fitsA : v / 256 % 256 ≤ 128) (fitsB : v / 65536 % 256 ≤ 128)
    (own : x = { s.port n with gateEn := v.testBit 0, listA := { (s.port n).listA with len := v / 256 % 256 },
                               listB := { (s.port n).listB with len := v / 65536 % 256 } })
    (keptA : (s.port n).active = false ∨ (s.port n).gatePending = true → v / 256 % 256 = (s.port n).listA.len)
    (keptB : (s.port n).active = true ∨ (s.port n).gatePending = true → v / 65536 % 256 = (s.port n).listB.len) :
    s.writeGateCtrl n v = .set (if v.testBit 1 then (s.setPort n x).armGates n else s.setPort n x) := by
  have mayA := (mayEdit_or (s.port n) false).imp_right keptA
  have mayB := (mayEdit_or (s.port n) true).imp_right keptB
  have nothingLost : (v / 256 % 256 != (s.port n).listA.len && !(s.port n).mayEdit false ||
      v / 65536 % 256 != (s.port n).listB.len && !(s.port n).mayEdit true) = false := by
    rcases mayA with mayA | mayA <;> rcases mayB with mayB | mayB <;> simp [mayA, mayB]
  unfold State.writeGateCtrl
  simp only [fld_eq_div_mod, Nat.reducePow]
  rw [if_neg (by omega), nothingLost, lenTaken mayA, lenTaken mayB, own]
  rfl

theorem writeGateCtrl_refused {v : Nat} (beyond : 128 < v / 256 % 256 ∨ 128 < v / 65536 % 256) : s.writeGateCtrl n v = .refuse :=
  if_pos (by simpa only [fld_eq_div_mod, Nat.reducePow] using beyond)

/-- The second part of O17: what each write of a port's service is taken as. -/
theorem schedulerRegisters : Claims.SchedulerRegisters := by
  intro s₀ s n vc v h port channel
  rw [exec_schedCfg h port, exec_quantum h port channel, exec_shape h port channel, exec_shape h port channel, exec_gateArm h port]
  refine ⟨fun k prios count least most listed noHairline distinct => ?sched, fun count => ?schedBad, fun other least most => ?quantum,
    fun other => ?shape, fun other some => ?burst, fun c cls two three off fits => ?limit, fun c cls two three on => ?limitOn,
    fun c cls two three off full => ?limitFull, fun fitsA fitsB noArm idle first lenA => ?gate,
    fun x own fitsA fitsB keptA keptB => ?arm, fun beyond => ?gateBad⟩
  case sched =>
    subst count
    rw [writeSched_taken least most listed noHairline distinct]
    refine ⟨_, rfl, ?_, fun m ne => ?_⟩
    · rw [Wr.host, restartDrr_port, port_setPort, if_pos rfl]
    · rw [Wr.host, restartDrr_port, port_setPort, if_neg ne]
  case schedBad => rw [writeSched_refused count]; rfl
  case quantum =>
    rw [writeQuantum_taken other least most]
    refine ⟨_, rfl, ?_, fun m ne => ?_⟩
    · rw [Wr.host, restartDrr_port, port_setPort, if_pos rfl, tget?_tput_same]
    · rw [Wr.host, restartDrr_port, port_setPort, if_neg ne]
  case shape =>
    rw [writeShape_cfg other]
    refine ⟨_, rfl, ?_, fun m ne => ?_, fun empty canon j less => resetCredit_shaper less ?_ (canon j less)⟩
    · rw [Wr.host, resetCredit_port, port_setPort, if_pos rfl, tget?_tput_same]
    · rw [Wr.host, resetCredit_port, port_setPort, if_neg ne]
    · rw [port_setPort, if_pos rfl, tget_tput, if_pos rfl, bitAt, BitVec.toNat_ofNat, Nat.testBit_mod_two_pow, empty, Bool.and_false]
  case burst =>
    rw [writeShape_burst other some]
    refine ⟨_, rfl, ?_, fun m ne => ?_⟩
    · rw [Wr.host, resetCredit_port, port_setPort, if_pos rfl, tget?_tput_same]
    · rw [Wr.host, resetCredit_port, port_setPort, if_neg ne]
  case limit => rw [exec_bufLimit h port cls, writeBufLimit_taken two three off fits]; rfl
  case limitOn => rw [exec_bufLimit h port cls, writeBufLimit_enabled two three on]; rfl
  case limitFull => rw [exec_bufLimit h port cls, writeBufLimit_full two three off full]; rfl
  case gate =>
    have unchanged : { (s.port n).listA with len := v.toNat / 256 % 256 } = (s.port n).listA := by rw [lenA]
    rw [writeGateCtrl_taken fitsA fitsB rfl (fun _ => lenA) (fun busy => absurd busy (by simp [first, idle])), noArm, unchanged]
    rfl
  case arm =>
    intro list runs
    rw [writeGateCtrl_taken fitsA fitsB own keptA keptB]
    refine ⟨fun noArm => ?_, fun arm runs ahead => ?_, fun arm runs late => ?_, fun arm stuck => ?_⟩
    · rw [noArm]
      rfl
    · rw [arm, if_pos rfl, armGates_ahead runs ahead]
      rfl
    · obtain ⟨ports, mem⟩ := armGates_late (s := s) (n := n) runs late
      have self := (ports n).trans (if_pos rfl)
      rw [arm, if_pos rfl]
      refine ⟨_, rfl, ?_, ?_, ?_, ?_, ?_, fun m ne => (ports m).trans (if_neg ne), mem⟩
      · rw [Wr.host, self]; rfl
      · rw [Wr.host, self]; rfl
      · rw [Wr.host, self]; simp [switchedLate, Port.switchOver, Port.refresh]
      · rw [Wr.host, self]; rfl
      · rw [Wr.host, self]; rfl
    · rw [arm, if_pos rfl, armGates_refused stuck]
      rfl
  case gateBad => rw [writeGateCtrl_refused beyond]; rfl

/-- Settles O17: the settings of a port, and the registers of its service. -/
theorem portAndSchedulerRegisters : Obligations.PortAndSchedulerRegisters := ⟨portConfiguration, schedulerRegisters⟩

end Sys2Proof.Proofs
end

section
/-!
LINK_HOLD_EXPIRY (09 R261): a frame held too long is dropped, which empties its queue where the table of queues lists it once.
-/

namespace Sys2Proof.Proofs

open Sys2Proof Sys2Proof.Machine Sys2Proof.Claims

variable {s : State} {p vc : Nat} {q : Queued}

/-! A body that is dropped frees cells, and leaves every queue. -/

theorem freeAccount_queues (x : Account) (cells : Nat) : ((s.freeAccount x cells).lport p).queues = (s.lport p).queues := by
  have freed (r c : Nat) : ((s.freeIngress r c cells).lport p).queues = (s.lport p).queues := by
    rw [State.freeIngress, State.modLPort, lport_setLPort]
    split
    · next same => rw [same]
    · rfl
  cases x with
  | ingress r c => exact freed r c
  | hairline r c => exact freed r c
  | inject v => rfl
  | none => rfl

theorem dropCopy_queues (id : Nat) : ((s.dropCopy id).lport p).queues = (s.lport p).queues := by
  unfold State.dropCopy
  split
  · rfl
  · split
    · exact freeAccount_queues _ _
    · rfl

/-- The frame that was held alone in its queue has been dropped, with a record. -/
def holdExpired (s : State) (p vc : Nat) (q : Queued) : State :=
  ((s.setLPort p { s.lport p with queues := tset [] (s.lport p).queues vc [], deficit := tset 0 (s.lport p).deficit vc 0 }).notePort
    261 0 p 0 []).dropCopy q.body

theorem holdExpired_queue (v : Nat) : ((holdExpired s p vc q).lport p).queue v = tget [] (tset [] (s.lport p).queues vc []) v := by
  have noted (t : State) (rule : Nat) : (t.notePort rule 0 p 0 []).lport p = t.lport p := by
    simp only [State.lport, State.notePort, State.note_fab]
  rw [LPort.queue, holdExpired, dropCopy_queues, noted, lport_setLPort, if_pos rfl]

section
variable (port : p < 1024) (channel : vc < 8) (up : s.fabricUp = true) (clock : s.aclk = true) (down : (s.lport p).st ≠ .up)
  (held : (s.lport p).queue vc = [q]) (due : q.since + s.fab.linkHold * 1250000 ≤ s.now)
include port channel up clock down held due

theorem execLinkHoldExpiry_due : execLinkHoldExpiry p vc s = .next (holdExpired s p vc q) := by
  unfold execLinkHoldExpiry
  dsimp only
  rw [onUnit_present (by simp [port, channel]), held, msAclk_eq, List.filter_singleton, List.filter_singleton, decide_eq_true due]
  exact when'_true (by simp [up, clock, LPort.up, down])

/-- Where the table of queues is canonical, the queue is empty behind the command, and the others stay. -/
theorem execLinkHoldExpiry_empties (canon : tcanon [] (s.lport p).queues = true) : ∃ u, execLinkHoldExpiry p vc s = .next u ∧
    (u.lport p).queue vc = [] ∧ ∀ v, v ≠ vc → (u.lport p).queue v = (s.lport p).queue v := by
  refine ⟨_, execLinkHoldExpiry_due port channel up clock down held due, ?_, fun v other => ?_⟩
  · rw [holdExpired_queue, tget_tset _ _ _ canon, if_pos rfl]
  · rw [holdExpired_queue, tget_tset _ _ _ canon, if_neg other, LPort.queue]

end

/-- A frame of an empty body, held since the first cycle. -/
def heldFrame (id : Nat) : Queued := { frame := { hdr := 0, body := [] }, body := id, src := none, entry := false, group := false, since := 0 }

/-- A switch in RUNNING, LINK_HOLD after its reset, whose logical port 8 is DISABLED and lists the queue of VC0 twice. -/
def queuedTwice : State :=
  { State.reset with
    dev := .running, clock := { State.reset.clock with cycle := 10 * Config.msAclk },
    fab := { State.reset.fab with lports := [(8, { queues := [(0, [heldFrame 0]), (0, [heldFrame 1])] })] } }

/-- Behind the drop of its first entry the queue reads as the second gives it. -/
theorem queuedTwice_expired : ((holdExpired queuedTwice 8 0 (heldFrame 0)).lport 8).queue 0 = [heldFrame 1] :=
  holdExpired_queue 0

/-- Refutes O37, in its clause on LINK_HOLD_EXPIRY: it holds of every port whose table of queues is canonical
(`execLinkHoldExpiry_empties`), but the statement asks that of no port, and port 8 of `queuedTwice` has no such table. -/
theorem not_framesReceived : ¬ Obligations.FramesReceived := by
  intro h
  obtain ⟨-, -, expiry⟩ := h queuedTwice 8 (by decide)
  obtain ⟨expires, -⟩ := expiry 0 (heldFrame 0) (by decide) rfl rfl (by decide) rfl
  have due : (heldFrame 0).since + queuedTwice.fab.linkHold * 1250000 ≤ queuedTwice.now := by decide
  obtain ⟨u, expired, empty, -⟩ := expires due
  obtain rfl : holdExpired queuedTwice 8 0 (heldFrame 0) = u :=
    Host.Outcome.next.inj ((execLinkHoldExpiry_due (by decide) (by decide) rfl rfl (by decide) rfl due).symm.trans expired)
  rw [queuedTwice_expired] at empty
  exact List.cons_ne_nil _ _ empty

end Sys2Proof.Proofs
end

section
/-!
What every step keeps (11 R313; 15 R410, R427): the memories stay canonical, the image job stays within its area, and what has been sent stays
sent; read off the relation `Keeps` of the command that the step takes.
-/

namespace Sys2Proof.Proofs

open Sys2Proof Sys2Proof.Machine Sys2Proof.Claims

variable {s t : State} {c : Instr}

/-- Every command keeps the memories in form, only adds to what has been sent, and leaves the queue behind it as it is. -/
theorem exec_keeps_memories (h : exec c s = .next t) :
    (Canonical s → Canonical t) ∧ (∃ l, t.outs = s.outs ++ l) ∧ t.pending = s.pending ∧ s.freeCtr ≤ t.freeCtr := by
  have kept := exec_keeps s c t h
  refine ⟨?_, kept.sent, kept.pending, kept.free⟩
  rintro ⟨cells, mram, nor, job⟩
  exact ⟨kept.cells cells, kept.mram mram, kept.nor nor, kept.job job⟩

/-- Settles O56: on an empty queue the step idles, and else it is the command at the front with the rest of the queue behind it. -/
theorem everyStepKeepsTheMemories : Obligations.EveryStepKeepsTheMemories := by
  intro s t h
  unfold step at h
  split at h
  case h_1 empty =>
    cases h
    exact ⟨id, ⟨[], (List.append_nil _).symm⟩, by rw [empty, List.drop_nil], Nat.le_refl _⟩
  case h_2 c rest front =>
    obtain ⟨canonical, sent, queue, drawn⟩ := exec_keeps_memories h
    exact ⟨canonical, sent, by rw [queue, front, List.drop_succ_cons, List.drop_zero], drawn⟩

end Sys2Proof.Proofs
end

section
/-!
Palette bindings, grants, the retry of a channel, and circuits (11 R311, R321-R325; 09 R268): what the host's commands answer once none of their
conditions refuses them.
-/

namespace Sys2Proof.Proofs

open Sys2Proof Sys2Proof.Machine Sys2Proof.Claims

variable {s : State} {f o k id : Nat} {t : Taken} {rest : List Taken}

/-- A command that has its effect and then waits to complete. -/
theorem runCmd_waits {isOp : Nat → Bool} {go : State → State} {k : Taken → State → CmdEnd} {on : WaitsOn} (h : AtEffect s f o t rest)
    (mine : isOp o = true) (effect : k t (took s f rest) = .waits on go) :
    runCmd s f isOp k = .next (go (waiting (took s f rest) f t on)) := by
  obtain ⟨hf, works, taken, rfl, ready, loud, turn, idle⟩ := h
  have happens : (s.hostWorks && isOp t.opc && t.ready && s.turnOf f t && !s.norBusy f) = true := by
    simp [works, Taken.opc, mine, ready, turn, idle]
  unfold took at effect
  unfold runCmd
  rw [onUnit_present (decide_eq_true hf)]
  simp only [taken, when'_true happens, effect, loud]
  rfl

/-- An accepted command none of whose own conditions is met goes on. -/
theorem checked_accepted (h : Accepted s f o t rest) (known : o ≤ 0x14) {l : List (Bool × Nat)} (clear : ∀ c ∈ l, c.1 = false) (go : CmdEnd) :
    checked ((took s f rest).common f t ++ l) go = go :=
  checked_none ((lowest_common h known l).trans (lowest_eq_none.mpr clear))

theorem execBind_done {b : Binding} (hk : k = leAt t.bytes 4 1 % 16) (hb : b = { raw := slice t.bytes 8 32, st := 1, owner := f })
    (h : Accepted s f 9 t rest) (own : (s.binding k).st = 0 ∨ (s.binding k).owner = f) (unnamed : s.bindingNamed k = false)
    (sound : s.bindingBad k b = false) : execBind f s = .next (ended ((took s f rest).setBinding k b) f t stOk []) := by
  subst hk hb
  refine runCmd_done h.1 rfl (checked_accepted h (by decide) ?_ _)
  simp only [List.forall_mem_cons]
  refine ⟨?state, sound, by simp⟩
  change ((s.binding _).st != 0 && (s.binding _).owner != f || s.bindingNamed _) = false
  rw [unnamed, Bool.or_false]
  simpa [imp_iff_not_or] using own

section
variable (hk : k = leAt t.bytes 4 1 % 16) (h : Accepted s f 0xA t rest)
include hk h

theorem execUnbind_done (bound : (s.binding k).st ≠ 0) (own : (s.binding k).owner = f) :
    execUnbind f s = .next (ended ((took s f rest).setBinding k { s.binding k with st := 0 }) f t stOk []) := by
  subst hk
  refine runCmd_done h.1 rfl (checked_accepted h (by decide) ?_ _)
  simp only [List.forall_mem_singleton]
  change ((s.binding _).st == 0 || (s.binding _).owner != f) = false
  simp [bound, own]

theorem execUnbind_unbound (unbound : (s.binding k).st = 0) : execUnbind f s = .next (ended (took s f rest) f t stState []) := by
  subst hk
  refine runCmd_fail h.1 rfl (checked_some ((lowest_common h (by decide) _).trans ?_))
  rw [show (took s f rest).binding _ = s.binding _ from rfl, unbound]
  rfl

end

/-- A context with its grant `i` replaced. -/
def regranted (x : Ctx) (i : Nat) (g : Grant) : Ctx := { x with grants := (List.range 4).map (fun j => if j = i then g else x.grants.getD j {}) }

theorem regranted_grants (x : Ctx) {i j : Nat} (g : Grant) (slot : j < 4) :
    (regranted x i g).grants[j]? = some (if j = i then g else x.grants.getD j {}) := by
  simp [regranted, slot]

theorem execGrant_done {a n : Nat} (ha : a = leAt t.bytes 8 8) (hn : n = leAt t.bytes 16 4) (h : Accepted s f 0xB t rest)
    (own : (s.ctx t.ctx).owner = f) (noReplay : (s.ctx t.ctx).replay = false)
    (quiet : (s.ctx t.ctx).st = .loading ∨ (s.ctx t.ctx).st = .ready ∧ (s.ctx t.ctx).inflight = 0) (pages : 0 < n) (aligned : a % 4096 = 0)
    (inside : s.mem.grantable a (n * 4096) = true) (free : ∀ g ∈ s.othersGrants f, meets (a, n * 4096) g = false) :
    execGrant f s = .next (ended ((took s f rest).setCtx t.ctx
      (regranted (s.ctx t.ctx) (leAt t.bytes 4 1 % 4) { base := a, pages := n, st := 1 })) f t stOk []) := by
  subst ha
  refine runCmd_done h.1 rfl ?_
  simp only [← hn, if_neg (Nat.ne_of_gt pages)]
  refine checked_accepted h (by decide) ?_ _
  simp only [List.forall_mem_cons]
  refine ⟨?state, ?field, by simp⟩
  case state => simpa [foreign, own, noReplay, or_iff_not_imp_left] using quiet
  case field =>
    have apart : (s.othersGrants f).any (meets (leAt t.bytes 8 8, n * 4096)) = false :=
      List.any_eq_false.mpr fun g mem => by simp [free g mem]
    change (n != 0 && (leAt t.bytes 8 8 % 4096 != 0 || !s.mem.grantable _ _ || (s.othersGrants f).any _)) = false
    simp [aligned, inside, apart]

theorem execHbmRetry_done (h : Accepted s f 0x11 t rest) (excluded : s.excluded (leAt t.bytes 4 1 % 128) = true) :
    execHbmRetry f s = .next (ended ((took s f rest).mramWrite (exclusionAt (leAt t.bytes 4 1 % 128)) (zeros 16)) f t stOk []) := by
  refine runCmd_done h.1 rfl (checked_accepted h (by decide) ?_ _)
  simp only [List.forall_mem_singleton]
  change (!s.excluded _) = false
  rw [excluded]
  rfl

section
variable (hid : id = leAt t.bytes 4 2) (listed : id < 4096)
include hid listed

theorem execCircuit_waits {src dst : Nat} (hs : src = leAt t.bytes 8 3) (hd : dst = leAt t.bytes 12 3) (h : Accepted s f 0xC t rest)
    (edge : (s.edgePort src).isSome = true) (unused : s.circuit? id = none) :
    execCircuit f s = .next ((waiting (took s f rest) f t (.circuit id)).setUpCircuit f id src dst) := by
  subst hid hs hd
  refine runCmd_waits (go := fun s => s.setUpCircuit f _ _ _) h.1 rfl (checked_accepted h (by decide) ?_ _)
  simp only [List.forall_mem_cons]
  change (decide (4095 < _) || (s.edgePort _).isNone) = false ∧ (s.circuit? _).isSome = false ∧ _
  rw [unused]
  refine ⟨?_, rfl, by simp⟩
  simp [edge]
  omega

theorem execTear_done {z : Circuit} (h : Accepted s f 0xD t rest) (found : s.circuit? id = some z) (own : z.orig = true → z.owner = f) :
    execTear f s = .next (ended ((took s f rest).tearNow id) f t stOk []) := by
  subst hid
  refine runCmd_done h.1 rfl (checked_accepted h (by decide) ?_ _)
  simp only [List.forall_mem_cons]
  change decide (4095 < _) = false ∧ (decide _ && ((s.circuit? _).isNone || (s.circuit? _).any _)) = false ∧ _
  rw [found]
  refine ⟨?_, ?_, by simp⟩
  · simp; omega
  · simpa using fun _ => own

end

/-- Settles O26: none of its conditions refuses the command, and it has its effect. -/
theorem bindingsGrantsCircuits : Obligations.BindingsGrantsCircuits := by
  intro s f t rest k c id hk hc hid
  refine ⟨fun b hb h own unnamed sound => execBind_done hk hb h own unnamed sound, fun h bound own => execUnbind_done hk h bound own,
    fun h unbound => execUnbind_unbound hk h unbound, ?grant, fun h excluded => execHbmRetry_done h excluded,
    fun src dst hs hd h listed edge unused => execCircuit_waits hid listed hs hd h edge unused,
    fun z h listed found own => execTear_done hid listed h found own⟩
  case grant =>
    obtain rfl : c = t.ctx := hc
    intro a n i ha hn hi h own noReplay quiet pages aligned inside free
    have least : i < 4 := by omega
    refine ⟨_, execGrant_done ha hn h own noReplay quiet pages aligned inside free, ?_, fun j slot other => ?_, rfl⟩
    · rw [← hi, regranted_grants _ _ least, if_pos rfl]
    · rw [← hi, regranted_grants _ _ slot, if_neg other]

end Sys2Proof.Proofs
end

section
/-!
The channels of HBM and its low power (11 R311, R312, R326, R328): a channel that leaves service, the spare that takes over, counted errors, idle
stacks.
-/

namespace Sys2Proof.Proofs

open Sys2Proof Sys2Proof.Machine Sys2Proof.Claims

variable {s : State} {ch sp : Nat}

/-! One bit of a mask of channels. -/

theorem setFld_bit (x i v : Nat) : setFld x i 1 v = 2 ^ i * (2 * (x / 2 ^ i / 2) + v % 2) + x % 2 ^ i := by
  have whole := Nat.div_add_mod x (2 ^ i)
  have half := Nat.div_add_mod (x / 2 ^ i) 2
  have split : 2 ^ i * (x / 2 ^ i) = 2 ^ i * (2 * (x / 2 ^ i / 2)) + 2 ^ i * (x / 2 ^ i % 2) := by rw [← Nat.mul_add, half]
  rw [setFld, fld, Nat.shiftRight_eq_div_pow, pow_one, Nat.mul_add, Nat.mul_comm _ (2 ^ i), Nat.mul_comm _ (2 ^ i)]
  omega

theorem bitAt_setFld (x i v j : Nat) : bitAt (setFld x i 1 v) j = if j = i then v.testBit 0 else bitAt x j := by
  have whole : 2 ^ i * (x / 2 ^ i) + x % 2 ^ i = x := Nat.div_add_mod x (2 ^ i)
  have low : x % 2 ^ i < 2 ^ i := Nat.mod_lt _ (Nat.two_pow_pos i)
  rw [bitAt, bitAt, setFld_bit, Nat.testBit_two_pow_mul_add _ low]
  conv_rhs => rw [← whole, Nat.testBit_two_pow_mul_add _ low]
  rcases Nat.lt_trichotomy j i with below | rfl | above
  · rw [if_pos below, if_neg (Nat.ne_of_lt below), if_pos below]
  · simp [Nat.testBit_zero]
  · obtain ⟨d, rfl⟩ := Nat.exists_eq_add_of_lt above
    have rest : (2 * (x / 2 ^ i / 2) + v % 2) / 2 = x / 2 ^ i / 2 := by omega
    rw [if_neg (by omega), if_neg (by omega), if_neg (by omega), show i + d + 1 - i = d + 1 by omega, Nat.testBit_succ, Nat.testBit_succ, rest]

/-! A channel leaves service (11 R311). -/

/-- The memory once channel `ch` has left service in cycle `now`. -/
def channelLeft (m : Mem) (now ch : Nat) : Mem :=
  { m with failed := setFld m.failed ch 1 1, inService := setFld m.inService ch 1 0, spares := setFld m.spares ch 1 0, excludePending := true,
           takeover := m.takeover.filter (fun t => t.2.1 != ch), failTimes := m.failTimes ++ [(now, ch)] }

theorem failChannel_mem : (s.failChannel ch).mem = channelLeft s.mem s.now ch := by
  rw [State.failChannel, State.alertBit, State.setHot_mem]
  rfl

theorem failChannel_clock : (s.failChannel ch).clock = s.clock := by
  rw [State.failChannel, State.alertBit, State.setHot_clock]
  rfl

theorem failChannel_dev : (s.failChannel ch).dev = s.dev := by
  rw [State.failChannel, State.alertBit, State.setHot_dev]
  rfl

theorem failChannel_alert : (s.failChannel ch).boot.alert.getLsbD 4 = true := by
  rw [State.failChannel, State.alertBit, State.setHot_boot, BitVec.getLsbD_or]
  exact Bool.or_eq_true_iff.mpr (.inr rfl)

/-- A stack one of whose other channels has not failed is not lost (11 R326). -/
theorem failChannel_stackLost {k : Nat} (other : k ≠ ch) (stack : k / 32 = ch / 32) (works : ∀ p ∈ s.mem.failTimes, p.2 ≠ k) :
    (s.failChannel ch).stackLost (ch / 32) = false := by
  have place : 32 * (ch / 32) + k % 32 = k := by rw [← stack, Nat.div_add_mod]
  rw [State.stackLost, List.all_eq_false]
  refine ⟨k % 32, List.mem_range.mpr (Nat.mod_lt _ (by decide)), ?_⟩
  rw [Bool.not_eq_true, List.any_eq_false, place, failChannel_mem]
  intro p mem
  have apart : p.2 ≠ k := by
    rcases List.mem_append.mp mem with before | now
    · exact works p before
    · rw [List.mem_singleton.mp now]
      exact other.symm
  simp [apart]

/-- The lowest spare `sp` is to take over logical channel `k`. -/
def spareCalled (s : State) (k sp : Nat) : State :=
  { s with mem := { s.mem with spares := setFld s.mem.spares sp 1 0, takeover := s.mem.takeover ++ [(k, sp, s.now)] } }

theorem replaceChannel_spare (k : Nat) (least : (List.range 128).find? s.mem.isSpare = some sp) : s.replaceChannel k = spareCalled s k sp := by
  rw [State.replaceChannel, least]
  rfl

section
variable {k : Nat} (serves : s.mem.serves ch = true) (noTakeover : ∀ t ∈ s.mem.takeover, t.2.1 ≠ ch) (other : k ≠ ch) (stack : k / 32 = ch / 32)
  (works : ∀ p ∈ s.mem.failTimes, p.2 ≠ k)
include serves noTakeover other stack works

/-- The map-out of a channel in service, whose place a spare takes: what is in flight there is spoilt. -/
theorem mapOut_serving : s.mapOut ch = ((s.failChannel ch).spoilOps (s.mem.logical.idxOf ch) ch).replaceChannel (s.mem.logical.idxOf ch) := by
  have none : s.mem.takeover.find? (fun t => t.2.1 == ch) = Option.none := List.find?_eq_none.mpr fun t mem => by simp [noTakeover t mem]
  unfold State.mapOut
  simp only [none, serves, failChannel_stackLost other stack works]
  rfl

theorem mapOut_spare (noSpare : s.mem.isSpare ch = false) (least : ∀ j, j < sp → s.mem.isSpare j = false) (inRange : sp < 128)
    (free : s.mem.isSpare sp = true) :
    s.mapOut ch = spareCalled ((s.failChannel ch).spoilOps (s.mem.logical.idxOf ch) ch) (s.mem.logical.idxOf ch) sp := by
  have spares (j : Nat) : (channelLeft s.mem s.now ch).isSpare j = s.mem.isSpare j := by
    change bitAt (setFld s.mem.spares ch 1 0) j = _
    rw [bitAt_setFld]
    split
    · next same => rw [same, noSpare]; rfl
    · rfl
  rw [mapOut_serving serves noTakeover other stack works]
  refine replaceChannel_spare _ (List.find?_range_eq_some.mpr ?_)
  change (s.failChannel ch).mem.isSpare sp = true ∧ _ ∧ ∀ j, j < sp → (!(s.failChannel ch).mem.isSpare j) = true
  simp only [failChannel_mem, spares]
  exact ⟨free, List.mem_range.mpr inRange, fun j less => by rw [least j less]; rfl⟩

end

/-! What the events of HBM answer while it is up. -/

section
variable (up : s.hbmUp = true)
include up

theorem hbmUp_running : s.dev = .running := by
  unfold State.hbmUp at up
  simp only [Bool.and_eq_true, beq_iff_eq] at up
  exact up.1.2

theorem execRuntimeMapout_failed (listed : ch < 128) (serves : s.mem.serves ch = true) :
    execRuntimeMapout ch .interfaceFailed s = .next (s.mapOut ch) := by
  rw [execRuntimeMapout, onUnit_present (decide_eq_true listed), when'_true]
  simp [up, Mem.usable, serves, State.mapDue]

theorem execSpareTakeover_first {t : Nat × Nat × Nat} {rest : List (Nat × Nat × Nat)} (first : s.mem.takeover = t :: rest) :
    execSpareTakeover s = .next (s.tookOver t) := by
  simp only [execSpareTakeover, first]
  exact when'_true up

theorem execBackgroundScrub_acts (err : MemErr) (noReset : s.board.warmSeq = false) :
    execBackgroundScrub err s = .next (s.memErr err []) := by
  rw [execBackgroundScrub, when'_true]
  simp [up, noReset]

end

theorem execRuntimeMapout_fewErrors (listed : ch < 128) (few : s.mem.ueLimit = 0 ∨ s.mem.recentUe s.now ch < s.mem.ueLimit) :
    execRuntimeMapout ch .ueLimit s = .next s := by
  have notDue : s.mapDue ch .ueLimit = false := by
    simp only [State.mapDue, Bool.and_eq_false_iff, bne_eq_false_iff_eq, decide_eq_false_iff_not, not_le]
    exact few
  rw [execRuntimeMapout, onUnit_present (decide_eq_true listed), when'_false]
  rw [notDue, Bool.and_false]

section
variable {h : Nat} (stack : h < 4)
include stack

theorem execHbmPowerDown_idle (up : s.hbmUp = true) (active : tget 0 s.mem.powerSt h = 0) (idle : tget 0 s.mem.lastAccess h + 64 ≤ s.now) :
    execHbmPowerDown h s = .next (s.setMem { s.mem with powerSt := tset 0 s.mem.powerSt h 1 }) := by
  rw [execHbmPowerDown, onUnit_present (decide_eq_true stack), when'_true]
  · rfl
  · simp [up, active, State.stackIdle, idle]

theorem execHbmPowerDown_busy (busy : s.now < tget 0 s.mem.lastAccess h + 64) : execHbmPowerDown h s = .next s := by
  rw [execHbmPowerDown, onUnit_present (decide_eq_true stack), when'_false]
  rw [State.stackIdle, decide_eq_false (Nat.not_le.mpr busy), Bool.and_false]

theorem execHbmSelfRefreshEntry_idle (up : s.hbmUp = true) (mayRest : s.mem.awake = false) (active : tget 0 s.mem.powerSt h ≠ 2)
    (idle : tget 0 s.mem.lastAccess h + s.mem.idle * 128 ≤ s.now) :
    execHbmSelfRefreshEntry h s = .next (s.setMem { s.mem with powerSt := tset 0 s.mem.powerSt h 2 }) := by
  rw [execHbmSelfRefreshEntry, onUnit_present (decide_eq_true stack), when'_true]
  · rfl
  · simp [up, mayRest, active, State.stackIdle, idle]

theorem execHbmSelfRefreshEntry_awake (awake : s.mem.awake = true) : execHbmSelfRefreshEntry h s = .next s := by
  rw [execHbmSelfRefreshEntry, onUnit_present (decide_eq_true stack), when'_false]
  simp [awake]

end

/-- Settles O46: the map-out by the one state it leaves, and each of the other events by whether its condition holds. -/
theorem memoryChannels : Obligations.MemoryChannels := by
  intro s up
  dsimp only
  refine ⟨fun ch sp k listed serves noSpare noTakeover least inRange free listed' other stack works => ?mapout,
    fun ch listed _ few => execRuntimeMapout_fewErrors listed few, fun t rest first => execSpareTakeover_first up first, ?noTakeover,
    fun ch noReset => ⟨execBackgroundScrub_acts up _ noReset, execBackgroundScrub_acts up _ noReset, execBackgroundScrub_acts up _ noReset⟩,
    fun h stack active idle => execHbmPowerDown_idle stack up active idle, fun h stack busy => execHbmPowerDown_busy stack busy,
    fun h stack mayRest active idle => execHbmSelfRefreshEntry_idle stack up mayRest active idle,
    fun h stack awake => execHbmSelfRefreshEntry_awake stack awake⟩
  case noTakeover =>
    intro none
    dsimp only [exec]
    rw [execSpareTakeover, none]
    rfl
  case mapout =>
    have kept : s.mem.takeover.filter (fun t => t.2.1 != ch) = s.mem.takeover := List.filter_eq_self.mpr fun t mem => by simp [noTakeover t mem]
    refine ⟨_, execRuntimeMapout_failed up listed serves, ?_⟩
    rw [mapOut_spare serves noTakeover other stack works noSpare least inRange free]
    refine ⟨?left, ?failed, ?called, ?takeover, ?pending, ?cells, failChannel_dev.trans (hbmUp_running up), failChannel_alert, fun j apart => ?beside⟩
    all_goals dsimp only [spareCalled, State.spoilOps, Mem.serves, Mem.isSpare, State.now]; rw [failChannel_mem]
    case left => exact (bitAt_setFld _ _ _ _).trans (if_pos rfl)
    case failed => exact (bitAt_setFld _ _ _ _).trans (if_pos rfl)
    case called => exact (bitAt_setFld _ _ _ _).trans (if_pos rfl)
    case takeover => rw [failChannel_clock, channelLeft, kept]
    case pending => rfl
    case cells => rfl
    case beside => exact (bitAt_setFld _ _ _ _).trans (if_neg apart)

end Sys2Proof.Proofs
end

section
/-!
Accesses of Iczal to device memory (11 R317, R328), and the flushes of the Diary that go there (15 R425, R426): what a flush that begins or ends
writes, and what it leaves as it was.
-/

namespace Sys2Proof.Proofs

open Sys2Proof Sys2Proof.Machine Sys2Proof.Claims

variable {s : State}

/-! Accesses move lines and keep stacks awake; what memory holds stays. -/

/-- The memory behind some accesses. -/
def Accessed (m m' : Mem) : Prop := ∃ lines lastAccess powerSt, m' = { m with lines, lastAccess, powerSt }

theorem Accessed.refl (m : Mem) : Accessed m m := ⟨_, _, _, rfl⟩

theorem Accessed.trans {m m₁ m₂ : Mem} (h : Accessed m m₁) (k : Accessed m₁ m₂) : Accessed m m₂ := by
  obtain ⟨_, _, _, rfl⟩ := h
  obtain ⟨_, _, _, rfl⟩ := k
  exact ⟨_, _, _, rfl⟩

theorem Accessed.write {m m' : Mem} (h : Accessed m m') (a : Nat) (b : Bytes) : Accessed (m.write a b) (m'.write a b) := by
  obtain ⟨_, _, _, rfl⟩ := h
  exact ⟨_, _, _, rfl⟩

theorem Accessed.cells {m m' : Mem} (h : Accessed m m') : m'.cells = m.cells := by
  obtain ⟨_, _, _, rfl⟩ := h
  rfl

theorem Accessed.foldl {α : Type} {g : Mem → α → Mem} (each : ∀ m x, Accessed m (g m x)) (l : List α) (m : Mem) : Accessed m (l.foldl g m) := by
  induction l generalizing m with
  | nil => exact .refl m
  | cons x l ih => exact (each m x).trans (ih _)

theorem accessed_touchStack (m : Mem) (now granule : Nat) : Accessed m (m.touchStack now granule) := ⟨_, _, _, rfl⟩

theorem accessed_accessWide (m : Mem) (now : Nat) (wr whole : Bool) (granule : Nat) : Accessed m (m.accessWide now wr whole granule) := by
  unfold Mem.accessWide
  split
  · exact .refl m
  · split
    · have line : Accessed m (m.useLine wr whole granule).1 := ⟨_, _, _, rfl⟩
      exact line.trans (.foldl (fun m g => accessed_touchStack m now g) _ _)
    · exact accessed_touchStack m now granule

theorem accessed_access (wr : Bool) (addrs : List Nat) : Accessed s.mem (s.access wr addrs).mem :=
  .foldl (fun m _ => accessed_accessWide m _ _ _ _) _ _

/-- Iczal's own write to memory is the write of its bytes, and an access. -/
theorem accessed_putMem (a : Nat) (b : Bytes) : Accessed (s.mem.write a b) (s.putMem a b).mem := by
  unfold State.putMem
  split
  · next empty =>
    rw [List.isEmpty_iff.mp empty]
    exact .refl _
  · exact accessed_access (s := { s with mem := s.mem.write a b }) _ _

theorem putMem_keeps (a : Nat) (b : Bytes) : Keeps true true true true true true false true true true true true true s (s.putMem a b) :=
  keeps_State_putMem _ _ (.refl s)

/-- Writes to memory alone, one after the other, are one change of the memory. -/
theorem foldl_mem {α : Type} {g : State → α → State} {h : Mem → α → Mem} (each : ∀ s x, g s x = { s with mem := h s.mem x }) (l : List α) (s : State) :
    l.foldl g s = { s with mem := l.foldl h s.mem } := by
  induction l generalizing s with
  | nil => rfl
  | cons x l ih => rw [List.foldl_cons, ih, each, List.foldl_cons]

/-! A flush begins. -/

theorem length_spillHeader (st cause number first count time : Nat) : (spillHeader st cause number first count time).length = 64 := by
  simp [spillHeader, withCheck, length_toLE, zeros]

/-- A flush copies no more records than its slot holds behind the header. -/
theorem flushRange_count (written : Bool) (h : Nat) : (flushRange written h).2 ≤ 65535 := by
  unfold flushRange
  split
  · split
    · exact Nat.min_le_right _ _
    · exact Nat.zero_le _
  · exact Nat.le_refl _

theorem startFlush_keeps (cause : Nat) : Keeps true true true true true true false true true false true true true s (s.startFlush cause) :=
  keeps_State_startFlush _ (.refl s)

/-- The header of the flush of `cause` and this number that begins in `s`. -/
def firstHeader (s : State) (cause number : Nat) : Bytes :=
  let r := flushRange s.diary.written s.diary.head.toNat
  spillHeader 0 cause number r.1 r.2 s.clock.ftime.toNat

/-- Where none is under way, a flush takes the next slot and its header says WRITING. -/
theorem startFlush_idle (cause : Nat) (idle : s.diary.busy = none) :
    (s.startFlush cause).diary.busy = some (cause, s.diary.head.toNat) ∧
    Accessed (s.mem.write (spillAt ((s.diary.slot + 1) % 16)) (firstHeader s cause (s.startFlush cause).diary.number)) (s.startFlush cause).mem := by
  unfold State.startFlush
  simp only [idle]
  exact ⟨trivial, accessed_putMem _ _⟩

/-! A flush ends. -/

/-- The records that the current flush, begun with HEAD at `head`, has still to copy. -/
def recordsLeft (d : Diary) (head : Nat) : Bytes :=
  (List.range ((flushRange d.written head).2 - d.copied)).flatMap (fun j =>
    slice (tget [] d.recs (((flushRange d.written head).1 + (d.copied + j)) % 65536)) 0 64)

theorem length_recordsLeft (d : Diary) (head : Nat) : (recordsLeft d head).length = ((flushRange d.written head).2 - d.copied) * 64 := by
  simp [recordsLeft, List.length_flatMap, length_slice]

theorem interruptAll_keeps (n : Nat) : Keeps true true true true true true true true false true true true true s (s.interruptAll n) :=
  keeps_State_interruptAll _ (.refl s)

theorem closeFlush_keeps (cause head : Nat) :
    Keeps true true true true true true false true false false false true true s (s.closeFlush cause head) :=
  keeps_State_closeFlush _ _ (.refl s)

theorem alertBit_boot (b : Nat) : (s.alertBit b).boot = { s.boot with alert := s.boot.alert ||| BitVec.ofNat 6 (2 ^ b) } :=
  State.setHot_boot _ _ _ _

theorem alertBit_mem (b : Nat) : (s.alertBit b).mem = s.mem := State.setHot_mem _ _ _ _

theorem alertBit_diary (b : Nat) : (s.alertBit b).diary = s.diary := State.setHot_diary _ _ _ _

/-- The records left and a header of 64 bytes are written to the slot of a flush that ends. -/
theorem closeFlush_mem (cause head : Nat) : ∃ header : Bytes, header.length = 64 ∧
    Accessed ((s.mem.write (spillAt s.diary.slot + 64 + 64 * s.diary.copied) (recordsLeft s.diary head)).write (spillAt s.diary.slot) header)
      (s.closeFlush cause head).mem := by
  refine ⟨s.endHeader cause (flushRange s.diary.written head).1 (flushRange s.diary.written head).2, length_spillHeader _ _ _ _ _ _, ?_⟩
  rw [State.closeFlush, alertBit_mem, (interruptAll_keeps 5).mem rfl]
  exact ((accessed_putMem _ _).write _ _).trans (accessed_putMem _ _)

theorem closeFlush_map (cause head : Nat) : (s.closeFlush cause head).mem.layout = s.mem.layout ∧
    (s.closeFlush cause head).mem.excludePending = s.mem.excludePending := by
  obtain ⟨header, -, lines, lastAccess, powerSt, mem⟩ := closeFlush_mem (s := s) cause head
  rw [mem]
  exact ⟨rfl, rfl⟩

/-- A flush that waits behind the one that ends still waits. -/
theorem closeFlush_diary (cause head : Nat) :
    (s.closeFlush cause head).diary.busy = none ∧ (s.closeFlush cause head).diary.pendingCause = s.diary.pendingCause := by
  rw [State.closeFlush, alertBit_diary, (interruptAll_keeps 5).diary rfl]
  dsimp only
  rw [(putMem_keeps _ _).diary rfl, State.copyRecords, State.setCopied, (putMem_keeps _ _).diary rfl]
  exact ⟨rfl, rfl⟩

theorem closeFlush_nor (cause head : Nat) : (s.closeFlush cause head).boot.nor = s.boot.nor := by
  rw [State.closeFlush, alertBit_boot, (interruptAll_keeps 5).boot rfl]
  dsimp only
  rw [(putMem_keeps _ _).boot rfl, State.copyRecords, State.setCopied, (putMem_keeps _ _).boot rfl]

/-- A slot of 4 MiB holds its header and 65,535 records of 64 bytes (15 R426). -/
theorem outside_records {slot copied n a : Nat} (count : n ≤ 65535) (outside : a < slot * 0x400000 ∨ (slot + 1) * 0x400000 ≤ a) :
    a < slot * 0x400000 + 64 + 64 * copied ∨ slot * 0x400000 + 64 + 64 * copied + (n - copied) * 64 ≤ a := by
  rcases Nat.le_total n copied with all | some
  · simp only [Nat.sub_eq_zero_of_le all, Nat.zero_mul, Nat.add_zero]
    exact Nat.lt_or_ge _ _
  · refine outside.imp ?_ ?_ <;> omega

/-- Every byte outside the slot of a flush that ends reads as before. -/
theorem closeFlush_outside (cause head : Nat) {a : Nat} (canon : Memory.wf s.mem.cells = true)
    (outside : a < s.diary.slot * 0x400000 ∨ (s.diary.slot + 1) * 0x400000 ≤ a) :
    tget unlisted (s.closeFlush cause head).mem.cells a = tget unlisted s.mem.cells a := by
  obtain ⟨header, length, accessed⟩ := closeFlush_mem (s := s) cause head
  have place : spillAt s.diary.slot = s.diary.slot * 0x400000 := rfl
  rw [accessed.cells, Mem.write_other _ _ _ _ (Mem.write_wf _ _ _ canon), Mem.write_other _ _ _ _ canon]
  · rw [length_recordsLeft, place]
    exact outside_records (flushRange_count _ _) outside
  · rw [length, place]
    omega

end Sys2Proof.Proofs
end

section
/-!
Warm resets (11 R327; 15 R408): the sequence that lets the writes in flight land and flushes the Diary, its end, and what memory keeps over it.
-/

namespace Sys2Proof.Proofs

open Sys2Proof Sys2Proof.Machine Sys2Proof.Claims

variable {s : State}

/-! The writes in flight land (11 R327 step 1). -/

/-- The data that an operation has read at its issue reaches memory. -/
def opLanded (m : Mem) (o : MemOp) : Mem := o.data.foldl (fun m d => m.write d.1 d.2) m

/-- The same for the operations of an Easel, in issue order. -/
def opsLanded (m : Mem) (p : Nat × Easel) : Mem := p.2.ops.foldl opLanded m

/-- An Easel whose operations have no data left to write. -/
def Easel.written (x : Easel) : Easel := { x with ops := x.ops.map (fun o => { o with data := [] }) }

theorem finishWrites_eq : s.finishWrites = { s with mem := s.easels.foldl opsLanded s.mem, easels := s.easels.map (fun p => (p.1, Easel.written p.2)) } := by
  have op (s : State) (o : MemOp) : o.data.foldl (fun s d => s.writePiece d) s = { s with mem := opLanded s.mem o } := foldl_writePiece o.data
  have ops (s : State) (p : Nat × Easel) : p.2.ops.foldl (fun s o => o.data.foldl (fun s d => s.writePiece d) s) s =
      { s with mem := opsLanded s.mem p } := foldl_mem op p.2.ops s
  rw [State.finishWrites, foldl_mem ops]
  rfl

/-! The end of the sequence (11 R327 steps 3 and 4). -/

theorem setDev_eq (d : DevSt) : ∃ alert hot, s.setDev d = { s with dev := d, boot := { s.boot with alert }, hot } := by
  unfold State.setDev
  split
  · next same => exact ⟨s.boot.alert, s.hot, by rw [← eq_of_beq same]⟩
  · unfold State.alertBit State.setHot
    split <;> exact ⟨_, _, rfl⟩

theorem endLog_keeps : Keeps true true true true true true true true true false false true true s s.endLog :=
  keeps_State_endLog (.refl s)

theorem foldl_mramWrite_nor (l : List (Nat × Bytes)) : (l.foldl (fun s p => s.mramWrite p.1 p.2) s).boot.nor = s.boot.nor := by
  induction l generalizing s with
  | nil => rfl
  | cons p l ih => rw [List.foldl_cons, ih, State.mramWrite_boot]

theorem logPieces_nor (j : LogJob) (n : Nat) (l : List (Nat × Bytes)) : (s.logPieces j n l).boot.nor = s.boot.nor := by
  unfold State.logPieces
  dsimp only
  split
  · rw [alertBit_boot]
    exact foldl_mramWrite_nor _
  · exact foldl_mramWrite_nor _

theorem endLog_nor : s.endLog.boot.nor = s.boot.nor := by
  unfold State.endLog
  split
  · rfl
  · dsimp only
    split
    · rw [logPieces_nor]
    · rw [logPieces_nor]

/-- The device ran, so a warm reset finds the stacks in use and puts them into self-refresh. -/
def inUse (s : State) : Bool := s.dev == .running || s.dev == .grisaille

/-- KEPT behind a warm reset. -/
def keptAfter (s : State) : Bool := if inUse s then !s.mem.excludePending && !s.board.warmSpoiled else s.mem.kept

/-- What a warm reset leaves of the memory `m`. -/
def warmMem (m : Mem) (used kept : Bool) : Mem :=
  let left : Mem := if !kept then m.forget else if used then m.keep else m
  { (State.blank { State.reset with mem := left }).mem with powerSt := if used then [(0, 2), (1, 2), (2, 2), (3, 2)] else m.powerSt }

/-- A log in progress is completed; then the core is at its reset values, and the device in its next state. -/
theorem warmEnd_eq : ∃ alert hot, s.warmEnd = { s.endLog.blank with
    mem := warmMem s.mem (inUse s) (keptAfter s), dev := if s.board.coolHold then .aon else .boot,
    boot := { s.endLog.blank.boot with alert }, hot } := by
  rw [inUse, keptAfter, inUse, ← endLog_keeps.board rfl, ← endLog_keeps.mem rfl, ← endLog_keeps.dev rfl]
  exact setDev_eq _

theorem warmEnd_core : s.warmEnd.easels = [] ∧ s.warmEnd.coll = {} ∧ s.warmEnd.health = {} ∧ s.warmEnd.funcs = [] ∧ s.warmEnd.clock = {} ∧
    s.warmEnd.formats = factoryFormats ∧ s.warmEnd.board.warmSeq = false := by
  obtain ⟨alert, hot, eq⟩ := warmEnd_eq (s := s)
  rw [eq]
  exact ⟨rfl, rfl, rfl, rfl, rfl, rfl, rfl⟩

theorem warmEnd_dev (cool : s.board.coolHold = false) : s.warmEnd.dev = .boot := by
  obtain ⟨alert, hot, eq⟩ := warmEnd_eq (s := s)
  rw [eq, cool]
  rfl

theorem warmEnd_boot : s.warmEnd.boot.nor = s.boot.nor ∧ s.warmEnd.boot.fuses = s.boot.fuses := by
  obtain ⟨alert, hot, eq⟩ := warmEnd_eq (s := s)
  rw [eq]
  exact ⟨endLog_nor, endLog_keeps.fuses⟩

theorem warmEnd_mem : s.warmEnd.mem = warmMem s.mem (inUse s) (keptAfter s) := by
  obtain ⟨alert, hot, eq⟩ := warmEnd_eq (s := s)
  rw [eq]

/-! What memory is behind a warm reset. -/

theorem warmMem_kept {m : Mem} {used kept : Bool} (same : used = false → m.kept = kept) : (warmMem m used kept).kept = kept := by
  cases kept with
  | false => rfl
  | true =>
    cases used with
    | false => exact same rfl
    | true => rfl

theorem warmMem_asleep {m : Mem} {kept : Bool} {k : Nat} (stack : k < 4) : tget 0 (warmMem m true kept).powerSt k = 2 := by
  change tget 0 [(0, 2), (1, 2), (2, 2), (3, 2)] k = 2
  interval_cases k <;> rfl

theorem warmMem_lost (m : Mem) (used : Bool) : (warmMem m used false).cells = [] := rfl

/-- With KEPT = 1 every byte of HBM outside the Sketchbook reads as before. -/
theorem warmMem_outside {m : Mem} {a : Nat} (canon : Memory.wf m.cells = true) (outside : a < m.sketchBase ∨ m.paletteBase ≤ a)
    (hbm : a < Config.scratchBase) : tget unlisted (warmMem m true true).cells a = tget unlisted m.cells a := by
  change tget unlisted ((m.cells.filter _).filter _) a = _
  rw [tget_filter a (tcanon_filter _ canon) fun _ => decide_eq_true hbm, tget_filter a canon]
  intro _
  simpa using outside

/-! The pin. -/

/-- WARM_RST_L is low. -/
def pinLow (s : State) : State := s.setBoard { s.board with warmRst := false }

theorem execWarmRst_low (low : s.board.warmRst = true) (clock : s.aclk = true) (noSeq : s.board.warmSeq = false) :
    execWarmRst s = .next (pinLow s).warmStart := by
  have starts : ((pinLow s).aclk && !(pinLow s).board.warmSeq) = true := by
    change (s.aclk && !s.board.warmSeq) = true
    rw [clock, noSeq]
    rfl
  rw [execWarmRst, when'_true low]
  exact congrArg _ (if_pos starts)

/-- The sequence once the writes in flight have landed, before its flush. -/
def warmFlushing (s : State) : State :=
  s.finishWrites.setBoard { s.finishWrites.board with warmSeq := true, warmSpoiled := !s.finishWrites.board.pwrFail }

theorem warmStart_running (running : s.dev = .running) (hbm : s.mem.lostHbm = false) : s.warmStart = (warmFlushing s).startFlush 5 := by
  unfold State.warmStart
  rw [running, hbm]
  rfl

theorem warmStart_resets (resets : s.dev = .hold ∨ s.dev = .boot) : s.warmStart = s.warmEnd := by
  unfold State.warmStart
  rcases resets with dev | dev <;> rw [dev] <;> rfl

/-- What the device shows while the flush of the sequence runs. -/
theorem warmFlushing_flush (idle : s.diary.busy = none) : let u := (warmFlushing s).startFlush 5
    u.board.warmSeq = true ∧ u.board.warmRst = s.board.warmRst ∧ u.dev = s.dev ∧ u.diary.busy = some (5, s.diary.head.toNat) ∧
    (∀ p ∈ u.easels, ∀ o ∈ p.2.ops, o.data = []) ∧ u.coll = s.coll ∧ u.fab = s.fab ∧
    u.mem.cells = ((s.easels.foldl opsLanded s.mem).write (spillAt ((s.diary.slot + 1) % 16)) (firstHeader s 5 u.diary.number)).cells := by
  have eq : warmFlushing s = { s with mem := s.easels.foldl opsLanded s.mem, easels := s.easels.map (fun p => (p.1, Easel.written p.2)),
                                      board := { s.board with warmSeq := true, warmSpoiled := !s.board.pwrFail } } := by
    rw [warmFlushing, finishWrites_eq]
    rfl
  have kept := startFlush_keeps (s := warmFlushing s) 5
  obtain ⟨busy, accessed⟩ := startFlush_idle (s := warmFlushing s) 5 (by rw [eq]; exact idle)
  dsimp only
  rw [kept.board rfl, kept.dev rfl, kept.easels rfl, kept.coll rfl, kept.fab rfl, accessed.cells, busy, eq]
  refine ⟨rfl, rfl, rfl, rfl, ?landed, rfl, rfl, rfl⟩
  case landed =>
    intro p mem o op
    obtain ⟨q, -, rfl⟩ := List.mem_map.mp mem
    obtain ⟨o, -, rfl⟩ := List.mem_map.mp op
    rfl

/-- The last flush of the sequence lets its end follow. -/
theorem execDiaryFlushComplete_warm {h : Nat} (busy : s.diary.busy = some (5, h)) (last : s.diary.pendingCause = none) (clock : s.aclk = true)
    (sequence : s.board.warmSeq = true) : execDiaryFlushComplete s = .next (s.closeFlush 5 h).warmEnd := by
  obtain ⟨done, pending⟩ := closeFlush_diary (s := s) 5 h
  have next : (s.closeFlush 5 h).nextFlush = s.closeFlush 5 h := by rw [State.nextFlush, pending, last]
  have board : (s.closeFlush 5 h).board = s.board := (closeFlush_keeps 5 h).board rfl
  simp only [execDiaryFlushComplete, busy, next, board, sequence, done]
  exact when'_true clock

/-- The memory behind the sequence: KEPT unless a channel waits for its exclusion or PWR_FAIL_L fell meanwhile. -/
theorem warmEnd_closed (h : Nat) (running : s.dev = .running) :
    (s.closeFlush 5 h).warmEnd.mem = warmMem (s.closeFlush 5 h).mem true (!s.mem.excludePending && !s.board.warmSpoiled) := by
  have closed := closeFlush_keeps (s := s) 5 h
  have used : inUse (s.closeFlush 5 h) = true := by
    rw [inUse, closed.dev rfl, running]
    rfl
  rw [warmEnd_mem, keptAfter, used, (closeFlush_map 5 h).2, closed.board rfl]
  rfl

/-- With KEPT = 1 every byte of HBM outside the Sketchbook and the spill slot of the flush reads as before the flush ended. -/
theorem warmMem_closed_outside (h : Nat) {a : Nat} (canon : Memory.wf s.mem.cells = true)
    (outside : a < s.mem.sketchBase ∨ s.mem.paletteBase ≤ a) (hbm : a < Config.scratchBase)
    (slot : a < s.diary.slot * 0x400000 ∨ (s.diary.slot + 1) * 0x400000 ≤ a) :
    tget unlisted (warmMem (s.closeFlush 5 h).mem true true).cells a = tget unlisted s.mem.cells a := by
  refine (warmMem_outside ((closeFlush_keeps 5 h).cells canon) ?_ hbm).trans (closeFlush_outside 5 h canon slot)
  simpa only [Mem.paletteBase, Mem.sketchBase, Mem.captureGib, Mem.sketchGib, (closeFlush_map 5 h).1] using outside

/-- Settles O49: the pin starts the sequence or resets at once; the last flush of the sequence resets, and keeps what KEPT says. -/
theorem warmResets : Obligations.WarmResets := by
  intro s
  refine ⟨fun low clock running noSeq hbm idle => ?starts, fun low clock resets noSeq cool => ?resets, fun high => ?high,
    fun h busy last clock sequence running cool => ?ends, fun down => ?rises, fun up => ?up⟩
  case starts =>
    refine ⟨_, (execWarmRst_low low clock noSeq).trans (congrArg _ (warmStart_running running hbm)), ?_⟩
    obtain ⟨begun, pin, dev, flush, landed, coll, fab, cells⟩ := warmFlushing_flush (s := pinLow s) idle
    exact ⟨begun, pin, dev.trans running, flush, landed, coll, fab, cells⟩
  case resets =>
    refine ⟨_, (execWarmRst_low low clock noSeq).trans (congrArg _ (warmStart_resets resets)), ?_⟩
    obtain ⟨easels, coll, -, funcs, clocks, formats, -⟩ := warmEnd_core (s := pinLow s)
    have unused : inUse (pinLow s) = false := by
      change (s.dev == .running || s.dev == .grisaille) = false
      rcases resets with dev | dev <;> rw [dev] <;> rfl
    have kept : keptAfter (pinLow s) = s.mem.kept := by
      rw [keptAfter, unused]
      rfl
    refine ⟨warmEnd_dev cool, easels, coll, clocks, funcs, formats, ?_⟩
    rw [warmEnd_mem, kept]
    exact warmMem_kept fun _ => rfl
  case high => exact when'_false high
  case ends =>
    obtain ⟨easels, coll, health, funcs, clocks, formats, idle⟩ := warmEnd_core (s := s.closeFlush 5 h)
    obtain ⟨nor, fuses⟩ := warmEnd_boot (s := s.closeFlush 5 h)
    have closed := closeFlush_keeps (s := s) 5 h
    have cool' : (s.closeFlush 5 h).board.coolHold = false := (congrArg Board.coolHold (closed.board rfl)).trans cool
    refine ⟨_, execDiaryFlushComplete_warm busy last clock sequence, warmEnd_dev cool', easels, coll, health, funcs, clocks, formats,
      nor.trans (closeFlush_nor 5 h), fuses.trans closed.fuses, idle, ?_⟩
    rw [warmEnd_closed h running, warmMem_kept (used := true) nofun]
    refine ⟨rfl, fun k stack => warmMem_asleep stack, fun lost => ?_, fun keeps canon a outside hbm slot => ?_⟩
    · rw [lost]
      exact warmMem_lost _ _
    · rw [keeps]
      exact warmMem_closed_outside h canon outside hbm slot
  case rises =>
    dsimp only [exec]
    rw [execWarmRstRise, down]
    rfl
  case up =>
    dsimp only [exec]
    rw [execWarmRstRise, up]
    rfl

end Sys2Proof.Proofs
end

section
/-!
What the authority asks of the home of a rank (12 R333, R336, R339, R349).
-/

namespace Sys2Proof.Proofs

open Sys2Proof Sys2Proof.Machine Sys2Proof.Claims

variable {s : State} {src c r epoch addr st : Nat} {a : Arrived} {x : Ctx}

/-! That the frame has been taken changes nothing of what the answer depends on. -/

@[simp] theorem consume_isLocal (x : Ctx) (r : Nat) : (s.consume a).isLocal x r = s.isLocal x r := isLocal_of_place (consume_place a) x r

@[simp] theorem consume_fenceAnswer : (s.consume a).fenceAnswer c r epoch addr = s.fenceAnswer c r epoch addr := by
  simp only [State.fenceAnswer, consume_ctx, consume_isLocal]

@[simp] theorem consume_rejoinAnswer : (s.consume a).rejoinAnswer c r epoch addr = s.rejoinAnswer c r epoch addr := by
  simp only [State.rejoinAnswer, consume_ctx, consume_isLocal]

/-! A request that no switch passes on is the authority's: it counts, and it is answered. -/

section Authority

variable (authority : keySw src = false)
include authority

/-- A ROSTER message of the authority comes from no lost switch. -/
theorem onMessage_authority {mtype : Nat} (message : Message s src 0 6 mtype a) (go : Arrived → State → State) :
    onMessage src 6 mtype s (fun a s => s.notLost src (msgCtx a.body) (go a s)) = .next (go a (s.consume a)) := by
  rw [onMessage_front message]
  exact congrArg _ (if_neg (by simp [authority]))

theorem ackTo_authority (status : Nat) (b : Bytes) : s.ackTo src status b = s.rosterTo src (ackMsg status b) :=
  if_neg (ne_true_of_eq_false authority)

section Fence
variable (message : Message s src 0 6 2 a)
include message

theorem execFence_answered (due : s.fenceAnswer (msgCtx a.body) (rmRank a.body) (rmEpoch a.body) (rmAddr a.body) = some st) :
    execFence src s = .next ((s.consume a).rosterTo src (ackMsg st a.body)) := by
  refine (onMessage_authority authority message _).trans (congrArg _ ((if_neg (ne_true_of_eq_false authority)).trans ?_))
  simp only [consume_fenceAnswer, due, ackTo_authority authority]

theorem execFence_applied (new : s.fenceAnswer (msgCtx a.body) (rmRank a.body) (rmEpoch a.body) (rmAddr a.body) = none) :
    execFence src s = .next ((((s.consume a).fenceRank (msgCtx a.body) (rmRank a.body) none).noteApplied (msgCtx a.body)
      (2, rmRank a.body, rmEpoch a.body, rmAddr a.body)).rosterTo src (ackMsg stOk a.body)) := by
  refine (onMessage_authority authority message _).trans (congrArg _ ((if_neg (ne_true_of_eq_false authority)).trans ?_))
  simp only [consume_fenceAnswer, new, ackTo_authority authority]

end Fence

section Rejoin
variable (message : Message s src 0 6 4 a)
include message

theorem execRejoin_answered (due : s.rejoinAnswer (msgCtx a.body) (rmRank a.body) (rmEpoch a.body) (rmAddr a.body) = some st) :
    execRejoin src s = .next ((s.consume a).rosterTo src (ackMsg st a.body)) := by
  refine (onMessage_authority authority message _).trans (congrArg _ ((if_neg (ne_true_of_eq_false authority)).trans ?_))
  simp only [consume_rejoinAnswer, due, ackTo_authority authority]

theorem execRejoin_applied (new : s.rejoinAnswer (msgCtx a.body) (rmRank a.body) (rmEpoch a.body) (rmAddr a.body) = none) :
    execRejoin src s = .next ((((s.consume a).rejoinHome (msgCtx a.body) (rmRank a.body) (rmEpoch a.body) (rmAddr a.body) none).noteApplied
      (msgCtx a.body) (4, rmRank a.body, rmEpoch a.body, rmAddr a.body)).rosterTo src (ackMsg stOk a.body)) := by
  refine (onMessage_authority authority message _).trans (congrArg _ ((if_neg (ne_true_of_eq_false authority)).trans ?_))
  simp only [consume_rejoinAnswer, new, ackTo_authority authority]

end Rejoin
end Authority

/-! The lowest status that applies. -/

/-- A READY context counts. -/
theorem live_of_ready (ready : x.st = .ready) : x.live = true := by
  rw [Ctx.live, ready]
  rfl

/-- This switch is the home of rank `r`. -/
def HomeOf (s : State) (c r : Nat) : Prop := r < (s.ctx c).rosterN ∧ s.isLocal (s.ctx c) r = true

section Answers

variable (ready : (s.ctx c).st = .ready)
include ready

theorem homeOf_iff : HomeOf s c r ↔ (!(s.ctx c).live || decide ((s.ctx c).rosterN ≤ r) || !s.isLocal (s.ctx c) r) = false := by
  simp [HomeOf, live_of_ready ready]

section Fence

theorem fenceAnswer_repeated (before : (2, r, epoch, addr) ∈ (s.ctx c).applied) : s.fenceAnswer c r epoch addr = some stOk :=
  if_pos (by simpa [live_of_ready ready] using before)

variable (new : (2, r, epoch, addr) ∉ (s.ctx c).applied)
include new

theorem fenceAnswer_elsewhere (elsewhere : ¬HomeOf s c r) : s.fenceAnswer c r epoch addr = some stBadField := by
  rw [homeOf_iff ready] at elsewhere
  exact (if_neg (by simpa [live_of_ready ready] using new)).trans (if_pos (eq_true_of_ne_false elsewhere))

variable (home : HomeOf s c r)
include home

/-- At the home, the epoch must be the rank's; a fence that is in force needs nothing more. -/
theorem fenceAnswer_home : s.fenceAnswer c r epoch addr =
    if ((s.ctx c).rank r).epoch != epoch then some stSequence else if !((s.ctx c).rank r).live then some stOk else none := by
  rw [homeOf_iff ready] at home
  exact (if_neg (by simpa [live_of_ready ready] using new)).trans (if_neg (ne_true_of_eq_false home))

theorem fenceAnswer_otherEpoch (other : ((s.ctx c).rank r).epoch ≠ epoch) : s.fenceAnswer c r epoch addr = some stSequence := by
  simp [fenceAnswer_home ready new home, other]

theorem fenceAnswer_inForce (current : ((s.ctx c).rank r).epoch = epoch) (fenced : ((s.ctx c).rank r).live = false) :
    s.fenceAnswer c r epoch addr = some stOk := by
  simp [fenceAnswer_home ready new home, current, fenced]

theorem fenceAnswer_due (current : ((s.ctx c).rank r).epoch = epoch) (live : ((s.ctx c).rank r).live = true) :
    s.fenceAnswer c r epoch addr = none := by
  simp [fenceAnswer_home ready new home, current, live]

end Fence

section Rejoin

theorem rejoinAnswer_repeated (before : (4, r, epoch, addr) ∈ (s.ctx c).applied) : s.rejoinAnswer c r epoch addr = some stOk :=
  if_pos (by simpa [live_of_ready ready] using before)

variable (new : (4, r, epoch, addr) ∉ (s.ctx c).applied)
include new

theorem rejoinAnswer_elsewhere (elsewhere : ¬HomeOf s c r) : s.rejoinAnswer c r epoch addr = some stBadField := by
  rw [homeOf_iff ready] at elsewhere
  exact (if_neg (by simpa [live_of_ready ready] using new)).trans (if_pos (eq_true_of_ne_false elsewhere))

variable (home : HomeOf s c r)
include home

theorem rejoinAnswer_joined (joined : ((s.ctx c).rank r).joined = true) (same : ((s.ctx c).rank r).epoch = epoch)
    (there : ((s.ctx c).rank r).endpoint = addr) : s.rejoinAnswer c r epoch addr = some stOk := by
  rw [homeOf_iff ready] at home
  exact (if_neg (by simpa [live_of_ready ready] using new)).trans
    ((if_neg (ne_true_of_eq_false home)).trans (if_pos (by simp [joined, same, there])))

variable (moves : ((s.ctx c).rank r).joined = false ∨ ((s.ctx c).rank r).epoch ≠ epoch ∨ ((s.ctx c).rank r).endpoint ≠ addr)
include moves

/-- At the home, a rank moves to a newer epoch and an endpoint that no other rank has. -/
theorem rejoinAnswer_moves : s.rejoinAnswer c r epoch addr =
    lowest [((s.ctx c).roster.any (fun q => q.1 != r && decide (q.1 < (s.ctx c).rosterN) && q.2.endpoint == addr), stBadField),
      (!newerEpoch ((s.ctx c).rank r).epoch epoch, stSequence)] := by
  rw [homeOf_iff ready] at home
  refine (if_neg (by simpa [live_of_ready ready] using new)).trans ((if_neg (ne_true_of_eq_false home)).trans (if_neg ?_))
  rcases moves with moves | moves | moves <;> simp [moves]

theorem rejoinAnswer_taken (taken : ∃ q ∈ (s.ctx c).roster, q.1 ≠ r ∧ q.1 < (s.ctx c).rosterN ∧ q.2.endpoint = addr) :
    s.rejoinAnswer c r epoch addr = some stBadField := by
  have other : (s.ctx c).roster.any (fun q => q.1 != r && decide (q.1 < (s.ctx c).rosterN) && q.2.endpoint == addr) = true := by
    simpa [and_assoc] using taken
  rw [rejoinAnswer_moves ready new home moves, other]
  exact lowest_cons_true (by simp [stBadField, stSequence])

variable (free : ∀ q ∈ (s.ctx c).roster, q.1 = r ∨ (s.ctx c).rosterN ≤ q.1 ∨ q.2.endpoint ≠ addr)
include free

theorem rejoinAnswer_free : s.rejoinAnswer c r epoch addr = lowest [(!newerEpoch ((s.ctx c).rank r).epoch epoch, stSequence)] := by
  have untaken : (s.ctx c).roster.any (fun q => q.1 != r && decide (q.1 < (s.ctx c).rosterN) && q.2.endpoint == addr) = false := by
    simpa [imp_iff_not_or, or_assoc] using free
  rw [rejoinAnswer_moves ready new home moves, untaken, lowest_cons_false]

theorem rejoinAnswer_stale (stale : newerEpoch ((s.ctx c).rank r).epoch epoch = false) : s.rejoinAnswer c r epoch addr = some stSequence := by
  rw [rejoinAnswer_free ready new home moves free, stale]
  rfl

theorem rejoinAnswer_due (newer : newerEpoch ((s.ctx c).rank r).epoch epoch = true) : s.rejoinAnswer c r epoch addr = none := by
  rw [rejoinAnswer_free ready new home moves free, newer]
  rfl

end Rejoin
end Answers

/-- Settles O42: a request of the authority has the lowest answer that is due, and is applied where none is. -/
theorem fenceAndRejoin : Obligations.FenceAndRejoin := by
  rintro s src a c r rfl rfl authority ready
  dsimp only [exec]
  refine ⟨fun message => onMessage_front message _, fun message before => ?fenceRepeated, fun message new => ⟨?fenceElsewhere, ?fenceOther,
      ?fenceInForce, ?fenceApplies⟩, fun message before => ?rejoinRepeated, fun message new => ⟨?rejoinElsewhere, ?rejoinInForce,
      ?rejoinTaken, fun home moves free => ⟨?rejoinStale, ?rejoinApplies⟩⟩⟩
  case fenceRepeated => exact execFence_answered authority message (fenceAnswer_repeated ready before)
  case fenceElsewhere => exact fun elsewhere => execFence_answered authority message (fenceAnswer_elsewhere ready new elsewhere)
  case fenceOther => exact fun home other => execFence_answered authority message (fenceAnswer_otherEpoch ready new home other)
  case fenceInForce =>
    exact fun home current fenced => execFence_answered authority message (fenceAnswer_inForce ready new home current fenced)
  case fenceApplies => exact fun home current live => execFence_applied authority message (fenceAnswer_due ready new home current live)
  case rejoinRepeated => exact execRejoin_answered authority message (rejoinAnswer_repeated ready before)
  case rejoinElsewhere => exact fun elsewhere => execRejoin_answered authority message (rejoinAnswer_elsewhere ready new elsewhere)
  case rejoinInForce =>
    exact fun home joined same there => execRejoin_answered authority message (rejoinAnswer_joined ready new home joined same there)
  case rejoinTaken => exact fun home moves taken => execRejoin_answered authority message (rejoinAnswer_taken ready new home moves taken)
  case rejoinStale => exact fun stale => execRejoin_answered authority message (rejoinAnswer_stale ready new home moves free stale)
  case rejoinApplies => exact fun newer => execRejoin_applied authority message (rejoinAnswer_due ready new home moves free newer)

end Sys2Proof.Proofs
end

section
/-!
Lost participants and re-runs (12 R351-R354).
-/

namespace Sys2Proof.Proofs

open Sys2Proof Sys2Proof.Machine Sys2Proof.Claims

variable {s : State} {src c h gone st : Nat} {a : Arrived}

/-! That the frame has been taken changes nothing of the geometry of a context. -/

theorem geo_participants (x : Ctx) : (s.geo x).participants = (geoAt (place s.fab) x).participants := rfl
theorem geo_parent (x : Ctx) : (s.geo x).parent = (geoAt (place s.fab) x).parent := rfl
theorem geo_mayHost (x : Ctx) : (s.geo x).mayHost = (geoAt (place s.fab) x).mayHost := rfl

@[simp] theorem consume_parent (x : Ctx) : ((s.consume a).geo x).parent = (s.geo x).parent := by
  rw [geo_parent, consume_place, ← geo_parent]

@[simp] theorem consume_participant : (s.consume a).participant c h = s.participant c h := by
  rw [State.participant, consume_ctx, geo_participants, consume_place, ← geo_participants, State.participant]

@[simp] theorem consume_hostAnswer : (s.consume a).hostAnswer c gone h = s.hostAnswer c gone h := by
  have mayHost (x : Ctx) : ((s.consume a).geo x).mayHost = (s.geo x).mayHost := by rw [geo_mayHost, consume_place, ← geo_mayHost]
  simp only [State.hostAnswer, consume_ctx, consume_participant, mayHost]

/-- A ROSTER message of a context that has lost no switch comes from no lost switch. -/
theorem onMessage_unlost {mtype : Nat} (message : Message s src 0 6 mtype a) (noLoss : (s.ctx (msgCtx a.body)).lost = [])
    (go : Arrived → State → State) :
    onMessage src 6 mtype s (fun a s => s.notLost src (msgCtx a.body) (go a s)) = .next (go a (s.consume a)) := by
  rw [onMessage_front message, notLost_of_nil (by simpa using noLoss)]

/-! LOST (12 R352). -/

theorem execLost_eq (message : Message s src 0 6 7 a) (noLoss : (s.ctx (msgCtx a.body)).lost = []) : execLost src s = .next
    (if s.participant (msgCtx a.body) (rmAddr a.body) then
      (s.consume a).applyLost (msgCtx a.body) (rmAddr a.body) none 7 (leAt a.body 1 1) (skipOf src) else s.consume a) := by
  refine (onMessage_unlost message noLoss _).trans (congrArg _ ?_)
  rw [consume_ctx, consume_participant, noLoss]
  cases s.participant (msgCtx a.body) (rmAddr a.body) <;> rfl

/-! HOST (12 R353). -/

section Host

variable (authority : keySw src = false) (message : Message s src 0 6 8 a)
include authority message

theorem execHost_answered (due : s.hostAnswer (msgCtx a.body) (rmAddr a.body) (rmHost a.body) = some st) :
    execHost src s = .next ((s.consume a).rosterTo src (ackMsg st a.body)) := by
  refine (onMessage_authority authority message _).trans (congrArg _ ?_)
  simp only [consume_hostAnswer, due, ackTo_authority authority]

theorem execHost_applied (new : s.hostAnswer (msgCtx a.body) (rmAddr a.body) (rmHost a.body) = none) :
    execHost src s = .next ((((s.consume a).applyLost (msgCtx a.body) (rmAddr a.body) (some (rmHost a.body)) 8 (leAt a.body 1 1)
      none).noteApplied (msgCtx a.body) (8, rmAddr a.body, rmHost a.body, 0)).rosterTo src (ackMsg stOk a.body)) := by
  have skip : skipOf src = none := if_neg (ne_true_of_eq_false authority)
  refine (onMessage_authority authority message _).trans (congrArg _ ?_)
  simp only [consume_hostAnswer, new, ackTo_authority authority, skip]

end Host

section HostAnswer

variable (ready : (s.ctx c).st = .ready)
include ready

theorem hostAnswer_repeated (before : (8, gone, h, 0) ∈ (s.ctx c).applied) : s.hostAnswer c gone h = some stOk :=
  if_pos (by simpa [live_of_ready ready] using before)

variable (new : (8, gone, h, 0) ∉ (s.ctx c).applied)
include new

theorem hostAnswer_unfit (unfit : s.participant c gone = false ∨ s.participant c h = false ∨ h = gone) :
    s.hostAnswer c gone h = some stBadField := by
  refine (if_neg (by simpa [live_of_ready ready] using new)).trans (if_pos ?_)
  rcases unfit with unfit | unfit | unfit <;> simp [unfit]

theorem hostAnswer_due (noLoss : (s.ctx c).lost = []) (lost : s.participant c gone = true) (host : s.participant c h = true) (other : h ≠ gone)
    (may : (s.geo (s.ctx c)).mayHost gone h = true) : s.hostAnswer c gone h = none :=
  (if_neg (by simpa [live_of_ready ready] using new)).trans
    ((if_neg (by simp [lost, host, other, may])).trans (if_neg (by simp [noLoss])))

end HostAnswer

/-! RERUN (12 R351). -/

/-- The sender holds the parent of a node held here. -/
def FromAbove (s : State) (c src : Nat) : Prop :=
  keySw src = true ∧ ∃ n ∈ (s.geo (s.ctx c)).held, ∃ q, (s.geo (s.ctx c)).parent n = some q ∧ (s.geo (s.ctx c)).holder q = keyAddr src

theorem fromAbove_iff : FromAbove s c src ↔
    (keySw src && (s.geo (s.ctx c)).held.any (fun n => ((s.geo (s.ctx c)).parent n).any (fun q => (s.geo (s.ctx c)).holder q == keyAddr src))) =
      true := by
  simp [FromAbove, Option.any_eq_true]

section Rerun

variable (message : Message s src 0 6 6 a) (ready : (s.ctx (msgCtx a.body)).st = .ready) (noLoss : (s.ctx (msgCtx a.body)).lost = [])
include message ready noLoss

theorem execRerun_anchor (top : (s.geo (s.ctx (msgCtx a.body))).up = none) :
    execRerun src s = .next ((s.consume a).mergeRerun (msgCtx a.body) (msgGen a.body) (rmFirst a.body) (rmLast a.body)) := by
  refine (onMessage_unlost message noLoss _).trans (congrArg _ ?_)
  simp only [consume_ctx, consume_up, live_of_ready ready, top]
  rfl

variable {p : Nat} (up : (s.geo (s.ctx (msgCtx a.body))).up = some p)
include up

theorem execRerun_down (above : FromAbove s (msgCtx a.body) src) : execRerun src s =
    .next (((s.consume a).rerunDown (msgCtx a.body) a.body).applyRerun (msgCtx a.body) (msgGen a.body) (rmFirst a.body) (rmLast a.body)) := by
  refine (onMessage_unlost message noLoss _).trans (congrArg _ ?_)
  rw [fromAbove_iff] at above
  simp only [consume_ctx, consume_up, consume_held, consume_parent, consume_holder, live_of_ready ready, up, above]
  rfl

theorem execRerun_up (below : ¬FromAbove s (msgCtx a.body) src) :
    execRerun src s = .next ((s.consume a).rosterNode (msgCtx a.body) p a.body) := by
  refine (onMessage_unlost message noLoss _).trans (congrArg _ ?_)
  rw [fromAbove_iff, Bool.not_eq_true] at below
  simp only [consume_ctx, consume_up, consume_held, consume_parent, consume_holder, live_of_ready ready, up, below]
  rfl

end Rerun

/-! RERUN_MERGE (12 R351) and SWITCH_SILENCE (12 R354). -/

section Merge

variable {num : Word} {m : Merge} (found : s.coll.merges.find? (fun m => m.ctx == c && m.gen == num) = some m)
include found

/-- The anchor passes the merged re-run down and applies it itself. -/
theorem execRerunMerge_due (works : s.computing = true) (due : m.since + 1250 ≤ s.now) : execRerunMerge c num s =
    .next (State.applyRerun (State.rerunDown (s.setColl { s.coll with merges := s.coll.merges.filter (fun z => !(z.ctx == c && z.gen == num)) }) c
        (rosterMsg 6 0 c num 0 0 0 0 m.first m.last 0 0)) c num m.first m.last) := by
  simp only [execRerunMerge, found]
  exact when'_true (by simp [works, due])

theorem execRerunMerge_early (early : s.now < m.since + 1250) : execRerunMerge c num s = .next s := by
  simp only [execRerunMerge, found]
  exact when'_false (by simp [Nat.not_le.mpr early])

end Merge

section Silence

variable {sw : Nat}

theorem execSwitchSilence_due (noLoss : (s.ctx c).lost = []) (works : s.computing = true) (takesPart : s.participant c sw = true)
    (other : sw ≠ s.fab.hereAddr)
    (neighbour : ((s.geo (s.ctx c)).held.flatMap (s.geo (s.ctx c)).neighbours).contains sw = true)
    (silent : tget 0 s.coll.heardSw sw + s.health.silenceMs * 1250000 ≤ s.now) : execSwitchSilence c sw s =
      .next ((s.applyLost c sw none 7 stOk none).toAuthority (lostMsg stOk c sw (((s.geo (s.ctx c)).hostFor sw).getD 0))) := by
  have pastLimit : tget 0 s.coll.heardSw sw + s.health.silenceMs * Config.msAclk ≤ s.now := silent
  refine when'_true ?_
  rw [works, takesPart, noLoss, neighbour, decide_eq_true pastLimit, bne_iff_ne.mpr other]
  simp

theorem execSwitchSilence_heard (heard : s.now < tget 0 s.coll.heardSw sw + s.health.silenceMs * 1250000) :
    execSwitchSilence c sw s = .next s := by
  have withinLimit : ¬tget 0 s.coll.heardSw sw + s.health.silenceMs * Config.msAclk ≤ s.now := Nat.not_le.mpr heard
  refine when'_false ?_
  rw [decide_eq_false withinLimit, Bool.and_false]

end Silence

/-- Settles O43: a loss is applied once, a HOST is checked and answered, a re-run goes to the anchor and down, and silence is a loss. -/
theorem lostParticipants : Obligations.LostParticipants := by
  rintro s src a c rfl ready noLoss
  dsimp only [exec]
  refine ⟨fun message takesPart => ?lost, fun message foreign => ?lostForeign, fun message authority new unfit => ?hostUnfit,
    fun message authority lost host other may new => ?hostApplies, fun message authority before => ?hostRepeated,
    fun message top => execRerun_anchor message ready noLoss top,
    fun p message up => ⟨execRerun_down message ready noLoss up, execRerun_up message ready noLoss up⟩,
    fun num m found works => ⟨execRerunMerge_due found works, execRerunMerge_early found⟩,
    fun sw works takesPart other neighbour => ⟨execSwitchSilence_due noLoss works takesPart other neighbour, execSwitchSilence_heard⟩⟩
  case lost => exact (execLost_eq message noLoss).trans (congrArg _ (if_pos takesPart))
  case lostForeign => exact (execLost_eq message noLoss).trans (congrArg _ (if_neg (ne_true_of_eq_false foreign)))
  case hostUnfit => exact execHost_answered authority message (hostAnswer_unfit ready new unfit)
  case hostApplies => exact execHost_applied authority message (hostAnswer_due ready new noLoss lost host other may)
  case hostRepeated => exact execHost_answered authority message (hostAnswer_repeated ready before)

end Sys2Proof.Proofs
end

section
/-!
Parking in the Sketchbook (12 R343-R346; 16 R439; 08 R227).
-/

namespace Sys2Proof.Proofs

open Sys2Proof Sys2Proof.Machine Sys2Proof.Claims

variable {s : State} {c k : Nat} {num : Word} {y : Gen}

section Events

variable (inFlight : (s.ctx c).gen? num = some y)
include inFlight

/-! CHUNK_STALL (12 R343, R345). -/

/-- A chunk without a result misses a tile for HOLD. -/
theorem execChunkStall_due {t : Nat} (works : s.computing = true) (parks : (s.ctx c).parks y = true) (free : (s.ctx c).areaFree (y.chunk k) = true)
    (undone : (y.chunk k).done = false) (idle : (y.chunk k).parking = false) (live : (y.chunk k).parked = false)
    (missing : s.missing c y k = true) (stalls : (y.chunk k).stallAt = some t) (held : t + s.health.hold ≤ s.now) :
    execChunkStall c num k s = .next (s.parkChunk c (s.ctx c) num k (y.chunk k)) := by
  simp only [execChunkStall, inFlight]
  exact when'_true (by simp [works, parks, free, undone, idle, live, missing, stalls, held])

theorem execChunkStall_areaUsed (used : (s.ctx c).areaFree (y.chunk k) = false) : execChunkStall c num k s = .next s := by
  simp only [execChunkStall, inFlight]
  exact when'_false (by simp [used])

theorem execChunkStall_early {t : Nat} (stalls : (y.chunk k).stallAt = some t) (early : s.now < t + s.health.hold) :
    execChunkStall c num k s = .next s := by
  simp only [execChunkStall, inFlight]
  exact when'_false (by simp [stalls, Nat.not_le.mpr early])

/-! CHUNK_PARKED (12 R345). -/

/-- The studies that hold the chunk's partials have ended. -/
theorem execChunkParked_due (works : s.computing = true) (parking : (y.chunk k).parking = true)
    (quiet : ∀ p ∈ (y.chunk k).parkOf, p ∈ (y.chunk k).ended ∧ (s.easel p.1).quietOf c num k = true) :
    execChunkParked c num k s = .next (s.modGen c num (fun y => y.modChunk k (fun z => { z with parking := false, parked := true }))) := by
  have ended : (y.chunk k).parkOf.all (fun p => (y.chunk k).ended.contains p && (s.easel p.1).quietOf c num k) = true := by
    simpa using quiet
  simp only [execChunkParked, inFlight]
  exact when'_true (by rw [works, parking, ended]; rfl)

theorem execChunkParked_idle (idle : (y.chunk k).parking = false) : execChunkParked c num k s = .next s := by
  simp only [execChunkParked, inFlight]
  exact when'_false (by simp [idle])

/-! CHUNK_RESUME (12 R346; 16 R439). -/

/-- Nothing is missing, and there is room for the start entries. -/
theorem execChunkResume_due (works : s.computing = true) (parked : (y.chunk k).parked = true) (kept : (y.chunk k).void = false)
    (whole : s.missing c y k = false) (cycle : s.pushCycle = true)
    (room : ∀ p ∈ (y.chunk k).parkOf, (s.easel p.1).stopAt = none ∧ s.startRoom p.1 p.2 = true) :
    execChunkResume c num k s = .next ((s.resumeChunk c (s.ctx c) y k (y.chunk k)).wakeBound c) := by
  have ready : (y.chunk k).parkOf.all (fun p => (s.easel p.1).stopAt.isNone && s.startRoom p.1 p.2) = true := by simpa using room
  simp only [execChunkResume, inFlight]
  exact when'_true (by rw [works, parked, kept, whole, cycle, ready]; rfl)

theorem execChunkResume_idle (idle : (y.chunk k).parked = false ∨ (y.chunk k).void = true ∨ s.missing c y k = true ∨ s.pushCycle = false) :
    execChunkResume c num k s = .next s := by
  simp only [execChunkResume, inFlight]
  refine when'_false ?_
  rcases idle with live | lost | missing | limited
  · simp [live]
  · simp [lost]
  · simp [missing]
  · simp [limited]

end Events

/-- Settles O45: each event of a chunk that parks acts where its conditions hold, and else leaves the state as it was. -/
theorem parking : Obligations.Parking := by
  rintro s c num y k x z works rfl inFlight rfl
  dsimp only [exec]
  exact ⟨fun t => execChunkStall_due inFlight works, execChunkStall_areaUsed inFlight, fun t => execChunkStall_early inFlight,
    execChunkParked_due inFlight works, execChunkParked_idle inFlight,
    execChunkResume_due inFlight works, execChunkResume_idle inFlight⟩

end Sys2Proof.Proofs
end

section
/-!
The detectors: members that are silent, the health of endpoints and their expulsion (12 R338, R357, R358).
-/

namespace Sys2Proof.Proofs

open Sys2Proof Sys2Proof.Machine Sys2Proof.Claims

variable {s : State}

/-! MEMBER_SILENT (12 R338). -/

section Silent

variable {ep : Nat}

theorem execMemberSilent_due (up : s.fabricUp = true) (detects : s.health.detectMs ≠ 0) (watched : s.watched ep = true)
    (silent : tget 0 s.health.lastFrame (edgeOf ep) + s.health.detectMs * 1250000 ≤ s.now) :
    execMemberSilent ep s = .next (s.fenceEndpoint ep) := by
  have pastLimit : tget 0 s.health.lastFrame (edgeOf ep) + s.health.detectMs * Config.msAclk ≤ s.now := silent
  exact when'_true (by simp [up, detects, watched, pastLimit])

theorem execMemberSilent_heard (heard : s.now < tget 0 s.health.lastFrame (edgeOf ep) + s.health.detectMs * 1250000) :
    execMemberSilent ep s = .next s := by
  have withinLimit : ¬tget 0 s.health.lastFrame (edgeOf ep) + s.health.detectMs * Config.msAclk ≤ s.now := Nat.not_le.mpr heard
  exact when'_false (by simp [withinLimit])

theorem execMemberSilent_unwatched (none : s.health.detectMs = 0 ∨ s.watched ep = false) : execMemberSilent ep s = .next s := by
  refine when'_false ?_
  rcases none with off | unwatched
  · simp [off]
  · simp [unwatched]

end Silent

/-! HEALTH_DECAY (12 R357). -/

/-- The scores a second later: each is an eighth lower, rounded up, and none is listed that is 0. -/
def decayed (t : Tab Nat) : Tab Nat := (t.map (fun p => (p.1, p.2 - ceilDiv p.2 8))).filter (fun p => p.2 != 0)

/-- A table whose entries are all changed reads as the entry changed, under the default changed. -/
theorem tget_map {α β : Type} (g : α → β) (d : α) (t : Tab α) (k : Nat) :
    tget (g d) (t.map (fun p => (p.1, g p.2))) k = g (tget d t k) := by
  induction t with
  | nil => rfl
  | cons p t ih =>
    rw [List.map_cons, tget, tget, ih, apply_ite g, apply_ite g]

/-- Where the keys rise, an entry that equals the default need not be listed. -/
theorem tget_filter_ne {α : Type} [DecidableEq α] (d : α) {t : Tab α} (rising : t.Pairwise (fun p q => p.1 < q.1)) (k : Nat) :
    tget d (t.filter (fun p => p.2 != d)) k = tget d t k := by
  induction t with
  | nil => rfl
  | cons p t ih =>
    obtain ⟨after, rising⟩ := List.pairwise_cons.mp rising
    by_cases listed : p.2 = d
    · rw [List.filter_cons_of_neg (by simp [listed]), ih rising, tget, listed]
      split
      · next same => exact tget_of_lt fun q mem => same ▸ after q mem
      · split
        · next before => exact tget_of_lt fun q mem => before.trans (after q mem)
        · rfl
    · rw [List.filter_cons_of_pos (by simpa using listed), tget, tget, ih rising]

theorem tget_decayed {t : Tab Nat} (canon : tcanon 0 t = true) (e : Nat) : tget 0 (decayed t) e = tget 0 t e - (tget 0 t e + 7) / 8 := by
  have rising : (t.map (fun p => (p.1, p.2 - ceilDiv p.2 8))).Pairwise (fun p q => p.1 < q.1) :=
    List.pairwise_map.mpr ((tcanon_iff t).mp canon).1
  exact (tget_filter_ne 0 rising e).trans (tget_map (fun v => v - ceilDiv v 8) 0 t e)

/-- The state a second later. -/
def decayedState (s : State) : State :=
  { s with health := { s.health with
      score := decayed s.health.score, decayAt := s.now
      impaired := s.health.impaired.filter (fun e => decide (s.health.clear ≤ tget 0 (decayed s.health.score) e)) } }

theorem execHealthDecay_due (up : s.fabricUp = true) (due : s.health.decayAt + 1250000000 ≤ s.now) :
    execHealthDecay s = .next (decayedState s) := by
  have second : s.health.decayAt + secAclk ≤ s.now := due
  exact when'_true (by simp [up, second])

theorem execHealthDecay_early (early : s.now < s.health.decayAt + 1250000000) : execHealthDecay s = .next s := by
  have second : ¬s.health.decayAt + secAclk ≤ s.now := Nat.not_le.mpr early
  exact when'_false (by simp [second])

/-! EXPEL_TOKEN_ADD (12 R358). -/

/-- One token more, up to the bound. -/
def tokenAdded (s : State) : State :=
  { s with health := { s.health with tokenAt := s.now, tokens := min s.health.tokensMax (s.health.tokens + 1) } }

theorem nextExpelled_none {h : Health} (nobody : h.impaired = []) : h.nextExpelled = none := by
  simp [Health.nextExpelled, nobody]

/-- The one endpoint that waits is the next, once its score has reached the limit. -/
theorem nextExpelled_single {h : Health} {e : Nat} (edge : e < 64) (one : h.impaired = [e]) (reached : h.limit ≤ tget 0 h.score e) :
    h.nextExpelled = some e := by
  have l : h.impaired.filter (fun e => decide (h.limit ≤ tget 0 h.score e)) = [e] := by simp [one, reached]
  unfold Health.nextExpelled
  rw [l, List.find?_range_eq_some]
  exact ⟨by simp, List.mem_range.mpr edge, fun j less => by simp [Nat.ne_of_lt less]⟩

section Token

variable (up : s.fabricUp = true) (due : s.health.tokenAt + s.health.periodS * 1250000000 ≤ s.now)
include up due

/-- With the new token, the next endpoint that waits is expelled. -/
theorem execExpelTokenAdd_due {next : Option Nat}
    (first : (if (tokenAdded s).health.tokens = 0 then none else (tokenAdded s).health.nextExpelled) = next) :
    execExpelTokenAdd s = .next (next.elim (tokenAdded s) (tokenAdded s).expel) := by
  have period : s.health.tokenAt + s.health.periodS * secAclk ≤ s.now := due
  refine (when'_true (by simp [up, period])).trans (congrArg _ ?_)
  unfold tokenAdded at first ⊢
  simp only [first]
  cases next <;> rfl

theorem execExpelTokenAdd_waits (idle : s.health.impaired = [] ∨ s.health.tokensMax = 0) : execExpelTokenAdd s = .next (tokenAdded s) := by
  refine execExpelTokenAdd_due up due (next := none) ?_
  rcases idle with nobody | noTokens
  · rw [nextExpelled_none (h := (tokenAdded s).health) nobody, ite_self]
  · exact if_pos (by simp [tokenAdded, noTokens])

theorem execExpelTokenAdd_expels {e : Nat} (edge : e < 64) (one : s.health.impaired = [e]) (reached : s.health.limit ≤ tget 0 s.health.score e)
    (bound : 0 < s.health.tokensMax) : execExpelTokenAdd s = .next ((tokenAdded s).expel e) := by
  have tokens : (tokenAdded s).health.tokens ≠ 0 := Nat.ne_of_gt (Nat.lt_min.mpr ⟨bound, Nat.succ_pos _⟩)
  exact execExpelTokenAdd_due up due (next := some e)
    ((if_neg tokens).trans (nextExpelled_single (h := (tokenAdded s).health) edge one reached))

end Token

theorem execExpelTokenAdd_early (early : s.now < s.health.tokenAt + s.health.periodS * 1250000000) : execExpelTokenAdd s = .next s := by
  have period : ¬s.health.tokenAt + s.health.periodS * secAclk ≤ s.now := Nat.not_le.mpr early
  exact when'_false (by simp [period])

end Sys2Proof.Proofs
end

section
/-!
Entry to Grisaille mode (12 R360, R361; 14 R405; 15 R425, R431): the interrupts, the flush or the log that begins, and the stacks in self-refresh.
-/

namespace Sys2Proof.Proofs

open Sys2Proof Sys2Proof.Machine Sys2Proof.Claims

variable {s t : State} {f n : Nat} {why : GrisCause}

/-! A global event sets its bit in every enabled function (14 R405). -/

/-- The event in function `f`. -/
def raised (n : Nat) (s : State) (f : Nat) : State := if s.enabled f then s.interrupt f n else s

theorem raised_enabled (g : Nat) : (raised n s g).enabled f = s.enabled f := by
  unfold raised
  split <;> rfl

theorem interrupt_func (g : Nat) : (s.interrupt g n).func f = if f = g then { s.func g with
    intStatus := (s.func g).intStatus ||| BitVec.ofNat 16 (2 ^ n), intEvents := (s.func g).intEvents ||| BitVec.ofNat 16 (2 ^ n) } else s.func f :=
  State.func_setFunc _ _ _ _

theorem raised_intStatus (on : s.enabled f = true) (vector : n < 16) : ((raised n s f).func f).intStatus.getLsbD n = true := by
  rw [raised, if_pos on, interrupt_func, if_pos rfl, BitVec.getLsbD_or, BitVec.getLsbD_ofNat, Nat.testBit_two_pow_self, decide_eq_true vector]
  exact Bool.or_true _

/-- A bit that is set stays. -/
theorem raised_keeps_intStatus (g : Nat) (set : (s.func f).intStatus.getLsbD n = true) : ((raised n s g).func f).intStatus.getLsbD n = true := by
  unfold raised
  split
  · rw [interrupt_func]
    split
    · next same => simp [← same, set]
    · exact set
  · exact set

theorem foldl_raised_intStatus (vector : n < 16) (l : List Nat)
    (due : f ∈ l ∧ s.enabled f = true ∨ (s.func f).intStatus.getLsbD n = true) :
    ((l.foldl (raised n) s).func f).intStatus.getLsbD n = true := by
  induction l generalizing s with
  | nil => exact due.resolve_left fun ⟨mem, _⟩ => List.not_mem_nil mem
  | cons g l ih =>
    refine ih ?_
    rcases due with ⟨mem, on⟩ | set
    · rcases List.mem_cons.mp mem with rfl | mem
      · exact .inr (raised_intStatus on vector)
      · exact .inl ⟨mem, (raised_enabled g).trans on⟩
    · exact .inr (raised_keeps_intStatus g set)

theorem interruptAll_intStatus (listed : f < 4) (on : s.enabled f = true) (vector : n < 16) :
    ((s.interruptAll n).func f).intStatus.getLsbD n = true :=
  foldl_raised_intStatus vector (List.range 4) (.inl ⟨List.mem_range.mpr listed, on⟩)

/-! The device enters GRISAILLE: ALERT bit 0 and vector GRISAILLE. -/

/-- The last step of the entry. -/
def toGrisaille (t : State) : State := (t.setDev .grisaille).interruptAll 4

theorem toGrisaille_keeps : Keeps false false true true true true true true false true false true true t (toGrisaille t) :=
  keeps_State_interruptAll _ (keeps_State_setDev _ nofun (.refl t))

theorem toGrisaille_dev : (toGrisaille t).dev = .grisaille := by
  obtain ⟨alert, hot, entered⟩ := setDev_eq (s := t) .grisaille
  rw [toGrisaille, (interruptAll_keeps 4).dev rfl, entered]

theorem toGrisaille_intStatus (listed : f < 4) (on : t.enabled f = true) : ((toGrisaille t).func f).intStatus.getLsbD 4 = true := by
  refine interruptAll_intStatus listed ?_ (by decide)
  obtain ⟨alert, hot, entered⟩ := setDev_eq (s := t) .grisaille
  rw [entered]
  exact on

theorem toGrisaille_alert (running : t.dev = .running) : (toGrisaille t).boot.alert.getLsbD 0 = true := by
  have entered : t.setDev .grisaille = ({ t with dev := .grisaille } : State).alertBit 0 := if_neg (by simp [running])
  rw [toGrisaille, (interruptAll_keeps 4).boot rfl, entered, alertBit_boot, BitVec.getLsbD_or]
  exact Bool.or_eq_true_iff.mpr (.inr rfl)

/-! The header of a flush wakes the stack that its slot lies in, and no other (11 R328). -/

/-- An access outside the cached regions goes to HBM. -/
theorem accessWide_uncached {m : Mem} {g : Nat} (hbm : 256 * g < Config.scratchBase) (uncached : m.cached (256 * g) = false) (now : Nat)
    (wr whole : Bool) : m.accessWide now wr whole g = m.touchStack now g := by
  rw [Mem.accessWide, if_neg (by simpa using hbm), if_neg (by simp [uncached])]

/-- A write of 64 bytes from the beginning of a granule is one access to it. -/
theorem putMem_powerSt {g : Nat} {b : Bytes} (length : b.length = 64) (hbm : 256 * g < Config.scratchBase)
    (uncached : s.mem.cached (256 * g) = false) :
    (s.putMem (256 * g) b).mem.powerSt = tdel s.mem.powerSt (s.mem.channelAt (256 * g) / 32) := by
  have some : b.isEmpty = false := List.isEmpty_eq_false_iff.mpr (List.ne_nil_of_length_pos (by omega))
  have sectors : (256 * g + b.length + 31) / 32 - 256 * g / 32 = 2 := by omega
  have granules : (((List.range 2).map (fun i => 32 * (256 * g / 32 + i))).map (· / 256)) = [g, g] := by
    simp only [List.range_succ, List.range_zero, List.nil_append, List.map_cons, List.map_nil, List.cons_append]
    congr 2 <;> omega
  have one : [g, g].eraseDups = [g] := by simp [List.eraseDups_cons]
  rw [State.putMem, some, if_neg Bool.false_ne_true, State.accessRun, sectors, State.access]
  dsimp only
  rw [granules, one, List.foldl_cons, List.foldl_nil, accessWide_uncached hbm (m := s.mem.write (256 * g) b) uncached]
  rfl

theorem startFlush_powerSt (cause : Nat) (idle : s.diary.busy = none) (uncached : s.mem.cached (spillAt ((s.diary.slot + 1) % 16)) = false) :
    (s.startFlush cause).mem.powerSt = tdel s.mem.powerSt (s.mem.channelAt (spillAt ((s.diary.slot + 1) % 16)) / 32) := by
  have place : spillAt ((s.diary.slot + 1) % 16) = 256 * ((s.diary.slot + 1) % 16 * 0x4000) := by
    unfold spillAt
    omega
  have hbm : 256 * ((s.diary.slot + 1) % 16 * 0x4000) < Config.scratchBase := by
    unfold Config.scratchBase
    omega
  unfold State.startFlush
  simp only [idle]
  rw [place] at uncached ⊢
  exact putMem_powerSt (length_spillHeader _ _ _ _ _ _) hbm uncached

/-! A log leaves the flush of the Diary alone. -/

theorem writeOne_busy (d : Diary) : d.writeOne.busy = d.busy := by
  unfold Diary.writeOne
  split
  · rfl
  · dsimp only
    split <;> rfl

theorem foldl_writeOne_busy {α : Type} (l : List α) (d : Diary) : (l.foldl (fun d _ => d.writeOne) d).busy = d.busy := by
  induction l generalizing d with
  | nil => rfl
  | cons x l ih => exact (ih _).trans (writeOne_busy d)

theorem logPieces_diary (j : LogJob) (k : Nat) (l : List (Nat × Bytes)) : (s.logPieces j k l).diary = s.diary :=
  (keeps_State_logPieces j k l (.refl s) : Keeps true true true true true true true true true true false true true s _).diary rfl

theorem endLog_busy : s.endLog.diary.busy = s.diary.busy := by
  unfold State.endLog
  split
  · rfl
  · split
    · dsimp only
      rw [logPieces_diary]
      exact foldl_writeOne_busy _ _
    · rw [logPieces_diary]

theorem powerLog_keeps (s : State) : Keeps true true true true true true true true true false false true true s s.powerLog :=
  keeps_State_powerLog (.refl s)

theorem powerLog_busy : s.powerLog.diary.busy = s.diary.busy := by
  unfold State.powerLog
  split
  · rfl
  · exact endLog_busy

/-! The entry, and what it leaves where no context is open. -/

/-- The cause is known, and whether HBM is lost. -/
def causeNoted (s : State) (why : GrisCause) : State :=
  { s with health := { s.health with cause := grisCode why }, mem := { s.mem with lostHbm := s.mem.lostHbm || why == .hbmLoss } }

/-- The accumulators and the stacks are put down; a lost HBM has no stacks. -/
def putDown (s : State) (why : GrisCause) : State :=
  { s with
    coll := { s.coll with accums := [] }
    mem := { s.mem with powerSt := if why == .hbmLoss then [] else [(0, 2), (1, 2), (2, 2), (3, 2)] } }

/-- The same once the flush of the entry has begun, or the log in place of it. -/
def recorded (s : State) (why : GrisCause) : State :=
  if why == .hbmLoss then
    ({ putDown s why with diary := { s.diary with busy := none, pendingCause := none } } : State).powerLog
  else (putDown s why).startFlush 2

theorem recorded_keeps : Keeps true true true true true true false true true false false true true (putDown s why) (recorded s why) := by
  unfold recorded
  split
  · exact keeps_State_powerLog (.of (.refl _))
  · exact keeps_State_startFlush _ (.refl _)

theorem enterGrisaille_running (running : s.dev = .running) : s.enterGrisaille why =
    toGrisaille (recorded ((causeNoted s why).openCtxs.foldl (fun s c => s.grisailleCtx c) (causeNoted s why)) why) :=
  if_neg (by simp [running])

theorem enterGrisaille_noCtx (running : s.dev = .running) (noCtx : s.openCtxs = []) :
    s.enterGrisaille why = toGrisaille (recorded (causeNoted s why) why) := by
  have none : (causeNoted s why).openCtxs = [] := noCtx
  rw [enterGrisaille_running running, none, List.foldl_nil]

/-- The entry is told (14 R405; 15 R431), the accumulators are gone, and the fabric goes on. -/
theorem entered_common (running : s.dev = .running) : let u := toGrisaille (recorded (causeNoted s why) why)
    u.dev = .grisaille ∧ u.health.cause = grisCode why ∧ u.coll.accums = [] ∧
      (∀ f, f < 4 → s.enabled f = true → (u.func f).intStatus.getLsbD 4 = true) ∧ u.boot.alert.getLsbD 0 = true ∧ u.fab = s.fab := by
  have kept := recorded_keeps (s := causeNoted s why) (why := why)
  have entry := toGrisaille_keeps (t := recorded (causeNoted s why) why)
  obtain ⟨-, functions, -⟩ := kept.tables rfl
  refine ⟨toGrisaille_dev, ?cause, ?accums, fun f listed on => toGrisaille_intStatus listed ?enabled,
    toGrisaille_alert ((kept.dev rfl).trans running), ?fab⟩
  case cause => rw [entry.health rfl, kept.health rfl]; rfl
  case accums => rw [entry.coll rfl, kept.coll rfl]; rfl
  case enabled => rw [State.enabled, functions]; exact on
  case fab => rw [entry.fab rfl, kept.fab rfl]; rfl

/-- A lost HBM takes no flush (15 R425). -/
theorem entered_hbmLoss : let u := toGrisaille (recorded (causeNoted s .hbmLoss) .hbmLoss)
    u.mem.lostHbm = true ∧ u.diary.busy = none := by
  have entry := toGrisaille_keeps (t := recorded (causeNoted s .hbmLoss) .hbmLoss)
  have logged : recorded (causeNoted s .hbmLoss) .hbmLoss = ({ putDown (causeNoted s .hbmLoss) .hbmLoss with
    diary := { s.diary with busy := none, pendingCause := none } } : State).powerLog := rfl
  dsimp only
  rw [entry.mem rfl, entry.diary rfl, logged, powerLog_busy, (powerLog_keeps _).mem rfl]
  exact ⟨Bool.or_true _, rfl⟩

theorem tget_tdel_other {α : Type} [DecidableEq α] {d : α} {l : Tab α} {h k : Nat} (canon : tcanon d l = true) (other : k ≠ h) :
    tget d (tdel l h) k = tget d l k :=
  tget_filter k canon fun _ => by simpa using other

theorem tget_allAsleep {k : Nat} (stack : k < 4) : tget 0 [(0, 2), (1, 2), (2, 2), (3, 2)] k = 2 := by
  interval_cases k <;> rfl

/-- With HBM, a flush begins, and only the stack that its header goes to leaves self-refresh (12 R361; 11 R328). -/
theorem entered_flush (hbm : why ≠ .hbmLoss) (idle : s.diary.busy = none) : let u := toGrisaille (recorded (causeNoted s why) why)
    u.diary.busy = some (2, s.diary.head.toNat) ∧ (s.mem.cached (spillAt ((s.diary.slot + 1) % 16)) = false →
      ∀ k, k < 4 → k ≠ s.mem.channelAt (spillAt ((s.diary.slot + 1) % 16)) / 32 → tget 0 u.mem.powerSt k = 2) := by
  have entry := toGrisaille_keeps (t := recorded (causeNoted s why) why)
  have flush : recorded (causeNoted s why) why = (putDown (causeNoted s why) why).startFlush 2 := if_neg (by simpa using hbm)
  dsimp only
  rw [entry.mem rfl, entry.diary rfl, flush]
  refine ⟨(startFlush_idle (s := putDown (causeNoted s why) why) 2 idle).1, fun uncached k stack other => ?_⟩
  have asleep : (putDown (causeNoted s why) why).mem.powerSt = [(0, 2), (1, 2), (2, 2), (3, 2)] := if_neg (by simpa using hbm)
  have wakes := startFlush_powerSt (s := putDown (causeNoted s why) why) 2 idle uncached
  rw [wakes, asleep]
  exact (tget_tdel_other (by decide) other).trans (tget_allAsleep stack)

/-- Settles O44: each detector by whether its time has come, and the entry to Grisaille mode by its cause. -/
theorem detectors : Obligations.Detectors := by
  intro s up
  dsimp only [exec]
  refine ⟨fun ep detects watched => ⟨execMemberSilent_due up detects watched, execMemberSilent_heard⟩, fun ep => execMemberSilent_unwatched,
    fun due canon => ⟨_, execHealthDecay_due up due, rfl, tget_decayed canon, fun e => ?impaired, rfl, rfl, rfl, rfl⟩, execHealthDecay_early,
    fun due => ⟨execExpelTokenAdd_waits up due, fun e edge one reached bound => execExpelTokenAdd_expels up due edge one reached bound⟩,
    execExpelTokenAdd_early, fun why running noCtx idle => ?entry, fun why gris => ?stays⟩
  case impaired => simp [decayedState]
  case entry =>
    obtain ⟨dev, cause, accums, told, alert, fab⟩ := entered_common (why := why) running
    refine ⟨_, congrArg Host.Outcome.next (enterGrisaille_noCtx running noCtx), dev, cause.trans ?_, accums, told, ?_,
      fun hbm => entered_flush hbm idle, alert, fab⟩
    · cases why <;> rfl
    · rintro rfl
      exact entered_hbmLoss
  case stays => exact congrArg _ (if_pos (by simp [gris]))

end Sys2Proof.Proofs
end

section
/-!
REPLAY (13 R377-R379): what the command answers once none of its conditions refuses it, and what its read of the capture does to the memory.
-/

namespace Sys2Proof.Proofs

open Sys2Proof Sys2Proof.Machine Sys2Proof.Claims

variable {s : State} {f base log2 a out : Nat} {b : Bytes} {t : Taken} {rest : List Taken} {u : State} {x : Ctx}

/-! What the command answers. -/

/-- A REPLAY of capture `b` has taken its context `x` and waits for its reservation (13 R377). -/
def replayTaken (s : State) (t : Taken) (base log2 out : Nat) (b : Bytes) (x : Ctx) : State :=
  ((State.setColl s { s.coll with
    replays := s.coll.replays ++ [{ ctx := t.ctx, out, shuffle := (leAt t.bytes 5 1).testBit 4, captured := b }] }).takeCtx t.ctx t.at' x).wakeRange
      base (2 ^ log2)

theorem replayTaken_mem : (replayTaken s t base log2 out b x).mem = s.mem :=
  (keeps_State_wakeRange _ _ (keeps_State_takeCtx _ _ _ (.refl _)) :
    Keeps true true true false false true true true true true true true true (State.setColl s _) _).mem rfl

/-- The conditions are judged behind the read of the capture, in `u`; the effect is that on the state before the read. -/
theorem execReplay_waits (hbase : base = leAt t.bytes 4 1) (hlog2 : log2 = leAt t.bytes 5 1 % 16) (ha : a = leAt t.bytes 8 8)
    (hout : out = leAt t.bytes 16 8) (hb : b = (took s f rest).readCapture a) (hu : u = (took s f rest).accessRun false a b.length)
    (hx : x = u.replayCtx f base b) (noReset : s.board.warmSeq = false) (h : Accepted s f 0x10 t rest) (own : foreign (u.ctx t.ctx) f = false)
    (there : u.mem.mapped a 4096 = true) (room : u.mem.mapped out 32 = true)
    (clear : lowest (u.replayRange f t.ctx base log2 ++ u.captureChecks f base log2 b x) = none) :
    execReplay f s = .next (replayTaken (waiting (took s f rest) f t (.replay t.ctx)) t base log2 out b x) := by
  subst hbase hlog2 ha hout
  unfold execReplay
  rw [noReset, if_neg Bool.false_ne_true]
  refine runCmd_waits (go := fun s => replayTaken s t _ _ _ _ _) h.1 rfl ?_
  dsimp only
  rw [← hb, ← hu, ← hx, own, there, room, if_pos rfl, List.append_assoc, List.append_assoc,
    show u.common f t = (took s f rest).common f t from hu ▸ rfl]
  refine checked_accepted h (by decide) ?_ _
  simpa using lowest_eq_none.mp clear

/-! The read of the capture. -/

theorem tput_ne_nil {α : Type} (l : Tab α) (k : Nat) (v : α) : tput l k v ≠ [] := by
  unfold tput
  split
  · exact List.cons_ne_nil _ _
  · split
    · exact List.cons_ne_nil _ _
    · split <;> exact List.cons_ne_nil _ _

theorem foldl_touchStack_lastAccess {m : Mem} (used : m.lastAccess ≠ []) (now : Nat) (l : List Nat) :
    (l.foldl (fun m g => m.touchStack now g) m).lastAccess ≠ [] := by
  induction l generalizing m with
  | nil => exact used
  | cons g l ih => exact ih (tput_ne_nil _ _ _)

/-- An access forgets none of the stacks accessed before it. -/
theorem accessWide_lastAccess {m : Mem} (used : m.lastAccess ≠ []) (now : Nat) (wr whole : Bool) (g : Nat) :
    (m.accessWide now wr whole g).lastAccess ≠ [] := by
  unfold Mem.accessWide
  split
  · exact used
  · split
    · exact foldl_touchStack_lastAccess (m := (m.useLine wr whole g).1) used _ _
    · exact tput_ne_nil _ _ _

theorem foldl_accessWide_lastAccess {m : Mem} (used : m.lastAccess ≠ []) (now : Nat) (wr : Bool) (whole : Nat → Bool) (l : List Nat) :
    (l.foldl (fun m g => m.accessWide now wr (whole g) g) m).lastAccess ≠ [] := by
  induction l generalizing m with
  | nil => exact used
  | cons g l ih => exact ih (accessWide_lastAccess used _ _ _ _)

/-- Accesses that begin in HBM outside the cached regions restart the idle time of a stack (11 R328). -/
theorem accessRun_lastAccess {len : Nat} (some : 0 < len) (hbm : a < Config.scratchBase) (uncached : s.mem.cached (256 * (a / 256)) = false)
    (wr : Bool) : (s.accessRun wr a len).mem.lastAccess ≠ [] := by
  obtain ⟨n, sectors⟩ : ∃ n, (a + len + 31) / 32 - a / 32 = n + 1 := Nat.exists_eq_succ_of_ne_zero (by omega)
  have granule : 32 * (a / 32 + 0) / 256 = a / 256 := by omega
  unfold State.accessRun State.access
  rw [sectors, List.range_succ_eq_map]
  simp only [List.map_cons, granule, List.eraseDups_cons, List.foldl_cons]
  rw [accessWide_uncached (by omega) uncached]
  exact foldl_accessWide_lastAccess (tput_ne_nil _ _ _) _ _ _ _

theorem read_take (m : Mem) {k n : Nat} (less : k ≤ n) : (m.read a n).take k = m.read a k := by
  simp [Mem.read, ← List.map_take, List.take_range, Nat.min_eq_left less]

/-- A capture that lies whole where it was written is read as it is. -/
theorem readCapture_write {m : Mem} (written : s.mem = m.write a b) (canonical : Memory.wf m.cells = true) (headed : 4096 ≤ b.length)
    (ends : capEnd (b.take 4096) = b.length) (inRegion : captureBase ≤ a) (fits : a + b.length ≤ s.mem.sketchBase) : s.readCapture a = b := by
  have whole : s.mem.read a b.length = b := written ▸ Mem.read_write m a b canonical
  have header : s.mem.read a 4096 = b.take 4096 := by rw [← read_take _ headed, whole]
  have inside : (decide (captureBase ≤ a) && decide (a < s.mem.sketchBase)) = true := by simp; omega
  unfold State.readCapture
  simp only [header, ends]
  rw [if_pos inside, Nat.min_eq_left (by omega), whole]

/-! A COMPLETE capture of one rank at one Easel, without images, inputs and outputs (13 R375), in a device whose format table is all zeros. -/

/-- The header up to its CHECK: MAGIC, VERSION, STATE, and where the four sections lie. -/
def headerFields : Bytes :=
  toLE 4 0x56524E43 ++ ([1, 1] ++ zeros 26 ++ toLE 4 4096 ++ toLE 4 224 ++ toLE 4 4096 ++ zeros 4 ++ toLE 4 4096 ++ zeros 4 ++ toLE 4 4096 ++
    zeros 4032)

/-- The template of a BARRIER on VC2, with a window of one chunk, GEN_TIMEOUT 1 and one rank (07 R185). -/
def oneRank : Bytes := zeros 6 ++ [2] ++ zeros 7 ++ toLE 2 1 ++ zeros 8 ++ toLE 2 1 ++ zeros 22 ++ toLE 4 1 ++ zeros 12

/-- The template, its roster entry, N, the format table and the thresholds. -/
def stateSection : Bytes := oneRank ++ zeros 8 ++ toLE 4 1 ++ zeros 148

def captureOne : Bytes := headerFields ++ (toLE 4 (crc32c headerFields) ++ stateSection)

theorem length_headerFields : headerFields.length = 4092 := by decide +kernel

theorem length_captureOne : captureOne.length = 4320 := by
  rw [captureOne, List.length_append, List.length_append, length_headerFields, length_toLE, show stateSection.length = 224 from by decide +kernel]

theorem capHeaded_captureOne : capHeaded captureOne = true := by
  have magic : (leAt captureOne 0 4 == 0x56524E43 && leAt captureOne 4 1 == 1) = true := by decide +kernel
  have front : slice captureOne 0 4092 = headerFields := by
    rw [slice, List.drop_zero, captureOne, List.take_left' length_headerFields, length_headerFields, Nat.sub_self, List.replicate_zero,
      List.append_nil]
  have check : leAt captureOne 4092 4 = crc32c headerFields := by
    rw [captureOne, leAt_toLE_at length_headerFields]
    exact Nat.mod_eq_of_lt (crc32c_lt _)
  rw [capHeaded, magic, front, check, beq_self_eq_true]
  rfl

/-- REPLAY of the capture at the base of the region, as context 0 on Easel 0, with its outputs to address 0. -/
def replayOne : Taken :=
  { slot := 0, seq := 0, bytes := [0x10] ++ zeros 7 ++ toLE 8 captureBase, at' := 0, wants := none, got := none }

def capturedOne : State :=
  { State.reset with
    dev := .running, formats := [], mem := State.reset.mem.write captureBase captureOne, funcs := [(0, { taken := [replayOne] })] }

/-- Behind the read of the capture. -/
def readOne : State := (took capturedOne 0 []).accessRun false captureBase captureOne.length

theorem replayOne_accepted : Accepted capturedOne 0 0x10 replayOne [] := by decide +kernel

theorem readCapture_capturedOne : (took capturedOne 0 []).readCapture captureBase = captureOne := by
  refine readCapture_write (m := State.reset.mem) rfl rfl ?headed ?ends (Nat.le_refl _) ?fits <;> rw [length_captureOne]
  case headed => decide
  case ends => decide +kernel
  case fits => decide +kernel

theorem replayOne_checks : lowest (readOne.replayRange 0 0 0 0 ++ readOne.captureChecks 0 0 0 captureOne (readOne.replayCtx 0 0 captureOne)) =
    none := by
  have formats : capFormats captureOne = tableBytes readOne.formats := by decide +kernel
  unfold State.captureChecks
  rw [capHeaded_captureOne, formats, bne_self_eq_false]
  decide +kernel

theorem capturedOne_unused : (took capturedOne 0 []).mem.lastAccess = [] := rfl

theorem readOne_used : readOne.mem.lastAccess ≠ [] :=
  accessRun_lastAccess (by rw [length_captureOne]; decide) (by decide) (by decide +kernel) _

/-- Refutes O27, in its clause on REPLAY, which has the command go on from the state `u` behind its read of the capture. It goes on from the
state before the read (`execReplay_waits`), so the read leaves no trace in the memory: `capturedOne`, of which no stack had been accessed, keeps
it so, and `u` does not. -/
theorem not_capturesAndReplays : ¬ Obligations.CapturesAndReplays := by
  intro h
  obtain ⟨-, -, replay, -⟩ := h capturedOne 0 replayOne [] 0 (by decide +kernel)
  have base : 0 = leAt replayOne.bytes 4 1 := by decide +kernel
  have log2 : 0 = leAt replayOne.bytes 5 1 % 16 := by decide +kernel
  have from' : captureBase = leAt replayOne.bytes 8 8 := by decide +kernel
  have out : 0 = leAt replayOne.bytes 16 8 := by decide +kernel
  have there : readOne.mem.mapped captureBase 4096 = true := by decide +kernel
  have room : readOne.mem.mapped 0 32 = true := by decide +kernel
  have own : foreign (readOne.ctx 0) 0 = false := rfl
  have claimed := replay 0 0 captureBase 0 captureOne readOne _ base log2 from' out rfl replayOne_accepted readCapture_capturedOne.symm rfl rfl
    own there room replayOne_checks
  have answer := execReplay_waits base log2 from' out readCapture_capturedOne.symm rfl rfl rfl replayOne_accepted own there room replayOne_checks
  have same : (replayTaken (waiting (took capturedOne 0 []) 0 replayOne (.replay 0)) replayOne 0 0 0 captureOne _).mem =
      (replayTaken (waiting readOne 0 replayOne (.replay 0)) replayOne 0 0 0 captureOne _).mem :=
    congrArg State.mem (Host.Outcome.next.inj (answer.symm.trans claimed))
  rw [replayTaken_mem, replayTaken_mem] at same
  exact readOne_used ((congrArg Mem.lastAccess same).symm.trans capturedOne_unused)

end Sys2Proof.Proofs
end

section
/-!
One step of the block (14 R396).
-/

namespace Sys2Proof.Proofs

open Sys2Proof Sys2Proof.Machine Sys2Proof.Claims

theorem step_cons (c : Instr) (rest : List Instr) (s : State) : step { s with pending := c :: rest } = exec c { s with pending := rest } := rfl

theorem step_idle {s : State} (empty : s.pending = []) : step s = .next s := by
  rw [step, empty]

/-- Settles O54: the two cases of the queue. -/
theorem stepTakesTheFront : Obligations.StepTakesTheFront := ⟨step_cons, fun _ => step_idle⟩

end Sys2Proof.Proofs
end

section
/-!
BAR2 (14 R388; 11 R326): what an access of the aperture answers where it is permitted and where it is not.
-/

namespace Sys2Proof.Proofs

open Sys2Proof Sys2Proof.Machine Sys2Proof.Claims

variable {s : State} {f a off len : Nat} {b : Bytes} {wr : Option Bytes} {err : MemErr}

theorem read_congr {m m' : Mem} (same : m'.cells = m.cells) (a len : Nat) : m'.read a len = m.read a len := by
  rw [Mem.read, Mem.read, same]

theorem write_cells_congr {m m' : Mem} (same : m'.cells = m.cells) (a : Nat) (b : Bytes) : (m'.write a b).cells = (m.write a b).cells :=
  congrArg (fun cells => putBytes unlisted cells a b) same

theorem accessRun_cells (wr : Bool) (a len : Nat) : (s.accessRun wr a len).mem.cells = s.mem.cells :=
  (accessed_access wr _).cells

/-- Without a takeover no access to memory waits (11 R311). -/
theorem waits_noTakeover {m : Mem} (noTakeover : m.takeover = []) (a : Nat) : m.waits a = false := by
  simp [Mem.waits, noTakeover]

section
variable (reaches : Reaches s f) (noReset : s.board.warmSeq = false) (noTakeover : s.mem.takeover = [])
include reaches

/-- What function `f` does for a host that reaches it happens (14 R382). -/
theorem onFunc_reaches (go : State) : onFunc s f go = .next go := by
  obtain ⟨unit, clock, presents⟩ := reaches
  rw [onFunc, onUnit_present (decide_eq_true unit), when'_true (by rw [clock, presents]; rfl)]

variable (place : a = (s.func f).aperture.toNat * gib + off)
include noReset noTakeover place

theorem execBar2Access_read (inside : off + len ≤ 2 ^ 36) : execBar2Access f off len none err false s = .next (s.bar2Read f a len err) := by
  subst place
  rw [execBar2Access, onUnit_present (decide_eq_true inside), if_neg (by simp [noReset, waits_noTakeover noTakeover]), onFunc_reaches reaches]

theorem execBar2Access_write (inside : off + b.length ≤ 2 ^ 36) :
    execBar2Access f off b.length (some b) err false s = .next (s.bar2Write f a b err) := by
  subst place
  rw [execBar2Access, onUnit_present (decide_eq_true inside), if_neg (by simp [noReset, waits_noTakeover noTakeover]), onFunc_reaches reaches,
    if_neg Bool.false_ne_true]

end

theorem bar2Read_refused (refused : s.apertureOk f a len = false) : s.bar2Read f a len err = s.abortRead f := by
  simp [State.bar2Read, refused]

theorem bar2Write_refused (refused : s.apertureOk f a b.length = false) : s.bar2Write f a b err = s.note 388 0 5 f 0 [] := by
  simp [State.bar2Write, refused]

/-- The bytes that a permitted read returns are those that memory held before the access. -/
theorem bar2Read_clean (permitted : s.apertureOk f a len = true) :
    (s.bar2Read f a len .clean).outs = s.outs ++ [.completion f (some (s.mem.read a len))] ∧
      (s.bar2Read f a len .clean).mem.cells = s.mem.cells ∧ (s.bar2Read f a len .clean).funcs = s.funcs := by
  have read : s.bar2Read f a len .clean = (s.accessRun false a len).emit (.completion f (some ((s.accessRun false a len).mem.read a len))) := by
    simp [State.bar2Read, permitted, State.memErr, memErrBad]
  rw [read, read_congr (accessRun_cells false a len)]
  exact ⟨rfl, accessRun_cells _ _ _, rfl⟩

theorem bar2Write_clean (permitted : s.apertureOk f a b.length = true) :
    (s.bar2Write f a b .clean).mem.cells = (s.mem.write a b).cells ∧ (s.bar2Write f a b .clean).outs = s.outs ∧
      (s.bar2Write f a b .clean).funcs = s.funcs := by
  have write : s.bar2Write f a b .clean = (s.accessRun true a b.length).setMem ((s.accessRun true a b.length).mem.write a b) := by
    simp [State.bar2Write, permitted, State.memErr, memErrBad]
  rw [write]
  exact ⟨write_cells_congr (accessRun_cells _ _ _) _ _, rfl, rfl⟩

/-- Settles O20: an access moves lines and keeps stacks awake, and neither the bytes nor the functions see it. -/
theorem apertureAccesses : Obligations.ApertureAccesses := by
  intro s f off reaches noReset noTakeover a
  have place : a = (s.func f).aperture.toNat * gib + off := by simp only [a, gib]
  clear_value a
  have read {len : Nat} (inside : off + len ≤ 2 ^ 36) := execBar2Access_read (err := .clean) reaches noReset noTakeover place inside
  have write {b : Bytes} (inside : off + b.length ≤ 2 ^ 36) := execBar2Access_write (err := .clean) reaches noReset noTakeover place inside
  refine ⟨fun len inside permitted => ?reads, fun len inside refused => ?readRefused, fun b inside permitted => ?writes,
    fun b inside refused => ?writeRefused⟩
  case reads => exact ⟨_, read inside, bar2Read_clean permitted⟩
  case readRefused => exact (read inside).trans (congrArg _ (bar2Read_refused refused))
  case writes => exact ⟨_, write inside, bar2Write_clean permitted⟩
  case writeRefused => exact (write inside).trans (congrArg _ (bar2Write_refused refused))

end Sys2Proof.Proofs
end

section
/-!
Sequence errors (14 R395): what COMMAND_TAKE does with a slot whose SEQ is not the expected one, and what CMD_ERR and the Diary then hold.
-/

namespace Sys2Proof.Proofs

open Sys2Proof Sys2Proof.Machine Sys2Proof.Claims

variable {s : State} {f i : Nat} {q : DWord}

theorem mem_insertBy_self {α : Type} (key : α → Nat) (x : α) (l : List α) : x ∈ insertBy key x l := by
  induction l with
  | nil => exact List.mem_singleton_self x
  | cons y l ih =>
    rw [insertBy]
    split
    · exact List.mem_cons_self
    · exact List.mem_cons_of_mem y ih

/-- Where the Diary's queue has room, an event is in it. -/
theorem note_recorded (room : s.diary.queue.length < 64) (rule ev cls idx status : Nat) (payload : List Nat) :
    ∃ e ∈ (s.note rule ev cls idx status payload).diary.queue, e.rule = rule ∧ e.status = status ∧ e.payload = payload := by
  unfold State.note
  rw [if_pos room]
  exact ⟨_, mem_insertBy_self _ _ _, rfl, rfl, rfl⟩

/-- CMD_ERR and its vector behind a sequence error. -/
def cmdErr (x : Func) (i : Nat) (q : DWord) : Func :=
  { x with errSeq := true, errSlot := i, errLast := tput x.errLast i q, intStatus := x.intStatus ||| 2, intEvents := x.intEvents ||| 2 }

theorem seqError_func : (s.seqError f i q).func f = cmdErr (s.func f) i q := by
  unfold State.seqError State.func
  rw [State.note_funcs, State.setHot_funcs]
  change ((s.modFunc f _).interrupt f 1).func f = _
  rw [interrupt_func, if_pos rfl, State.modFunc, State.func_setFunc, if_pos rfl]
  rfl

theorem seqError_outs : (s.seqError f i q).outs = s.outs := by
  unfold State.seqError
  rw [State.note_outs, State.setHot_outs]
  rfl

theorem seqError_recorded (room : s.diary.queue.length < 64) :
    ∃ e ∈ (s.seqError f i q).diary.queue, e.rule = 395 ∧ e.status = stSequence ∧ e.payload = [i] := by
  refine note_recorded ?_ 395 0 5 f stSequence [i]
  rw [State.setHot_diary]
  exact room

section
variable (unit : f < 4) (works : s.hostWorks = true) (on : s.enabled f = true) (next : i = (s.func f).next.toNat % 256)
  (seq : q.toNat = leAt ((s.func f).slotBytes i) 56 8) (unexpected : q ≠ (s.func f).next)
include unit works on next seq unexpected

/-- A SEQ other than the expected one takes nothing. -/
theorem execCommandTake_unexpected : execCommandTake f s = .next
    (if q != 0 && q != (s.func f).next - 256 && tget? (s.func f).errLast i != some q then s.seqError f i q else s) := by
  have word : BitVec.ofNat 64 (leAt ((s.func f).slotBytes i) 56 8) = q := by rw [← seq, BitVec.ofNat_toNat, BitVec.setWidth_eq]
  unfold execCommandTake State.examine
  rw [onUnit_present (decide_eq_true unit)]
  dsimp only
  rw [← next, word, works, on, if_neg (by decide), if_neg unexpected]
  rfl

theorem execCommandTake_seqError (used : q ≠ 0) (old : q ≠ (s.func f).next - 256) (first : tget? (s.func f).errLast i ≠ some q) :
    execCommandTake f s = .next (s.seqError f i q) := by
  rw [execCommandTake_unexpected unit works on next seq unexpected, if_pos (by simpa using ⟨⟨used, old⟩, first⟩)]

theorem execCommandTake_seqError_again (again : tget? (s.func f).errLast i = some q) : execCommandTake f s = .next s := by
  rw [execCommandTake_unexpected unit works on next seq unexpected, if_neg (by simp [again])]

end

/-- Settles O21: the first time the slot's error is recorded, and as long as it holds the same SEQ nothing happens. -/
theorem sequenceErrors : Obligations.SequenceErrors := by
  intro s f i q unit works on next seq unexpected used old
  refine ⟨fun first => ?_, execCommandTake_seqError_again unit works on next seq unexpected⟩
  refine ⟨_, execCommandTake_seqError unit works on next seq unexpected used old first, ?_⟩
  rw [seqError_func]
  exact ⟨rfl, rfl, tget?_tput_same _ _ _, seqError_recorded, rfl, rfl, rfl, rfl, rfl, seqError_outs⟩

end Sys2Proof.Proofs
end

section
/-!
The boot NOR (15 R410): what leaves it as it is. Of the operations that write `boot`, all but those of IMAGE_WRITE leave the NOR; what
leaves the whole of `boot` is read off the relation `Keeps`.
-/

namespace Sys2Proof.Proofs

open Sys2Proof Sys2Proof.Machine Sys2Proof.Claims

/-- The boot NOR holds these bytes. -/
def NorHolds (nor : Tab Byte) (s : State) : Prop := s.boot.nor = nor

/-- An outcome leaves these bytes in the boot NOR. -/
def OutNorHolds (nor : Tab Byte) (r : Out) : Prop := ∀ t, r = .next t → NorHolds nor t

/-- A register write leaves these bytes in the boot NOR. -/
def WrNorHolds (nor : Tab Byte) (w : Wr) : Prop := ∀ t, w = .set t → NorHolds nor t

variable {nor : Tab Byte} {s t : State}

/-! What leaves `boot` as it is. -/

theorem NorHolds.keeps (h : NorHolds nor s)
    (kept : Keeps false false false false false false false false false false true false false s t) : NorHolds nor t :=
  (congrArg Boot.nor (kept.boot rfl)).trans h

theorem OutNorHolds.keeps {r : Out} (h : NorHolds nor s)
    (kept : OutKeeps false false false false false false false false false false true false false s r) : OutNorHolds nor r :=
  fun t next => h.keeps (kept t next)

theorem WrNorHolds.keeps {w : Wr} (h : NorHolds nor s)
    (kept : WrKeeps false false false false false false false false false false true false false s w) : WrNorHolds nor w := by
  rintro t rfl
  exact h.keeps kept

/-! The forms of an operation. -/

section
variable {c : Prop} [Decidable c]

theorem NorHolds.ite (h : NorHolds nor s) (h' : NorHolds nor t) : NorHolds nor (if c then s else t) := by
  split
  · exact h
  · exact h'

theorem WrNorHolds.ite {w v : Wr} (h : WrNorHolds nor w) (h' : WrNorHolds nor v) : WrNorHolds nor (if c then w else v) := by
  split
  · exact h
  · exact h'

end

theorem WrNorHolds.set (h : NorHolds nor t) : WrNorHolds nor (.set t) := by
  rintro t ⟨⟩
  exact h

theorem WrNorHolds.ignore : WrNorHolds nor .ignore := by
  rintro t ⟨⟩

theorem WrNorHolds.refuse : WrNorHolds nor .refuse := by
  rintro t ⟨⟩

theorem NorHolds.foldl {α : Type} {step : State → α → State} (l : List α) (each : ∀ s x, NorHolds nor s → NorHolds nor (step s x))
    (h : NorHolds nor s) : NorHolds nor (l.foldl step s) := by
  induction l generalizing s with
  | nil => exact h
  | cons x l ih => exact ih (each s x h)

theorem OutNorHolds.next (h : NorHolds nor s) : OutNorHolds nor (.next s) := by
  rintro t ⟨⟩
  exact h

theorem OutNorHolds.when' {c : Bool} (h : NorHolds nor s) (h' : NorHolds nor t) : OutNorHolds nor (when' c s t) := .next (.ite h' h)

theorem OutNorHolds.onUnit {present : Bool} {r : Out} (h : OutNorHolds nor r) : OutNorHolds nor (onUnit present r) := by
  unfold Machine.onUnit absent
  split
  · exact h
  · rintro t ⟨⟩

theorem OutNorHolds.onPort {p : Nat} {c : Bool} (h : NorHolds nor s) (h' : NorHolds nor t) : OutNorHolds nor (onPort s p c t) :=
  .onUnit (.when' h h')

theorem OutNorHolds.onWrite {f : Nat} {write : State → State} (h : NorHolds nor s) (h' : ∀ u, NorHolds nor u → NorHolds nor (write u)) :
    OutNorHolds nor (onWrite s f write) :=
  .onUnit (.when' h (h' _ (h.keeps (keeps_State_examineAll (.refl s)))))

theorem WrNorHolds.inRange {c : Bool} (h : NorHolds nor t) : WrNorHolds nor (inRange c t) := .ite (.set h) .ignore

theorem Wr.host_norHolds {w : Wr} {f : Nat} (hw : WrNorHolds nor w) (h : NorHolds nor s) : NorHolds nor (w.host s f) :=
  match w, hw with
  | .set t, hw => hw t rfl
  | .ignore, _ => h.keeps (keeps_State_ignored _ _ (.refl s))
  | .refuse, _ => h

/-! ALERT, the device state and the log MRAM. -/

theorem alertBit_norHolds {b : Nat} (h : NorHolds nor s) : NorHolds nor (s.alertBit b) :=
  (congrArg Boot.nor (alertBit_boot b)).trans h

theorem setDev_norHolds {d : DevSt} (h : NorHolds nor s) : NorHolds nor (s.setDev d) := .ite h (alertBit_norHolds h)

theorem mramWrite_norHolds {a : Nat} {b : Bytes} (h : NorHolds nor s) : NorHolds nor (s.mramWrite a b) := h

theorem endLog_norHolds (h : NorHolds nor s) : NorHolds nor s.endLog := endLog_nor.trans h

theorem logTick_norHolds (h : NorHolds nor s) : NorHolds nor s.logTick := by
  unfold State.logTick
  split
  · exact h
  · split
    · exact h
    · exact .ite ((logPieces_nor _ _ _).trans h) h

theorem powerLog_norHolds (h : NorHolds nor s) : NorHolds nor s.powerLog := .ite h (endLog_norHolds h)

theorem coldReset_norHolds (h : NorHolds nor s) : NorHolds nor s.coldReset := setDev_norHolds h

theorem warmEnd_norHolds (h : NorHolds nor s) : NorHolds nor s.warmEnd := warmEnd_boot.1.trans h

theorem startFlush_norHolds {cause : Nat} (h : NorHolds nor s) : NorHolds nor (s.startFlush cause) :=
  h.keeps (keeps_State_startFlush _ (.refl s))

theorem closeFlush_norHolds {cause head : Nat} (h : NorHolds nor s) : NorHolds nor (s.closeFlush cause head) :=
  (closeFlush_nor cause head).trans h

theorem warmStart_norHolds (h : NorHolds nor s) : NorHolds nor s.warmStart :=
  have landed : NorHolds nor s.finishWrites := h.keeps (keeps_State_finishWrites (.refl s))
  .ite (warmEnd_norHolds h) (.ite (warmEnd_norHolds (powerLog_norHolds h)) (startFlush_norHolds (s := s.finishWrites.setBoard _) landed))

/-! Grisaille mode and the loss of HBM. -/

theorem enterGrisaille_norHolds {why : GrisCause} (h : NorHolds nor s) : NorHolds nor (s.enterGrisaille why) := by
  unfold State.enterGrisaille
  split
  · exact h
  · extract_lets lost _ _ s1 s2 _ _ s3 _ s4
    have h2 : NorHolds nor s2 := .foldl _ (fun s c h => h.keeps (keeps_State_grisailleCtx _ (.refl s))) h
    have h3 : NorHolds nor s3 := h2
    have h4 : NorHolds nor s4 := .ite (powerLog_norHolds h3) (startFlush_norHolds h3)
    exact (setDev_norHolds h4).keeps (keeps_State_interruptAll _ (.refl _))

theorem loseHbm_norHolds (h : NorHolds nor s) : NorHolds nor s.loseHbm := enterGrisaille_norHolds h

theorem failChannel_norHolds {ch : Nat} (h : NorHolds nor s) : NorHolds nor (s.failChannel ch) := by
  unfold State.failChannel
  extract_lets _ record s1
  have h1 : NorHolds nor s1 := h
  clear_value record s1
  exact alertBit_norHolds (mramWrite_norHolds h1)

theorem replaceChannel_norHolds {k : Nat} (h : NorHolds nor s) : NorHolds nor (s.replaceChannel k) := by
  unfold State.replaceChannel
  split
  · exact h
  · exact loseHbm_norHolds h

theorem mapOut_norHolds {ch : Nat} (h : NorHolds nor s) : NorHolds nor (s.mapOut ch) := by
  have failed : NorHolds nor (s.failChannel ch) := failChannel_norHolds h
  unfold State.mapOut
  extract_lets k s1
  refine .ite (loseHbm_norHolds failed) ?_
  cases k with
  | some k => exact replaceChannel_norHolds (failed.keeps (keeps_State_spoilOps _ _ (.refl _)))
  | none => exact failed

/-! Health: the expulsion of an endpoint sets an ALERT bit (12 R357). -/

theorem sendExpel_norHolds {e st : Nat} (h : NorHolds nor s) : NorHolds nor (s.sendExpel e st) :=
  alertBit_norHolds (h.keeps (keeps_State_interruptAll _ (keeps_State_toAuthority _ (.refl s))))

theorem expel_norHolds {e : Nat} (h : NorHolds nor s) : NorHolds nor (s.expel e) := by
  unfold State.expel
  extract_lets _ s1
  have h1 : NorHolds nor s1 := h
  exact sendExpel_norHolds (h1.keeps (keeps_State_fenceEndpoint _ (.refl s1)))

theorem addHealth_norHolds {ep w : Nat} (h : NorHolds nor s) : NorHolds nor (s.addHealth ep w) := by
  refine .ite ?_ h
  unfold State.expulsion
  exact .ite h (.ite (expel_norHolds h) (sendExpel_norHolds h))

theorem blameEdge_norHolds {p w : Nat} (h : NorHolds nor s) : NorHolds nor (s.blameEdge p w) := .ite (addHealth_norHolds h) h

theorem healthOf_norHolds {c : Nat} {src : Option Nat} {w : Nat} (h : NorHolds nor s) : NorHolds nor (s.healthOf c src w) :=
  match src with
  | some _ => addHealth_norHolds h
  | none => h

theorem applyCheck_norHolds {k : BadCheck} (h : NorHolds nor s) : NorHolds nor (s.applyCheck k) :=
  have flushed : NorHolds nor s.easelFlush := h.keeps (keeps_State_easelFlush (.refl s))
  .ite ((healthOf_norHolds flushed).keeps (keeps_State_failGen _ _ _ (.refl _)))
    ((healthOf_norHolds flushed).keeps (keeps_State_modGen _ _ _ (.refl _)))

theorem settleChecks_norHolds {n : Nat} (h : NorHolds nor s) : NorHolds nor (s.settleChecks n) :=
  .ite h (.foldl _ (fun _ _ h => applyCheck_norHolds h) h)

/-! Links and the frames that arrive on them. -/

theorem goDown_norHolds {p : Nat} (h : NorHolds nor s) : NorHolds nor (s.goDown p) := by
  unfold State.goDown
  extract_lets x s1 s2 s3 s4 s5
  have h1 : NorHolds nor s1 := h
  have h2 : NorHolds nor s2 := h1.keeps (keeps_State_circuitsDown _ (.refl s1))
  have h3 : NorHolds nor s3 := .foldl _ (fun s f h => h.keeps (keeps_State_takeBack _ _ (.refl s))) h2
  have h4 : NorHolds nor s4 := h3.keeps (keeps_State_requeueAll _ (.refl s3))
  have h5 : NorHolds nor s5 := .ite (addHealth_norHolds h4) h4
  exact .ite (h5.keeps (keeps_State_interruptAll _ (.refl s5))) h1

theorem replayEvent_norHolds {p : Nat} (h : NorHolds nor s) : NorHolds nor (s.replayEvent p) := by
  unfold State.replayEvent
  extract_lets x ev s1 s2
  have h2 : NorHolds nor s2 := .ite (addHealth_norHolds h) h
  exact .ite (goDown_norHolds h2) h2

theorem resend_norHolds {p q : Nat} {timeout : Bool} (h : NorHolds nor s) : NorHolds nor (s.resend p q timeout) := by
  unfold State.resend
  extract_lets x l s1
  have h1 : NorHolds nor s1 := .foldl _ (fun _ _ h => h) h
  exact .ite h (replayEvent_norHolds h1)

theorem takeLink_norHolds {p : Nat} {b : Bytes} (h : NorHolds nor s) : NorHolds nor (s.takeLink p b) := by
  unfold State.takeLink
  extract_lets ack rep fl s1 s2 x q
  have h1 : NorHolds nor s1 := h
  have h2 : NorHolds nor s2 := .ite (h1.keeps (keeps_State_takeAnswer _ _ (.refl s1))) h1
  exact .ite (resend_norHolds h2) h2

theorem refuseFlit_norHolds {p : Nat} (h : NorHolds nor s) : NorHolds nor (s.refuseFlit p) := .ite h (replayEvent_norHolds h)

theorem heard_norHolds {p : Nat} {f : Frame} (h : NorHolds nor s) : NorHolds nor (s.heard p f) := by
  unfold State.heard State.heardEndpoint
  exact .ite h (.ite h (.ite (.ite (addHealth_norHolds h) h) h))

theorem deliver_norHolds {p : Nat} {f : Frame} {assoc : Option (Nat × Word × Nat)} (h : NorHolds nor s) : NorHolds nor (s.deliver p f assoc) := by
  unfold State.deliver
  extract_lets +onlyGivenNames src cells b
  split
  · extract_lets s1
    have h1 : NorHolds nor s1 := h.keeps (keeps_State_freeEject _ _ _ (.refl s))
    exact .ite h1 (blameEdge_norHolds (h1.keeps (keeps_State_noteDev _ _ _ _ (.refl s1))))
  · extract_lets _ s1 s2
    have h1 : NorHolds nor s1 := h
    have h2 : NorHolds nor s2 := h1.keeps (keeps_State_wakeFor _ _ _ _ _ (.refl s1))
    split
    · exact .ite (h2.keeps (keeps_State_hairTake _ _ (.refl s2))) h2
    · exact h2

theorem countDelivered_norHolds {peer vc n : Nat} (h : NorHolds nor s) : NorHolds nor (s.countDelivered peer vc n) :=
  h.keeps (keeps_State_countDelivered _ _ _ (.refl s))

theorem setFlow_norHolds {x : Machine.Flow} (h : NorHolds nor s) : NorHolds nor (s.setFlow x) := h.keeps (keeps_State_setFlow _ (.refl s))

theorem inOrder_norHolds {p : Nat} {f : Frame} {assoc : Option (Nat × Word × Nat)} (h : NorHolds nor s) : NorHolds nor (s.inOrder p f assoc) := by
  unfold State.inOrder
  extract_lets peer vc cells fl r _ s1 r' span held bodies tr s2 s3 s4
  have h1 : NorHolds nor s1 := h
  refine .ite (countDelivered_norHolds (deliver_norHolds (setFlow_norHolds h1))) (.ite (setFlow_norHolds h1) (.ite (countDelivered_norHolds ?_) ?_))
  · exact .foldl _ (fun _ _ h => deliver_norHolds h) (setFlow_norHolds h1)
  · have h4 : NorHolds nor s4 := .foldl _ (fun s g h => h.keeps (keeps_State_freeEject _ _ _ (.refl s))) (setFlow_norHolds h1)
    exact h4.keeps (keeps_State_noteDev _ _ _ _ (keeps_State_tackFlow _ _ _ _ (.refl s4)))

theorem receive_norHolds {p : Nat} {f : Frame} {assoc : Option (Nat × Word × Nat)} (h : NorHolds nor s) : NorHolds nor (s.receive p f assoc) := by
  unfold State.receive
  extract_lets peer vc w mark s1 fl r?
  have h1 : NorHolds nor s1 := h.keeps (keeps_State_countMark _ (.refl s))
  have refused {kind : Nat} : NorHolds nor (s1.sendTack peer kind vc f.fepoch 0 0 mark) := h1.keeps (keeps_State_sendTack _ _ _ _ _ _ _ (.refl s1))
  refine .ite (h.keeps (keeps_State_takeTack _ _ (.refl s))) ?_
  clear_value r?
  split
  · exact .ite refused (.ite refused (inOrder_norHolds (setFlow_norHolds h1)))
  · extract_lets s2 d
    have h2 : NorHolds nor s2 := by
      simp only [s2]
      split
      · exact .ite (setFlow_norHolds (.foldl _ (fun s g h => h.keeps (keeps_State_freeEject _ _ _ (.refl s))) h1)) h1
      · exact h1
    have acked : NorHolds nor (s2.ackFlow peer vc) := h2.keeps (keeps_State_ackFlow _ _ (.refl s2))
    exact .ite acked (.ite (.ite (h2.keeps (keeps_State_noteDev _ _ _ _ (.refl s2))) (inOrder_norHolds h2))
      (.ite acked (h2.keeps (keeps_State_nakFlow _ _ _ (.refl s2)))))

theorem badFrame_norHolds {p : Nat} {f : Frame} (h : NorHolds nor s) : NorHolds nor (s.badFrame p f) := by
  unfold State.badFrame
  extract_lets s1 k _ s2
  have h1 : NorHolds nor s1 := h.keeps (keeps_State_notePort _ _ _ _ _ (.refl s))
  have h2 : NorHolds nor s2 := .ite h1 h1
  exact .ite (blameEdge_norHolds h2) h2

theorem handleFrame_norHolds {p : Nat} {f : Frame} {cells : Nat} {acct : Account} {assoc : Option (Nat × Word × Nat)} (h : NorHolds nor s) :
    NorHolds nor (s.handleFrame p f cells acct assoc) := by
  unfold State.handleFrame
  extract_lets x s1
  have h1 : NorHolds nor s1 := heard_norHolds h
  refine .ite ((badFrame_norHolds h1).keeps (keeps_State_freeAccount _ _ (.refl _))) ?_
  split
  · exact (blameEdge_norHolds (h1.keeps (keeps_State_notePort _ _ _ _ _ (.refl s1)))).keeps (keeps_State_freeAccount _ _ (.refl _))
  · split
    · exact h1.keeps (keeps_State_groupFrame _ _ _ _ (.refl s1))
    · exact h1.keeps (keeps_State_lineFrame _ _ _ _ (.refl s1))
    · exact h1.keeps (keeps_State_circuitFrame _ _ _ _ (.refl s1))
    · split
      · exact receive_norHolds (h1.keeps (keeps_State_freeAccount _ _ (.refl s1)))
      · exact h1.keeps (keeps_State_takeHop _ _ _ _ (keeps_store_eq (.refl s1) rfl))

/-! ENTER messages and contributions: a bad sender is charged (12 R357). -/

theorem settleEnter_norHolds {src vc : Nat} {body : Bytes} (h : NorHolds nor s) : NorHolds nor (s.settleEnter src vc body) := by
  have answered (st : Nat) (x : Option (Nat × Word × Nat)) : NorHolds nor ((s.enterAck src vc (slice body 0 64) st).setEnter src vc x) :=
    h.keeps (keeps_State_setEnter _ _ _ (keeps_State_enterAck _ _ _ _ (.refl s)))
  unfold State.settleEnter
  extract_lets c num b e
  split
  · extract_lets s1 s2
    have h2 : NorHolds nor s2 := .ite (addHealth_norHolds (answered _ _)) (answered _ _)
    exact .ite (h2.keeps (keeps_State_fencedFrame _ _ _ _ _ (.refl s2))) h2
  · exact .ite ((answered _ _).keeps (keeps_State_hairTake _ _ (keeps_State_hairPump _ _ (keeps_State_hairAdd _ _ _ _ (.refl _))))) (answered _ _)
  · exact (answered _ _).keeps (keeps_State_wakeBound _ (keeps_State_accept _ _ _ _ (.refl _)))

theorem takeEnter_norHolds {a : Arrived} (h : NorHolds nor s) : NorHolds nor (s.takeEnter a) := by
  unfold State.takeEnter
  split
  · exact h.keeps (keeps_State_modCtx _ _ (keeps_State_popFront _ _ (.refl s)))
  · exact settleEnter_norHolds (h.keeps (keeps_State_consume _ (.refl s)))

theorem execEnter_norHolds {src vc : Nat} (h : NorHolds nor s) : OutNorHolds nor (execEnter src vc s) := by
  unfold execEnter
  split
  · exact .next h
  · exact .when' h (takeEnter_norHolds h)

theorem execHairlineEnter_norHolds {src : Nat} (h : NorHolds nor s) : OutNorHolds nor (execHairlineEnter src s) := by
  unfold execHairlineEnter
  split
  · exact .next h
  · exact .when' h (takeEnter_norHolds h)

theorem execEnterWaitRelease_norHolds {c : Nat} (h : NorHolds nor s) : OutNorHolds nor (execEnterWaitRelease c s) := by
  unfold execEnterWaitRelease
  extract_lets x
  split
  · exact .next h
  · exact .when' h (settleEnter_norHolds (h.keeps (keeps_State_freeEject _ _ _ (keeps_State_setCtx _ _ (.refl s)))))

theorem execContributionTile_norHolds {src vc : Nat} (h : NorHolds nor s) : OutNorHolds nor (execContributionTile src vc s) := by
  unfold execContributionTile
  split
  · exact .next h
  · next a _ =>
    have used : NorHolds nor (s.consume a) := h.keeps (keeps_State_consume _ (.refl s))
    extract_lets t
    split
    · exact .next h
    · split
      · exact .next h
      · exact .next (.ite used (used.keeps (keeps_State_noteDev _ _ _ _ (.refl _))))
      · exact .next (used.keeps (keeps_State_modGen _ _ _ (.refl _)))
      · exact .next (h.keeps (keeps_State_learn _ _ _ (.refl s)))
      · exact .next ((addHealth_norHolds used).keeps (keeps_State_failGen _ _ _ (.refl _)))
      · exact .next (used.keeps (keeps_State_fencedFrame _ _ _ _ _ (.refl _)))
      · exact .when' h (h.keeps (keeps_State_placeTile _ _ _ _ _ _ (.refl s)))
      · exact .when' h (used.keeps (keeps_State_relay _ _ _ _ _ _ _ _ (keeps_State_modGen _ _ _ (.refl _))))
      · exact .when' h (used.keeps (keeps_State_copyAt _ _ _ _ _ _ _ (keeps_State_noteInput _ _ _ _ _ _ (.refl _))))
      · refine .when' h ?_
        split
        · exact used.keeps (keeps_State_relay _ _ _ _ _ _ _ _ (.refl _))
        · exact used
      · exact .when' h (.foldl _ (fun s r h => h.keeps (keeps_State_takeResult _ _ _ _ _ (.refl s))) used)
      · exact .next (h.keeps (keeps_State_hairTake _ _ (.refl s)))

/-! Registers of the host interface (14 R390). -/

theorem writeGlobal_norHolds {boot : Bool} {o v : Nat} (h : NorHolds nor s) : WrNorHolds nor (s.writeGlobal boot o v) := by
  have mapout : NorHolds nor (s.writeMapout v) := by
    unfold State.writeMapout
    exact .ite h (.ite (mapOut_norHolds h) (h.keeps (keeps_State_note _ _ _ _ _ _ (.refl s))))
  have mapoutAtBoot : NorHolds nor (if bitAt v 31 then s.note 311 0 3 (v % 128) stState [] else s) :=
    .ite (h.keeps (keeps_State_note _ _ _ _ _ _ (.refl s))) h
  unfold State.writeGlobal
  extract_lets k b m
  split
  case h_11 => exact WrNorHolds.set (.ite mapoutAtBoot mapout)
  case h_12 | h_13 => exact .set (h.keeps (keeps_State_writeGesso _ _ (.refl s)))
  case h_14 => exact .set (h.keeps (keeps_State_writeStrict _ (.refl s)))
  case h_15 => exact .ite (WrNorHolds.inRange h) (.ite (WrNorHolds.keeps h (keeps_State_writeFault _ _ (.refl s))) .ignore)
  case h_4 | h_5 | h_6 | h_9 => exact .ite (.set h) .ignore
  case h_10 => exact .set h
  all_goals exact WrNorHolds.inRange h

theorem followEnable_norHolds {p : Nat} (h : NorHolds nor s) : NorHolds nor (s.followEnable p) :=
  .ite (.ite h h) (.ite (goDown_norHolds h) (.ite h h))

theorem writePort_norHolds {n r v : Nat} (h : NorHolds nor s) : WrNorHolds nor (s.writePort n r v) := by
  refine .ite ?_ (.ite (WrNorHolds.keeps h (keeps_State_writeLportCfg _ _ (.refl s)))
    (.ite (WrNorHolds.keeps h (keeps_State_writeLpeer _ _ (.refl s))) .ignore))
  unfold State.writePortCfg
  extract_lets x cfg retrain s1 s2
  have h1 : NorHolds nor s1 := h
  have h2 : NorHolds nor s2 := .ite (.foldl _ (fun _ _ h => goDown_norHolds h) h1) h1
  exact .ite (.set (h.keeps (keeps_State_notePort _ _ _ _ _ (.refl s))))
    (.ite .refuse (.set (.foldl _ (fun _ _ h => followEnable_norHolds h) h2)))

theorem writeShared_norHolds {boot : Bool} {o v : Nat} {w : Wr} (h : NorHolds nor s) (block : s.writeShared boot o v = some w) :
    WrNorHolds nor w := by
  unfold State.writeShared at block
  rcases ite_some block with block | block
  · obtain rfl := Option.some.inj block
    exact writeGlobal_norHolds h
  rcases ite_some block with block | block
  · obtain rfl := Option.some.inj block
    exact writePort_norHolds h
  rcases ite_some block with block | block
  · obtain rfl := Option.some.inj block
    exact WrNorHolds.keeps h (keeps_State_writeSchedBlock _ _ _ _ (.refl s))
  rcases ite_some block with block | block
  · obtain rfl := Option.some.inj block
    exact WrNorHolds.keeps h (keeps_State_writeLimit _ _ _ (.refl s))
  rcases ite_some block with block | block
  · obtain rfl := Option.some.inj block
    exact WrNorHolds.keeps h (keeps_State_writeTable _ _ (.refl s))
  · cases block

theorem writeDiaryReg_norHolds {f o v : Nat} (h : NorHolds nor s) : NorHolds nor (s.writeDiaryReg f o v) := by
  have ignored : NorHolds nor (s.ignored f 385) := h.keeps (keeps_State_ignored _ _ (.refl s))
  have flush (gapMs : Nat) : NorHolds nor (State.hostFlush { s with diary := { s.diary with gapMs } }) :=
    .ite (powerLog_norHolds h) (.ite (startFlush_norHolds h) h)
  unfold State.writeDiaryReg
  split
  · exact h
  · exact .ite (.ite (flush _) h) ignored
  · exact ignored

theorem writeFunc_norHolds {f o v : Nat} (h : NorHolds nor s) : WrNorHolds nor (s.writeFunc f o v) :=
  .keeps h (keeps_State_writeFunc _ _ _ (.refl s))

theorem writeEasel_norHolds {n o v : Nat} (h : NorHolds nor s) : WrNorHolds nor (s.writeEasel n o v) :=
  .keeps h (keeps_State_writeEasel _ _ _ (.refl s))

theorem writeWord_norHolds {f o v : Nat} (h : NorHolds nor s) : NorHolds nor (s.writeWord f o v) := by
  have ignored : NorHolds nor (s.ignored f 385) := h.keeps (keeps_State_ignored _ _ (.refl s))
  unfold State.writeWord
  refine .ite ignored (.ite (h.keeps (keeps_State_writeMsix _ _ _ (.refl s)))
    (.ite (Wr.host_norHolds (writeFunc_norHolds h) h)
    (.ite (h.keeps (keeps_State_writeSlots _ _ _ (.refl s)))
    (.ite (.ite (h.keeps (keeps_State_retireSlot _ _ _ (.refl s))) ignored) (.ite (writeDiaryReg_norHolds h)
    (.ite (.ite ignored (Wr.host_norHolds (writeEasel_norHolds h) h)) (.ite ignored ?_)))))))
  split
  · next w block => exact .ite (Wr.host_norHolds (writeShared_norHolds h block) h) ignored
  · exact ignored

theorem onWord_norHolds {f o : Nat} {v : Word} (h : NorHolds nor s) : OutNorHolds nor (onWord s f o v) :=
  .onWrite h fun _ h => writeWord_norHolds h

theorem onPortReg_norHolds {f port base stride r : Nat} {v : Word} (h : NorHolds nor s) : OutNorHolds nor (onPortReg s f port base stride r v) :=
  .onUnit (onWord_norHolds h)

theorem execRegisterWrite_norHolds {f off : Nat} {data : Bytes} {poisoned : Bool} (h : NorHolds nor s) :
    OutNorHolds nor (execRegisterWrite f off data poisoned s) := by
  refine .onWrite h fun u h => .ite (h.keeps (keeps_State_poisoned _ (.refl u))) (.ite ?_ (h.keeps (keeps_State_note _ _ _ _ _ _ (.refl u))))
  exact .ite (h.keeps (keeps_State_writeSlots _ _ _ (.refl u)))
    (.ite (.ite (h.keeps (keeps_State_ignored _ _ (.refl u))) (writeWord_norHolds (writeWord_norHolds h))) (writeWord_norHolds h))

theorem execSchedCfgWrite_norHolds {f port : Nat} {quantum : Option Nat} {v : Word} (h : NorHolds nor s) :
    OutNorHolds nor (execSchedCfgWrite f port quantum v s) :=
  match quantum with
  | none => onPortReg_norHolds h
  | some _ => .onUnit (onPortReg_norHolds h)

theorem execPortCfgWrite_norHolds {f port : Nat} {reg : PortReg} {v : Word} (h : NorHolds nor s) :
    OutNorHolds nor (execPortCfgWrite f port reg v s) :=
  match reg with
  | .portCfg => onPortReg_norHolds h
  | .lportCfg _ | .lpeer _ => .onUnit (onPortReg_norHolds h)

/-! BOOT (15 R409) reads the NOR. -/

theorem checkMram_norHolds (h : NorHolds nor s) : NorHolds nor s.checkMram := by
  unfold State.checkMram
  extract_lets header _ s1
  have h1 : NorHolds nor s1 := h
  exact .ite h ((mramWrite_norHolds h1).keeps (keeps_State_noteDev _ _ _ _ (.refl _)))

theorem reportLog_norHolds (h : NorHolds nor s) : NorHolds nor s.reportLog := by
  unfold State.reportLog
  split
  · next n _ =>
    exact .ite (NorHolds.keeps (s := { s with boot := { s.boot with reported := n } }) h (keeps_State_noteDev _ _ _ _ (.refl _))) h
  · exact h

theorem logBoot_norHolds {cause fw : Nat} (h : NorHolds nor s) : NorHolds nor (s.logBoot cause fw) := by
  simp only [NorHolds, State.logBoot, State.mramWrite_boot]
  exact h

theorem bootFails_norHolds {cause fw : Nat} (h : NorHolds nor s) : NorHolds nor (s.bootFails cause fw) := by
  unfold State.bootFails
  extract_lets s1 _ _ s2
  have h1 : NorHolds nor s1 := logBoot_norHolds (h.keeps (keeps_State_noteDev _ _ _ _ (.refl s)))
  clear_value s1
  exact setDev_norHolds (s := s2) h1

theorem bootEnds_norHolds {b : Bytes} {hbm : Nat} (h : NorHolds nor s) : NorHolds nor (s.bootEnds b hbm) := by
  unfold State.bootEnds
  extract_lets _ _ s1 s2
  have h1 : NorHolds nor s1 := h
  have h2 : NorHolds nor s2 := setDev_norHolds (h1.keeps (keeps_State_bringUp _ (.refl s1)))
  exact .ite (loseHbm_norHolds h2) h2

theorem bootWrite_norHolds {b : Bytes} (h : NorHolds nor s) (loaded : s.bootWrite b = some t) : NorHolds nor t := by
  unfold State.bootWrite at loaded
  dsimp only at loaded
  rcases ite_some loaded with loaded | loaded
  · cases loaded
  rcases ite_some loaded with loaded | loaded
  · obtain rfl := Option.some.inj loaded
    exact h
  split at loaded
  · next u written =>
    have set : WrNorHolds nor (.set u) := by
      rcases ite_some written with written | written
      · rw [← Option.some.inj written]
        exact writeFunc_norHolds h
      · exact writeShared_norHolds h written
    obtain rfl := Option.some.inj loaded
    exact set u rfl
  · obtain rfl := Option.some.inj loaded
    exact h
  · cases loaded

theorem bootWrites_norHolds {n : Nat} {b : Bytes} (h : NorHolds nor s) (loaded : State.bootWrites n s b = some t) : NorHolds nor t := by
  induction n generalizing s b with
  | zero =>
    obtain rfl := Option.some.inj loaded
    exact h
  | succ n ih =>
    obtain ⟨u, first, rest⟩ := Option.bind_eq_some_iff.1 loaded
    exact ih (bootWrite_norHolds h first) rest

theorem loadTables_norHolds {b : Bytes} (h : NorHolds nor s) (loaded : s.loadTables b = some t) : NorHolds nor t := by
  unfold State.loadTables at loaded
  dsimp only at loaded
  split at loaded
  · cases loaded
  · split at loaded
    · cases loaded
    · next u written =>
      split at loaded
      · obtain rfl := Option.some.inj loaded
        generalize loadedFormats _ = formats at written
        exact bootWrites_norHolds (s := { s with formats }) h written
      · cases loaded

theorem bootUp_norHolds {hbm : Nat} (h : NorHolds nor s) : NorHolds nor (s.bootUp hbm) := by
  unfold State.bootUp
  extract_lets s1 b
  have h1 : NorHolds nor s1 := reportLog_norHolds (checkMram_norHolds h)
  clear_value s1
  refine .ite (bootFails_norHolds h1) (.ite (bootFails_norHolds h1) ?_)
  split
  · exact bootFails_norHolds h1
  · apply bootEnds_norHolds
    cases tables : s1.loadTables b with
    | none => exact h1
    | some u => exact loadTables_norHolds h1 tables

/-! The other events that write `boot`. -/

theorem tick_norHolds (h : NorHolds nor s) : NorHolds nor s.tick := by
  unfold State.tick
  extract_lets s1 s2 s3 s4
  have h1 : NorHolds nor s1 := .foldl _ (fun s f h => .ite (h.keeps (keeps_State_sendDue _ (.refl s))) h) h
  have h2 : NorHolds nor s2 := .foldl _ (fun _ _ h => settleChecks_norHolds h) h1
  have h3 : NorHolds nor s3 :=
    h2.keeps (keeps_State_copyTwo (keeps_State_truncateAll (keeps_State_startAll (keeps_State_tellAll (.refl s2)))))
  clear_value s3
  have h4 : NorHolds nor s4 := h3
  exact (logTick_norHolds h4).keeps (keeps_State_moveAll (keeps_State_landAll (.refl _)))

theorem execExpelTokenAdd_norHolds (h : NorHolds nor s) : OutNorHolds nor (execExpelTokenAdd s) := by
  unfold execExpelTokenAdd
  extract_lets health s1
  have h1 : NorHolds nor s1 := h
  refine .when' h ?_
  split
  · exact expel_norHolds h1
  · exact h1

theorem execLinkFlit_norHolds {p : Nat} {flit : Bytes} (h : NorHolds nor s) : OutNorHolds nor (execLinkFlit p flit s) :=
  .onPort h (.ite h (.ite h (.ite (takeLink_norHolds h) (.ite (NorHolds.keeps (s := s.setLPort p { s.lport p with goodAt := s.now }) h
    (keeps_State_takeHello _ _ (.refl _))) h))))

theorem execDataFlit_norHolds {p : Nat} {flit : Bytes} (h : NorHolds nor s) : OutNorHolds nor (execDataFlit p flit s) :=
  .onPort h (.ite (refuseFlit_norHolds h) (.ite h (.ite (NorHolds.keeps (s := s.setLPort p { s.lport p with goodAt := s.now }) h
    (keeps_State_takeFlit _ _ (.refl _))) (refuseFlit_norHolds h))))

theorem execAckTimeoutResend_norHolds {p : Nat} (h : NorHolds nor s) : OutNorHolds nor (execAckTimeoutResend p s) := by
  refine .onPort h ?_
  split
  · exact h
  · exact resend_norHolds h

theorem execFrameReceive_norHolds {p : Nat} {how : Reception} (h : NorHolds nor s) : OutNorHolds nor (execFrameReceive p how s) := by
  refine .onUnit ?_
  split
  · exact .next h
  · next f n c rest _ =>
    have h1 : NorHolds nor (s.modLPort p fun x => { x with rxFrames := rest }) := h
    refine .when' h ?_
    split
    · exact h1.keeps (keeps_State_spoiltFrame _ _ _ (.refl _))
    · exact handleFrame_norHolds h1

theorem execHbmRetry_norHolds {f : Nat} (h : NorHolds nor s) : OutNorHolds nor (execHbmRetry f s) := by
  refine .onUnit ?_
  split
  · exact .next h
  · next t rest _ =>
    have fin {u : State} (hu : NorHolds nor u) (st : Nat) (p : Bytes) :
        NorHolds nor (if t.quiet then u else u.finish f t.slot t.seq (BitVec.ofNat 8 t.opc) t.irq st p) :=
      .ite hu (hu.keeps (keeps_State_finish _ _ _ _ _ _ _ (.refl u)))
    refine .when' h ?_
    extract_lets s1
    have h1 : NorHolds nor s1 := h
    unfold checked
    dsimp only
    cases lowest _ with
    | some st => exact fin h1 st []
    | none => exact fin (mramWrite_norHolds h1) stOk []

theorem execDiaryFlush_norHolds {cause : Nat} (h : NorHolds nor s) : OutNorHolds nor (execDiaryFlush cause s) :=
  .when' h (.ite (powerLog_norHolds h) (.ite (h.keeps (keeps_State_easelFlush (.refl s))) (startFlush_norHolds h)))

theorem execDiaryFlushComplete_norHolds (h : NorHolds nor s) : OutNorHolds nor (execDiaryFlushComplete s) := by
  unfold execDiaryFlushComplete
  split
  · exact .next h
  · next cause head _ =>
    have flushed : NorHolds nor (s.closeFlush cause head).nextFlush := (closeFlush_norHolds h).keeps (keeps_State_nextFlush (.refl _))
    exact .when' h (.ite (warmEnd_norHolds flushed) flushed)

theorem execSysRstLow_norHolds (h : NorHolds nor s) : OutNorHolds nor (execSysRstLow s) :=
  .when' h (.ite h (coldReset_norHolds (s := s.setBoard { s.board with sysRst := false }) h))

theorem execWarmRst_norHolds (h : NorHolds nor s) : OutNorHolds nor (execWarmRst s) :=
  .when' h (.ite (warmStart_norHolds (s := s.setBoard { s.board with warmRst := false }) h) h)

theorem execRailFault_norHolds (h : NorHolds nor s) : OutNorHolds nor (execRailFault s) :=
  .when' h (show NorHolds nor (if s.dev == .aon then s else s.coldReset.alertBit 0) from .ite h (alertBit_norHolds (coldReset_norHolds h)))

theorem execPwrFail_norHolds (h : NorHolds nor s) : OutNorHolds nor (execPwrFail s) := by
  unfold execPwrFail
  extract_lets _ s1 s2
  have h1 : NorHolds nor s1 := h
  have h2 : NorHolds nor s2 := powerLog_norHolds (h1.keeps (keeps_State_noteDev _ _ _ _ (.refl s1)))
  exact .when' h (.ite h2 h1)

theorem execThermalWarning_norHolds {t : Nat} {x : Int} (h : NorHolds nor s) : OutNorHolds nor (execThermalWarning t x s) := by
  unfold execThermalWarning
  extract_lets b w rise fall _ s1
  have h1 : NorHolds nor s1 := h
  exact .onUnit (.when' h ((alertBit_norHolds (h1.keeps (keeps_State_interruptAll _ (.refl s1)))).keeps (keeps_State_noteSensor _ _ (.refl _))))

/-! The SMBus (15 R429). -/

theorem execSmbAlert_norHolds {wr : Option (Word × Bool)} (h : NorHolds nor s) : OutNorHolds nor (execSmbAlert wr s) :=
  match wr with
  | none | some (_, false) | some (_, true) => .when' h h

theorem execSmbDiary_norHolds {wr : Option (Word × Bool)} (h : NorHolds nor s) : OutNorHolds nor (execSmbDiary wr s) :=
  match wr with
  | none | some (_, false) | some (_, true) => .when' h h

theorem execSmbMramRead_norHolds {wr : Option (Word × Bool)} (h : NorHolds nor s) : OutNorHolds nor (execSmbMramRead wr s) :=
  match wr with
  | some (_, false) | some (_, true) => .when' h h
  | none => .when' h (.ite h h)

/-! Every command but IMAGE_WRITE and the programming of its image (15 R410, R416). -/

/-- The commands that write the image area of the NOR. -/
def writesNor : Instr → Bool
  | .imageWrite _ | .norProgramComplete _ _ => true
  | _ => false

/-- The commands that act on more than one unit leave the NOR. -/
theorem exec_norHolds_of_units (s : State) : ∀ c : Instr, leaves c .boot = false → writesNor c = false → OutNorHolds s.boot.nor (exec c s)
  | .linkFlit _ _, _, _ => execLinkFlit_norHolds rfl
  | .dataFlit _ _, _, _ => execDataFlit_norHolds rfl
  | .ackTimeoutResend _, _, _ => execAckTimeoutResend_norHolds rfl
  | .linkDown _ _, _, _ => .onUnit (.when' rfl (goDown_norHolds rfl))
  | .fabricTimeTick, _, _ => .when' rfl (tick_norHolds rfl)
  | .frameReceive _ _, _, _ => execFrameReceive_norHolds rfl
  | .enter _ _, _, _ => execEnter_norHolds rfl
  | .enterWaitRelease _, _, _ => execEnterWaitRelease_norHolds rfl
  | .hairlineEnter _, _, _ => execHairlineEnter_norHolds rfl
  | .contributionTile _ _, _, _ => execContributionTile_norHolds rfl
  | .expelTokenAdd, _, _ => execExpelTokenAdd_norHolds rfl
  | .grisailleEntry _, _, _ => .next (enterGrisaille_norHolds rfl)
  | .runtimeMapout _ _, _, _ => .onUnit (.when' rfl (mapOut_norHolds rfl))
  | .hbmRetry _, _, _ => execHbmRetry_norHolds rfl
  | .registerWrite _ _ _ _, _, _ => execRegisterWrite_norHolds rfl
  | .retire _ _ _, _, _ | .routeEntryWrite _ _ _, _, _ | .groupEntryValidWrite _ _ _, _, _ | .easelCtrlWrite _ _ _, _, _ =>
    .onUnit (onWord_norHolds rfl)
  | .hbmMapoutWrite _ _, _, _ | .diaryCtrlFlush _ _, _, _ | .detCtrlWrite _ _, _, _ | .apertureWrite _ _, _, _ | .gessoModeWrite _ _ _, _, _ =>
    onWord_norHolds rfl
  | .gateArm _ _ _, _, _ => onPortReg_norHolds rfl
  | .shapeCfgWrite _ _ _ _ _, _, _ | .bufLimitWrite _ _ _ _, _, _ => .onUnit (onPortReg_norHolds rfl)
  | .schedCfgWrite _ _ _ _, _, _ => execSchedCfgWrite_norHolds rfl
  | .portCfgWrite _ _ _ _, _, _ => execPortCfgWrite_norHolds rfl
  | .diaryFlush _, _, _ => execDiaryFlush_norHolds rfl
  | .diaryFlushComplete, _, _ => execDiaryFlushComplete_norHolds rfl
  | .sysRstLow, _, _ => execSysRstLow_norHolds rfl
  | .boot _, _, _ => .when' rfl (bootUp_norHolds rfl)
  | .warmRst, _, _ => execWarmRst_norHolds rfl
  | .vddAonLoss, _, _ => .when' rfl rfl
  | .vddAonGood _, _, _ => .when' rfl (setDev_norHolds rfl)
  | .railFault, _, _ => execRailFault_norHolds rfl
  | .pwrFail, _, _ => execPwrFail_norHolds rfl
  | .pwrFailRise, _, _ => .when' rfl rfl
  | .thermalWarning _ _, _, _ => execThermalWarning_norHolds rfl
  | .thermalEmergency _, _, _ => .onUnit (.when' rfl (enterGrisaille_norHolds rfl))
  | .smbAlert _, _, _ => execSmbAlert_norHolds rfl
  | .smbDiary _, _, _ => execSmbDiary_norHolds rfl
  | .smbMramRead _, _, _ => execSmbMramRead_norHolds rfl
  | .easelReturnIdle _, _, _ => .keeps rfl (keeps_execEaselReturnIdle _ (.refl s))
  | .semResolve _, _, _ => .keeps rfl (keeps_execSemResolve _ (.refl s))
  | .tokenQueueResolve _, _, _ => .keeps rfl (keeps_execTokenQueueResolve _ (.refl s))
  | .waitTimeout _ _, _, _ => .keeps rfl (keeps_execWaitTimeout _ _ (.refl s))
  | .studySwitch _ _, _, _ => .keeps rfl (keeps_execStudySwitch _ _ (.refl s))
  | .loadCompletion _ _ _, _, _ => .keeps rfl (keeps_execLoadCompletion _ _ _ (.refl s))
  | .gatherCompletion _ _ _, _, _ => .keeps rfl (keeps_execGatherCompletion _ _ _ (.refl s))
  | .sendCompletion _, _, _ => .keeps rfl (keeps_execSendCompletion _ (.refl s))
  | .storeCompletion _ _, _, _ => .keeps rfl (keeps_execStoreCompletion _ _ (.refl s))
  | .scatterCompletion _ _ _, _, _ => .keeps rfl (keeps_execScatterCompletion _ _ _ (.refl s))
  | .easelLowPowerEntry _, _, _ => .keeps rfl (keeps_execEaselLowPowerEntry _ (.refl s))
  | .easelWake _, _, _ => .keeps rfl (keeps_execEaselWake _ (.refl s))
  | .ingressStagePlace _, _, _ => .keeps rfl (keeps_execIngressStagePlace _ (.refl s))
  | .startEntryPush _, _, _ => .keeps rfl (keeps_execStartEntryPush _ (.refl s))
  | .openCtx _, _, _ => .keeps rfl (keeps_execOpenCtx _ (.refl s))
  | .reservationGranted, _, _ => .keeps rfl (keeps_execReservationGranted (.refl s))
  | .openWaitExpiry _, _, _ => .keeps rfl (keeps_execOpenWaitExpiry _ (.refl s))
  | .roster _, _, _ => .keeps rfl (keeps_execRoster _ (.refl s))
  | .commit _, _, _ => .keeps rfl (keeps_execCommit _ (.refl s))
  | .close _, _, _ => .keeps rfl (keeps_execClose _ (.refl s))
  | .abort _, _, _ => .keeps rfl (keeps_execAbort _ (.refl s))
  | .cmdLoad _, _, _ => .keeps rfl (keeps_execCmdLoad _ (.refl s))
  | .group _, _, _ => .keeps rfl (keeps_execGroup _ (.refl s))
  | .start _, _, _ => .keeps rfl (keeps_execStart _ (.refl s))
  | .bind _, _, _ => .keeps rfl (keeps_execBind _ (.refl s))
  | .unbind _, _, _ => .keeps rfl (keeps_execUnbind _ (.refl s))
  | .grant _, _, _ => .keeps rfl (keeps_execGrant _ (.refl s))
  | .circuit _, _, _ => .keeps rfl (keeps_execCircuit _ (.refl s))
  | .tear _, _, _ => .keeps rfl (keeps_execTear _ (.refl s))
  | .capture _, _, _ => .keeps rfl (keeps_execCapture _ (.refl s))
  | .captureClear _, _, _ => .keeps rfl (keeps_execCaptureClear _ (.refl s))
  | .replay _, _, _ => .keeps rfl (keeps_execReplay _ (.refl s))
  | .replayFinish, _, _ => .keeps rfl (keeps_execReplayFinish (.refl s))
  | .assign _, _, _ => .keeps rfl (keeps_execAssign _ (.refl s))
  | .attest _, _, _ => .keeps rfl (keeps_execAttest _ (.refl s))
  | .cmdNop _, _, _ => .keeps rfl (keeps_execCmdNop _ (.refl s))
  | .commandTake _, _, _ => .keeps rfl (keeps_execCommandTake _ (.refl s))
  | .ftimeLoRead _, _, _ => .keeps rfl (keeps_execFtimeLoRead _ (.refl s))
  | .cmdNextLoRead _, _, _ => .keeps rfl (keeps_execCmdNextLoRead _ (.refl s))
  | .bar2Access _ _ _ _ _ _, _, _ => .keeps rfl (keeps_execBar2Access _ _ _ _ _ _ (.refl s))
  | .genTimeout _ _, _, _ => .keeps rfl (keeps_execGenTimeout _ _ (.refl s))
  | .chunkRetire _ _ _, _, _ => .keeps rfl (keeps_execChunkRetire _ _ _ (.refl s))
  | .generationRetire _, _, _ => .keeps rfl (keeps_execGenerationRetire _ (.refl s))
  | .stageCheck _, _, _ => .keeps rfl (keeps_execStageCheck _ (.refl s))
  | .checkResendTimer _, _, _ => .keeps rfl (keeps_execCheckResendTimer _ (.refl s))
  | .summary _, _, _ => .keeps rfl (keeps_execSummary _ (.refl s))
  | .verdict _, _, _ => .keeps rfl (keeps_execVerdict _ (.refl s))
  | .fail _, _, _ => .keeps rfl (keeps_execFail _ (.refl s))
  | .poseRelease _ _, _, _ => .keeps rfl (keeps_execPoseRelease _ _ (.refl s))
  | .linkDownTimer _, _, _ => .keeps rfl (keeps_execLinkDownTimer _ (.refl s))
  | .trainingSuccess _, _, _ => .keeps rfl (keeps_execTrainingSuccess _ (.refl s))
  | .trainingTimeout _, _, _ => .keeps rfl (keeps_execTrainingTimeout _ (.refl s))
  | .helloSend _, _, _ => .keeps rfl (keeps_execHelloSend _ (.refl s))
  | .linkUp _, _, _ => .keeps rfl (keeps_execLinkUp _ (.refl s))
  | .linkFlitSend _, _, _ => .keeps rfl (keeps_execLinkFlitSend _ (.refl s))
  | .timeMeasure _, _, _ => .keeps rfl (keeps_execTimeMeasure _ (.refl s))
  | .linkHoldExpiry _ _, _, _ => .keeps rfl (keeps_execLinkHoldExpiry _ _ (.refl s))
  | .egressDecision _, _, _ => .keeps rfl (keeps_execEgressDecision _ (.refl s))
  | .gateEntryBoundary _, _, _ => .keeps rfl (keeps_execGateEntryBoundary _ (.refl s))
  | .gateSwitchOver _, _, _ => .keeps rfl (keeps_execGateSwitchOver _ (.refl s))
  | .alive _, _, _ => .keeps rfl (keeps_execAlive _ (.refl s))
  | .fence _, _, _ => .keeps rfl (keeps_execFence _ (.refl s))
  | .rejoin _, _, _ => .keeps rfl (keeps_execRejoin _ (.refl s))
  | .host _, _, _ => .keeps rfl (keeps_execHost _ (.refl s))
  | .lost _, _, _ => .keeps rfl (keeps_execLost _ (.refl s))
  | .rerun _, _, _ => .keeps rfl (keeps_execRerun _ (.refl s))
  | .rerunMerge _ _, _, _ => .keeps rfl (keeps_execRerunMerge _ _ (.refl s))
  | .memberSilent _, _, _ => .keeps rfl (keeps_execMemberSilent _ (.refl s))
  | .switchSilence _ _, _, _ => .keeps rfl (keeps_execSwitchSilence _ _ (.refl s))
  | .healthDecay, _, _ => .keeps rfl (keeps_execHealthDecay (.refl s))
  | .spareTakeover, _, _ => .keeps rfl (keeps_execSpareTakeover (.refl s))
  | .backgroundScrub _, _, _ => .keeps rfl (keeps_execBackgroundScrub _ (.refl s))
  | .hbmPowerDown _, _, _ => .keeps rfl (keeps_execHbmPowerDown _ (.refl s))
  | .hbmSelfRefreshEntry _, _, _ => .keeps rfl (keeps_execHbmSelfRefreshEntry _ (.refl s))
  | .perst, _, _ => .keeps rfl (keeps_execPerst (.refl s))
  | .functionLevelReset _, _, _ => .keeps rfl (keeps_execFunctionLevelReset _ (.refl s))
  | .thermtrip _ _, _, _ => .keeps rfl (keeps_execThermtrip _ _ (.refl s))
  | .throttleUpdate _ _ _, _, _ => .keeps rfl (keeps_execThrottleUpdate _ _ _ (.refl s))
  | .smbState, _, _ => .keeps rfl (keeps_execSmbState (.refl s))
  | .smbIdent, _, _ => .keeps rfl (keeps_execSmbIdent (.refl s))
  | .smbTemp, _, _ => .keeps rfl (keeps_execSmbTemp (.refl s))
  | .smbPower, _, _ => .keeps rfl (keeps_execSmbPower (.refl s))
  | .alertResponse, _, _ => .keeps rfl (keeps_execAlertResponse (.refl s))
  | .railsInRange, _, _ => .keeps rfl (keeps_execRailsInRange (.refl s))
  | .warmRstRise, _, _ => .keeps rfl (keeps_execWarmRstRise (.refl s))
  | .perstRise _, _, _ => .keeps rfl (keeps_execPerstRise _ (.refl s))
  | .hostReadCompletion _ _, _, _ => .keeps rfl (keeps_execHostReadCompletion _ _ (.refl s))
  | .msixUnmask _ _, _, _ => .keeps rfl (keeps_execMsixUnmask _ _ (.refl s))
  | .bar0AccessRefused _ _ _, _, _ => .keeps rfl (keeps_execBar0AccessRefused _ _ _ (.refl s))

theorem exec_norHolds {c : Instr} (other : writesNor c = false) : OutNorHolds s.boot.nor (exec c s) := by
  cases unit : leaves c .boot with
  | true => exact fun t next => congrArg Boot.nor ((exec_keeps s c t next).boot unit)
  | false => exact exec_norHolds_of_units s c unit other

theorem writesNor_eq_false {c : Instr} (image : ∀ f, c ≠ .imageWrite f) (program : ∀ b ok, c ≠ .norProgramComplete b ok) :
    writesNor c = false := by
  unfold writesNor
  split
  · exact absurd rfl (image _)
  · exact absurd rfl (program _ _)
  · rfl

/-- Settles O57: what every command keeps of the fuse map and the identity area, and which commands write the NOR at all. -/
theorem identityAreaIsNeverWritten : Obligations.IdentityAreaIsNeverWritten := by
  intro s t c rest canonical queue next
  obtain ⟨-, -, canon, job⟩ := canonical
  have run : exec c { s with pending := rest } = .next t := by
    simpa only [step, queue] using next
  have kept := exec_keeps _ c t run
  refine ⟨kept.fuses, kept.ident job canon, fun image program => ?_⟩
  exact exec_norHolds (s := { s with pending := rest }) (writesNor_eq_false image program) t run

end Sys2Proof.Proofs
end

section
/-!
ATTEST, IMAGE_WRITE and the programming of its image (15 R410, R416-R419): the report in host memory, the image area of the NOR, and the
result slots of the commands that wait for the programming.
-/

namespace Sys2Proof.Proofs

open Sys2Proof Sys2Proof.Machine Sys2Proof.Claims

variable {s : State} {f g i st : Nat} {t : Taken} {rest : List Taken}

/-! The commands that wait complete, all with one status (14 R401). -/

/-- The result slot holds this status. -/
def StatusIs (s : State) (g i st : Nat) : Prop := ((s.func g).result i).status = st

section
variable (slot : Nat) (seq : DWord) (opcode : Byte) (irq : Bool) (payload : Bytes)

theorem finish_func_other (other : g ≠ f) : (s.finish f slot seq opcode irq st payload).func g = s.func g := by
  unfold State.finish
  dsimp only
  split
  · rw [interrupt_func, if_neg other]
    exact (State.func_setFunc ..).trans (if_neg other)
  · exact (State.func_setFunc ..).trans (if_neg other)

theorem finish_results : ((s.finish f slot seq opcode irq st payload).func f).results =
    tput (s.func f).results slot (Result.sealed { gen := seq.setWidth 32, st := 2, status := st, opcode, payload, shown := 0 }) := by
  unfold State.finish
  dsimp only
  split
  · rw [interrupt_func, if_pos rfl, State.modFunc, State.func_setFunc, if_pos rfl]
    rfl
  · rw [State.modFunc, State.func_setFunc, if_pos rfl]
    rfl

theorem finish_statusIs : StatusIs (s.finish f slot seq opcode irq st payload) f slot st := by
  unfold StatusIs Func.result
  rw [finish_results, tget_tput, if_pos rfl]
  rfl

/-- A slot that holds the status already holds it still, whichever command completes with it. -/
theorem StatusIs.finish (h : StatusIs s g i st) : StatusIs (s.finish f slot seq opcode irq st payload) g i st := by
  by_cases other : g = f
  · subst other
    unfold StatusIs Func.result
    rw [finish_results, tget_tput]
    split
    · rfl
    · exact h
  · unfold StatusIs
    rw [finish_func_other _ _ _ _ _ other]
    exact h

end

/-- The commands `l` of function `f` complete with status `st`. -/
def completed (s : State) (f st : Nat) (l : List Waiting) : State := l.foldl (fun s w => s.finish f w.slot w.seq w.opcode w.irq st []) s

theorem StatusIs.completed (h : StatusIs s g i st) (l : List Waiting) : StatusIs (completed s f st l) g i st := by
  induction l generalizing s with
  | nil => exact h
  | cons w l ih => exact ih (h.finish ..)

theorem completed_statusIs {l : List Waiting} {w : Waiting} (mem : w ∈ l) : StatusIs (completed s f st l) f w.slot st := by
  induction l generalizing s with
  | nil => cases mem
  | cons v l ih =>
    rcases List.mem_cons.mp mem with rfl | mem
    · exact (finish_statusIs ..).completed l
    · exact ih mem

theorem completed_func_other (other : g ≠ f) (l : List Waiting) : (completed s f st l).func g = s.func g := by
  induction l generalizing s with
  | nil => rfl
  | cons w l ih => exact ih.trans (finish_func_other _ _ _ _ _ other)

section
variable {p : WaitsOn → Bool}

theorem endWaitsOf_eq : s.endWaitsOf f p st [] = if (s.func f).waits.any (fun w => p w.on) then
    completed (s.modFunc f (fun x => { x with waits := (s.func f).waits.filter (fun w => !p w.on) })) f st
      ((s.func f).waits.filter (fun w => p w.on))
    else s := rfl

theorem StatusIs.endWaitsOf (h : StatusIs s g i st) : StatusIs (s.endWaitsOf f p st []) g i st := by
  rw [endWaitsOf_eq]
  split
  · refine StatusIs.completed ?_ _
    unfold StatusIs
    rw [State.modFunc, State.func_setFunc]
    split
    · next same =>
      subst same
      exact h
    · exact h
  · exact h

theorem endWaitsOf_statusIs {w : Waiting} (mem : w ∈ (s.func f).waits) (waits : p w.on = true) :
    StatusIs (s.endWaitsOf f p st []) f w.slot st := by
  rw [endWaitsOf_eq, if_pos (List.any_eq_true.mpr ⟨w, mem, waits⟩)]
  exact completed_statusIs (List.mem_filter.mpr ⟨mem, waits⟩)

theorem endWaitsOf_func_other (other : g ≠ f) : (s.endWaitsOf f p st []).func g = s.func g := by
  rw [endWaitsOf_eq]
  split
  · exact (completed_func_other other _).trans ((State.func_setFunc ..).trans (if_neg other))
  · rfl

/-- Every command of a function in `l` that waits on what `p` names completes with the status. -/
theorem foldl_endWaitsOf_statusIs {l : List Nat} {w : Waiting} (listed : f ∈ l) (mem : w ∈ (s.func f).waits) (waits : p w.on = true) :
    StatusIs (l.foldl (fun s g => s.endWaitsOf g p st []) s) f w.slot st := by
  have stays (l : List Nat) {s : State} (h : StatusIs s f w.slot st) : StatusIs (l.foldl (fun s g => s.endWaitsOf g p st []) s) f w.slot st := by
    induction l generalizing s with
    | nil => exact h
    | cons g l ih => exact ih h.endWaitsOf
  induction l generalizing s with
  | nil => cases listed
  | cons g l ih =>
    by_cases same : f = g
    · subst same
      exact stays l (endWaitsOf_statusIs mem waits)
    · refine ih ((List.mem_cons.mp listed).resolve_left same) ?_
      rw [endWaitsOf_func_other same]
      exact mem

end

/-- The programming ends: the commands that wait for it complete. -/
theorem endWaits_nor {u : State} (same : u.funcs = s.funcs) : ∀ g < 4, ∀ w ∈ (s.func g).waits, w.on = .nor →
    (((u.endWaits WaitsOn.isNor st []).func g).result w.slot).status = st := by
  intro g unit w mem on
  rw [State.func, ← same] at mem
  exact foldl_endWaitsOf_statusIs (List.mem_range.mpr unit) mem (by rw [on]; rfl)

theorem endWaits_boot (p : WaitsOn → Bool) (st : Nat) : (s.endWaits p st []).boot = s.boot :=
  Keeps.boot (k := true) (fd := true) (fc := true) (fe := true) (fl := true) (fb := true) (fm := true) (fh := true) (fy := true) (fa := true)
    (ft := true) (keeps_State_endWaits p st [] (.refl s)) rfl

/-! IMAGE_WRITE (15 R416). -/

theorem foldl_emit (out : Nat × Nat → Output) (l : List (Nat × Nat)) :
    l.foldl (fun s p => s.emit (out p)) s = { s with outs := s.outs ++ l.map out } := by
  induction l generalizing s with
  | nil => simp
  | cons p l ih =>
    rw [List.foldl_cons, ih]
    simp [State.emit]

theorem readHost_eq (a n : Nat) : s.readHost f a n =
    { s with outs := s.outs ++ (splitRun (s.func f).maxRead n a n).map (fun p => .hostRead f p.1 p.2) } :=
  foldl_emit _ _

/-- The erased image area reads as erased. -/
theorem tget_erased_below {d : Byte} {l : Tab Byte} {b k : Nat} (below : k < b) : tget d (l.filter (fun p => decide (b ≤ p.1))) k = d :=
  tget_of_lt fun _ mem => Nat.lt_of_lt_of_le below (of_decide_eq_true (List.mem_filter.mp mem).2)

/-- The erasure leaves what lies above, whatever form the table has: a lookup passes over the lower entries. -/
theorem tget_erased_above {d : Byte} {l : Tab Byte} {b k : Nat} (above : b ≤ k) :
    tget d (l.filter (fun p => decide (b ≤ p.1))) k = tget d l k := by
  induction l with
  | nil => rfl
  | cons p l ih =>
    by_cases kept : b ≤ p.1
    · rw [List.filter_cons_of_pos (by simpa using kept), tget, tget, ih]
    · rw [List.filter_cons_of_neg (by simpa using kept), ih, tget, if_neg (by omega), if_neg (by omega)]

theorem execAttest_done {a : Nat} (ha : a = leAt t.bytes 8 8) (h : Accepted s f 0x13 t rest) (aligned : a % 64 = 0) :
    execAttest f s = .next (ended (((took s f rest).writeHost f a ((took s f rest).attestReport (slice t.bytes 16 32))).draw 1) f t stOk []) := by
  subst ha
  refine runCmd_done h.1 rfl (checked_accepted h (by decide) ?_ _)
  simp only [List.forall_mem_singleton]
  change (leAt t.bytes 8 8 % 64 != 0) = false
  simp [aligned]

section
variable {a n : Nat} {b : Bytes} (ha : a = leAt t.bytes 16 8) (hn : n = leAt t.bytes 8 4) (whole : n % 64 = 0) (least : 1088 ≤ n)
  (most : n ≤ 66060288) (aligned : a % 64 = 0)
include ha hn whole least most aligned

/-- The fields are sound. -/
theorem imageWrite_fields : (leAt t.bytes 8 4 % 64 != 0 || decide (leAt t.bytes 8 4 < 1088) || decide (66060288 < leAt t.bytes 8 4) ||
    t.haddr 16 % 64 != 0) = false := by
  subst ha hn
  change (_ || _ || _ || leAt t.bytes 16 8 % 64 != 0) = false
  simp only [Bool.or_eq_false_iff, bne_eq_false_iff_eq, decide_eq_false_iff_not]
  omega

variable (h : Accepted s f 0x14 t rest) (got : t.got = some (some b))
include h got

theorem execImageWrite_verified (verified : (took s f rest).imageFault (took s f rest).blank b = none) :
    execImageWrite f s = .next ((waiting (took s f rest) f t .nor).startNor f a n (imgDigest b)) := by
  have fields := imageWrite_fields ha hn whole least most aligned
  subst ha hn
  have data : t.data = some b := by simp [Taken.data, got]
  refine runCmd_waits (go := fun s => s.startNor f _ _ (imgDigest b)) h.1 rfl ?_
  simp only [data]
  refine checked_accepted h (by decide) ?_ _
  simp only [List.forall_mem_cons]
  exact ⟨fields, by simp [verified], by simp⟩

theorem execImageWrite_refused (refused : (took s f rest).imageFault (took s f rest).blank b ≠ none) :
    execImageWrite f s = .next (ended (took s f rest) f t stVersion []) := by
  have fields := imageWrite_fields ha hn whole least most aligned
  have data : t.data = some b := by simp [Taken.data, got]
  have faulty : ((took s f rest).imageFault (took s f rest).blank b).isSome = true := Option.isSome_iff_ne_none.mpr refused
  refine runCmd_fail h.1 rfl (checked_some ((lowest_common h (by decide) _).trans ?_))
  rw [data, Option.getD_some, faulty, fields]
  rfl

end

/-! NOR_PROGRAM_COMPLETE (15 R416). -/

/-- The job is over. -/
def jobOver (s : State) : State := { s with boot := { s.boot with norJob := none } }

section
variable {j : NorJob} {b : Bytes} {good : Bool} (job : s.boot.norJob = some j) (works : s.hostWorks = true)
include job works

theorem execNorProgramComplete_programs (answers : s.boot.norAnswers = true) (same : imgDigest (slice b 0 j.len) = j.digest) :
    execNorProgramComplete (some b) true s = .next (((jobOver s).norWrite 0 (slice b 0 j.len)).endWaits WaitsOn.isNor stOk []) := by
  simp only [execNorProgramComplete, job, answers, same, beq_self_eq_true, Bool.and_true, if_true, when'_true works, jobOver]

theorem execNorProgramComplete_differs (bad : imgDigest (slice b 0 j.len) ≠ j.digest ∨ good = false ∨ s.boot.norAnswers = false) :
    execNorProgramComplete (some b) good s = .next ((jobOver s).endWaits WaitsOn.isNor stVersion []) := by
  have not : (good && s.boot.norAnswers && imgDigest (slice b 0 j.len) == j.digest) = false := by
    rcases bad with other | rfl | silent
    · simp [other]
    · rfl
    · simp [silent]
  simp only [execNorProgramComplete, job, not]
  exact when'_true works

theorem execNorProgramComplete_unread : execNorProgramComplete none good s = .next ((jobOver s).endWaits WaitsOn.isNor stTimeout []) := by
  simp only [execNorProgramComplete, job]
  exact when'_true works

end

/-- Settles O28: none of its conditions refuses the command, or the image alone does; and how the programming ends. -/
theorem attestationAndImages : Obligations.AttestationAndImages := by
  intro s f t rest a n
  refine ⟨fun ha h aligned => execAttest_done ha h aligned, ?verified, ?refused, ?programmed, ?idle⟩
  case verified =>
    intro b ha hn h whole least most aligned got verified
    refine ⟨_, execImageWrite_verified ha hn whole least most aligned h got verified, ?_⟩
    rw [State.startNor, readHost_eq]
    refine ⟨rfl, fun k below => tget_erased_below below, fun k above => tget_erased_above above, ?_⟩
    have request : ((waiting (took s f rest) f t .nor).func f).maxRead = (s.func f).maxRead := by
      simp [waiting, took, State.modFunc]
    exact congrArg (fun m => s.outs ++ (splitRun m n a n).map _) request
  case refused =>
    intro b ha hn h whole least most aligned got refused
    exact execImageWrite_refused ha hn whole least most aligned h got refused
  case programmed =>
    intro j job works status
    refine ⟨fun b answers same => ?_, fun b good bad => ?_, fun good => ?_⟩
    · refine ⟨_, execNorProgramComplete_programs job works answers same, ?_⟩
      rw [endWaits_boot, State.norWrite_boot]
      exact ⟨rfl, rfl, endWaits_nor rfl⟩
    · refine ⟨_, execNorProgramComplete_differs job works bad, ?_⟩
      rw [endWaits_boot]
      exact ⟨rfl, rfl, endWaits_nor rfl⟩
    · refine ⟨_, execNorProgramComplete_unread (good := good) job works, ?_⟩
      rw [endWaits_boot]
      exact ⟨rfl, rfl, endWaits_nor rfl⟩
  case idle =>
    intro noJob
    change execNorProgramComplete none false s = .next s
    simp only [execNorProgramComplete, noJob]
    rfl

end Sys2Proof.Proofs
end

section
/-!
Sensors, the trip and throttling (16 R438-R440).
-/

namespace Sys2Proof.Proofs

open Sys2Proof Sys2Proof.Machine Sys2Proof.Claims

variable {s : State} {t : Nat} {x : Int}

theorem onUnit_sensor (sensor : t < 13) {out : Out} : onUnit (decide (t < sensors)) out = out := onUnit_present (decide_eq_true sensor)

/-! The trip (16 R440). -/

theorem tripAt_eq (t : Nat) : tripAt t = if t < 9 then 30720 else 28160 := by
  simp [tripAt, isDie]

theorem execThermtrip_hot (sensor : t < 13) (hot : tripAt t ≤ x) (on : s.dev ≠ .off) : execThermtrip t x s =
    .next { s with board := { s.board with temps := tset 0 s.board.temps t x, trip := true, clock := false } } := by
  rw [execThermtrip, onUnit_sensor sensor, when'_true (by simp [hot, on])]
  rfl

theorem execThermtrip_cool (sensor : t < 13) (cool : x < tripAt t) : execThermtrip t x s = .next s := by
  rw [execThermtrip, onUnit_sensor sensor, when'_false (by simp [cool])]

/-! A warning (16 R438): each change of a sensor's state is told. -/

/-- The sensors in `warned` have reached their warning limits, and the hosts are told. -/
def warnedOf (s : State) (t : Nat) (x : Int) (warned : List Nat) (ev : Nat) : State :=
  (((s.setBoard { s.board.sense s.now t x with warned }).interruptAll 9).alertBit 1).noteSensor t ev

theorem execThermalWarning_rises (sensor : t < 13) (clock : s.aclk = true) (new : t ∉ s.board.warned) (warm : s.board.warnAt t ≤ x) :
    execThermalWarning t x s = .next (warnedOf s t x (s.board.warned ++ [t]) 0) := by
  have rise : (!s.board.warned.contains t && decide (s.board.warnAt t ≤ x)) = true := by simp [new, warm]
  have stays : (s.board.warned.contains t && decide (x ≤ s.board.warnAt t - 512)) = false := by simp [new]
  simp only [execThermalWarning, onUnit_sensor sensor, rise, stays, clock, Bool.true_or, Bool.true_and]
  exact when'_true rfl

theorem execThermalWarning_falls (sensor : t < 13) (clock : s.aclk = true) (listed : t ∈ s.board.warned) (cool : x ≤ s.board.warnAt t - 512) :
    execThermalWarning t x s = .next (warnedOf s t x (s.board.warned.filter (· != t)) 1) := by
  have stays : (!s.board.warned.contains t && decide (s.board.warnAt t ≤ x)) = false := by simp [listed]
  have fall : (s.board.warned.contains t && decide (x ≤ s.board.warnAt t - 512)) = true := by simp [listed, cool]
  simp only [execThermalWarning, onUnit_sensor sensor, stays, fall, clock, Bool.or_true, Bool.true_and]
  exact when'_true rfl

theorem execThermalWarning_cool (sensor : t < 13) (new : t ∉ s.board.warned) (cool : x < s.board.warnAt t) :
    execThermalWarning t x s = .next s := by
  simp only [execThermalWarning, onUnit_sensor sensor]
  exact when'_false (by simp [new, cool])

theorem noteSensor_keeps (t ev : Nat) : Keeps true true true true true true true true true false true true true s (s.noteSensor t ev) :=
  keeps_State_noteSensor _ _ (.refl s)

section
variable (warned : List Nat) (ev : Nat)

theorem warnedOf_board : (warnedOf s t x warned ev).board = { s.board.sense s.now t x with warned } := by
  rw [warnedOf, (noteSensor_keeps t ev).board rfl]
  exact (State.setHot_board _ _ _ _).trans ((interruptAll_keeps 9).board rfl)

theorem alertBit_set (b : Nat) (less : b < 6) : (s.alertBit b).boot.alert.getLsbD b = true := by
  rw [alertBit_boot]
  simp only [BitVec.getLsbD_or, BitVec.getLsbD_ofNat, Nat.testBit_two_pow_self, less, decide_true, Bool.and_true, Bool.or_true]

theorem warnedOf_alert : (warnedOf s t x warned ev).boot.alert.getLsbD 1 = true := by
  rw [warnedOf, (noteSensor_keeps t ev).boot rfl]
  exact alertBit_set 1 (by decide)

theorem warnedOf_intStatus {f : Nat} (unit : f < 4) (on : s.enabled f = true) :
    ((warnedOf s t x warned ev).func f).intStatus.getLsbD 9 = true := by
  rw [State.func, warnedOf, (noteSensor_keeps t ev).funcs rfl, State.alertBit, State.setHot_funcs]
  exact interruptAll_intStatus unit on (by decide)

end

/-! An emergency (16 R438, R440). -/

theorem execThermalEmergency_due {a : Nat} (sensor : t < 13) (clock : s.aclk = true) (hot : tget? s.board.hotSince t = some a)
    (due : a + 1250000 ≤ s.now) : execThermalEmergency t s =
      .next (State.enterGrisaille { s with board := { s.board with emergency := true, coolHold := true } } .thermal) := by
  have lasts : (tget? s.board.hotSince t).any (fun a => decide (a + Config.msAclk ≤ s.now)) = true := by
    rw [hot, Option.any_some, msAclk_eq]
    exact decide_eq_true due
  rw [execThermalEmergency, onUnit_sensor sensor, when'_true (by rw [clock, lasts]; rfl)]
  rfl

theorem execThermalEmergency_cool (sensor : t < 13) (cool : tget? s.board.hotSince t = none) : execThermalEmergency t s = .next s := by
  rw [execThermalEmergency, onUnit_sensor sensor, when'_false (by rw [cool, Option.any_none, Bool.and_false])]

/-! Throttling (16 R439). -/

/-- Readings change the sensors' fields alone. -/
theorem senseAll_frame (b : Board) (now : Nat) (l : List Int) :
    ∃ temps hotSince, b.senseAll now l = { b with temps, hotSince } := by
  have go (order : List Nat) : ∀ b : Board, ∃ temps hotSince,
      order.foldl (fun b t => b.sense now t (l.getD t (b.temp t))) b = { b with temps, hotSince } := by
    induction order with
    | nil => exact fun b => ⟨b.temps, b.hotSince, rfl⟩
    | cons t order ih =>
      intro b
      obtain ⟨temps, hotSince, eq⟩ := ih (b.sense now t (l.getD t (b.temp t)))
      exact ⟨temps, hotSince, eq⟩
  exact go _ b

section
variable (power current : Nat) (clock : s.aclk = true)
include clock

/-- The readings at an update without temperatures of its own. -/
def readings (s : State) (power current : Nat) : Board :=
  { s.board.senseAll s.now [] with
    power, current, throttleAt := s.now,
    emergency := (s.board.senseAll s.now []).emergency && !(s.board.senseAll s.now []).hotSince.isEmpty }

theorem execThrottleUpdate_due (due : s.board.throttleAt + 1250000 ≤ s.now) :
    execThrottleUpdate [] power current s = .next (s.setBoard (readings s power current).throttle) := by
  obtain ⟨temps, hotSince, sensed⟩ := senseAll_frame s.board s.now []
  have since : (s.board.senseAll s.now []).throttleAt = s.board.throttleAt := by rw [sensed]
  simp only [execThrottleUpdate, clock, if_true, since, msAclk_eq]
  exact when'_true (decide_eq_true due)

theorem execThrottleUpdate_early (early : s.now < s.board.throttleAt + 1250000) : execThrottleUpdate [] power current s = .next s := by
  obtain ⟨temps, hotSince, sensed⟩ := senseAll_frame s.board s.now []
  have since : (s.board.senseAll s.now []).throttleAt = s.board.throttleAt := by rw [sensed]
  simp only [execThrottleUpdate, clock, if_true, since, msAclk_eq]
  exact when'_false (decide_eq_false (Nat.not_le.mpr early))

end

section
variable {b : Board}

/-- Within its limit, a share that power has not lowered is the curve's. -/
theorem throttle_free (within : b.power ≤ b.limits.pLimit) (free : b.powerHeld = false) : b.throttle = { b with share := b.curveShare } := by
  simp only [Board.throttle, if_neg (Nat.not_lt.mpr within), free, Bool.false_and, Bool.false_eq_true, if_false]

/-- Over its limit, power lowers the share by 1/8. -/
theorem throttle_over (beyond : b.limits.pLimit < b.power) {k : Nat} (hk : k = if b.powerHeld then min b.share b.curveShare else b.curveShare) :
    b.throttle = { b with share := k - k / 8, powerHeld := true } := by
  simp only [Board.throttle, if_pos beyond, hk]

/-- Below its limit, a share that power has lowered rises by 1/8 of its own value, up to the curve's. -/
theorem throttle_rises (below : b.power < b.limits.pLimit) (lowered : b.powerHeld = true) {k : Nat} (hk : k = min b.share b.curveShare) :
    b.throttle = { b with share := min b.curveShare (k + (k + 7) / 8), powerHeld := decide (min b.curveShare (k + (k + 7) / 8) < b.curveShare) } := by
  simp only [Board.throttle, if_neg (Nat.lt_asymm below), lowered, below, decide_true, Bool.and_self, if_true, hk, ceilDiv, Nat.add_one_sub_one]

/-- The readings leave the limits and what power holds, and the curve follows the temperatures alone. -/
theorem readings_frame (s : State) (power current : Nat) : let b := readings s power current
    b.limits = s.board.limits ∧ b.powerHeld = s.board.powerHeld ∧ b.share = s.board.share ∧
      b.curveShare = (s.board.senseAll s.now []).curveShare := by
  obtain ⟨temps, hotSince, sensed⟩ := senseAll_frame s.board s.now []
  rw [readings, sensed]
  exact ⟨rfl, rfl, rfl, rfl⟩

end

/-- Settles O52: each event by whether its condition holds, and the throttle by where power stands. -/
theorem thermal : Obligations.Thermal := by
  intro s t x sensor b
  refine ⟨fun hot on => execThermtrip_hot sensor ((tripAt_eq t).trans_le hot) on,
    fun cool => execThermtrip_cool sensor (cool.trans_eq (tripAt_eq t).symm),
    fun clock => ⟨fun new warm => ?rises, fun listed cool => ?falls, fun new cool => execThermalWarning_cool sensor new cool,
      fun a hot due => execThermalEmergency_due sensor clock hot due, fun cool => execThermalEmergency_cool sensor cool,
      fun power current due within free => ?free, fun power current k due beyond hk => ?beyond,
      fun power current c k due below lowered hc hk => ?recovers, fun power current early => execThrottleUpdate_early power current clock early⟩⟩
  case rises =>
    refine ⟨_, execThermalWarning_rises sensor clock new warm, ?_, warnedOf_alert _ _, fun f unit on => warnedOf_intStatus _ _ unit on⟩
    rw [warnedOf_board]
  case falls =>
    refine ⟨_, execThermalWarning_falls sensor clock listed cool, ?_, warnedOf_alert _ _⟩
    rw [warnedOf_board]
    simp
  case free =>
    obtain ⟨limits, held, -, curve⟩ := readings_frame s power current
    refine ⟨_, execThrottleUpdate_due power current clock due, ?_⟩
    rw [throttle_free (by rw [limits]; exact within) (held.trans free), curve]
    exact ⟨rfl, rfl, rfl, rfl, held.trans free, State.setBoard_mem _ _, State.setBoard_coll _ _⟩
  case beyond =>
    obtain ⟨limits, held, share, curve⟩ := readings_frame s power current
    refine ⟨_, execThrottleUpdate_due power current clock due, ?_⟩
    rw [throttle_over (by rw [limits]; exact beyond) (k := k) (by rw [held, share, curve]; exact hk)]
    exact ⟨rfl, rfl⟩
  case recovers =>
    obtain ⟨limits, held, share, curve⟩ := readings_frame s power current
    subst hc
    refine ⟨_, execThrottleUpdate_due power current clock due, ?_⟩
    rw [throttle_rises (by rw [limits]; exact below) (held.trans lowered) (k := k) (by rw [share, curve]; exact hk), curve]
    exact ⟨rfl, rfl⟩

end Sys2Proof.Proofs
end

section
/-!
Cold resets, rails and the AON supply (15 R408; 16 R434).
-/

namespace Sys2Proof.Proofs

open Sys2Proof Sys2Proof.Machine Sys2Proof.Claims

variable {s u : State}

/-- The core of `u` is at its reset values, and of the AON domain `u` holds the stored parts of `s`. -/
def CoreReset (s u : State) : Prop :=
  u.easels = [] ∧ u.coll = {} ∧ u.health = {} ∧ u.funcs = [] ∧ u.diary = {} ∧ u.clock = {} ∧
    u.formats = factoryFormats ∧ u.fab = State.reset.fab ∧ u.mem.cells = [] ∧ u.mem.kept = false ∧
    u.boot.fuses = s.boot.fuses ∧ u.boot.nor = s.boot.nor ∧ u.boot.mram = s.boot.mram ∧ u.outs = s.outs

/-- A change of the device state touches only ALERT besides. -/
theorem CoreReset.setDev (reset : CoreReset s u) (d : DevSt) : CoreReset s (u.setDev d) := by
  obtain ⟨alert, hot, eq⟩ := setDev_eq (s := u) d
  rw [eq]
  exact reset

theorem CoreReset.alertBit (reset : CoreReset s u) (b : Nat) : CoreReset s (u.alertBit b) := by
  unfold State.alertBit State.setHot
  split <;> exact reset

theorem setDev_dev (d : DevSt) : (s.setDev d).dev = d := by
  obtain ⟨alert, hot, eq⟩ := setDev_eq (s := s) d
  rw [eq]

theorem setDev_board (d : DevSt) : (s.setDev d).board = s.board := by
  obtain ⟨alert, hot, eq⟩ := setDev_eq (s := s) d
  rw [eq]

theorem setDev_presented (d : DevSt) : (s.setDev d).boot.presented = s.boot.presented := by
  obtain ⟨alert, hot, eq⟩ := setDev_eq (s := s) d
  rw [eq]

/-- A change of state is told to the BMC (15 R431). -/
theorem setDev_alert {d : DevSt} (change : s.dev ≠ d) : (s.setDev d).boot.alert.getLsbD 0 = true := by
  rw [State.setDev, beq_false_of_ne change]
  exact alertBit_set 0 (by decide)

theorem alertBit_dev (b : Nat) : (s.alertBit b).dev = s.dev := State.setHot_dev _ _ _ _

/-! The reset of the core in AON. -/

theorem coldReset_core : CoreReset s s.coldReset := by
  refine CoreReset.setDev ?_ .aon
  exact ⟨rfl, rfl, rfl, rfl, rfl, rfl, rfl, rfl, rfl, rfl, rfl, rfl, rfl, rfl⟩

theorem coldReset_dev : s.coldReset.dev = .aon := setDev_dev .aon

theorem coldReset_cold : s.coldReset.board.cold = true := by
  rw [State.coldReset, setDev_board]
  rfl

theorem coldReset_sysRst : s.coldReset.board.sysRst = s.board.sysRst := by
  rw [State.coldReset, setDev_board]
  rfl

theorem coldReset_presented : s.coldReset.boot.presented = false := setDev_presented .aon

theorem powerLost_core : CoreReset s s.powerLost := ⟨rfl, rfl, rfl, rfl, rfl, rfl, rfl, rfl, rfl, rfl, rfl, rfl, rfl, rfl⟩

/-! The pins. -/

/-- SYS_RST_L is low. -/
def sysResetLow (s : State) : State := s.setBoard { s.board with sysRst := false }

/-- The device behind a fall of SYS_RST_L: its clocks run again after a trip. -/
def sysReset (s : State) : State :=
  (sysResetLow s).coldReset.setBoard { (sysResetLow s).coldReset.board with trip := false, clock := true }

theorem execSysRstLow_on (high : s.board.sysRst = true) (on : s.dev ≠ .off) : execSysRstLow s = .next (sysReset s) := by
  rw [execSysRstLow, when'_true high]
  exact congrArg _ (if_neg (by simpa using on))

/-- The core behind a fault of the rails, with ALERT bit 0 set. -/
def railReset (s : State) : State := s.coldReset.alertBit 0

theorem execRailFault_runs (on : s.dev ≠ .off) (core : s.dev ≠ .aon) (rails : s.board.rails = true) :
    execRailFault s = .next ((railReset s).setBoard { (railReset s).board with rails := false }) := by
  rw [execRailFault, when'_true (by simp [on, rails]), beq_false_of_ne core]
  rfl

theorem execRailFault_aon (aon : s.dev = .aon) (rails : s.board.rails = true) :
    execRailFault s = .next { s with board := { s.board with rails := false } } := by
  rw [execRailFault, when'_true (by simp [aon, rails])]
  simp only [if_pos (beq_iff_eq.mpr aon)]
  rfl

/-- Settles O48: every cold reset passes through `coldReset` or `powerLost`, which leave the core at its reset values. -/
theorem coldResets : Obligations.ColdResets := by
  intro s core
  refine ⟨?low, fun held => when'_false held, ?loss, ?good, ?goodAgain, ?rails, ?railsAgain, ?fault, execRailFault_aon⟩
  case low =>
    intro high on
    have eq : (sysResetLow s).coldReset.board.sysRst = false := coldReset_sysRst
    exact ⟨sysReset s, execSysRstLow_on high on, coldReset_core (s := sysResetLow s), coldReset_dev (s := sysResetLow s), eq,
      coldReset_cold (s := sysResetLow s), rfl, coldReset_presented (s := sysResetLow s)⟩
  case loss => exact fun on => ⟨s.powerLost, when'_true (bne_iff_ne.mpr on), powerLost_core, rfl, rfl, rfl⟩
  case good =>
    intro a off
    exact ⟨_, when'_true (beq_iff_eq.mpr off), setDev_dev .aon, setDev_board .aon, setDev_alert (by simp [off])⟩
  case goodAgain => exact fun a on => when'_false (beq_false_of_ne on)
  case rails => exact fun aon out => when'_true (by simp [aon, out])
  case railsAgain => exact fun other => when'_false (by simp [other])
  case fault =>
    intro on running rails
    exact ⟨_, execRailFault_runs on running rails, coldReset_core.alertBit 0, (alertBit_dev 0).trans coldReset_dev, rfl⟩

end Sys2Proof.Proofs
end

section
/-!
FUNCTION_LEVEL_RESET (14 R383) aborts the contexts that the function owns: each abort takes one entry out of the table of contexts.
-/

namespace Sys2Proof.Proofs

open Sys2Proof Sys2Proof.Machine Sys2Proof.Claims

variable {s : State} {c f : Nat}

theorem failAll_idle (idle : (s.ctx c).gens = []) (status : Nat) : s.failAll c status = s := by
  rw [State.failAll, idle]
  rfl

/-- The abort of a context without generations only frees it (07 R192). -/
theorem abortCtx_idle_ctxs (idle : (s.ctx c).gens = []) : (s.abortCtx c).coll.ctxs = tset {} s.coll.ctxs c {} := by
  rw [State.abortCtx, failAll_idle idle, (freeCtx_coll s c).1]

theorem foldl_setBinding_ctxs (l : List (Nat × Binding)) :
    (l.foldl (fun s p => s.setBinding p.1 { p.2 with st := 0 }) s).coll.ctxs = s.coll.ctxs := by
  induction l generalizing s with
  | nil => rfl
  | cons p l ih => exact ih

theorem foldl_tearNow_coll (l : List Nat) : (l.foldl (fun s id => s.tearNow id) s).coll = s.coll := by
  have kept : Keeps true true true true true false true true false false true true true s (l.foldl (fun s id => s.tearNow id) s) :=
    .foldl _ (fun _ _ before => keeps_State_tearNow _ before) (.refl s)
  exact kept.coll rfl

/-- Of what a function owns, only its contexts matter to the table of contexts. -/
theorem dropOwned_ctxs : (s.dropOwned f).coll.ctxs =
    ((s.openCtxs.filter fun c => (s.ctx c).owner == f).foldl (fun s c => s.abortCtx c) s).coll.ctxs := by
  rw [State.dropOwned, foldl_tearNow_coll, foldl_setBinding_ctxs]

section
variable (owned : (s.openCtxs.filter fun c => (s.ctx c).owner == f) = [c]) (idle : (s.ctx c).gens = [])
include owned idle

/-- Where one open entry is the function's, and nothing runs in its context, one entry of the context is taken out. -/
theorem dropOwned_one_ctxs : (s.dropOwned f).coll.ctxs = tset {} s.coll.ctxs c {} := by
  rw [dropOwned_ctxs, owned, List.foldl_cons, List.foldl_nil, abortCtx_idle_ctxs idle]

theorem resetFunc_one_ctxs : (s.resetFunc f).coll.ctxs = tset {} s.coll.ctxs c {} := by
  rw [State.resetFunc, State.modFunc_coll]
  exact dropOwned_one_ctxs (s := s.modFunc f _) owned idle

end

theorem execFunctionLevelReset_reaches (reaches : Reaches s f) : execFunctionLevelReset f s = .next (s.resetFunc f) := by
  obtain ⟨function, clock, present⟩ := reaches
  rw [execFunctionLevelReset, onUnit_present (decide_eq_true function), when'_true (by rw [clock, present]; rfl)]

/-- A switch in RUNNING whose table of contexts lists context 0 twice, FREE with the number of its next generation kept, and READY. -/
def freeThenReady : State :=
  { State.reset with
    dev := .running, boot := { State.reset.boot with presented := true },
    coll := { State.reset.coll with ctxs := [(0, { gLow := 1 }), (0, { st := .ready })] } }

theorem freeThenReady_reaches : Reaches freeThenReady 0 := ⟨by decide, rfl, rfl⟩

/-- Behind the abort of its first entry the context reads as the second gives it. -/
theorem freeThenReady_reset : ((freeThenReady.resetFunc 0).ctx 0).st = .ready := by
  rw [State.ctx, resetFunc_one_ctxs (c := 0) rfl rfl]
  rfl

/-- Refutes O51, in the clause of HostResets on FUNCTION_LEVEL_RESET: that every context of the function is FREE behind it is said of every
state, and `freeThenReady` lists a context twice, so that its one abort leaves an entry behind. -/
theorem not_powerFailAndHostResets : ¬ Obligations.PowerFailAndHostResets := by
  rintro ⟨-, resets⟩
  obtain ⟨-, -, -, -, -, -, reset, -⟩ := resets freeThenReady
  obtain ⟨u, next, -, -, free⟩ := reset 0 freeThenReady_reaches
  obtain rfl : freeThenReady.resetFunc 0 = u :=
    Host.Outcome.next.inj ((execFunctionLevelReset_reaches freeThenReady_reaches).symm.trans next)
  exact CtxSt.noConfusion (freeThenReady_reset.symm.trans (free 0 rfl))

end Sys2Proof.Proofs
end

section
/-!
The SMBus target (15 R429-R431).
-/

namespace Sys2Proof.Proofs

open Sys2Proof Sys2Proof.Machine Sys2Proof.Claims

variable {s : State}

theorem onBus_off {go : State} (off : s.dev = .off) : onBus s go = .next s := when'_false (by rw [off]; rfl)

theorem onBus_on {go : State} (on : s.dev ≠ .off) : onBus s go = .next go := when'_true (bne_iff_ne.mpr on)

/-! Sensor readings (15 R430): two bytes each. -/

theorem sensed_aon (aon : s.dev = .aon) (x : Int) : s.sensed x = toLE 2 0x8000 := by
  rw [State.sensed, aon]
  rfl

theorem sensed_on (on : s.dev ≠ .aon) (x : Int) : s.sensed x = toLE 2 (x % 65536).toNat := by
  rw [State.sensed, beq_false_of_ne on]
  rfl

theorem length_flatMap_toLE (f : Nat → Nat) (n : Nat) : ((List.range n).flatMap fun t => toLE 2 (f t)).length = 2 * n := by
  simp [List.length_flatMap, length_toLE, Nat.mul_comm]

/-- Word `t` of a row of two-byte words. -/
theorem leAt_flatMap_toLE (f : Nat → Nat) {n t : Nat} (listed : t < n) :
    leAt ((List.range n).flatMap fun t => toLE 2 (f t)) (2 * t) 2 = f t % 65536 := by
  obtain ⟨m, rfl⟩ := Nat.exists_eq_add_of_lt listed
  rw [Nat.add_right_comm, List.range_add, List.flatMap_append, List.range_succ, List.flatMap_append, List.flatMap_singleton,
    List.append_assoc]
  exact leAt_toLE_at (length_flatMap_toLE f t)

theorem sensed_row (f : Nat → Nat) (each : ∀ t, s.sensed (s.board.temp t) = toLE 2 (f t)) :
    ((List.range sensors).flatMap fun t => s.sensed (s.board.temp t)) = (List.range 13).flatMap fun t => toLE 2 (f t) :=
  congrArg (List.range 13).flatMap (funext each)

/-! Clearing of ALERT bits (15 R431). -/

theorem maskOf_range_succ (p : Nat → Bool) (n : Nat) : maskOf ((List.range (n + 1)).filter p) =
    maskOf ((List.range n).filter p) + if p n then 2 ^ n else 0 := by
  rw [List.range_succ, List.filter_append, maskOf, List.map_append, List.sum_append, List.filter_singleton]
  cases p n <;> rfl

theorem maskOf_filter_lt (p : Nat → Bool) (n : Nat) : maskOf ((List.range n).filter p) < 2 ^ n := by
  induction n with
  | zero => exact Nat.one_pos
  | succ n ih =>
    rw [maskOf_range_succ]
    split <;> omega

/-- Bit `k` of a mask says whether `k` is of the set. -/
theorem testBit_maskOf_filter (p : Nat → Bool) {n k : Nat} (within : k < n) : (maskOf ((List.range n).filter p)).testBit k = p k := by
  induction n with
  | zero => exact absurd within k.not_lt_zero
  | succ n ih =>
    rw [maskOf_range_succ]
    rcases Nat.lt_succ_iff_lt_or_eq.mp within with below | rfl
    · split
      · rw [Nat.add_comm, Nat.testBit_two_pow_add_gt below, ih below]
      · exact ih below
    · have clear : (maskOf ((List.range k).filter p)).testBit k = false := Nat.testBit_lt_two_pow (maskOf_filter_lt p k)
      split
      · next set => rw [Nat.add_comm, Nat.testBit_two_pow_add_eq, clear, set]; rfl
      · next unset => rw [Nat.add_zero, clear, Bool.eq_false_iff.mpr unset]

theorem clearAlert_bit (v : Word) {k : Nat} (bit : k < 6) : (s.clearAlert v.toNat).boot.alert.getLsbD k =
    (s.boot.alert.getLsbD k && (!v.getLsbD k || s.isHot 0 0 k)) := by
  rw [State.clearAlert, BitVec.getLsbD_ofNat, decide_eq_true bit, Bool.true_and, testBit_maskOf_filter _ bit]
  rfl

/-! The record of a DIARY read (15 R430). -/

theorem smbRecord_found {q : Nat} {r : Bytes} (asked : s.boot.smbSeq = some q) (on : s.dev ≠ .aon) (found : r = tget [] s.diary.recs (q % 65536))
    (full : r.length = 64) (seq : leAt r 0 4 = q) : s.smbRecord = r := by
  have present : r.isEmpty = false := by
    rw [List.isEmpty_eq_false_iff_exists_mem]
    exact List.exists_mem_of_length_pos (full ▸ by decide)
  simp only [State.smbRecord, asked, Option.getD_some, ← found, present, seq, beq_false_of_ne on, bne_self_eq_false, Bool.false_or]
  simp [slice, full]

theorem smbRecord_missing {q : Nat} (asked : s.boot.smbSeq = some q)
    (missing : s.dev = .aon ∨ leAt (tget [] s.diary.recs (q % 65536)) 0 4 ≠ q) : s.smbRecord = zeros 64 := by
  simp only [State.smbRecord, asked, Option.getD_some]
  exact if_pos (by rcases missing with aon | other <;> simp [*])

/-! The transfers, one fact each, while the target is powered. -/

section
variable (on : s.dev ≠ .off)
include on

theorem execSmbAlert_clear (v : Word) : execSmbAlert (some (v, true)) s = .next ((s.clearAlert v.toNat).answer []) := onBus_on on

theorem execSmbDiary_read : execSmbDiary none s =
    .next (({ s with boot := { s.boot with smbSeq := none } } : State).blockRead 6 s.smbRecord) := onBus_on on

theorem execSmbMramRead_within (aligned : s.boot.smbMram % 64 = 0) (inside : s.boot.smbMram < 0x200000) :
    execSmbMramRead none s = .next (s.blockRead 7 (s.mramRead s.boot.smbMram 64)) := by
  rw [execSmbMramRead, onBus_on on]
  exact congrArg _ (if_pos ⟨aligned, inside⟩)

theorem execSmbMramRead_free (free : s.boot.smbMram % 64 ≠ 0 ∨ 0x200000 ≤ s.boot.smbMram) : execSmbMramRead none s =
    .next ((s.draw 64).blockRead 7 ((List.range 64).map fun i => Config.anyByte (s.freeCtr + i))) := by
  rw [execSmbMramRead, onBus_on on]
  exact congrArg _ (if_neg (by omega))

theorem execAlertResponse_alert (alert : s.boot.alert ≠ 0) :
    execAlertResponse s = .next (s.answer [BitVec.ofNat 8 s.smbAddress]) := by
  rw [execAlertResponse, onBus_on on, State.alertL, beq_false_of_ne alert]
  rfl

theorem execAlertResponse_quiet (silent : s.boot.alert = 0) : execAlertResponse s = .next s.nack := by
  rw [execAlertResponse, onBus_on on, State.alertL, silent]
  rfl

/-- The four status bytes of STATE. -/
theorem execSmbState_eq : execSmbState s = .next (s.blockRead 1 [BitVec.ofNat 8 s.dev.code, BitVec.ofNat 8 s.boot.cause, BitVec.ofNat 8 s.health.cause,
    BitVec.ofNat 8 ((if s.board.pwrFail then 0 else 1) + if s.mem.kept then 2 else 0)]) := by
  rw [execSmbState, onBus_on on]
  cases s.board.pwrFail <;> cases s.mem.kept <;> rfl

theorem execSmbTemp_row (f : Nat → Nat) (each : ∀ t, s.sensed (s.board.temp t) = toLE 2 (f t)) :
    execSmbTemp s = .next (s.blockRead 3 ((List.range 13).flatMap fun t => toLE 2 (f t))) := by
  rw [execSmbTemp, onBus_on on, sensed_row f each]

theorem execSmbPower_on (running : s.dev ≠ .aon) : execSmbPower s =
    .next (s.blockRead 4 (toLE 2 (s.board.power % 65536) ++ toLE 2 (s.board.current % 65536) ++ zeros 4)) := by
  rw [execSmbPower, onBus_on on, sensed_on running, sensed_on running]
  rfl

end

theorem smbusReads : SmbusReads := by
  intro s on replied address framed block quiet
  refine ⟨execSmbState_eq on, onBus_on on, ?temps, ?tempsAon, execSmbPower_on on, onBus_on on, ?alert,
    fun v => ⟨onBus_on on, onBus_on on, onBus_on on⟩, fun q => onBus_on on, ?record, ?missing, fun a => onBus_on on,
    execSmbMramRead_within on, ?free, execAlertResponse_alert on, execAlertResponse_quiet on⟩
  case temps =>
    intro running
    refine ⟨_, execSmbTemp_row on _ fun t => sensed_on running _, length_flatMap_toLE _ 13, fun t sensor => ?_⟩
    rw [leAt_flatMap_toLE _ sensor]
    omega
  case tempsAon =>
    exact fun aon => ⟨_, execSmbTemp_row on _ fun t => sensed_aon aon _, length_flatMap_toLE _ 13, fun t sensor => leAt_flatMap_toLE _ sensor⟩
  case alert => exact fun v => ⟨_, execSmbAlert_clear on v, rfl, fun k bit => clearAlert_bit v bit, rfl⟩
  case record =>
    intro q r asked running found full seq
    have read := execSmbDiary_read on
    rwa [smbRecord_found asked running found full seq] at read
  case missing =>
    intro q asked gone
    have read := execSmbDiary_read on
    rwa [smbRecord_missing asked gone] at read
  case free => exact fun free => ⟨_, execSmbMramRead_free on free, by simp⟩

theorem smbusOff : SmbusOff := by
  intro s i off listed
  simp only [List.mem_cons, List.not_mem_nil, or_false] at listed
  rcases listed with rfl | rfl | rfl | rfl | rfl | rfl | rfl | rfl
  all_goals exact onBus_off off

/-- Settles O53: each transfer by its equation, the temperatures as a row of words, the ALERT bits as a mask. -/
theorem smbus : Obligations.Smbus := ⟨smbusReads, smbusOff⟩

end Sys2Proof.Proofs
end

section
/-!
What a flush under way finds as it goes on (15 R425): in an ACLK, checks that settle, messages, and the writes of the engines that land, change the
queue of the Diary and the cause that waits, and leave the rest of the Diary, the memory, and the operations as they are.
-/

namespace Sys2Proof.Proofs

open Sys2Proof Sys2Proof.Machine Sys2Proof.Claims

/-- The flush under way in Diary `d` goes on over the memory `m`, where `P` is true of every operation. -/
structure FlushHolds (P : MemOp → Prop) (d : Diary) (m : Mem) (s : State) : Prop where
  busy : d.busy ≠ none
  diary : ∃ queue lost lossMark pendingCause, s.diary = { d with queue, lost, lossMark, pendingCause }
  mem : s.mem = m
  ops : ∀ n, ∀ o ∈ (s.easel n).ops, P o

variable {P : MemOp → Prop} {d : Diary} {m : Mem} {s t : State} {c : Nat} {num : Word}

theorem FlushHolds.refl (busy : s.diary.busy ≠ none) (ops : ∀ n, ∀ o ∈ (s.easel n).ops, P o) : FlushHolds P s.diary s.mem s :=
  ⟨busy, ⟨_, _, _, _, rfl⟩, rfl, ops⟩

/-- What changes neither the Diary, nor memory, nor the Easels. -/
theorem FlushHolds.keeps (h : FlushHolds P d m s)
    (kept : Keeps false false false true false false true false false true false false false s t) : FlushHolds P d m t where
  busy := h.busy
  diary := by rw [kept.diary rfl]; exact h.diary
  mem := (kept.mem rfl).trans h.mem
  ops n := by rw [State.easel, kept.easels rfl]; exact h.ops n

section
variable {p : Prop} [Decidable p]

theorem FlushHolds.ite (h : FlushHolds P d m s) (h' : FlushHolds P d m t) : FlushHolds P d m (if p then s else t) := by
  split
  · exact h
  · exact h'

end

theorem FlushHolds.foldl {α : Type} {step : State → α → State} (l : List α) (each : ∀ s x, FlushHolds P d m s → FlushHolds P d m (step s x))
    (h : FlushHolds P d m s) : FlushHolds P d m (l.foldl step s) := by
  induction l generalizing s with
  | nil => exact h
  | cons x l ih => exact ih (each s x h)

/-! An event waits in the queue; a flush waits for the current one. -/

theorem note_flushHolds {rule ev cls idx status : Nat} {payload : List Nat} (h : FlushHolds P d m s) :
    FlushHolds P d m (s.note rule ev cls idx status payload) where
  busy := h.busy
  diary := by
    obtain ⟨_, _, _, _, eq⟩ := h.diary
    unfold State.note
    dsimp only
    split <;> exact ⟨_, _, _, _, by rw [eq]⟩
  mem := (State.note_mem ..).trans h.mem
  ops n := by rw [State.easel, State.note_easels]; exact h.ops n

theorem startFlush_flushHolds {cause : Nat} (h : FlushHolds P d m s) : FlushHolds P d m (s.startFlush cause) := by
  obtain ⟨_, _, _, _, eq⟩ := h.diary
  have busy : s.diary.busy ≠ none := by rw [eq]; exact h.busy
  unfold State.startFlush
  dsimp only
  split
  · exact ⟨h.busy, ⟨_, _, _, _, by rw [eq]⟩, h.mem, h.ops⟩
  · next idle => exact absurd idle busy

theorem easelFlush_flushHolds (h : FlushHolds P d m s) : FlushHolds P d m s.easelFlush := .ite (startFlush_flushHolds h) h

/-! Frames that this switch originates may be dropped, which is recorded. -/

theorem takeHop_flushHolds {arr : Option Nat} {body : Nat} {requeued : Bool} {hop : Hop} (h : FlushHolds P d m s) :
    FlushHolds P d m (s.takeHop arr body requeued hop) := by
  unfold State.takeHop
  split
  · exact h.keeps (keeps_State_enqueue _ _ (.refl s))
  · exact h.keeps (keeps_State_enqueue _ _ (.refl s))
  · exact (note_flushHolds h).keeps (keeps_State_dropCopy _ (.refl _))
  · exact h.keeps (keeps_State_dropCopy _ (.refl s))

theorem crossOut_flushHolds {ftype id : Nat} {tile : Bytes} {hop : Hop} (h : FlushHolds P d m s) : FlushHolds P d m (s.crossOut ftype tile id hop) :=
  .ite ((note_flushHolds h).keeps (keeps_State_dropCopy _ (.refl _))) (takeHop_flushHolds h)

theorem placeFrame_flushHolds {o : Orig} {body : Option Nat} (h : FlushHolds P d m s) : FlushHolds P d m (s.placeFrame o body) := by
  unfold State.placeFrame
  extract_lets _ _ _ s1
  have h1 : FlushHolds P d m s1 := .ite h (h.keeps (keeps_State_setFlow _ (.refl s)))
  clear_value s1
  split
  rename_i u id stored
  apply crossOut_flushHolds
  split at stored
  · cases stored
    exact h1
  · exact h1.keeps (keeps_store_eq (.refl s1) stored)

theorem drainGo_flushHolds {kept l : List Orig} (h : FlushHolds P d m s) : FlushHolds P d m (drainGo s kept l) := by
  induction l generalizing s kept with
  | nil => exact h.keeps (keeps_State_setFab _ (.refl s))
  | cons o l ih => exact .ite (ih (placeFrame_flushHolds h)) (ih h)

theorem queueOrig_flushHolds {o : Orig} (h : FlushHolds P d m s) : FlushHolds P d m (s.queueOrig o) :=
  drainGo_flushHolds (h.keeps (keeps_State_setFab _ (.refl s)))

theorem endSpan_flushHolds {peer vc : Nat} (h : FlushHolds P d m s) : FlushHolds P d m (s.endSpan peer vc) := by
  unfold State.endSpan
  dsimp only
  split
  · exact h
  · exact queueOrig_flushHolds (h.keeps (keeps_State_setFlow _ (.refl s)))

theorem privOrig_flushHolds {o : Orig} (h : FlushHolds P d m s) : FlushHolds P d m (s.privOrig o) := by
  unfold State.privOrig
  dsimp only
  split
  · exact queueOrig_flushHolds h
  · split
    · exact h.keeps (keeps_State_setFlow _ (.refl s))
    · split
      · exact (endSpan_flushHolds h).keeps (keeps_State_setFlow _ (.refl _))
      · exact queueOrig_flushHolds (h.keeps (keeps_State_setFlow _ (.refl s)))

theorem originate_flushHolds {dest vc ftype bucket : Nat} {body : Bytes} (h : FlushHolds P d m s) :
    FlushHolds P d m (s.originate dest vc ftype bucket body) :=
  .ite (privOrig_flushHolds h) (queueOrig_flushHolds h)

theorem toAuthority_flushHolds {body : Bytes} (h : FlushHolds P d m s) : FlushHolds P d m (s.toAuthority body) := .ite (originate_flushHolds h) h

theorem ackFlow_flushHolds {peer vc : Nat} (h : FlushHolds P d m s) : FlushHolds P d m (s.ackFlow peer vc) := by
  unfold State.ackFlow
  split
  · exact h
  · unfold State.tackFlow
    dsimp only
    split
    · exact h
    · exact originate_flushHolds (h.keeps (keeps_State_setFlow _ (.refl s)))

theorem freeEject_flushHolds {src vc cells : Nat} (h : FlushHolds P d m s) : FlushHolds P d m (s.freeEject src vc cells) := by
  unfold State.freeEject
  extract_lets s1
  have h1 : FlushHolds P d m s1 := h.keeps (keeps_State_freeCells _ _ (.refl s))
  clear_value s1
  split
  · split
    · exact .ite (ackFlow_flushHolds (h1.keeps (keeps_State_setFlow _ (.refl s1)))) (h1.keeps (keeps_State_setFlow _ (.refl s1)))
    · exact h1
  · exact h1

/-! Messages of a context. -/

theorem sendNode_flushHolds {a vc ftype : Nat} {body : Bytes} {assoc : Option (Nat × Word × Nat)} (h : FlushHolds P d m s) :
    FlushHolds P d m (s.sendNode c a vc ftype body assoc) := by
  unfold State.sendNode
  dsimp only
  split
  · exact h.keeps (keeps_State_selfDeliver _ _ _ _ (.refl s))
  · split
    · exact .ite (h.keeps (keeps_State_holdCells _ _ (keeps_State_setCtx _ _ (.refl s)))) (h.keeps (keeps_State_setCtx _ _ (.refl s)))
    · exact originate_flushHolds h

theorem rosterNode_flushHolds {a : Nat} {body : Bytes} (h : FlushHolds P d m s) : FlushHolds P d m (s.rosterNode c a body) :=
  .ite (h.keeps (keeps_State_selfDeliver _ _ _ _ (.refl s))) (originate_flushHolds h)

theorem spread_flushHolds {skip : Option Nat} {body : Bytes} (h : FlushHolds P d m s) : FlushHolds P d m (s.spread c skip body) :=
  .foldl _ (fun _ _ h => rosterNode_flushHolds h) h

theorem downTree_flushHolds {body : Bytes} (h : FlushHolds P d m s) : FlushHolds P d m (s.downTree c body) :=
  .foldl _ (fun _ _ h => sendNode_flushHolds h) h

theorem modGen_flushHolds {f : Gen → Gen} (h : FlushHolds P d m s) : FlushHolds P d m (s.modGen c num f) := h.keeps (keeps_State_modGen _ _ _ (.refl s))

theorem report_flushHolds {status : Nat} (h : FlushHolds P d m s) : FlushHolds P d m (s.report c num status) := by
  unfold State.report
  dsimp only
  split
  · exact h
  · split
    · split
      · exact h
      · exact modGen_flushHolds (downTree_flushHolds h)
    · split
      · exact sendNode_flushHolds h
      · exact h

theorem tell_flushHolds (h : FlushHolds P d m s) : FlushHolds P d m (s.tell c num) := by
  unfold State.tell
  split
  · exact h
  · exact .ite (report_flushHolds (modGen_flushHolds h)) h

theorem tellAll_flushHolds (h : FlushHolds P d m s) : FlushHolds P d m s.tellAll :=
  .foldl _ (fun _ _ h => .foldl _ (fun _ _ h => tell_flushHolds h) h) h

theorem tileTo_flushHolds {a forRank : Nat} {b : Bytes} (h : FlushHolds P d m s) : FlushHolds P d m (s.tileTo c num a forRank b) := by
  unfold State.tileTo
  split
  · exact h
  · exact sendNode_flushHolds h

theorem startStages_flushHolds (h : FlushHolds P d m s) : FlushHolds P d m (s.startStages c num) := by
  unfold State.startStages
  dsimp only
  split
  · exact h
  · exact .foldl _ (fun s _ h => tileTo_flushHolds (h.keeps (keeps_State_freeHeld _ _ (.refl s)))) (modGen_flushHolds h)

theorem startAll_flushHolds (h : FlushHolds P d m s) : FlushHolds P d m s.startAll :=
  .foldl _ (fun _ _ h => .foldl _ (fun _ _ h => startStages_flushHolds h) h) h

/-! Changes of an Easel that leave its operations. -/

theorem setEasel_flushHolds {n : Nat} {x : Easel} (h : FlushHolds P d m s) (ops : ∀ o ∈ x.ops, P o) : FlushHolds P d m (s.setEasel n x) where
  busy := h.busy
  diary := h.diary
  mem := h.mem
  ops k := by
    rw [State.easel, State.setEasel, tget_tput]
    split
    · exact ops
    · exact h.ops k

theorem modEasel_flushHolds {n : Nat} {f : Easel → Easel} (h : FlushHolds P d m s) (same : ∀ x, (f x).ops = x.ops) :
    FlushHolds P d m (s.modEasel n f) :=
  setEasel_flushHolds h (by rw [same]; exact h.ops n)

theorem setEngine_flushHolds {n : Nat} {e : EngId} {g : Engine} (h : FlushHolds P d m s) : FlushHolds P d m (s.setEngine n e g) :=
  setEasel_flushHolds h (h.ops n)

theorem stopGroup_flushHolds {n : Nat} {isFault : Bool} (h : FlushHolds P d m s) : FlushHolds P d m (s.stopGroup n isFault) :=
  .foldl _ (fun _ _ h => modEasel_flushHolds h fun _ => rfl) h

theorem addCheck_flushHolds {n : Nat} {k : BadCheck} (h : FlushHolds P d m s) : FlushHolds P d m (s.addCheck n k) :=
  modEasel_flushHolds (stopGroup_flushHolds h) fun _ => rfl

theorem setHot_flushHolds {kind idx bit : Nat} (h : FlushHolds P d m s) : FlushHolds P d m (s.setHot kind idx bit) :=
  h.keeps (keeps_State_setHot _ _ _ (.refl s))

/-! Failures and fences. -/

theorem clearEasel_flushHolds {n : Nat} (h : FlushHolds P d m s) : FlushHolds P d m (s.clearEasel n c num) :=
  .foldl _ (fun _ _ h => freeEject_flushHolds h) (setEasel_flushHolds h (h.ops n))

theorem failQuiet_flushHolds {status : Nat} (h : FlushHolds P d m s) : FlushHolds P d m (s.failQuiet c num status) := by
  unfold State.failQuiet
  split
  · exact h
  · split
    · exact modGen_flushHolds h
    · have cleared := FlushHolds.foldl (s.ctx c).bound (fun _ n h => clearEasel_flushHolds (n := n) (c := c) (num := num) h) h
      exact modGen_flushHolds (cleared.keeps (keeps_State_dropStaged _ _ _ (.refl _)))

theorem failGen_flushHolds {status : Nat} (h : FlushHolds P d m s) : FlushHolds P d m (s.failGen c num status) := by
  unfold State.failGen
  split
  · exact h
  · exact .ite (modGen_flushHolds (failQuiet_flushHolds h)) (failQuiet_flushHolds h)

theorem fenceGens_flushHolds (h : FlushHolds P d m s) : FlushHolds P d m (s.fenceGens c) :=
  .foldl _ (fun _ _ h => .ite h (failGen_flushHolds h)) h

theorem sendFenced_flushHolds {ep : Nat} {body : Bytes} (h : FlushHolds P d m s) : FlushHolds P d m (s.sendFenced ep body) := by
  unfold State.sendFenced State.rosterTo
  exact originate_flushHolds ⟨h.busy, h.diary, h.mem, h.ops⟩

theorem fenceRank_flushHolds {r : Nat} {skip : Option Nat} (h : FlushHolds P d m s) : FlushHolds P d m (s.fenceRank c r skip) :=
  .ite h (fenceGens_flushHolds (sendFenced_flushHolds (toAuthority_flushHolds (spread_flushHolds (h.keeps (keeps_State_setCtx _ _ (.refl s)))))))

theorem fenceEndpoint_flushHolds {ep : Nat} (h : FlushHolds P d m s) : FlushHolds P d m (s.fenceEndpoint ep) :=
  .foldl _ (fun _ _ h => .ite (.foldl _ (fun _ _ h => fenceRank_flushHolds h) h) h) h

/-! Health. -/

theorem sendExpel_flushHolds {e status : Nat} (h : FlushHolds P d m s) : FlushHolds P d m (s.sendExpel e status) :=
  (toAuthority_flushHolds h).keeps (keeps_State_alertBit _ (keeps_State_interruptAll _ (.refl _)))

theorem expel_flushHolds {e : Nat} (h : FlushHolds P d m s) : FlushHolds P d m (s.expel e) :=
  sendExpel_flushHolds (fenceEndpoint_flushHolds ⟨h.busy, h.diary, h.mem, h.ops⟩)

theorem expulsion_flushHolds {e : Nat} (h : FlushHolds P d m s) : FlushHolds P d m (s.expulsion e) :=
  .ite h (.ite (expel_flushHolds h) (sendExpel_flushHolds ⟨h.busy, h.diary, h.mem, h.ops⟩))

theorem healthOf_flushHolds {src : Option Nat} {w : Nat} (h : FlushHolds P d m s) : FlushHolds P d m (s.healthOf c src w) :=
  match src with
  | some _ => .ite (expulsion_flushHolds ⟨h.busy, h.diary, h.mem, h.ops⟩) h
  | none => h

/-! Failed checks settle (06 R177, R178). -/

theorem applyCheck_flushHolds {k : BadCheck} (h : FlushHolds P d m s) : FlushHolds P d m (s.applyCheck k) :=
  have blamed {w : Nat} : FlushHolds P d m (s.easelFlush.healthOf k.ctx (s.sourceOf k.ctx k.gen k.tile k.check) w) :=
    healthOf_flushHolds (easelFlush_flushHolds h)
  .ite (failGen_flushHolds blamed) (modGen_flushHolds blamed)

theorem settleChecks_flushHolds {n : Nat} (h : FlushHolds P d m s) : FlushHolds P d m (s.settleChecks n) :=
  .ite h (.foldl _ (fun _ _ h => applyCheck_flushHolds h) (setEasel_flushHolds h (h.ops n)))

/-! The writes of the engines land (04 R105). -/

theorem engineFault_flushHolds {n cause status pc : Nat} {e : EngId} (h : FlushHolds P d m s) :
    FlushHolds P d m (s.engineFault n e cause status pc) :=
  failGen_flushHolds (easelFlush_flushHolds (note_flushHolds (setHot_flushHolds (setHot_flushHolds (stopGroup_flushHolds
    (modEasel_flushHolds (setEngine_flushHolds h) fun _ => rfl))))))

theorem setFlags_flushHolds {n pos : Nat} {e : EngId} {f : BitVec 7} (h : FlushHolds P d m s) : FlushHolds P d m (setFlags s n e f c num pos) :=
  modGen_flushHolds (.foldl _ (fun _ _ h => .ite (setHot_flushHolds h) h) (setEngine_flushHolds h))

theorem landOne_flushHolds {n : Nat} {e : EngId} {l : Landing} (h : FlushHolds P d m s) : FlushHolds P d m (s.landOne n e l) := by
  cases l with
  | tray => exact setEasel_flushHolds h (h.ops n)
  | flags => exact setFlags_flushHolds h
  | promos => exact modGen_flushHolds h
  | checkFail | sparseFail => exact addCheck_flushHolds (note_flushHolds h)
  | fieldFault => exact engineFault_flushHolds h
  | _ => exact setEngine_flushHolds h

theorem landEngine_flushHolds {n : Nat} {e : EngId} (h : FlushHolds P d m s) : FlushHolds P d m (s.landEngine n e) :=
  .ite h (.foldl _ (fun _ _ h => landOne_flushHolds h) (modEasel_flushHolds (setEngine_flushHolds h) fun _ => rfl))

theorem landAll_flushHolds (h : FlushHolds P d m s) : FlushHolds P d m s.landAll :=
  .foldl _ (fun _ _ h => .foldl _ (fun _ _ h => landEngine_flushHolds h) h) h

/-! Operations move their pieces (05 R142): without data, into the Tray alone. -/

/-- The operation has no data for memory. -/
def NoData (o : MemOp) : Prop := o.data = []

theorem landPiece_ops (x : Easel) (now issued a : Nat) (b : Bytes) : (x.landPiece now issued a b).ops = x.ops := by
  simp only [Easel.landPiece, Easel.addWrote]

theorem movePiece_flushHolds {n issued : Nat} {p : Nat × Nat} (h : FlushHolds P d m s) : FlushHolds P d m (s.movePiece n issued p) :=
  modEasel_flushHolds h fun x => landPiece_ops x _ _ _ _

theorem moveSome_flushHolds {n id : Nat} (h : FlushHolds NoData d m s) : FlushHolds NoData d m (s.moveSome n id) := by
  unfold State.moveSome
  split
  · exact h
  · next o found =>
    have empty : o.data = [] := h.ops n o (List.mem_of_find?_eq_some found)
    extract_lets k _ lands leaves todo data s1 s2 _ moved
    have noData : data = [] := by simp only [data, empty, List.zip_nil_right]
    have h1 : FlushHolds NoData d m s1 := .foldl _ (fun _ _ h => movePiece_flushHolds h) h
    have h2 : FlushHolds NoData d m s2 := by
      simp only [s2, noData, List.filter_nil, List.foldl_nil]
      exact h1
    have dry : moved.data = [] := by simp only [moved, noData, List.filter_nil, List.map_nil]
    clear_value s2 moved
    refine (setEasel_flushHolds h2 fun z among => ?_).keeps (keeps_State_draw _ (.refl _))
    obtain ⟨y, listed, rfl⟩ := List.mem_map.mp among
    split
    · exact dry
    · exact h2.ops n y listed

theorem moveAll_flushHolds (h : FlushHolds NoData d m s) : FlushHolds NoData d m s.moveAll :=
  .ite h (.foldl _ (fun _ _ h => .foldl _ (fun _ _ h => moveSome_flushHolds h) h) h)

end Sys2Proof.Proofs
end

section
/-!
The flushes of the Diary (15 R425, R426): how one begins, what each ACLK copies, and what its end leaves in the spill slot.
-/

namespace Sys2Proof.Proofs

open Sys2Proof Sys2Proof.Machine Sys2Proof.Claims

variable {s : State} {cause h : Nat}

/-! The records in a slot: 64 bytes each, the oldest first. -/

/-- The bytes of the records `i` to `i + n - 1` of a flush from SEQ `first`. -/
def recordBytes (d : Diary) (first i n : Nat) : Bytes :=
  (List.range n).flatMap fun j => slice (tget [] d.recs ((first + (i + j)) % 65536)) 0 64

theorem length_flatMap_slice (f : Nat → Bytes) (n : Nat) : ((List.range n).flatMap fun j => slice (f j) 0 64).length = 64 * n := by
  simp [List.length_flatMap, length_slice, Nat.mul_comm]

theorem slice_getD (b : Bytes) {z : Nat} (within : z < 64) : (slice b 0 64).getD z 0 = b.getD z 0 := by
  have less : z < (slice b 0 64).length := (length_slice b 0 64).symm ▸ within
  rw [List.getD_eq_getElem _ _ less, getElem_slice b less, Nat.zero_add]
  rfl

theorem flatMap_slice_getD (f : Nat → Bytes) {n j z : Nat} (listed : j < n) (within : z < 64) :
    ((List.range n).flatMap fun j => slice (f j) 0 64).getD (64 * j + z) 0 = (f j).getD z 0 := by
  obtain ⟨k, rfl⟩ := Nat.exists_eq_add_of_lt listed
  have front := length_flatMap_slice f j
  rw [Nat.add_right_comm, List.range_add, List.flatMap_append, List.range_succ, List.flatMap_append, List.flatMap_singleton, List.append_assoc,
    List.getD_append_right _ _ _ _ (by omega), front, Nat.add_sub_cancel_left, List.getD_append _ _ _ _ (by rw [length_slice]; exact within),
    slice_getD _ within]

theorem read_getD (m : Mem) (a : Nat) {len z : Nat} (within : z < len) : (m.read a len).getD z 0 = tget unlisted m.cells (a + z) := by
  rw [List.getD_eq_getElem _ _ (by simpa [Mem.read] using within)]
  simp [Mem.read]

/-- A record that has been copied reads as the Diary holds it. -/
theorem write_recordBytes {m : Mem} {d : Diary} {a first c n i z : Nat} (canon : Memory.wf m.cells = true) (copied : i < n) (within : z < 64) :
    tget unlisted (m.write (a + 64 * c) (recordBytes d first c n)).cells (a + 64 * (c + i) + z) =
      (tget [] d.recs ((first + (c + i)) % 65536)).getD z 0 := by
  have inside : 64 * i + z < (recordBytes d first c n).length := by
    rw [recordBytes, length_flatMap_slice]
    omega
  have place : a + 64 * (c + i) + z = a + 64 * c + (64 * i + z) := by omega
  rw [place, Mem.write_same _ _ _ _ canon inside, ← List.getD_eq_getElem _ 0 inside]
  exact flatMap_slice_getD _ copied within

theorem copyRecords_diary (first i n : Nat) : (s.copyRecords first i n).diary = { s.diary with copied := i + n } := by
  rw [State.copyRecords, State.setCopied, (putMem_keeps _ _).diary rfl]

theorem copyRecords_accessed (first i n : Nat) :
    Accessed (s.mem.write (spillAt s.diary.slot + 64 + 64 * i) (recordBytes s.diary first i n)) (s.copyRecords first i n).mem := accessed_putMem _ _

/-! DIARY_FLUSH. -/

section
variable (clock : s.aclk = true) (runs : s.dev = .running ∨ s.dev = .grisaille)
include clock runs

theorem execDiaryFlush_listed (listed : 1 ≤ cause ∧ cause ≤ 5) : execDiaryFlush cause s = .next (s.flushFor cause) :=
  when'_true (by rcases runs with dev | dev <;> simp [clock, dev, listed])

theorem execDiaryFlush_starts (listed : cause = 1 ∨ cause = 2 ∨ cause = 3 ∨ cause = 5) (hbm : s.mem.lostHbm = false) :
    execDiaryFlush cause s = .next (s.startFlush cause) := by
  have easel : cause ≠ 4 := by omega
  rw [execDiaryFlush_listed clock runs (by omega), State.flushFor, hbm, if_neg easel]
  rfl

/-- A flush of cause EASEL does not begin before GAP_MS is over (15 R425). -/
theorem execDiaryFlush_gap {t : Nat} (hbm : s.mem.lostHbm = false) (last : s.diary.lastEasel = some t) (early : s.now < t + s.diary.gapMs * 1250000) :
    execDiaryFlush 4 s = .next s := by
  have waits : s.easelFlush = s := by
    have closed : decide (t + s.diary.gapMs * Config.msAclk ≤ s.now) = false := decide_eq_false (Nat.not_le.mpr early)
    simp only [State.easelFlush, last, closed, Bool.false_eq_true, if_false]
  rw [execDiaryFlush_listed clock runs (by omega), State.flushFor, hbm]
  exact congrArg _ waits

end

theorem execDiaryFlush_unlisted (unlisted : cause = 0 ∨ 5 < cause) : execDiaryFlush cause s = .next s := by
  refine when'_false ?_
  rcases unlisted with rfl | beyond
  · simp
  · simp [beyond]

/-- A second flush waits. -/
theorem startFlush_waits (busy : s.diary.busy ≠ none) (alone : s.diary.pendingCause = none) :
    s.startFlush cause = { s with diary := { s.diary with pendingCause := some cause } } := by
  unfold State.startFlush
  dsimp only
  split
  · rw [alone]
    rfl
  · next idle => exact absurd idle busy

theorem startFlush_idle_diary (idle : s.diary.busy = none) : (s.startFlush cause).diary.slot = (s.diary.slot + 1) % 16 ∧
    (s.startFlush cause).diary.number = (if s.diary.started then s.diary.number + 1 else s.diary.number) ∧
    (s.startFlush cause).diary.recs = s.diary.recs ∧ (s.startFlush cause).diary.head = s.diary.head := by
  unfold State.startFlush
  simp only [idle]
  exact ⟨trivial, trivial, trivial, trivial⟩

/-! One ACLK. -/

theorem copyTwo_copies (busy : s.diary.busy = some (cause, h)) (hbm : s.mem.lostHbm = false) : s.copyTwo =
    s.copyRecords (flushRange s.diary.written h).1 s.diary.copied (min 2 ((flushRange s.diary.written h).2 - s.diary.copied)) := by
  unfold State.copyTwo
  simp only [busy, hbm, Bool.false_eq_true, if_false]

/-- The capture header of a truncation is an access to memory as any other. -/
theorem truncateOne_lostHbm (c : Nat) (x : Ctx) (y : Gen) (k : Capture) : (s.truncateOne c x y k).mem.lostHbm = s.mem.lostHbm := by
  have put (t : State) (a : Nat) (b : Bytes) : (t.putMem a b).mem.lostHbm = t.mem.lostHbm := by
    obtain ⟨_, _, _, eq⟩ := accessed_putMem (s := t) a b
    rw [eq]
    rfl
  unfold State.truncateOne
  dsimp only
  split
  · rfl
  · split
    · rfl
    · exact put _ _ _

theorem truncateAll_lostHbm : s.truncateAll.mem.lostHbm = s.mem.lostHbm := by
  unfold State.truncateAll
  split
  · rfl
  · next noSeq =>
    clear noSeq
    generalize s.coll.captures.filter _ = l
    induction l generalizing s with
    | nil => rfl
    | cons k l ih =>
      rw [List.foldl_cons, ih]
      split
      · exact truncateOne_lostHbm _ _ _ _
      · rfl

/-- A record that waited in the queue is written, and the flush goes on. -/
theorem writeOne_flush (d : Diary) : d.writeOne.busy = d.busy ∧ d.writeOne.copied = d.copied := by
  unfold Diary.writeOne
  split
  · exact ⟨rfl, rfl⟩
  · dsimp only
    split <;> exact ⟨rfl, rfl⟩

/-! The parts of an ACLK (01 R26). -/

/-- What comes before the captures: interrupts, checks that settle, failures that are told, stages that start. -/
def settled (s : State) : State :=
  let s := (List.range 4).foldl (fun s f => if s.enabled f then s.sendDue f else s) s
  ((s.easels.map (·.1)).foldl (fun s n => s.settleChecks n) s).tellAll.startAll

/-- The cycle counters step, and a record is written. -/
def stepped (s : State) : State := { s with hot := [], clock := s.clock.tick, diary := s.diary.writeOne }

theorem tick_eq : s.tick = (stepped (settled s).truncateAll.copyTwo).logTick.landAll.moveAll := rfl

theorem settled_flushHolds {P : MemOp → Prop} {d : Diary} {m : Mem} (holds : FlushHolds P d m s) : FlushHolds P d m (settled s) := by
  have sent : FlushHolds P d m ((List.range 4).foldl (fun s f => if s.enabled f then s.sendDue f else s) s) :=
    .foldl _ (fun s _ h => .ite (h.keeps (keeps_State_sendDue _ (.refl s))) h) holds
  exact startAll_flushHolds (tellAll_flushHolds (.foldl _ (fun _ _ h => settleChecks_flushHolds h) sent))

theorem landed_flushHolds {P : MemOp → Prop} {d : Diary} {m : Mem} (holds : FlushHolds P d m s) : FlushHolds P d m s.logTick.landAll :=
  landAll_flushHolds (holds.keeps (keeps_State_logTick (.refl s)))

/-- The flush copies its next records to the memory behind the captures, and goes on. -/
theorem copyTwo_flushHolds {P : MemOp → Prop} {d : Diary} {m : Mem} (holds : FlushHolds P d m s) (busy : d.busy = some (cause, h))
    (hbm : m.lostHbm = false) : let r := flushRange d.written h; let n := min 2 (r.2 - d.copied)
    ∃ m', FlushHolds P { d with copied := d.copied + n } m' s.copyTwo ∧
      m'.cells = (m.write (spillAt d.slot + 64 + 64 * d.copied) (recordBytes d r.1 d.copied n)).cells := by
  intro r n
  obtain ⟨some, ⟨queue, lost, lossMark, pendingCause, diary⟩, rfl, ops⟩ := holds
  have copies := copyTwo_copies (s := s) (by rw [diary]; exact busy) hbm
  rw [diary] at copies
  refine ⟨s.copyTwo.mem, ⟨some, ⟨queue, lost, lossMark, pendingCause, ?_⟩, rfl, ?_⟩, ?_⟩
  · rw [copies, copyRecords_diary, diary]
  · have kept : Keeps true true true true true true false true true false true true true s s.copyTwo := keeps_State_copyTwo (.refl s)
    intro n
    rw [State.easel, kept.easels rfl]
    exact ops n
  · have accessed := copyRecords_accessed (s := s) r.1 d.copied n
    rw [diary] at accessed
    rw [copies]
    exact accessed.cells

theorem truncateAll_flushHolds {P : MemOp → Prop} {d : Diary} {m : Mem} (holds : FlushHolds P d m s) :
    FlushHolds P d s.truncateAll.mem s.truncateAll := by
  have kept : Keeps true true true true false true false true false true true true true s s.truncateAll := keeps_State_truncateAll (.refl s)
  obtain ⟨some, diary, -, ops⟩ := holds
  exact ⟨some, by rw [kept.diary rfl]; exact diary, rfl, fun n => by rw [State.easel, kept.easels rfl]; exact ops n⟩

theorem stepped_flushHolds {P : MemOp → Prop} {d : Diary} {m : Mem} (holds : FlushHolds P d m s) :
    ∃ e, FlushHolds P e m (stepped s) ∧ e.busy = d.busy ∧ e.copied = d.copied := by
  obtain ⟨some, ⟨queue, lost, lossMark, pendingCause, diary⟩, same, ops⟩ := holds
  obtain ⟨busy, copied⟩ := writeOne_flush s.diary
  have still : s.diary.busy = d.busy := by rw [diary]
  exact ⟨s.diary.writeOne, ⟨by rw [busy, still]; exact some, ⟨_, _, _, _, rfl⟩, same, ops⟩, busy.trans still, by rw [copied, diary]⟩

/-- The flush copies its next records, and the rest of the ACLK, up to the moves of operations, leaves what it goes by. -/
theorem tick_flush {P : MemOp → Prop} (ops : ∀ n, ∀ o ∈ (s.easel n).ops, P o) (busy : s.diary.busy = some (cause, h))
    (hbm : s.mem.lostHbm = false) : let r := flushRange s.diary.written h; let n := min 2 (r.2 - s.diary.copied)
    ∃ v d m, s.tick = State.moveAll v ∧ FlushHolds P d m v ∧ d.busy = s.diary.busy ∧ d.copied = s.diary.copied + n ∧
      ∃ before : Mem, (Memory.wf s.mem.cells = true → Memory.wf before.cells = true) ∧
        m.cells = (before.write (spillAt s.diary.slot + 64 + 64 * s.diary.copied) (recordBytes s.diary r.1 s.diary.copied n)).cells := by
  intro r n
  have first : FlushHolds P s.diary s.mem (settled s) := settled_flushHolds (.refl (by simp [busy]) ops)
  have kept : Keeps true true true true false true false true false true true true true (settled s) (settled s).truncateAll :=
    keeps_State_truncateAll (.refl _)
  have lost : (settled s).truncateAll.mem.lostHbm = false := by rw [truncateAll_lostHbm, first.mem, hbm]
  obtain ⟨m, copied, cells⟩ := copyTwo_flushHolds (truncateAll_flushHolds first) busy lost
  obtain ⟨d, holds, still, count⟩ := stepped_flushHolds copied
  exact ⟨_, d, m, tick_eq, landed_flushHolds holds, still, count, _, fun canon => kept.cells (by rw [first.mem]; exact canon), cells⟩

theorem tick_flush_diary (busy : s.diary.busy = some (cause, h)) (hbm : s.mem.lostHbm = false) :
    s.tick.diary.copied = s.diary.copied + min 2 ((flushRange s.diary.written h).2 - s.diary.copied) ∧ s.tick.diary.busy = s.diary.busy := by
  obtain ⟨v, d, m, moves, ⟨-, ⟨_, _, _, _, diary⟩, -, -⟩, still, count, -⟩ := tick_flush (P := fun _ => True) (fun _ _ _ => trivial) busy hbm
  have kept : Keeps true true true false true true false true true true true true true v v.moveAll := keeps_State_moveAll (.refl v)
  rw [moves, kept.diary rfl, diary]
  exact ⟨count, still⟩

/-- Where no operation has data for memory, the records of the ACLK read as the Diary held them. -/
theorem tick_flush_records (busy : s.diary.busy = some (cause, h)) (hbm : s.mem.lostHbm = false) (canon : Memory.wf s.mem.cells = true)
    (ops : ∀ n, ∀ o ∈ (s.easel n).ops, o.data = []) {i z : Nat} (copied : i < min 2 ((flushRange s.diary.written h).2 - s.diary.copied))
    (within : z < 64) : (s.tick.mem.read (spillAt s.diary.slot + 64 + 64 * (s.diary.copied + i)) 64).getD z 0 =
      (tget [] s.diary.recs (((flushRange s.diary.written h).1 + (s.diary.copied + i)) % 65536)).getD z 0 := by
  obtain ⟨v, d, m, moves, holds, -, -, before, wf, cells⟩ := tick_flush (P := NoData) ops busy hbm
  rw [read_getD _ _ within, moves, (moveAll_flushHolds holds).mem, cells]
  exact write_recordBytes (wf canon) copied within

/-! DIARY_FLUSH_COMPLETE. -/

theorem execDiaryFlushComplete_last (busy : s.diary.busy = some (cause, h)) (last : s.diary.pendingCause = none) (clock : s.aclk = true)
    (noSeq : s.board.warmSeq = false) :
    execDiaryFlushComplete s = .next (s.closeFlush cause h) := by
  obtain ⟨-, pending⟩ := closeFlush_diary (s := s) cause h
  have next : (s.closeFlush cause h).nextFlush = s.closeFlush cause h := by rw [State.nextFlush, pending, last]
  have board : (s.closeFlush cause h).board = s.board := (closeFlush_keeps cause h).board rfl
  simp only [execDiaryFlushComplete, busy, next, board, noSeq, Bool.false_and, Bool.false_eq_true, if_false]
  exact when'_true clock

/-- The header of a flush that ends: COMPLETE, unless it was INCOMPLETE with a good CHECK, with the time at which the flush began. -/
def lastHeader (s : State) (cause h : Nat) : Bytes :=
  s.endHeader cause (flushRange s.diary.written h).1 (flushRange s.diary.written h).2

theorem lastHeader_eq (cause h : Nat) : let r := flushRange s.diary.written h; let was := s.mem.read (spillAt s.diary.slot) 64
    lastHeader s cause h = spillHeader (if leAt was 5 1 = 2 ∧ leAt was 60 4 = crc32c (was.take 60) then 2 else 1) cause s.diary.number r.1 r.2
      (leAt was 20 8) := by
  simp only [lastHeader, State.endHeader, Bool.and_eq_true, beq_iff_eq, and_comm]

/-- The memory behind the end of a flush: the records left, then the header. -/
theorem closeFlush_accessed (cause h : Nat) :
    Accessed ((s.mem.write (spillAt s.diary.slot + 64 + 64 * s.diary.copied) (recordsLeft s.diary h)).write (spillAt s.diary.slot)
      (lastHeader s cause h)) (s.closeFlush cause h).mem := by
  rw [State.closeFlush, alertBit_mem, (interruptAll_keeps 5).mem rfl]
  exact ((accessed_putMem _ _).write _ _).trans (accessed_putMem _ _)

theorem closeFlush_copied (cause h : Nat) : (s.closeFlush cause h).diary =
    { s.diary with busy := none, copied := s.diary.copied + ((flushRange s.diary.written h).2 - s.diary.copied) } := by
  rw [State.closeFlush, alertBit_diary, (interruptAll_keeps 5).diary rfl]
  dsimp only
  rw [(putMem_keeps _ _).diary rfl, copyRecords_diary]

theorem closeFlush_header (cause h : Nat) (canon : Memory.wf s.mem.cells = true) :
    (s.closeFlush cause h).mem.read (spillAt s.diary.slot) 64 = lastHeader s cause h := by
  have length : (lastHeader s cause h).length = 64 := length_spillHeader _ _ _ _ _ _
  rw [read_congr (closeFlush_accessed cause h).cells, ← length]
  exact Mem.read_write _ _ _ (Mem.write_wf _ _ _ canon)

theorem closeFlush_records (cause h : Nat) (canon : Memory.wf s.mem.cells = true) {i z : Nat} (left : s.diary.copied ≤ i)
    (listed : i < (flushRange s.diary.written h).2) (within : z < 64) :
    ((s.closeFlush cause h).mem.read (spillAt s.diary.slot + 64 + 64 * i) 64).getD z 0 =
      (tget [] s.diary.recs (((flushRange s.diary.written h).1 + i) % 65536)).getD z 0 := by
  have length : (lastHeader s cause h).length = 64 := length_spillHeader _ _ _ _ _ _
  obtain ⟨j, rfl⟩ := Nat.exists_eq_add_of_le left
  rw [read_getD _ _ within, (closeFlush_accessed cause h).cells, Mem.write_other _ _ _ _ (Mem.write_wf _ _ _ canon) (by omega)]
  exact write_recordBytes canon (by omega) within

theorem closeFlush_alert (cause h : Nat) : (s.closeFlush cause h).boot.alert.getLsbD 2 = true := alertBit_set 2 (by decide)

theorem closeFlush_intStatus (cause h : Nat) {f : Nat} (listed : f < 4) (on : s.enabled f = true) :
    ((s.closeFlush cause h).func f).intStatus.getLsbD 5 = true := by
  have funcs (t : State) : (t.alertBit 2).func f = t.func f := by rw [State.func, State.alertBit, State.setHot_funcs, State.func]
  rw [State.closeFlush, funcs]
  refine interruptAll_intStatus listed ?_ (by decide)
  rw [State.enabled]
  dsimp only
  rw [(putMem_keeps _ _).boot rfl, State.copyRecords, State.setCopied, (putMem_keeps _ _).boot rfl]
  exact on

/-- Settles O47: a flush by its beginning, by what each ACLK copies while the rest of the ACLK leaves it, and by its end. -/
theorem diaryFlushes : Obligations.DiaryFlushes := by
  intro s clock runs d
  refine ⟨fun cause listed hbm => ⟨fun idle => ?starts, fun busy alone => ?waits⟩, fun cause unlisted => execDiaryFlush_unlisted unlisted,
    fun t hbm last early => execDiaryFlush_gap clock runs hbm last early, fun idle => ?idle, fun cause h busy hbm => ?tick,
    fun cause h busy last noSeq canon => ?ends⟩
  case starts =>
    obtain ⟨busy, accessed⟩ := startFlush_idle cause idle
    obtain ⟨slot, number, recs, head⟩ := startFlush_idle_diary (cause := cause) idle
    exact ⟨_, execDiaryFlush_starts clock runs listed hbm, busy, slot, number, recs, head, accessed.cells⟩
  case waits => exact (execDiaryFlush_starts clock runs listed hbm).trans (congrArg _ (startFlush_waits busy alone))
  case idle =>
    dsimp only [exec]
    rw [execDiaryFlushComplete, idle]
    rfl
  case tick =>
    obtain ⟨copied, still⟩ := tick_flush_diary busy hbm
    exact ⟨_, when'_true clock, copied, still, fun canon ops i z below within => tick_flush_records busy hbm canon ops below within⟩
  case ends =>
    exact ⟨_, execDiaryFlushComplete_last busy last clock noSeq, closeFlush_copied cause h,
      (closeFlush_header cause h canon).trans (lastHeader_eq cause h),
      fun i z left listed within _ => closeFlush_records cause h canon left listed within,
      fun f listed on => closeFlush_intStatus cause h listed on,
      closeFlush_alert cause h, (closeFlush_keeps cause h).fab rfl⟩

end Sys2Proof.Proofs
end
